-- ==== Sys2Proof/Word.lean ====
section
/-!
DEFINITION. The words of the XNL-24 and their plainest arithmetic (R11, R58).
-/

namespace Sys2Proof

/-- A 64-bit register or memory word. -/
abbrev Word := BitVec 64

/-- A 32-bit lane, register-space word or instruction word. -/
abbrev Lane := BitVec 32

/-- The smallest addressable unit (R11). -/
abbrev Byte := BitVec 8

/-- 1 for true, 0 for false. -/
def Word.ofBool (b : Bool) : Word := if b then 1 else 0

end Sys2Proof
end

