-- ==== Sys2Proof/Config.lean ====
section
/-!
DEFINITION. What the part fixes, and the free values of the model: constants with no body for values the spec does
not state (log 9). Nothing can evaluate them, so a statement about one holds for every value.
-/

namespace Sys2Proof.Config

/-- FREE VALUE (log 9). The lane an elementary function writes where the model's interval evaluation has not
separated the exact value from a rounding boundary within its fuel; the argument is the operand's bits. -/
opaque freeLane : Nat → Lane

/-- FEATURE of a full XNL-24 (R5, R7): CDIES 24, HDIES 4, ROUTE, LAT2, FPORTS 36. PRESUMED as the part (log 5). -/
def featureXnl24 : Word := BitVec.ofNat 64 (24 + 4 * 2 ^ 5 + 2 ^ 8 + 2 ^ 9 + 36 * 2 ^ 16)

/-- FEATURE of an XNL-24E (R5): no route units, no LAT2 decoders. -/
def featureXnl24E : Word := BitVec.ofNat 64 (24 + 4 * 2 ^ 5 + 36 * 2 ^ 16)

/-- FEATURE of an XNL-12 (R5). -/
def featureXnl12 : Word := BitVec.ofNat 64 (12 + 2 * 2 ^ 5 + 2 ^ 8 + 2 ^ 9 + 18 * 2 ^ 16)

/-- Precision steps tried by the interval evaluation of the elementary functions (log 9). -/
def fuel : Nat := 12

/-- FREE VALUE (log 9). The alternate that a router compares with the minimal path; the argument is the request. -/
opaque freePath : Nat → Nat

/-- FREE VALUE (log 9). What the host reads where nothing answers; the argument is the address. -/
opaque freeHost : Nat → Word

/-- FREE VALUE (log 9). Whether a launch queue that software has left undefined (R294) is served; the arguments are the queue
and the clk. -/
opaque freeServes : Nat → Nat → Bool

/-- FREE VALUE (log 9). The words of a packet of such a queue; the arguments are the queue, the packet's index and the word. -/
opaque freePacket : Nat → Nat → Nat → Word

/-- FREE VALUE (log 15). Nibble i after the last one of a group's encoding in its scale slot; the arguments are the scale
bytes of the group and i. -/
opaque freeNibble : List Nat → Nat → Nat

end Sys2Proof.Config
end

