-- ==== Sys2Proof/Syntax.lean ====
section
/-!
DEFINITION. The syntax of the XNL-24: one constructor of `Instr` for each row of spec/opcode_table.json.
A row is a control-core instruction with its prefixes (R58, R61-R66), an engine word (R70), or an event,
a step of the hardware that no word encodes (spec/95_what_each_step_holds.md).
Field names are the letters of the table; the docstring of a constructor is the row's mnemonic and rule.
-/

namespace Sys2Proof

/-- An immediate of format I (n = 16) or a displacement of format B (n = 21), with the 26 bits an XIMM prefix
puts above it (R61, R63); `hi = none` is an instruction without the prefix. -/
structure Imm (n : Nat) where
  lo : BitVec n
  hi : Option (BitVec 26)
  deriving DecidableEq, Repr

/-- The fields of an ORD prefix (R64): order, scope, failure order. -/
structure Ord where
  order : BitVec 2
  scope : BitVec 3
  ford  : BitVec 2
  deriving DecidableEq, Repr

/-- The memory operand of format M (R62): base register, mode, modulo register, space, the nine bits off[8:0]
(for VLD and VST off[8] is bit 5 of the vector register number), and the XIMM bits. -/
structure MemArg where
  base : BitVec 5
  mode : BitVec 2
  mreg : BitVec 3
  sp   : BitVec 2
  off  : BitVec 9
  hi   : Option (BitVec 26)
  deriving DecidableEq, Repr

/-- One constructor per row of spec/opcode_table.json: the rows with operands in the table's order, then those without
(Lean's compiler allows constructors with fields only the first places of a long inductive). -/
inductive Instr where
  /-- ADD (R78) -/
  | add (d : BitVec 5) (a : BitVec 5) (b : BitVec 5) (x : Bool) (y : Bool)
  /-- SUB (R78) -/
  | sub (d : BitVec 5) (a : BitVec 5) (b : BitVec 5) (x : Bool) (y : Bool)
  /-- AND (R78) -/
  | and (d : BitVec 5) (a : BitVec 5) (b : BitVec 5) (x : Bool) (y : Bool)
  /-- OR (R78) -/
  | or (d : BitVec 5) (a : BitVec 5) (b : BitVec 5) (x : Bool) (y : Bool)
  /-- XOR (R78) -/
  | xor (d : BitVec 5) (a : BitVec 5) (b : BitVec 5) (x : Bool) (y : Bool)
  /-- ANDN (R78) -/
  | andn (d : BitVec 5) (a : BitVec 5) (b : BitVec 5) (x : Bool) (y : Bool)
  /-- SHL (R78) -/
  | shl (d : BitVec 5) (a : BitVec 5) (b : BitVec 5) (x : Bool) (y : Bool)
  /-- SHR (R78) -/
  | shr (d : BitVec 5) (a : BitVec 5) (b : BitVec 5) (x : Bool) (y : Bool)
  /-- SAR (R78) -/
  | sar (d : BitVec 5) (a : BitVec 5) (b : BitVec 5) (x : Bool) (y : Bool)
  /-- MUL (R78) -/
  | mul (d : BitVec 5) (a : BitVec 5) (b : BitVec 5) (x : Bool) (y : Bool)
  /-- MULH (R78) -/
  | mulh (d : BitVec 5) (a : BitVec 5) (b : BitVec 5) (x : Bool) (y : Bool)
  /-- MULHU (R78) -/
  | mulhu (d : BitVec 5) (a : BitVec 5) (b : BitVec 5) (x : Bool) (y : Bool)
  /-- DIV (R79) -/
  | div (d : BitVec 5) (a : BitVec 5) (b : BitVec 5) (x : Bool) (y : Bool)
  /-- DIVU (R79) -/
  | divu (d : BitVec 5) (a : BitVec 5) (b : BitVec 5) (x : Bool) (y : Bool)
  /-- REM (R79) -/
  | rem (d : BitVec 5) (a : BitVec 5) (b : BitVec 5) (x : Bool) (y : Bool)
  /-- REMU (R79) -/
  | remu (d : BitVec 5) (a : BitVec 5) (b : BitVec 5) (x : Bool) (y : Bool)
  /-- MIN (R78) -/
  | min (d : BitVec 5) (a : BitVec 5) (b : BitVec 5) (x : Bool) (y : Bool)
  /-- MAX (R78) -/
  | max (d : BitVec 5) (a : BitVec 5) (b : BitVec 5) (x : Bool) (y : Bool)
  /-- MINU (R78) -/
  | minu (d : BitVec 5) (a : BitVec 5) (b : BitVec 5) (x : Bool) (y : Bool)
  /-- MAXU (R78) -/
  | maxu (d : BitVec 5) (a : BitVec 5) (b : BitVec 5) (x : Bool) (y : Bool)
  /-- CEQ (R83) -/
  | ceq (d : BitVec 5) (a : BitVec 5) (b : BitVec 5) (x : Bool) (y : Bool)
  /-- CNE (R83) -/
  | cne (d : BitVec 5) (a : BitVec 5) (b : BitVec 5) (x : Bool) (y : Bool)
  /-- CLT (R83) -/
  | clt (d : BitVec 5) (a : BitVec 5) (b : BitVec 5) (x : Bool) (y : Bool)
  /-- CLTU (R83) -/
  | cltu (d : BitVec 5) (a : BitVec 5) (b : BitVec 5) (x : Bool) (y : Bool)
  /-- CLE (R83) -/
  | cle (d : BitVec 5) (a : BitVec 5) (b : BitVec 5) (x : Bool) (y : Bool)
  /-- CLEU (R83) -/
  | cleu (d : BitVec 5) (a : BitVec 5) (b : BitVec 5) (x : Bool) (y : Bool)
  /-- SEL (R83) -/
  | sel (d : BitVec 5) (a : BitVec 5) (b : BitVec 5) (x : Bool) (y : Bool)
  /-- POPC (R84) -/
  | popc (d : BitVec 5) (a : BitVec 5) (x : Bool)
  /-- CLZ (R84) -/
  | clz (d : BitVec 5) (a : BitVec 5) (x : Bool)
  /-- CTZ (R84) -/
  | ctz (d : BitVec 5) (a : BitVec 5) (x : Bool)
  /-- RANK (R85) -/
  | rank (d : BitVec 5) (a : BitVec 5) (b : BitVec 5) (x : Bool) (y : Bool)
  /-- SELECT (R85) -/
  | select (d : BitVec 5) (a : BitVec 5) (b : BitVec 5) (x : Bool) (y : Bool)
  /-- SEXT (R84) -/
  | sext (d : BitVec 5) (a : BitVec 5) (b : BitVec 5) (x : Bool) (y : Bool)
  /-- BEXT (R84) -/
  | bext (d : BitVec 5) (a : BitVec 5) (b : BitVec 5) (x : Bool) (y : Bool)
  /-- BREV (R84) -/
  | brev (d : BitVec 5) (a : BitVec 5) (x : Bool)
  /-- ADDI (R80) -/
  | addi (d : BitVec 5) (a : BitVec 5) (i : Imm 16)
  /-- ANDI (R80) -/
  | andi (d : BitVec 5) (a : BitVec 5) (i : Imm 16)
  /-- ORI (R80) -/
  | ori (d : BitVec 5) (a : BitVec 5) (i : Imm 16)
  /-- XORI (R80) -/
  | xori (d : BitVec 5) (a : BitVec 5) (i : Imm 16)
  /-- SHLI (R81) -/
  | shli (d : BitVec 5) (a : BitVec 5) (n : BitVec 6)
  /-- SHRI (R81) -/
  | shri (d : BitVec 5) (a : BitVec 5) (n : BitVec 6)
  /-- SARI (R81) -/
  | sari (d : BitVec 5) (a : BitVec 5) (n : BitVec 6)
  /-- SLTI (R80) -/
  | slti (d : BitVec 5) (a : BitVec 5) (i : Imm 16)
  /-- SLTIU (R80) -/
  | sltiu (d : BitVec 5) (a : BitVec 5) (i : Imm 16)
  /-- ADDPC (R82) -/
  | addpc (d : BitVec 5) (i : Imm 16)
  /-- MULI (R80) -/
  | muli (d : BitVec 5) (a : BitVec 5) (i : Imm 16)
  /-- J (R86) -/
  | j (p : Imm 21)
  /-- CALL (R86) -/
  | call (p : Imm 21)
  /-- BEZ (R86) -/
  | bez (a : BitVec 5) (p : Imm 21)
  /-- BNZ (R86) -/
  | bnz (a : BitVec 5) (p : Imm 21)
  /-- BLTZ (R86) -/
  | bltz (a : BitVec 5) (p : Imm 21)
  /-- BKNONE (R87) -/
  | bknone (p : Imm 21)
  /-- BKANY (R87) -/
  | bkany (p : Imm 21)
  /-- BKALL (R87) -/
  | bkall (p : Imm 21)
  /-- LOOP (R86) -/
  | loop (a : BitVec 5) (p : Imm 21)
  /-- JR (R88) -/
  | jr (a : BitVec 5) (x : Bool)
  /-- CALLR (R88) -/
  | callr (a : BitVec 5) (x : Bool)
  /-- CSRR (R100) -/
  | csrr (d : BitVec 5) (c : BitVec 12)
  /-- CSRW (R100) -/
  | csrw (d : BitVec 5) (a : BitVec 5) (c : BitVec 12)
  /-- CSRS (R100) -/
  | csrs (d : BitVec 5) (a : BitVec 5) (c : BitVec 12)
  /-- CSRC (R100) -/
  | csrc (d : BitVec 5) (a : BitVec 5) (c : BitVec 12)
  /-- CSRX (R100) -/
  | csrx (d : BitVec 5) (a : BitVec 5) (c : BitVec 12)
  /-- ZSET (R93) -/
  | zset (d : BitVec 5) (a : BitVec 5) (x : Bool)
  /-- ZSET_W (R93) -/
  | zsetW (d : BitVec 5) (a : BitVec 5) (x : Bool)
  /-- ZGET (R93) -/
  | zget (d : BitVec 5) (a : BitVec 5)
  /-- ZPEND (R93) -/
  | zpend (d : BitVec 5) (a : BitVec 5)
  /-- LD (R108) -/
  | ld (d : BitVec 5) (m : MemArg) (od : Option Ord)
  /-- LDW (R108) -/
  | ldw (d : BitVec 5) (m : MemArg) (od : Option Ord)
  /-- ST (R108) -/
  | st (d : BitVec 5) (m : MemArg) (od : Option Ord)
  /-- STW (R108) -/
  | stw (d : BitVec 5) (m : MemArg) (od : Option Ord)
  /-- VLD (R109) -/
  | vld (d : BitVec 5) (m : MemArg) (od : Option Ord)
  /-- VST (R109) -/
  | vst (d : BitVec 5) (m : MemArg) (od : Option Ord)
  /-- OQLD (R112) -/
  | oqld (d : BitVec 5) (m : MemArg) (od : Option Ord)
  /-- AADD (R114) -/
  | aadd (d : BitVec 5) (a : BitVec 5) (b : BitVec 5) (x : Bool) (y : Bool) (od : Option Ord)
  /-- AAND (R114) -/
  | aand (d : BitVec 5) (a : BitVec 5) (b : BitVec 5) (x : Bool) (y : Bool) (od : Option Ord)
  /-- AOR (R114) -/
  | aor (d : BitVec 5) (a : BitVec 5) (b : BitVec 5) (x : Bool) (y : Bool) (od : Option Ord)
  /-- AXOR (R114) -/
  | axor (d : BitVec 5) (a : BitVec 5) (b : BitVec 5) (x : Bool) (y : Bool) (od : Option Ord)
  /-- AMIN (R114) -/
  | amin (d : BitVec 5) (a : BitVec 5) (b : BitVec 5) (x : Bool) (y : Bool) (od : Option Ord)
  /-- AMAX (R114) -/
  | amax (d : BitVec 5) (a : BitVec 5) (b : BitVec 5) (x : Bool) (y : Bool) (od : Option Ord)
  /-- AMINU (R114) -/
  | aminu (d : BitVec 5) (a : BitVec 5) (b : BitVec 5) (x : Bool) (y : Bool) (od : Option Ord)
  /-- AMAXU (R114) -/
  | amaxu (d : BitVec 5) (a : BitVec 5) (b : BitVec 5) (x : Bool) (y : Bool) (od : Option Ord)
  /-- ASWAP (R114) -/
  | aswap (d : BitVec 5) (a : BitVec 5) (b : BitVec 5) (x : Bool) (y : Bool) (od : Option Ord)
  /-- AADD_W (R114) -/
  | aaddW (d : BitVec 5) (a : BitVec 5) (b : BitVec 5) (x : Bool) (y : Bool) (od : Option Ord)
  /-- AAND_W (R114) -/
  | aandW (d : BitVec 5) (a : BitVec 5) (b : BitVec 5) (x : Bool) (y : Bool) (od : Option Ord)
  /-- AOR_W (R114) -/
  | aorW (d : BitVec 5) (a : BitVec 5) (b : BitVec 5) (x : Bool) (y : Bool) (od : Option Ord)
  /-- AXOR_W (R114) -/
  | axorW (d : BitVec 5) (a : BitVec 5) (b : BitVec 5) (x : Bool) (y : Bool) (od : Option Ord)
  /-- AMIN_W (R114) -/
  | aminW (d : BitVec 5) (a : BitVec 5) (b : BitVec 5) (x : Bool) (y : Bool) (od : Option Ord)
  /-- AMAX_W (R114) -/
  | amaxW (d : BitVec 5) (a : BitVec 5) (b : BitVec 5) (x : Bool) (y : Bool) (od : Option Ord)
  /-- AMINU_W (R114) -/
  | aminuW (d : BitVec 5) (a : BitVec 5) (b : BitVec 5) (x : Bool) (y : Bool) (od : Option Ord)
  /-- AMAXU_W (R114) -/
  | amaxuW (d : BitVec 5) (a : BitVec 5) (b : BitVec 5) (x : Bool) (y : Bool) (od : Option Ord)
  /-- ASWAP_W (R114) -/
  | aswapW (d : BitVec 5) (a : BitVec 5) (b : BitVec 5) (x : Bool) (y : Bool) (od : Option Ord)
  /-- AFADD_W (R114) -/
  | afaddW (d : BitVec 5) (a : BitVec 5) (b : BitVec 5) (x : Bool) (y : Bool) (od : Option Ord)
  /-- CAS (R115) -/
  | cas (d : BitVec 5) (a : BitVec 5) (b : BitVec 5) (x : Bool) (y : Bool) (od : Option Ord)
  /-- CAS_W (R115) -/
  | casW (d : BitVec 5) (a : BitVec 5) (b : BitVec 5) (x : Bool) (y : Bool) (od : Option Ord)
  /-- VPUSH (R117) -/
  | vpush (d : BitVec 5) (a : BitVec 5) (b : BitVec 5) (x : Bool) (y : Bool) (od : Option Ord)
  /-- VPOP (R117) -/
  | vpop (d : BitVec 5) (a : BitVec 5) (x : Bool) (od : Option Ord)
  /-- VPOPNB (R117) -/
  | vpopnb (d : BitVec 5) (a : BitVec 5) (b : BitVec 5) (x : Bool) (od : Option Ord)
  /-- RCSNAP (R120) -/
  | rcsnap (d : BitVec 5) (a : BitVec 5) (x : Bool) (od : Option Ord)
  /-- RCREAD (R120) -/
  | rcread (d : BitVec 5) (a : BitVec 5) (b : BitVec 5) (x : Bool) (y : Bool) (od : Option Ord)
  /-- TNEW (R121) -/
  | tnew (a : BitVec 5) (b : BitVec 5) (x : Bool) (y : Bool)
  /-- TFREE (R121) -/
  | tfree (a : BitVec 5) (x : Bool)
  /-- TSTATE (R121) -/
  | tstate (d : BitVec 5) (a : BitVec 5) (x : Bool)
  /-- TSETRDY (R233) -/
  | tsetrdy (a : BitVec 5) (x : Bool)
  /-- TWAIT (R121) -/
  | twait (a : BitVec 5) (b : BitVec 5) (x : Bool) (y : Bool)
  /-- RGSET (R122) -/
  | rgset (n : BitVec 5) (b : BitVec 5) (y : Bool)
  /-- RWFILL (R122) -/
  | rwfill (d : BitVec 5) (n : BitVec 5)
  /-- RWFREE (R122) -/
  | rwfree (d : BitVec 5) (n : BitVec 5)
  /-- RCLAIM (R122) -/
  | rclaim (d : BitVec 5) (n : BitVec 5) (s : BitVec 5)
  /-- RRELEASE (R122) -/
  | rrelease (n : BitVec 5) (s : BitVec 5)
  /-- ABUMP (R123) -/
  | abump (d : BitVec 5) (s : BitVec 5) (b : BitVec 5) (y : Bool)
  /-- AMARK (R123) -/
  | amark (d : BitVec 5) (s : BitVec 5)
  /-- ARELMARK (R123) -/
  | arelmark (s : BitVec 5) (b : BitVec 5) (y : Bool)
  /-- ARING (R123) -/
  | aring (d : BitVec 5) (s : BitVec 5) (b : BitVec 5) (y : Bool)
  /-- AFREE (R123) -/
  | afree (s : BitVec 5) (b : BitVec 5) (y : Bool)
  /-- ASTATE (R123) -/
  | astate (d : BitVec 5) (s : BitVec 5) (w : BitVec 5)
  /-- FENCE (R126) -/
  | fence (od : Option Ord)
  /-- BARARR (R127) -/
  | bararr (d : BitVec 5) (n : BitVec 5) (od : Option Ord)
  /-- BARWAIT (R127) -/
  | barwait (n : BitVec 5) (b : BitVec 5) (y : Bool) (od : Option Ord)
  /-- BARSYNC (R127) -/
  | barsync (n : BitVec 5) (od : Option Ord)
  /-- LEND (R128) -/
  | lend (k : BitVec 5) (s : BitVec 5)
  /-- LATLD (R129) -/
  | latld (a : BitVec 5) (s : BitVec 5) (x : Bool)
  /-- QADD (R124) -/
  | qadd (a : BitVec 5) (n : BitVec 6)
  /-- QREAD (R124) -/
  | qread (d : BitVec 5) (n : BitVec 6)
  /-- QWAIT (R124) -/
  | qwait (a : BitVec 5) (n : BitVec 6)
  /-- QTERM (R215) -/
  | qterm (a : BitVec 5) (t : BitVec 4)
  /-- VFADD (R138) -/
  | vfadd (d : BitVec 6) (a : BitVec 6) (b : BitVec 6) (x : Bool) (y : Bool) (l : BitVec 2)
  /-- VFSUB (R138) -/
  | vfsub (d : BitVec 6) (a : BitVec 6) (b : BitVec 6) (x : Bool) (y : Bool) (l : BitVec 2)
  /-- VFMUL (R138) -/
  | vfmul (d : BitVec 6) (a : BitVec 6) (b : BitVec 6) (x : Bool) (y : Bool) (l : BitVec 2)
  /-- VFMA (R138) -/
  | vfma (d : BitVec 6) (a : BitVec 6) (b : BitVec 6) (x : Bool) (y : Bool) (l : BitVec 2)
  /-- VFMS (R138) -/
  | vfms (d : BitVec 6) (a : BitVec 6) (b : BitVec 6) (x : Bool) (y : Bool) (l : BitVec 2)
  /-- VFNMA (R138) -/
  | vfnma (d : BitVec 6) (a : BitVec 6) (b : BitVec 6) (x : Bool) (y : Bool) (l : BitVec 2)
  /-- VFMIN (R138) -/
  | vfmin (d : BitVec 6) (a : BitVec 6) (b : BitVec 6) (x : Bool) (y : Bool) (l : BitVec 2)
  /-- VFMAX (R138) -/
  | vfmax (d : BitVec 6) (a : BitVec 6) (b : BitVec 6) (x : Bool) (y : Bool) (l : BitVec 2)
  /-- VFABS (R138) -/
  | vfabs (d : BitVec 6) (a : BitVec 6) (x : Bool) (l : BitVec 2)
  /-- VFNEG (R138) -/
  | vfneg (d : BitVec 6) (a : BitVec 6) (x : Bool) (l : BitVec 2)
  /-- VBADD (R139) -/
  | vbadd (d : BitVec 6) (a : BitVec 6) (b : BitVec 6) (x : Bool) (y : Bool) (l : BitVec 2)
  /-- VBSUB (R139) -/
  | vbsub (d : BitVec 6) (a : BitVec 6) (b : BitVec 6) (x : Bool) (y : Bool) (l : BitVec 2)
  /-- VBMUL (R139) -/
  | vbmul (d : BitVec 6) (a : BitVec 6) (b : BitVec 6) (x : Bool) (y : Bool) (l : BitVec 2)
  /-- VBFMA (R139) -/
  | vbfma (d : BitVec 6) (a : BitVec 6) (b : BitVec 6) (x : Bool) (y : Bool) (l : BitVec 2)
  /-- VBMIN (R139) -/
  | vbmin (d : BitVec 6) (a : BitVec 6) (b : BitVec 6) (x : Bool) (y : Bool) (l : BitVec 2)
  /-- VBMAX (R139) -/
  | vbmax (d : BitVec 6) (a : BitVec 6) (b : BitVec 6) (x : Bool) (y : Bool) (l : BitVec 2)
  /-- VIADD (R140) -/
  | viadd (d : BitVec 6) (a : BitVec 6) (b : BitVec 6) (x : Bool) (y : Bool) (l : BitVec 2)
  /-- VISUB (R140) -/
  | visub (d : BitVec 6) (a : BitVec 6) (b : BitVec 6) (x : Bool) (y : Bool) (l : BitVec 2)
  /-- VIMUL (R140) -/
  | vimul (d : BitVec 6) (a : BitVec 6) (b : BitVec 6) (x : Bool) (y : Bool) (l : BitVec 2)
  /-- VIMULH (R140) -/
  | vimulh (d : BitVec 6) (a : BitVec 6) (b : BitVec 6) (x : Bool) (y : Bool) (l : BitVec 2)
  /-- VIMIN (R140) -/
  | vimin (d : BitVec 6) (a : BitVec 6) (b : BitVec 6) (x : Bool) (y : Bool) (l : BitVec 2)
  /-- VIMAX (R140) -/
  | vimax (d : BitVec 6) (a : BitVec 6) (b : BitVec 6) (x : Bool) (y : Bool) (l : BitVec 2)
  /-- VIMINU (R140) -/
  | viminu (d : BitVec 6) (a : BitVec 6) (b : BitVec 6) (x : Bool) (y : Bool) (l : BitVec 2)
  /-- VIMAXU (R140) -/
  | vimaxu (d : BitVec 6) (a : BitVec 6) (b : BitVec 6) (x : Bool) (y : Bool) (l : BitVec 2)
  /-- VIABS (R140) -/
  | viabs (d : BitVec 6) (a : BitVec 6) (x : Bool) (l : BitVec 2)
  /-- VIADDS (R140) -/
  | viadds (d : BitVec 6) (a : BitVec 6) (b : BitVec 6) (x : Bool) (y : Bool) (l : BitVec 2)
  /-- VISUBS (R140) -/
  | visubs (d : BitVec 6) (a : BitVec 6) (b : BitVec 6) (x : Bool) (y : Bool) (l : BitVec 2)
  /-- VAND (R141) -/
  | vand (d : BitVec 6) (a : BitVec 6) (b : BitVec 6) (x : Bool) (y : Bool) (l : BitVec 2)
  /-- VOR (R141) -/
  | vor (d : BitVec 6) (a : BitVec 6) (b : BitVec 6) (x : Bool) (y : Bool) (l : BitVec 2)
  /-- VXOR (R141) -/
  | vxor (d : BitVec 6) (a : BitVec 6) (b : BitVec 6) (x : Bool) (y : Bool) (l : BitVec 2)
  /-- VANDN (R141) -/
  | vandn (d : BitVec 6) (a : BitVec 6) (b : BitVec 6) (x : Bool) (y : Bool) (l : BitVec 2)
  /-- VSHL (R141) -/
  | vshl (d : BitVec 6) (a : BitVec 6) (b : BitVec 6) (x : Bool) (y : Bool) (l : BitVec 2)
  /-- VSHR (R141) -/
  | vshr (d : BitVec 6) (a : BitVec 6) (b : BitVec 6) (x : Bool) (y : Bool) (l : BitVec 2)
  /-- VSAR (R141) -/
  | vsar (d : BitVec 6) (a : BitVec 6) (b : BitVec 6) (x : Bool) (y : Bool) (l : BitVec 2)
  /-- VNOT (R141) -/
  | vnot (d : BitVec 6) (a : BitVec 6) (x : Bool) (l : BitVec 2)
  /-- VPOPC (R141) -/
  | vpopc (d : BitVec 6) (a : BitVec 6) (x : Bool) (l : BitVec 2)
  /-- VCLZ (R141) -/
  | vclz (d : BitVec 6) (a : BitVec 6) (x : Bool) (l : BitVec 2)
  /-- FRCP (R142) -/
  | frcp (d : BitVec 6) (a : BitVec 6) (x : Bool) (l : BitVec 2)
  /-- FRSQ (R142) -/
  | frsq (d : BitVec 6) (a : BitVec 6) (x : Bool) (l : BitVec 2)
  /-- FEXP2 (R142) -/
  | fexp2 (d : BitVec 6) (a : BitVec 6) (x : Bool) (l : BitVec 2)
  /-- FLOG2 (R142) -/
  | flog2 (d : BitVec 6) (a : BitVec 6) (x : Bool) (l : BitVec 2)
  /-- VCVTFH (R144) -/
  | vcvtfh (d : BitVec 6) (a : BitVec 6) (f : Bool) (m : BitVec 3) (x : Bool) (l : BitVec 2)
  /-- VCVTHF (R144) -/
  | vcvthf (d : BitVec 6) (a : BitVec 6) (f : Bool) (m : BitVec 3) (x : Bool) (l : BitVec 2)
  /-- VCVTFS (R144) -/
  | vcvtfs (d : BitVec 6) (a : BitVec 6) (f : Bool) (m : BitVec 3) (x : Bool) (l : BitVec 2)
  /-- VCVTSF (R144) -/
  | vcvtsf (d : BitVec 6) (a : BitVec 6) (f : Bool) (m : BitVec 3) (x : Bool) (l : BitVec 2)
  /-- VCVTFI (R144) -/
  | vcvtfi (d : BitVec 6) (a : BitVec 6) (f : Bool) (m : BitVec 3) (x : Bool) (l : BitVec 2)
  /-- VCVTIF (R144) -/
  | vcvtif (d : BitVec 6) (a : BitVec 6) (f : Bool) (m : BitVec 3) (x : Bool) (l : BitVec 2)
  /-- VCVTFU (R144) -/
  | vcvtfu (d : BitVec 6) (a : BitVec 6) (f : Bool) (m : BitVec 3) (x : Bool) (l : BitVec 2)
  /-- VCVTUF (R144) -/
  | vcvtuf (d : BitVec 6) (a : BitVec 6) (f : Bool) (m : BitVec 3) (x : Bool) (l : BitVec 2)
  /-- VRND (R144) -/
  | vrnd (d : BitVec 6) (a : BitVec 6) (f : Bool) (m : BitVec 3) (x : Bool) (l : BitVec 2)
  /-- VFCEQ (R145) -/
  | vfceq (d : BitVec 6) (a : BitVec 6) (b : BitVec 6) (x : Bool) (y : Bool) (l : BitVec 2)
  /-- VFCLT (R145) -/
  | vfclt (d : BitVec 6) (a : BitVec 6) (b : BitVec 6) (x : Bool) (y : Bool) (l : BitVec 2)
  /-- VFCLE (R145) -/
  | vfcle (d : BitVec 6) (a : BitVec 6) (b : BitVec 6) (x : Bool) (y : Bool) (l : BitVec 2)
  /-- VICEQ (R145) -/
  | viceq (d : BitVec 6) (a : BitVec 6) (b : BitVec 6) (x : Bool) (y : Bool) (l : BitVec 2)
  /-- VICLT (R145) -/
  | viclt (d : BitVec 6) (a : BitVec 6) (b : BitVec 6) (x : Bool) (y : Bool) (l : BitVec 2)
  /-- VICLTU (R145) -/
  | vicltu (d : BitVec 6) (a : BitVec 6) (b : BitVec 6) (x : Bool) (y : Bool) (l : BitVec 2)
  /-- MPUSH (R146) -/
  | mpush (a : BitVec 6) (x : Bool) (l : BitVec 2)
  /-- MINV (R146) -/
  | minv (l : BitVec 2)
  /-- MPOP (R146) -/
  | mpop (l : BitVec 2)
  /-- VFRSUM (R148) -/
  | vfrsum (d : BitVec 6) (a : BitVec 6) (x : Bool) (l : BitVec 2)
  /-- VFRMAX (R147) -/
  | vfrmax (d : BitVec 6) (a : BitVec 6) (x : Bool) (l : BitVec 2)
  /-- VFRMIN (R147) -/
  | vfrmin (d : BitVec 6) (a : BitVec 6) (x : Bool) (l : BitVec 2)
  /-- VIRSUM (R147) -/
  | virsum (d : BitVec 6) (a : BitVec 6) (x : Bool) (l : BitVec 2)
  /-- VIRMAX (R147) -/
  | virmax (d : BitVec 6) (a : BitVec 6) (x : Bool) (l : BitVec 2)
  /-- VIRMIN (R147) -/
  | virmin (d : BitVec 6) (a : BitVec 6) (x : Bool) (l : BitVec 2)
  /-- VRAND (R147) -/
  | vrand (d : BitVec 6) (a : BitVec 6) (x : Bool) (l : BitVec 2)
  /-- VROR (R147) -/
  | vror (d : BitVec 6) (a : BitVec 6) (x : Bool) (l : BitVec 2)
  /-- VPERM (R149) -/
  | vperm (d : BitVec 6) (a : BitVec 6) (b : BitVec 6) (x : Bool) (y : Bool) (l : BitVec 2)
  /-- VBCAST (R149) -/
  | vbcast (d : BitVec 6) (a : BitVec 6) (n : BitVec 6) (x : Bool) (l : BitVec 2)
  /-- VROT (R149) -/
  | vrot (d : BitVec 6) (a : BitVec 6) (n : BitVec 6) (x : Bool) (l : BitVec 2)
  /-- VSLUP (R149) -/
  | vslup (d : BitVec 6) (a : BitVec 6) (n : BitVec 6) (x : Bool) (l : BitVec 2)
  /-- VSLDN (R149) -/
  | vsldn (d : BitVec 6) (a : BitVec 6) (n : BitVec 6) (x : Bool) (l : BitVec 2)
  /-- VZIP (R149) -/
  | vzip (d : BitVec 6) (a : BitVec 6) (b : BitVec 6) (x : Bool) (y : Bool) (l : BitVec 2)
  /-- VUNZIP (R149) -/
  | vunzip (d : BitVec 6) (a : BitVec 6) (b : BitVec 6) (x : Bool) (y : Bool) (l : BitVec 2)
  /-- VCOMPRESS (R149) -/
  | vcompress (d : BitVec 6) (a : BitVec 6) (b : BitVec 6) (x : Bool) (y : Bool) (l : BitVec 2)
  /-- VEXPAND (R149) -/
  | vexpand (d : BitVec 6) (a : BitVec 6) (b : BitVec 6) (x : Bool) (y : Bool) (l : BitVec 2)
  /-- VMOV (R150) -/
  | vmov (d : BitVec 6) (a : BitVec 6) (x : Bool) (l : BitVec 2)
  /-- VSPLAT (R150) -/
  | vsplat (d : BitVec 6) (g : BitVec 6) (x : Bool) (l : BitVec 2)
  /-- VINS (R150) -/
  | vins (d : BitVec 6) (g : BitVec 6) (n : BitVec 6) (x : Bool) (l : BitVec 2)
  /-- VEXT (R150) -/
  | vext (g : BitVec 6) (a : BitVec 6) (n : BitVec 6) (x : Bool) (l : BitVec 2)
  /-- VIOTA (R150) -/
  | viota (d : BitVec 6) (l : BitVec 2)
  /-- VSEL (R150) -/
  | vsel (d : BitVec 6) (a : BitVec 6) (b : BitVec 6) (x : Bool) (y : Bool) (l : BitVec 2)
  /-- VMASKRD (R150) -/
  | vmaskrd (g : BitVec 6) (l : BitVec 2)
  /-- VMASKWR (R146) -/
  | vmaskwr (g : BitVec 6) (x : Bool) (l : BitVec 2)
  /-- ENQW (R69) -/
  | enqw (q : BitVec 5) (w : BitVec 16)
  /-- ENQG (R69) -/
  | enqg (q : BitVec 5) (n : BitVec 2) (a : BitVec 5)
  /-- ENQM (R69) -/
  | enqm (q : BitVec 5) (n : BitVec 5) (s : BitVec 2) (a : BitVec 5)
  /-- TMARK (R101) -/
  | tmark (a : BitVec 5) (x : Bool)
  /-- ACCRD (R102) -/
  | accrd (d : BitVec 5) (a : BitVec 5) (x : Bool)
  /-- ENRGRD (R102) -/
  | enrgrd (d : BitVec 5) (a : BitVec 5) (x : Bool)
  /-- LIT (R70) -/
  | lit (v : BitVec 15)
  /-- EXT (R70) -/
  | ext (v : BitVec 13)
  /-- ESHL (R162) -/
  | eshl (n : BitVec 8)
  /-- ZPUSH (R163) -/
  | zpush (z : BitVec 8)
  /-- MPASS (R165) -/
  | mpass (g : Bool) (f : Bool) (z : Bool) (b : BitVec 2) (a : BitVec 2)
  /-- MPASSSEG (R169) -/
  | mpassseg (g : Bool) (f : Bool) (z : Bool) (b : BitVec 2) (a : BitVec 2)
  /-- MPASSGRP (R170) -/
  | mpassgrp (z : Bool) (b : BitVec 2) (a : BitVec 2)
  /-- MDRAIN (R171) -/
  | mdrain (c : Bool) (d : Bool) (m : BitVec 2)
  /-- CCOPY (R175) -/
  | ccopy (f : Bool) (c : Bool) (r : BitVec 3) (m : BitVec 2)
  /-- CGATHER (R177) -/
  | cgather (c : Bool) (m : BitVec 2)
  /-- XWRITE (R181) -/
  | xwrite (f : Bool)
  /-- XCOLL (R182) -/
  | xcoll (r : Bool)
  /-- GATE (R188) -/
  | gate (t : BitVec 4)
  /-- QGATE (R188) -/
  | qgate (n : BitVec 6)
  /-- SIGNAL (R187) -/
  | signal (n : BitVec 6)
  /-- CAPSTART (R189) -/
  | capstart (s : BitVec 3)
  /-- CAPSTOP (R189) -/
  | capstop (s : BitVec 3)
  /-- END (R91) -/
  | endI
  /-- NOP (R90) -/
  | nop
  /-- SYSCALL (R95) -/
  | syscall
  /-- RETT (R203) -/
  | rett
  /-- IEN (R98) -/
  | ien
  /-- IDIS (R98) -/
  | idis
  /-- WFI (R99) -/
  | wfi
  /-- BRK (R101) -/
  | brk
  /-- DUP (R162) -/
  | dup
  /-- DROP (R162) -/
  | drop
  /-- SWAP (R162) -/
  | swap
  /-- OVER (R162) -/
  | overI
  /-- EADD (R162) -/
  | eadd
  /-- ESUB (R162) -/
  | esub
  /-- EMUL (R162) -/
  | emul
  /-- EOR (R162) -/
  | eor
  /-- MZERO (R172) -/
  | mzero
  /-- CFILL (R178) -/
  | cfill
  /-- CHINT (R179) -/
  | chint
  /-- XREAD (R181) -/
  | xread
  /-- XROUTE (R183) -/
  | xroute
  /-- XRLINV (R184) -/
  | xrlinv
  /-- CONTROL_NOP (R185) -/
  | controlNop
  /-- FENCEQ (R186) -/
  | fenceq
  /-- MARK (R185) -/
  | mark
  /-- RESULT_LANDS (R192) -/
  | resultLands
  /-- STORE_LOAD_DATA_ARRIVAL (R193) -/
  | storeLoadDataArrival
  /-- LONG_LATENCY_RETURN (R50) -/
  | longLatencyReturn
  /-- VAT_REPLY (R118) -/
  | vatReply
  /-- TRAP_ENTRY (R201) -/
  | trapEntry
  /-- INTERRUPT_ENTRY (R200) -/
  | interruptEntry
  /-- TIMER_EXPIRY (R97) -/
  | timerExpiry
  /-- TMRCNT_WRITE (R97) -/
  | tmrcntWrite
  /-- BANKBIND_WRITE (R49) -/
  | bankbindWrite
  /-- FXDATA (R204) -/
  | fxdata
  /-- CAPDATA (R344) -/
  | capdata
  /-- CAPCLR (R344) -/
  | capclr
  /-- CUEIRQ_CLEAR (R218) -/
  | cueirqClear
  /-- QCMD_RESUME (R158) -/
  | qcmdResume
  /-- QCMD_DISCARD (R158) -/
  | qcmdDiscard
  /-- QCMD_RESET (R158) -/
  | qcmdReset
  /-- XINV_PAGE (R325) -/
  | xinvPage
  /-- XINV_ASID (R325) -/
  | xinvAsid
  /-- XINV_ALL (R325) -/
  | xinvAll
  /-- WATCHPOINT_CHANGE (R379) -/
  | watchpointChange
  /-- WARPOP (R371) -/
  | warpop
  /-- REGISTER_WRITE (R100) -/
  | registerWrite
  /-- MATRIX_CHUNK (R238) -/
  | matrixChunk
  /-- ENTRY_COMPLETION (R154) -/
  | entryCompletion
  /-- CHAINED_ENTRY_START (R176) -/
  | chainedEntryStart
  /-- COPY_TURN (R224) -/
  | copyTurn
  /-- TRANSFER_CHUNK (R224) -/
  | transferChunk
  /-- SIGNAL_COMPLETION (R187) -/
  | signalCompletion
  /-- CONTROL_ENTRY_COMPLETION (R185) -/
  | controlEntryCompletion
  /-- DEFERRED_READINESS (R233) -/
  | deferredReadiness
  /-- CUE_TERM_EVALUATION (R216) -/
  | cueTermEvaluation
  /-- XCOLL_FIRING (R286) -/
  | xcollFiring
  /-- POSTING (R276) -/
  | posting
  /-- CONTRIBUTION_ARRIVAL (R280) -/
  | contributionArrival
  /-- RECEPTION_CUE_INCREMENT (R277) -/
  | receptionCueIncrement
  /-- BACK_PRESSURE_RELEASE (R280) -/
  | backPressureRelease
  /-- ROUTE_ROW_SCORED (R290) -/
  | routeRowScored
  /-- WRITE_APPLIED_AT_HOME (R256) -/
  | writeAppliedAtHome
  /-- READ_ANSWERED_AT_HOME (R256) -/
  | readAnsweredAtHome
  /-- FRONTIER_SEND (R256) -/
  | frontierSend
  /-- VAT_HOME_OPERATION (R117) -/
  | vatHomeOperation
  /-- VAT_ARRIVAL_AT_PAIRING_POINT (R264) -/
  | vatArrivalAtPairingPoint
  /-- PAIRING_WINDOW_EXPIRY (R266) -/
  | pairingWindowExpiry
  /-- CLOCK_RENORMALISATION (R395) -/
  | clockRenormalisation
  /-- PAGE_WALK (R324) -/
  | pageWalk
  /-- NOTIFY (R295) -/
  | notify
  /-- REMOTE_NOTIFY (R300) -/
  | remoteNotify
  /-- MAPPER_RUN (R301) -/
  | mapperRun
  /-- PACKET_READ (R297) -/
  | packetRead
  /-- TROUPE_PLACEMENT (R309) -/
  | troupePlacement
  /-- TICK_EDGE (R302) -/
  | tickEdge
  /-- DEADLINE_EXPIRY (R305) -/
  | deadlineExpiry
  /-- WATCHDOG_EXPIRY (R299) -/
  | watchdogExpiry
  /-- CELL_COMPLETION (R221) -/
  | cellCompletion
  /-- SCENE_COMPLETION (R298) -/
  | sceneCompletion
  /-- PREEMPT (R334) -/
  | preempt
  /-- HARD_STOP (R336) -/
  | hardStop
  /-- CONTEXT_SAVE (R337) -/
  | contextSave
  /-- CONTEXT_RESTORE (R338) -/
  | contextRestore
  /-- DEBUGHALT (R372) -/
  | debughalt
  /-- STOP (R374) -/
  | stop
  /-- WATCH_REPORT_ENTRY (R371) -/
  | watchReportEntry
  /-- SAMPLE (R366) -/
  | sample
  /-- FABRIC_REFUSAL_ARRIVES (R329) -/
  | fabricRefusalArrives
  /-- INGRESS_REQUEST_ARRIVAL (R355) -/
  | ingressRequestArrival
  /-- FLIT_ARBITRATION (R357) -/
  | flitArbitration
  /-- LINK_RETRY (R391) -/
  | linkRetry
  /-- LINK_DOWN (R391) -/
  | linkDown
  /-- LINK_RETIREMENT (R391) -/
  | linkRetirement
  /-- ROUTING_TABLE_REWRITE (R391) -/
  | routingTableRewrite
  /-- HOST_WRITE (R361) -/
  | hostWrite
  /-- HOST_READ (R361) -/
  | hostRead
  /-- SCRUB_STEP (R384) -/
  | scrubStep
  /-- CELL_RETIREMENT (R393) -/
  | cellRetirement
  /-- APERTURE (R407) -/
  | aperture
  /-- QTABLE (R407) -/
  | qtable
  /-- CAP (R407) -/
  | cap
  /-- TICKPER (R407) -/
  | tickper
  /-- HALT (R407) -/
  | halt
  /-- RESUME (R375) -/
  | resume
  /-- WARMRESET (R405) -/
  | warmreset
  /-- COLD_RESET (R405) -/
  | coldReset
  /-- LINK_RESET (R405) -/
  | linkReset
  /-- BRING_UP_PHASE (R406) -/
  | bringUpPhase
  /-- JUNCTION_SENSOR_READ (R403) -/
  | junctionSensorRead
  /-- THERMAL_TRIP (R403) -/
  | thermalTrip
  /-- POWER_CAP_STEP (R401) -/
  | powerCapStep
  /-- RATIO_CHANGE (R399) -/
  | ratioChange
  /-- WRITE_ACKNOWLEDGED (R359) -/
  | writeAcknowledged
  /-- OPERAND_QUEUE_ROW_LANDS (R112) -/
  | operandQueueRowLands
  deriving DecidableEq, Repr

/-- The ORD prefix a unit carries (R64). -/
def Instr.ord : Instr → Option Ord
  | .add _ _ _ _ _ => none
  | .sub _ _ _ _ _ => none
  | .and _ _ _ _ _ => none
  | .or _ _ _ _ _ => none
  | .xor _ _ _ _ _ => none
  | .andn _ _ _ _ _ => none
  | .shl _ _ _ _ _ => none
  | .shr _ _ _ _ _ => none
  | .sar _ _ _ _ _ => none
  | .mul _ _ _ _ _ => none
  | .mulh _ _ _ _ _ => none
  | .mulhu _ _ _ _ _ => none
  | .div _ _ _ _ _ => none
  | .divu _ _ _ _ _ => none
  | .rem _ _ _ _ _ => none
  | .remu _ _ _ _ _ => none
  | .min _ _ _ _ _ => none
  | .max _ _ _ _ _ => none
  | .minu _ _ _ _ _ => none
  | .maxu _ _ _ _ _ => none
  | .ceq _ _ _ _ _ => none
  | .cne _ _ _ _ _ => none
  | .clt _ _ _ _ _ => none
  | .cltu _ _ _ _ _ => none
  | .cle _ _ _ _ _ => none
  | .cleu _ _ _ _ _ => none
  | .sel _ _ _ _ _ => none
  | .popc _ _ _ => none
  | .clz _ _ _ => none
  | .ctz _ _ _ => none
  | .rank _ _ _ _ _ => none
  | .select _ _ _ _ _ => none
  | .sext _ _ _ _ _ => none
  | .bext _ _ _ _ _ => none
  | .brev _ _ _ => none
  | .addi _ _ _ => none
  | .andi _ _ _ => none
  | .ori _ _ _ => none
  | .xori _ _ _ => none
  | .shli _ _ _ => none
  | .shri _ _ _ => none
  | .sari _ _ _ => none
  | .slti _ _ _ => none
  | .sltiu _ _ _ => none
  | .addpc _ _ => none
  | .muli _ _ _ => none
  | .j _ => none
  | .call _ => none
  | .bez _ _ => none
  | .bnz _ _ => none
  | .bltz _ _ => none
  | .bknone _ => none
  | .bkany _ => none
  | .bkall _ => none
  | .loop _ _ => none
  | .jr _ _ => none
  | .callr _ _ => none
  | .csrr _ _ => none
  | .csrw _ _ _ => none
  | .csrs _ _ _ => none
  | .csrc _ _ _ => none
  | .csrx _ _ _ => none
  | .zset _ _ _ => none
  | .zsetW _ _ _ => none
  | .zget _ _ => none
  | .zpend _ _ => none
  | .ld _ _ od => od
  | .ldw _ _ od => od
  | .st _ _ od => od
  | .stw _ _ od => od
  | .vld _ _ od => od
  | .vst _ _ od => od
  | .oqld _ _ od => od
  | .aadd _ _ _ _ _ od => od
  | .aand _ _ _ _ _ od => od
  | .aor _ _ _ _ _ od => od
  | .axor _ _ _ _ _ od => od
  | .amin _ _ _ _ _ od => od
  | .amax _ _ _ _ _ od => od
  | .aminu _ _ _ _ _ od => od
  | .amaxu _ _ _ _ _ od => od
  | .aswap _ _ _ _ _ od => od
  | .aaddW _ _ _ _ _ od => od
  | .aandW _ _ _ _ _ od => od
  | .aorW _ _ _ _ _ od => od
  | .axorW _ _ _ _ _ od => od
  | .aminW _ _ _ _ _ od => od
  | .amaxW _ _ _ _ _ od => od
  | .aminuW _ _ _ _ _ od => od
  | .amaxuW _ _ _ _ _ od => od
  | .aswapW _ _ _ _ _ od => od
  | .afaddW _ _ _ _ _ od => od
  | .cas _ _ _ _ _ od => od
  | .casW _ _ _ _ _ od => od
  | .vpush _ _ _ _ _ od => od
  | .vpop _ _ _ od => od
  | .vpopnb _ _ _ _ od => od
  | .rcsnap _ _ _ od => od
  | .rcread _ _ _ _ _ od => od
  | .tnew _ _ _ _ => none
  | .tfree _ _ => none
  | .tstate _ _ _ => none
  | .tsetrdy _ _ => none
  | .twait _ _ _ _ => none
  | .rgset _ _ _ => none
  | .rwfill _ _ => none
  | .rwfree _ _ => none
  | .rclaim _ _ _ => none
  | .rrelease _ _ => none
  | .abump _ _ _ _ => none
  | .amark _ _ => none
  | .arelmark _ _ _ => none
  | .aring _ _ _ _ => none
  | .afree _ _ _ => none
  | .astate _ _ _ => none
  | .fence od => od
  | .bararr _ _ od => od
  | .barwait _ _ _ od => od
  | .barsync _ od => od
  | .lend _ _ => none
  | .latld _ _ _ => none
  | .qadd _ _ => none
  | .qread _ _ => none
  | .qwait _ _ => none
  | .qterm _ _ => none
  | .vfadd _ _ _ _ _ _ => none
  | .vfsub _ _ _ _ _ _ => none
  | .vfmul _ _ _ _ _ _ => none
  | .vfma _ _ _ _ _ _ => none
  | .vfms _ _ _ _ _ _ => none
  | .vfnma _ _ _ _ _ _ => none
  | .vfmin _ _ _ _ _ _ => none
  | .vfmax _ _ _ _ _ _ => none
  | .vfabs _ _ _ _ => none
  | .vfneg _ _ _ _ => none
  | .vbadd _ _ _ _ _ _ => none
  | .vbsub _ _ _ _ _ _ => none
  | .vbmul _ _ _ _ _ _ => none
  | .vbfma _ _ _ _ _ _ => none
  | .vbmin _ _ _ _ _ _ => none
  | .vbmax _ _ _ _ _ _ => none
  | .viadd _ _ _ _ _ _ => none
  | .visub _ _ _ _ _ _ => none
  | .vimul _ _ _ _ _ _ => none
  | .vimulh _ _ _ _ _ _ => none
  | .vimin _ _ _ _ _ _ => none
  | .vimax _ _ _ _ _ _ => none
  | .viminu _ _ _ _ _ _ => none
  | .vimaxu _ _ _ _ _ _ => none
  | .viabs _ _ _ _ => none
  | .viadds _ _ _ _ _ _ => none
  | .visubs _ _ _ _ _ _ => none
  | .vand _ _ _ _ _ _ => none
  | .vor _ _ _ _ _ _ => none
  | .vxor _ _ _ _ _ _ => none
  | .vandn _ _ _ _ _ _ => none
  | .vshl _ _ _ _ _ _ => none
  | .vshr _ _ _ _ _ _ => none
  | .vsar _ _ _ _ _ _ => none
  | .vnot _ _ _ _ => none
  | .vpopc _ _ _ _ => none
  | .vclz _ _ _ _ => none
  | .frcp _ _ _ _ => none
  | .frsq _ _ _ _ => none
  | .fexp2 _ _ _ _ => none
  | .flog2 _ _ _ _ => none
  | .vcvtfh _ _ _ _ _ _ => none
  | .vcvthf _ _ _ _ _ _ => none
  | .vcvtfs _ _ _ _ _ _ => none
  | .vcvtsf _ _ _ _ _ _ => none
  | .vcvtfi _ _ _ _ _ _ => none
  | .vcvtif _ _ _ _ _ _ => none
  | .vcvtfu _ _ _ _ _ _ => none
  | .vcvtuf _ _ _ _ _ _ => none
  | .vrnd _ _ _ _ _ _ => none
  | .vfceq _ _ _ _ _ _ => none
  | .vfclt _ _ _ _ _ _ => none
  | .vfcle _ _ _ _ _ _ => none
  | .viceq _ _ _ _ _ _ => none
  | .viclt _ _ _ _ _ _ => none
  | .vicltu _ _ _ _ _ _ => none
  | .mpush _ _ _ => none
  | .minv _ => none
  | .mpop _ => none
  | .vfrsum _ _ _ _ => none
  | .vfrmax _ _ _ _ => none
  | .vfrmin _ _ _ _ => none
  | .virsum _ _ _ _ => none
  | .virmax _ _ _ _ => none
  | .virmin _ _ _ _ => none
  | .vrand _ _ _ _ => none
  | .vror _ _ _ _ => none
  | .vperm _ _ _ _ _ _ => none
  | .vbcast _ _ _ _ _ => none
  | .vrot _ _ _ _ _ => none
  | .vslup _ _ _ _ _ => none
  | .vsldn _ _ _ _ _ => none
  | .vzip _ _ _ _ _ _ => none
  | .vunzip _ _ _ _ _ _ => none
  | .vcompress _ _ _ _ _ _ => none
  | .vexpand _ _ _ _ _ _ => none
  | .vmov _ _ _ _ => none
  | .vsplat _ _ _ _ => none
  | .vins _ _ _ _ _ => none
  | .vext _ _ _ _ _ => none
  | .viota _ _ => none
  | .vsel _ _ _ _ _ _ => none
  | .vmaskrd _ _ => none
  | .vmaskwr _ _ _ => none
  | .enqw _ _ => none
  | .enqg _ _ _ => none
  | .enqm _ _ _ _ => none
  | .tmark _ _ => none
  | .accrd _ _ _ => none
  | .enrgrd _ _ _ => none
  | .lit _ => none
  | .ext _ => none
  | .eshl _ => none
  | .zpush _ => none
  | .mpass _ _ _ _ _ => none
  | .mpassseg _ _ _ _ _ => none
  | .mpassgrp _ _ _ => none
  | .mdrain _ _ _ => none
  | .ccopy _ _ _ _ => none
  | .cgather _ _ => none
  | .xwrite _ => none
  | .xcoll _ => none
  | .gate _ => none
  | .qgate _ => none
  | .signal _ => none
  | .capstart _ => none
  | .capstop _ => none
  | .endI => none
  | .nop => none
  | .syscall => none
  | .rett => none
  | .ien => none
  | .idis => none
  | .wfi => none
  | .brk => none
  | .dup => none
  | .drop => none
  | .swap => none
  | .overI => none
  | .eadd => none
  | .esub => none
  | .emul => none
  | .eor => none
  | .mzero => none
  | .cfill => none
  | .chint => none
  | .xread => none
  | .xroute => none
  | .xrlinv => none
  | .controlNop => none
  | .fenceq => none
  | .mark => none
  | .resultLands => none
  | .storeLoadDataArrival => none
  | .longLatencyReturn => none
  | .vatReply => none
  | .trapEntry => none
  | .interruptEntry => none
  | .timerExpiry => none
  | .tmrcntWrite => none
  | .bankbindWrite => none
  | .fxdata => none
  | .capdata => none
  | .capclr => none
  | .cueirqClear => none
  | .qcmdResume => none
  | .qcmdDiscard => none
  | .qcmdReset => none
  | .xinvPage => none
  | .xinvAsid => none
  | .xinvAll => none
  | .watchpointChange => none
  | .warpop => none
  | .registerWrite => none
  | .matrixChunk => none
  | .entryCompletion => none
  | .chainedEntryStart => none
  | .copyTurn => none
  | .transferChunk => none
  | .signalCompletion => none
  | .controlEntryCompletion => none
  | .deferredReadiness => none
  | .cueTermEvaluation => none
  | .xcollFiring => none
  | .posting => none
  | .contributionArrival => none
  | .receptionCueIncrement => none
  | .backPressureRelease => none
  | .routeRowScored => none
  | .writeAppliedAtHome => none
  | .readAnsweredAtHome => none
  | .frontierSend => none
  | .vatHomeOperation => none
  | .vatArrivalAtPairingPoint => none
  | .pairingWindowExpiry => none
  | .clockRenormalisation => none
  | .pageWalk => none
  | .notify => none
  | .remoteNotify => none
  | .mapperRun => none
  | .packetRead => none
  | .troupePlacement => none
  | .tickEdge => none
  | .deadlineExpiry => none
  | .watchdogExpiry => none
  | .cellCompletion => none
  | .sceneCompletion => none
  | .preempt => none
  | .hardStop => none
  | .contextSave => none
  | .contextRestore => none
  | .debughalt => none
  | .stop => none
  | .watchReportEntry => none
  | .sample => none
  | .fabricRefusalArrives => none
  | .ingressRequestArrival => none
  | .flitArbitration => none
  | .linkRetry => none
  | .linkDown => none
  | .linkRetirement => none
  | .routingTableRewrite => none
  | .hostWrite => none
  | .hostRead => none
  | .scrubStep => none
  | .cellRetirement => none
  | .aperture => none
  | .qtable => none
  | .cap => none
  | .tickper => none
  | .halt => none
  | .resume => none
  | .warmreset => none
  | .coldReset => none
  | .linkReset => none
  | .bringUpPhase => none
  | .junctionSensorRead => none
  | .thermalTrip => none
  | .powerCapStep => none
  | .ratioChange => none
  | .writeAcknowledged => none
  | .operandQueueRowLands => none

/-- The XIMM bits a unit carries (R63). -/
def Instr.ximm : Instr → Option (BitVec 26)
  | .add _ _ _ _ _ => none
  | .sub _ _ _ _ _ => none
  | .and _ _ _ _ _ => none
  | .or _ _ _ _ _ => none
  | .xor _ _ _ _ _ => none
  | .andn _ _ _ _ _ => none
  | .shl _ _ _ _ _ => none
  | .shr _ _ _ _ _ => none
  | .sar _ _ _ _ _ => none
  | .mul _ _ _ _ _ => none
  | .mulh _ _ _ _ _ => none
  | .mulhu _ _ _ _ _ => none
  | .div _ _ _ _ _ => none
  | .divu _ _ _ _ _ => none
  | .rem _ _ _ _ _ => none
  | .remu _ _ _ _ _ => none
  | .min _ _ _ _ _ => none
  | .max _ _ _ _ _ => none
  | .minu _ _ _ _ _ => none
  | .maxu _ _ _ _ _ => none
  | .ceq _ _ _ _ _ => none
  | .cne _ _ _ _ _ => none
  | .clt _ _ _ _ _ => none
  | .cltu _ _ _ _ _ => none
  | .cle _ _ _ _ _ => none
  | .cleu _ _ _ _ _ => none
  | .sel _ _ _ _ _ => none
  | .popc _ _ _ => none
  | .clz _ _ _ => none
  | .ctz _ _ _ => none
  | .rank _ _ _ _ _ => none
  | .select _ _ _ _ _ => none
  | .sext _ _ _ _ _ => none
  | .bext _ _ _ _ _ => none
  | .brev _ _ _ => none
  | .addi _ _ i => i.hi
  | .andi _ _ i => i.hi
  | .ori _ _ i => i.hi
  | .xori _ _ i => i.hi
  | .shli _ _ _ => none
  | .shri _ _ _ => none
  | .sari _ _ _ => none
  | .slti _ _ i => i.hi
  | .sltiu _ _ i => i.hi
  | .addpc _ i => i.hi
  | .muli _ _ i => i.hi
  | .j p => p.hi
  | .call p => p.hi
  | .bez _ p => p.hi
  | .bnz _ p => p.hi
  | .bltz _ p => p.hi
  | .bknone p => p.hi
  | .bkany p => p.hi
  | .bkall p => p.hi
  | .loop _ p => p.hi
  | .jr _ _ => none
  | .callr _ _ => none
  | .csrr _ _ => none
  | .csrw _ _ _ => none
  | .csrs _ _ _ => none
  | .csrc _ _ _ => none
  | .csrx _ _ _ => none
  | .zset _ _ _ => none
  | .zsetW _ _ _ => none
  | .zget _ _ => none
  | .zpend _ _ => none
  | .ld _ m _ => m.hi
  | .ldw _ m _ => m.hi
  | .st _ m _ => m.hi
  | .stw _ m _ => m.hi
  | .vld _ m _ => m.hi
  | .vst _ m _ => m.hi
  | .oqld _ m _ => m.hi
  | .aadd _ _ _ _ _ _ => none
  | .aand _ _ _ _ _ _ => none
  | .aor _ _ _ _ _ _ => none
  | .axor _ _ _ _ _ _ => none
  | .amin _ _ _ _ _ _ => none
  | .amax _ _ _ _ _ _ => none
  | .aminu _ _ _ _ _ _ => none
  | .amaxu _ _ _ _ _ _ => none
  | .aswap _ _ _ _ _ _ => none
  | .aaddW _ _ _ _ _ _ => none
  | .aandW _ _ _ _ _ _ => none
  | .aorW _ _ _ _ _ _ => none
  | .axorW _ _ _ _ _ _ => none
  | .aminW _ _ _ _ _ _ => none
  | .amaxW _ _ _ _ _ _ => none
  | .aminuW _ _ _ _ _ _ => none
  | .amaxuW _ _ _ _ _ _ => none
  | .aswapW _ _ _ _ _ _ => none
  | .afaddW _ _ _ _ _ _ => none
  | .cas _ _ _ _ _ _ => none
  | .casW _ _ _ _ _ _ => none
  | .vpush _ _ _ _ _ _ => none
  | .vpop _ _ _ _ => none
  | .vpopnb _ _ _ _ _ => none
  | .rcsnap _ _ _ _ => none
  | .rcread _ _ _ _ _ _ => none
  | .tnew _ _ _ _ => none
  | .tfree _ _ => none
  | .tstate _ _ _ => none
  | .tsetrdy _ _ => none
  | .twait _ _ _ _ => none
  | .rgset _ _ _ => none
  | .rwfill _ _ => none
  | .rwfree _ _ => none
  | .rclaim _ _ _ => none
  | .rrelease _ _ => none
  | .abump _ _ _ _ => none
  | .amark _ _ => none
  | .arelmark _ _ _ => none
  | .aring _ _ _ _ => none
  | .afree _ _ _ => none
  | .astate _ _ _ => none
  | .fence _ => none
  | .bararr _ _ _ => none
  | .barwait _ _ _ _ => none
  | .barsync _ _ => none
  | .lend _ _ => none
  | .latld _ _ _ => none
  | .qadd _ _ => none
  | .qread _ _ => none
  | .qwait _ _ => none
  | .qterm _ _ => none
  | .vfadd _ _ _ _ _ _ => none
  | .vfsub _ _ _ _ _ _ => none
  | .vfmul _ _ _ _ _ _ => none
  | .vfma _ _ _ _ _ _ => none
  | .vfms _ _ _ _ _ _ => none
  | .vfnma _ _ _ _ _ _ => none
  | .vfmin _ _ _ _ _ _ => none
  | .vfmax _ _ _ _ _ _ => none
  | .vfabs _ _ _ _ => none
  | .vfneg _ _ _ _ => none
  | .vbadd _ _ _ _ _ _ => none
  | .vbsub _ _ _ _ _ _ => none
  | .vbmul _ _ _ _ _ _ => none
  | .vbfma _ _ _ _ _ _ => none
  | .vbmin _ _ _ _ _ _ => none
  | .vbmax _ _ _ _ _ _ => none
  | .viadd _ _ _ _ _ _ => none
  | .visub _ _ _ _ _ _ => none
  | .vimul _ _ _ _ _ _ => none
  | .vimulh _ _ _ _ _ _ => none
  | .vimin _ _ _ _ _ _ => none
  | .vimax _ _ _ _ _ _ => none
  | .viminu _ _ _ _ _ _ => none
  | .vimaxu _ _ _ _ _ _ => none
  | .viabs _ _ _ _ => none
  | .viadds _ _ _ _ _ _ => none
  | .visubs _ _ _ _ _ _ => none
  | .vand _ _ _ _ _ _ => none
  | .vor _ _ _ _ _ _ => none
  | .vxor _ _ _ _ _ _ => none
  | .vandn _ _ _ _ _ _ => none
  | .vshl _ _ _ _ _ _ => none
  | .vshr _ _ _ _ _ _ => none
  | .vsar _ _ _ _ _ _ => none
  | .vnot _ _ _ _ => none
  | .vpopc _ _ _ _ => none
  | .vclz _ _ _ _ => none
  | .frcp _ _ _ _ => none
  | .frsq _ _ _ _ => none
  | .fexp2 _ _ _ _ => none
  | .flog2 _ _ _ _ => none
  | .vcvtfh _ _ _ _ _ _ => none
  | .vcvthf _ _ _ _ _ _ => none
  | .vcvtfs _ _ _ _ _ _ => none
  | .vcvtsf _ _ _ _ _ _ => none
  | .vcvtfi _ _ _ _ _ _ => none
  | .vcvtif _ _ _ _ _ _ => none
  | .vcvtfu _ _ _ _ _ _ => none
  | .vcvtuf _ _ _ _ _ _ => none
  | .vrnd _ _ _ _ _ _ => none
  | .vfceq _ _ _ _ _ _ => none
  | .vfclt _ _ _ _ _ _ => none
  | .vfcle _ _ _ _ _ _ => none
  | .viceq _ _ _ _ _ _ => none
  | .viclt _ _ _ _ _ _ => none
  | .vicltu _ _ _ _ _ _ => none
  | .mpush _ _ _ => none
  | .minv _ => none
  | .mpop _ => none
  | .vfrsum _ _ _ _ => none
  | .vfrmax _ _ _ _ => none
  | .vfrmin _ _ _ _ => none
  | .virsum _ _ _ _ => none
  | .virmax _ _ _ _ => none
  | .virmin _ _ _ _ => none
  | .vrand _ _ _ _ => none
  | .vror _ _ _ _ => none
  | .vperm _ _ _ _ _ _ => none
  | .vbcast _ _ _ _ _ => none
  | .vrot _ _ _ _ _ => none
  | .vslup _ _ _ _ _ => none
  | .vsldn _ _ _ _ _ => none
  | .vzip _ _ _ _ _ _ => none
  | .vunzip _ _ _ _ _ _ => none
  | .vcompress _ _ _ _ _ _ => none
  | .vexpand _ _ _ _ _ _ => none
  | .vmov _ _ _ _ => none
  | .vsplat _ _ _ _ => none
  | .vins _ _ _ _ _ => none
  | .vext _ _ _ _ _ => none
  | .viota _ _ => none
  | .vsel _ _ _ _ _ _ => none
  | .vmaskrd _ _ => none
  | .vmaskwr _ _ _ => none
  | .enqw _ _ => none
  | .enqg _ _ _ => none
  | .enqm _ _ _ _ => none
  | .tmark _ _ => none
  | .accrd _ _ _ => none
  | .enrgrd _ _ _ => none
  | .lit _ => none
  | .ext _ => none
  | .eshl _ => none
  | .zpush _ => none
  | .mpass _ _ _ _ _ => none
  | .mpassseg _ _ _ _ _ => none
  | .mpassgrp _ _ _ => none
  | .mdrain _ _ _ => none
  | .ccopy _ _ _ _ => none
  | .cgather _ _ => none
  | .xwrite _ => none
  | .xcoll _ => none
  | .gate _ => none
  | .qgate _ => none
  | .signal _ => none
  | .capstart _ => none
  | .capstop _ => none
  | .endI => none
  | .nop => none
  | .syscall => none
  | .rett => none
  | .ien => none
  | .idis => none
  | .wfi => none
  | .brk => none
  | .dup => none
  | .drop => none
  | .swap => none
  | .overI => none
  | .eadd => none
  | .esub => none
  | .emul => none
  | .eor => none
  | .mzero => none
  | .cfill => none
  | .chint => none
  | .xread => none
  | .xroute => none
  | .xrlinv => none
  | .controlNop => none
  | .fenceq => none
  | .mark => none
  | .resultLands => none
  | .storeLoadDataArrival => none
  | .longLatencyReturn => none
  | .vatReply => none
  | .trapEntry => none
  | .interruptEntry => none
  | .timerExpiry => none
  | .tmrcntWrite => none
  | .bankbindWrite => none
  | .fxdata => none
  | .capdata => none
  | .capclr => none
  | .cueirqClear => none
  | .qcmdResume => none
  | .qcmdDiscard => none
  | .qcmdReset => none
  | .xinvPage => none
  | .xinvAsid => none
  | .xinvAll => none
  | .watchpointChange => none
  | .warpop => none
  | .registerWrite => none
  | .matrixChunk => none
  | .entryCompletion => none
  | .chainedEntryStart => none
  | .copyTurn => none
  | .transferChunk => none
  | .signalCompletion => none
  | .controlEntryCompletion => none
  | .deferredReadiness => none
  | .cueTermEvaluation => none
  | .xcollFiring => none
  | .posting => none
  | .contributionArrival => none
  | .receptionCueIncrement => none
  | .backPressureRelease => none
  | .routeRowScored => none
  | .writeAppliedAtHome => none
  | .readAnsweredAtHome => none
  | .frontierSend => none
  | .vatHomeOperation => none
  | .vatArrivalAtPairingPoint => none
  | .pairingWindowExpiry => none
  | .clockRenormalisation => none
  | .pageWalk => none
  | .notify => none
  | .remoteNotify => none
  | .mapperRun => none
  | .packetRead => none
  | .troupePlacement => none
  | .tickEdge => none
  | .deadlineExpiry => none
  | .watchdogExpiry => none
  | .cellCompletion => none
  | .sceneCompletion => none
  | .preempt => none
  | .hardStop => none
  | .contextSave => none
  | .contextRestore => none
  | .debughalt => none
  | .stop => none
  | .watchReportEntry => none
  | .sample => none
  | .fabricRefusalArrives => none
  | .ingressRequestArrival => none
  | .flitArbitration => none
  | .linkRetry => none
  | .linkDown => none
  | .linkRetirement => none
  | .routingTableRewrite => none
  | .hostWrite => none
  | .hostRead => none
  | .scrubStep => none
  | .cellRetirement => none
  | .aperture => none
  | .qtable => none
  | .cap => none
  | .tickper => none
  | .halt => none
  | .resume => none
  | .warmreset => none
  | .coldReset => none
  | .linkReset => none
  | .bringUpPhase => none
  | .junctionSensorRead => none
  | .thermalTrip => none
  | .powerCapStep => none
  | .ratioChange => none
  | .writeAcknowledged => none
  | .operandQueueRowLands => none

/-- The words of a unit: the instruction and its prefixes (R66, R191: w = 1-3). -/
def Instr.words (i : Instr) : Nat :=
  1 + (if i.ximm.isSome then 1 else 0) + (if i.ord.isSome then 1 else 0)

end Sys2Proof
end

