-- ==== Sys2Proof/WellFormed.lean ====
section
/-!
DEFINITION. Which instructions an encoding may hold: the ranges and combinations that R59, R60, R62, R64, R67,
R69 and R105 allow. A word outside them traps with ILLEGAL (R68); the decoder refuses it.
-/

namespace Sys2Proof

/-- An order of R64: its combination is in the table, its scope and failure order are not reserved, and an order
of 0 has scope 0. `orders` and `fords` are the values the instruction's row allows. -/
def ordOk (o : Option Ord) (orders fords : List Nat) : Bool :=
  match o with
  | none => true
  | some o => orders.contains o.order.toNat && fords.contains o.ford.toNat &&
      decide (o.scope.toNat < 5) && !(o.order == 0 && o.scope != 0)

/-- The combinations every operand of format M must avoid (R62, R63): the modulo mode on global memory, a prefix
on the indexed mode, a modulo register outside the modulo mode. -/
def MemArg.okMode (m : MemArg) : Bool :=
  !(m.mode == 2 && m.sp == 3) && !(m.mode == 3 && m.hi.isSome) && !(m.mode != 2 && m.mreg != 0)

/-- LD, LDW, ST, STW: weight store or global memory (R105); off[8] zero in the indexed mode (R62). -/
def MemArg.okScalar (m : MemArg) : Bool :=
  m.okMode && (m.sp == 0 || m.sp == 3) && !(m.mode == 3 && m.off.getLsbD 8)

/-- VLD, VST: every space (R105). -/
def MemArg.okVector (m : MemArg) : Bool := m.okMode

/-- OQLD: weight store, activation store or global memory (R105); off[8] zero in the indexed mode. -/
def MemArg.okQueue (m : MemArg) : Bool :=
  m.okMode && m.sp != 2 && !(m.mode == 3 && m.off.getLsbD 8)

/-- The rounding mode of a conversion (R67, R143): its own mode 0-4 with vb[3] = 1, or zero bits. -/
def convModeOk (f : Bool) (m : BitVec 3) : Bool :=
  if f then decide (m.toNat < 5) else m == 0

/-- The instructions whose encoding no rule rejects (R59, R60, R62, R64, R67, R69, R105). -/
def Instr.wellFormed : Instr → Bool
  | .add _ _ _ _ _ => true
  | .sub _ _ _ _ _ => true
  | .and _ _ _ _ _ => true
  | .or _ _ _ _ _ => true
  | .xor _ _ _ _ _ => true
  | .andn _ _ _ _ _ => true
  | .shl _ _ _ _ _ => true
  | .shr _ _ _ _ _ => true
  | .sar _ _ _ _ _ => true
  | .mul _ _ _ _ _ => true
  | .mulh _ _ _ _ _ => true
  | .mulhu _ _ _ _ _ => true
  | .div _ _ _ _ _ => true
  | .divu _ _ _ _ _ => true
  | .rem _ _ _ _ _ => true
  | .remu _ _ _ _ _ => true
  | .min _ _ _ _ _ => true
  | .max _ _ _ _ _ => true
  | .minu _ _ _ _ _ => true
  | .maxu _ _ _ _ _ => true
  | .ceq _ _ _ _ _ => true
  | .cne _ _ _ _ _ => true
  | .clt _ _ _ _ _ => true
  | .cltu _ _ _ _ _ => true
  | .cle _ _ _ _ _ => true
  | .cleu _ _ _ _ _ => true
  | .sel _ _ _ _ _ => true
  | .popc _ _ _ => true
  | .clz _ _ _ => true
  | .ctz _ _ _ => true
  | .rank _ _ _ _ _ => true
  | .select _ _ _ _ _ => true
  | .sext _ _ _ _ _ => true
  | .bext _ _ _ _ _ => true
  | .brev _ _ _ => true
  | .addi _ _ _ => true
  | .andi _ _ _ => true
  | .ori _ _ _ => true
  | .xori _ _ _ => true
  | .shli _ _ _ => true
  | .shri _ _ _ => true
  | .sari _ _ _ => true
  | .slti _ _ _ => true
  | .sltiu _ _ _ => true
  | .addpc _ _ => true
  | .muli _ _ _ => true
  | .j _ => true
  | .call _ => true
  | .bez _ _ => true
  | .bnz _ _ => true
  | .bltz _ _ => true
  | .bknone _ => true
  | .bkany _ => true
  | .bkall _ => true
  | .loop a _ => decide (a ≠ 0)
  | .jr _ _ => true
  | .callr _ _ => true
  | .csrr _ _ => true
  | .csrw _ _ _ => true
  | .csrs _ _ _ => true
  | .csrc _ _ _ => true
  | .csrx _ _ _ => true
  | .zset d _ _ => decide (d.toNat < 16)
  | .zsetW d _ _ => decide (d.toNat < 16)
  | .zget _ a => decide (a.toNat < 16)
  | .zpend _ a => decide (a.toNat < 16)
  | .ld _ m od => m.okScalar && ordOk od [0, 1] [0]
  | .ldw _ m od => m.okScalar && ordOk od [0, 1] [0]
  | .st _ m od => m.okScalar && ordOk od [0, 2] [0]
  | .stw _ m od => m.okScalar && ordOk od [0, 2] [0]
  | .vld _ m od => m.okVector && ordOk od [0, 1] [0]
  | .vst _ m od => m.okVector && ordOk od [0, 2] [0]
  | .oqld d m od => m.okQueue && decide (d.toNat < 4) && ordOk od [0, 1] [0]
  | .aadd _ _ _ _ _ od => ordOk od [0, 1, 2, 3] [0]
  | .aand _ _ _ _ _ od => ordOk od [0, 1, 2, 3] [0]
  | .aor _ _ _ _ _ od => ordOk od [0, 1, 2, 3] [0]
  | .axor _ _ _ _ _ od => ordOk od [0, 1, 2, 3] [0]
  | .amin _ _ _ _ _ od => ordOk od [0, 1, 2, 3] [0]
  | .amax _ _ _ _ _ od => ordOk od [0, 1, 2, 3] [0]
  | .aminu _ _ _ _ _ od => ordOk od [0, 1, 2, 3] [0]
  | .amaxu _ _ _ _ _ od => ordOk od [0, 1, 2, 3] [0]
  | .aswap _ _ _ _ _ od => ordOk od [0, 1, 2, 3] [0]
  | .aaddW _ _ _ _ _ od => ordOk od [0, 1, 2, 3] [0]
  | .aandW _ _ _ _ _ od => ordOk od [0, 1, 2, 3] [0]
  | .aorW _ _ _ _ _ od => ordOk od [0, 1, 2, 3] [0]
  | .axorW _ _ _ _ _ od => ordOk od [0, 1, 2, 3] [0]
  | .aminW _ _ _ _ _ od => ordOk od [0, 1, 2, 3] [0]
  | .amaxW _ _ _ _ _ od => ordOk od [0, 1, 2, 3] [0]
  | .aminuW _ _ _ _ _ od => ordOk od [0, 1, 2, 3] [0]
  | .amaxuW _ _ _ _ _ od => ordOk od [0, 1, 2, 3] [0]
  | .aswapW _ _ _ _ _ od => ordOk od [0, 1, 2, 3] [0]
  | .afaddW _ _ _ _ _ od => ordOk od [0, 1, 2, 3] [0]
  | .cas _ _ _ _ _ od => ordOk od [0, 1, 2, 3] [0, 1]
  | .casW _ _ _ _ _ od => ordOk od [0, 1, 2, 3] [0, 1]
  | .vpush _ _ _ _ _ od => ordOk od [0, 1, 2, 3] [0]
  | .vpop _ _ _ od => ordOk od [0, 1, 2, 3] [0]
  | .vpopnb _ _ _ _ od => ordOk od [0, 1, 2, 3] [0]
  | .rcsnap _ _ _ od => ordOk od [0, 1, 2, 3] [0]
  | .rcread _ _ _ _ _ od => ordOk od [0, 1, 2, 3] [0]
  | .tnew _ _ _ _ => true
  | .tfree _ _ => true
  | .tstate _ _ _ => true
  | .tsetrdy _ _ => true
  | .twait _ _ _ _ => true
  | .rgset n _ _ => decide (n.toNat < 16)
  | .rwfill _ n => decide (n.toNat < 16)
  | .rwfree _ n => decide (n.toNat < 16)
  | .rclaim _ n s => decide (n.toNat < 16) && decide (s.toNat < 2)
  | .rrelease n s => decide (n.toNat < 16) && decide (s.toNat < 2)
  | .abump _ s _ _ => decide (s.toNat < 3)
  | .amark _ s => decide (s.toNat < 3)
  | .arelmark s _ _ => decide (s.toNat < 3)
  | .aring _ s _ _ => decide (s.toNat < 3)
  | .afree s _ _ => decide (s.toNat < 3)
  | .astate _ s w => decide (s.toNat < 3) && decide (w.toNat < 5)
  | .fence od => ordOk od [0, 1, 2, 3] [0]
  | .bararr _ n od => decide (n.toNat < 16) && ordOk od [0, 1, 2, 3] [0]
  | .barwait n _ _ od => decide (n.toNat < 16) && ordOk od [0, 1, 2, 3] [0]
  | .barsync n od => decide (n.toNat < 16) && ordOk od [0, 1, 2, 3] [0]
  | .lend k s => decide (k.toNat < 12) && decide (s.toNat < 2)
  | .latld _ s _ => decide (s.toNat < 4)
  | .qadd _ _ => true
  | .qread _ _ => true
  | .qwait _ _ => true
  | .qterm _ _ => true
  | .vfadd _ _ _ _ _ _ => true
  | .vfsub _ _ _ _ _ _ => true
  | .vfmul _ _ _ _ _ _ => true
  | .vfma _ _ _ _ _ _ => true
  | .vfms _ _ _ _ _ _ => true
  | .vfnma _ _ _ _ _ _ => true
  | .vfmin _ _ _ _ _ _ => true
  | .vfmax _ _ _ _ _ _ => true
  | .vfabs _ _ _ _ => true
  | .vfneg _ _ _ _ => true
  | .vbadd _ _ _ _ _ _ => true
  | .vbsub _ _ _ _ _ _ => true
  | .vbmul _ _ _ _ _ _ => true
  | .vbfma _ _ _ _ _ _ => true
  | .vbmin _ _ _ _ _ _ => true
  | .vbmax _ _ _ _ _ _ => true
  | .viadd _ _ _ _ _ _ => true
  | .visub _ _ _ _ _ _ => true
  | .vimul _ _ _ _ _ _ => true
  | .vimulh _ _ _ _ _ _ => true
  | .vimin _ _ _ _ _ _ => true
  | .vimax _ _ _ _ _ _ => true
  | .viminu _ _ _ _ _ _ => true
  | .vimaxu _ _ _ _ _ _ => true
  | .viabs _ _ _ _ => true
  | .viadds _ _ _ _ _ _ => true
  | .visubs _ _ _ _ _ _ => true
  | .vand _ _ _ _ _ _ => true
  | .vor _ _ _ _ _ _ => true
  | .vxor _ _ _ _ _ _ => true
  | .vandn _ _ _ _ _ _ => true
  | .vshl _ _ _ _ _ _ => true
  | .vshr _ _ _ _ _ _ => true
  | .vsar _ _ _ _ _ _ => true
  | .vnot _ _ _ _ => true
  | .vpopc _ _ _ _ => true
  | .vclz _ _ _ _ => true
  | .frcp _ _ _ _ => true
  | .frsq _ _ _ _ => true
  | .fexp2 _ _ _ _ => true
  | .flog2 _ _ _ _ => true
  | .vcvtfh _ _ f m _ _ => convModeOk f m
  | .vcvthf _ _ f m _ _ => convModeOk f m
  | .vcvtfs _ _ f m _ _ => convModeOk f m
  | .vcvtsf _ _ f m _ _ => convModeOk f m
  | .vcvtfi _ _ f m _ _ => convModeOk f m
  | .vcvtif _ _ f m _ _ => convModeOk f m
  | .vcvtfu _ _ f m _ _ => convModeOk f m
  | .vcvtuf _ _ f m _ _ => convModeOk f m
  | .vrnd _ _ f m _ _ => convModeOk f m
  | .vfceq _ _ _ _ _ _ => true
  | .vfclt _ _ _ _ _ _ => true
  | .vfcle _ _ _ _ _ _ => true
  | .viceq _ _ _ _ _ _ => true
  | .viclt _ _ _ _ _ _ => true
  | .vicltu _ _ _ _ _ _ => true
  | .mpush _ _ _ => true
  | .minv _ => true
  | .mpop _ => true
  | .vfrsum _ _ _ _ => true
  | .vfrmax _ _ _ _ => true
  | .vfrmin _ _ _ _ => true
  | .virsum _ _ _ _ => true
  | .virmax _ _ _ _ => true
  | .virmin _ _ _ _ => true
  | .vrand _ _ _ _ => true
  | .vror _ _ _ _ => true
  | .vperm _ _ _ _ _ _ => true
  | .vbcast _ _ _ _ _ => true
  | .vrot _ _ _ _ _ => true
  | .vslup _ _ _ _ _ => true
  | .vsldn _ _ _ _ _ => true
  | .vzip _ _ _ _ _ _ => true
  | .vunzip _ _ _ _ _ _ => true
  | .vcompress _ _ _ _ _ _ => true
  | .vexpand _ _ _ _ _ _ => true
  | .vmov _ _ _ _ => true
  | .vsplat _ g _ _ => decide (g.toNat < 32)
  | .vins _ g _ _ _ => decide (g.toNat < 32)
  | .vext g _ _ _ _ => decide (g.toNat < 32)
  | .viota _ _ => true
  | .vsel _ _ _ _ _ _ => true
  | .vmaskrd g _ => decide (g.toNat < 32)
  | .vmaskwr g _ _ => decide (g.toNat < 32)
  | .enqw q _ => decide (q.toNat < 13)
  | .enqg q n a => decide (q.toNat < 13) && !(a == 0 && n != 0)
  | .enqm q _ s _ => decide (q.toNat < 13) && decide (s.toNat < 3)
  | .tmark _ _ => true
  | .accrd _ _ _ => true
  | .enrgrd _ _ _ => true
  | .lit _ => true
  | .ext _ => true
  | .eshl _ => true
  | .zpush _ => true
  | .mpass _ _ _ _ _ => true
  | .mpassseg _ _ _ _ _ => true
  | .mpassgrp _ _ _ => true
  | .mdrain _ _ _ => true
  | .ccopy _ _ _ _ => true
  | .cgather _ _ => true
  | .xwrite _ => true
  | .xcoll _ => true
  | .gate _ => true
  | .qgate _ => true
  | .signal _ => true
  | .capstart _ => true
  | .capstop _ => true
  | .endI => true
  | .nop => true
  | .syscall => true
  | .rett => true
  | .ien => true
  | .idis => true
  | .wfi => true
  | .brk => true
  | .dup => true
  | .drop => true
  | .swap => true
  | .overI => true
  | .eadd => true
  | .esub => true
  | .emul => true
  | .eor => true
  | .mzero => true
  | .cfill => true
  | .chint => true
  | .xread => true
  | .xroute => true
  | .xrlinv => true
  | .controlNop => true
  | .fenceq => true
  | .mark => true
  | .resultLands => true
  | .storeLoadDataArrival => true
  | .longLatencyReturn => true
  | .vatReply => true
  | .trapEntry => true
  | .interruptEntry => true
  | .timerExpiry => true
  | .tmrcntWrite => true
  | .bankbindWrite => true
  | .fxdata => true
  | .capdata => true
  | .capclr => true
  | .cueirqClear => true
  | .qcmdResume => true
  | .qcmdDiscard => true
  | .qcmdReset => true
  | .xinvPage => true
  | .xinvAsid => true
  | .xinvAll => true
  | .watchpointChange => true
  | .warpop => true
  | .registerWrite => true
  | .matrixChunk => true
  | .entryCompletion => true
  | .chainedEntryStart => true
  | .copyTurn => true
  | .transferChunk => true
  | .signalCompletion => true
  | .controlEntryCompletion => true
  | .deferredReadiness => true
  | .cueTermEvaluation => true
  | .xcollFiring => true
  | .posting => true
  | .contributionArrival => true
  | .receptionCueIncrement => true
  | .backPressureRelease => true
  | .routeRowScored => true
  | .writeAppliedAtHome => true
  | .readAnsweredAtHome => true
  | .frontierSend => true
  | .vatHomeOperation => true
  | .vatArrivalAtPairingPoint => true
  | .pairingWindowExpiry => true
  | .clockRenormalisation => true
  | .pageWalk => true
  | .notify => true
  | .remoteNotify => true
  | .mapperRun => true
  | .packetRead => true
  | .troupePlacement => true
  | .tickEdge => true
  | .deadlineExpiry => true
  | .watchdogExpiry => true
  | .cellCompletion => true
  | .sceneCompletion => true
  | .preempt => true
  | .hardStop => true
  | .contextSave => true
  | .contextRestore => true
  | .debughalt => true
  | .stop => true
  | .watchReportEntry => true
  | .sample => true
  | .fabricRefusalArrives => true
  | .ingressRequestArrival => true
  | .flitArbitration => true
  | .linkRetry => true
  | .linkDown => true
  | .linkRetirement => true
  | .routingTableRewrite => true
  | .hostWrite => true
  | .hostRead => true
  | .scrubStep => true
  | .cellRetirement => true
  | .aperture => true
  | .qtable => true
  | .cap => true
  | .tickper => true
  | .halt => true
  | .resume => true
  | .warmreset => true
  | .coldReset => true
  | .linkReset => true
  | .bringUpPhase => true
  | .junctionSensorRead => true
  | .thermalTrip => true
  | .powerCapStep => true
  | .ratioChange => true
  | .writeAcknowledged => true
  | .operandQueueRowLands => true

/-- `WellFormed i`: some encoding of the spec holds `i`. -/
abbrev WellFormed (i : Instr) : Prop := i.wellFormed = true

end Sys2Proof
end

