-- ==== Sys2Proof/Decode.lean ====
section
/-!
DEFINITION. The decoder, total on any words and bytes, and the encoder beside it, both written from the layouts of
R58, R61, R62, R64, R67, R69 (control core) and R70, R162, R165-R185 (engine words). A unit is up to two prefixes
and one instruction (R65). An engine word of class 110 has its meaning from the engine that issues it.
-/

namespace Sys2Proof

/-- The engine whose queue a word stands in (R151). -/
inductive EngineKind where
  /-- queue MQ -/
  | matrix
  /-- queues CQ0-CQ7 -/
  | copy
  /-- queues XQ0-XQ3 -/
  | transfer
  deriving DecidableEq, Repr

/-- The engine of queue field `q` (R69, R151). -/
def EngineKind.ofQueue (q : Nat) : EngineKind :=
  if q = 0 then .matrix else if q < 9 then .copy else .transfer

/-- Bits lo+n-1..lo of a word read as a number. -/
def bits (w lo n : Nat) : Nat := w / 2 ^ lo % 2 ^ n

/-- A field of a word (R58). -/
def fld (w lo n : Nat) : BitVec n := BitVec.ofNat n (bits w lo n)

/-- A one-bit field of a word. -/
def flag (w lo : Nat) : Bool := bits w lo 1 == 1

/-- The memory operand of format M (R58, R62). -/
def memArg (w : Nat) (hi : Option (BitVec 26)) : MemArg :=
  { base := fld w 16 5, mode := fld w 14 2, mreg := fld w 11 3, sp := fld w 9 2, off := fld w 0 9, hi := hi }

/-- The instruction word `w` (below 2^32) under the prefixes in front of it: the row of R67 it belongs to, or none.
An instruction that cannot take a prefix that is present is none (R63-R65); the ranges are checked by `decodeWord`. -/
def decodeRow (w : Nat) (hi : Option (BitVec 26)) (od : Option Ord) : Option Instr :=
  match bits w 26 6 with
  | 0x01 =>
    if bits w 0 9 = 0 ∧ hi = none ∧ od = none then some (.add (fld w 21 5) (fld w 16 5) (fld w 11 5) (flag w 10) (flag w 9))
    else if bits w 0 9 = 1 ∧ hi = none ∧ od = none then some (.sub (fld w 21 5) (fld w 16 5) (fld w 11 5) (flag w 10) (flag w 9))
    else if bits w 0 9 = 2 ∧ hi = none ∧ od = none then some (.and (fld w 21 5) (fld w 16 5) (fld w 11 5) (flag w 10) (flag w 9))
    else if bits w 0 9 = 3 ∧ hi = none ∧ od = none then some (.or (fld w 21 5) (fld w 16 5) (fld w 11 5) (flag w 10) (flag w 9))
    else if bits w 0 9 = 4 ∧ hi = none ∧ od = none then some (.xor (fld w 21 5) (fld w 16 5) (fld w 11 5) (flag w 10) (flag w 9))
    else if bits w 0 9 = 5 ∧ hi = none ∧ od = none then some (.andn (fld w 21 5) (fld w 16 5) (fld w 11 5) (flag w 10) (flag w 9))
    else if bits w 0 9 = 6 ∧ hi = none ∧ od = none then some (.shl (fld w 21 5) (fld w 16 5) (fld w 11 5) (flag w 10) (flag w 9))
    else if bits w 0 9 = 7 ∧ hi = none ∧ od = none then some (.shr (fld w 21 5) (fld w 16 5) (fld w 11 5) (flag w 10) (flag w 9))
    else if bits w 0 9 = 8 ∧ hi = none ∧ od = none then some (.sar (fld w 21 5) (fld w 16 5) (fld w 11 5) (flag w 10) (flag w 9))
    else if bits w 0 9 = 9 ∧ hi = none ∧ od = none then some (.mul (fld w 21 5) (fld w 16 5) (fld w 11 5) (flag w 10) (flag w 9))
    else if bits w 0 9 = 10 ∧ hi = none ∧ od = none then some (.mulh (fld w 21 5) (fld w 16 5) (fld w 11 5) (flag w 10) (flag w 9))
    else if bits w 0 9 = 11 ∧ hi = none ∧ od = none then some (.mulhu (fld w 21 5) (fld w 16 5) (fld w 11 5) (flag w 10) (flag w 9))
    else if bits w 0 9 = 12 ∧ hi = none ∧ od = none then some (.div (fld w 21 5) (fld w 16 5) (fld w 11 5) (flag w 10) (flag w 9))
    else if bits w 0 9 = 13 ∧ hi = none ∧ od = none then some (.divu (fld w 21 5) (fld w 16 5) (fld w 11 5) (flag w 10) (flag w 9))
    else if bits w 0 9 = 14 ∧ hi = none ∧ od = none then some (.rem (fld w 21 5) (fld w 16 5) (fld w 11 5) (flag w 10) (flag w 9))
    else if bits w 0 9 = 15 ∧ hi = none ∧ od = none then some (.remu (fld w 21 5) (fld w 16 5) (fld w 11 5) (flag w 10) (flag w 9))
    else if bits w 0 9 = 16 ∧ hi = none ∧ od = none then some (.min (fld w 21 5) (fld w 16 5) (fld w 11 5) (flag w 10) (flag w 9))
    else if bits w 0 9 = 17 ∧ hi = none ∧ od = none then some (.max (fld w 21 5) (fld w 16 5) (fld w 11 5) (flag w 10) (flag w 9))
    else if bits w 0 9 = 18 ∧ hi = none ∧ od = none then some (.minu (fld w 21 5) (fld w 16 5) (fld w 11 5) (flag w 10) (flag w 9))
    else if bits w 0 9 = 19 ∧ hi = none ∧ od = none then some (.maxu (fld w 21 5) (fld w 16 5) (fld w 11 5) (flag w 10) (flag w 9))
    else none
  | 0x02 =>
    if bits w 0 9 = 0 ∧ hi = none ∧ od = none then some (.ceq (fld w 21 5) (fld w 16 5) (fld w 11 5) (flag w 10) (flag w 9))
    else if bits w 0 9 = 1 ∧ hi = none ∧ od = none then some (.cne (fld w 21 5) (fld w 16 5) (fld w 11 5) (flag w 10) (flag w 9))
    else if bits w 0 9 = 2 ∧ hi = none ∧ od = none then some (.clt (fld w 21 5) (fld w 16 5) (fld w 11 5) (flag w 10) (flag w 9))
    else if bits w 0 9 = 3 ∧ hi = none ∧ od = none then some (.cltu (fld w 21 5) (fld w 16 5) (fld w 11 5) (flag w 10) (flag w 9))
    else if bits w 0 9 = 4 ∧ hi = none ∧ od = none then some (.cle (fld w 21 5) (fld w 16 5) (fld w 11 5) (flag w 10) (flag w 9))
    else if bits w 0 9 = 5 ∧ hi = none ∧ od = none then some (.cleu (fld w 21 5) (fld w 16 5) (fld w 11 5) (flag w 10) (flag w 9))
    else if bits w 0 9 = 6 ∧ hi = none ∧ od = none then some (.sel (fld w 21 5) (fld w 16 5) (fld w 11 5) (flag w 10) (flag w 9))
    else none
  | 0x03 =>
    if bits w 0 10 = 0 ∧ bits w 11 5 = 0 ∧ hi = none ∧ od = none then some (.popc (fld w 21 5) (fld w 16 5) (flag w 10))
    else if bits w 0 10 = 1 ∧ bits w 11 5 = 0 ∧ hi = none ∧ od = none then some (.clz (fld w 21 5) (fld w 16 5) (flag w 10))
    else if bits w 0 10 = 2 ∧ bits w 11 5 = 0 ∧ hi = none ∧ od = none then some (.ctz (fld w 21 5) (fld w 16 5) (flag w 10))
    else if bits w 0 9 = 3 ∧ hi = none ∧ od = none then some (.rank (fld w 21 5) (fld w 16 5) (fld w 11 5) (flag w 10) (flag w 9))
    else if bits w 0 9 = 4 ∧ hi = none ∧ od = none then some (.select (fld w 21 5) (fld w 16 5) (fld w 11 5) (flag w 10) (flag w 9))
    else if bits w 0 9 = 5 ∧ hi = none ∧ od = none then some (.sext (fld w 21 5) (fld w 16 5) (fld w 11 5) (flag w 10) (flag w 9))
    else if bits w 0 9 = 6 ∧ hi = none ∧ od = none then some (.bext (fld w 21 5) (fld w 16 5) (fld w 11 5) (flag w 10) (flag w 9))
    else if bits w 0 10 = 7 ∧ bits w 11 5 = 0 ∧ hi = none ∧ od = none then some (.brev (fld w 21 5) (fld w 16 5) (flag w 10))
    else none
  | 0x04 =>
    if od = none then some (.addi (fld w 21 5) (fld w 16 5) ⟨fld w 0 16, hi⟩)
    else none
  | 0x05 =>
    if od = none then some (.andi (fld w 21 5) (fld w 16 5) ⟨fld w 0 16, hi⟩)
    else none
  | 0x06 =>
    if od = none then some (.ori (fld w 21 5) (fld w 16 5) ⟨fld w 0 16, hi⟩)
    else none
  | 0x07 =>
    if od = none then some (.xori (fld w 21 5) (fld w 16 5) ⟨fld w 0 16, hi⟩)
    else none
  | 0x08 =>
    if bits w 6 10 = 0 ∧ hi = none ∧ od = none then some (.shli (fld w 21 5) (fld w 16 5) (fld w 0 6))
    else if bits w 6 10 = 1 ∧ hi = none ∧ od = none then some (.shri (fld w 21 5) (fld w 16 5) (fld w 0 6))
    else if bits w 6 10 = 2 ∧ hi = none ∧ od = none then some (.sari (fld w 21 5) (fld w 16 5) (fld w 0 6))
    else none
  | 0x09 =>
    if od = none then some (.slti (fld w 21 5) (fld w 16 5) ⟨fld w 0 16, hi⟩)
    else none
  | 0x0A =>
    if od = none then some (.sltiu (fld w 21 5) (fld w 16 5) ⟨fld w 0 16, hi⟩)
    else none
  | 0x0B =>
    if bits w 16 5 = 0 ∧ od = none then some (.addpc (fld w 21 5) ⟨fld w 0 16, hi⟩)
    else none
  | 0x0C =>
    if od = none then some (.muli (fld w 21 5) (fld w 16 5) ⟨fld w 0 16, hi⟩)
    else none
  | 0x10 =>
    if bits w 21 5 = 0 ∧ od = none then some (.j ⟨fld w 0 21, hi⟩)
    else none
  | 0x11 =>
    if bits w 21 5 = 0 ∧ od = none then some (.call ⟨fld w 0 21, hi⟩)
    else none
  | 0x12 =>
    if od = none then some (.bez (fld w 21 5) ⟨fld w 0 21, hi⟩)
    else none
  | 0x13 =>
    if od = none then some (.bnz (fld w 21 5) ⟨fld w 0 21, hi⟩)
    else none
  | 0x14 =>
    if od = none then some (.bltz (fld w 21 5) ⟨fld w 0 21, hi⟩)
    else none
  | 0x15 =>
    if bits w 21 5 = 0 ∧ od = none then some (.bknone ⟨fld w 0 21, hi⟩)
    else if bits w 21 5 = 1 ∧ od = none then some (.bkany ⟨fld w 0 21, hi⟩)
    else if bits w 21 5 = 2 ∧ od = none then some (.bkall ⟨fld w 0 21, hi⟩)
    else none
  | 0x16 =>
    if od = none then some (.loop (fld w 21 5) ⟨fld w 0 21, hi⟩)
    else none
  | 0x17 =>
    if bits w 0 10 = 0 ∧ bits w 11 5 = 0 ∧ bits w 21 5 = 0 ∧ hi = none ∧ od = none then some (.jr (fld w 16 5) (flag w 10))
    else if bits w 0 10 = 1 ∧ bits w 11 5 = 0 ∧ bits w 21 5 = 0 ∧ hi = none ∧ od = none then some (.callr (fld w 16 5) (flag w 10))
    else if bits w 0 26 = 2 ∧ hi = none ∧ od = none then some (.endI)
    else if bits w 0 26 = 3 ∧ hi = none ∧ od = none then some (.nop)
    else none
  | 0x19 =>
    if bits w 12 9 = 0 ∧ hi = none ∧ od = none then some (.csrr (fld w 21 5) (fld w 0 12))
    else if bits w 12 4 = 1 ∧ hi = none ∧ od = none then some (.csrw (fld w 21 5) (fld w 16 5) (fld w 0 12))
    else if bits w 12 4 = 2 ∧ hi = none ∧ od = none then some (.csrs (fld w 21 5) (fld w 16 5) (fld w 0 12))
    else if bits w 12 4 = 3 ∧ hi = none ∧ od = none then some (.csrc (fld w 21 5) (fld w 16 5) (fld w 0 12))
    else if bits w 12 4 = 4 ∧ hi = none ∧ od = none then some (.csrx (fld w 21 5) (fld w 16 5) (fld w 0 12))
    else none
  | 0x1A =>
    if bits w 0 10 = 0 ∧ bits w 11 5 = 0 ∧ hi = none ∧ od = none then some (.zset (fld w 21 5) (fld w 16 5) (flag w 10))
    else if bits w 0 10 = 1 ∧ bits w 11 5 = 0 ∧ hi = none ∧ od = none then some (.zsetW (fld w 21 5) (fld w 16 5) (flag w 10))
    else if bits w 0 16 = 2 ∧ hi = none ∧ od = none then some (.zget (fld w 21 5) (fld w 16 5))
    else if bits w 0 16 = 3 ∧ hi = none ∧ od = none then some (.zpend (fld w 21 5) (fld w 16 5))
    else none
  | 0x1E =>
    some (.ld (fld w 21 5) (memArg w hi) od)
  | 0x1F =>
    some (.ldw (fld w 21 5) (memArg w hi) od)
  | 0x20 =>
    some (.st (fld w 21 5) (memArg w hi) od)
  | 0x21 =>
    some (.stw (fld w 21 5) (memArg w hi) od)
  | 0x22 =>
    some (.vld (fld w 21 5) (memArg w hi) od)
  | 0x23 =>
    some (.vst (fld w 21 5) (memArg w hi) od)
  | 0x24 =>
    some (.oqld (fld w 21 5) (memArg w hi) od)
  | 0x28 =>
    if bits w 0 9 = 0 ∧ hi = none then some (.aadd (fld w 21 5) (fld w 16 5) (fld w 11 5) (flag w 10) (flag w 9) od)
    else if bits w 0 9 = 1 ∧ hi = none then some (.aand (fld w 21 5) (fld w 16 5) (fld w 11 5) (flag w 10) (flag w 9) od)
    else if bits w 0 9 = 2 ∧ hi = none then some (.aor (fld w 21 5) (fld w 16 5) (fld w 11 5) (flag w 10) (flag w 9) od)
    else if bits w 0 9 = 3 ∧ hi = none then some (.axor (fld w 21 5) (fld w 16 5) (fld w 11 5) (flag w 10) (flag w 9) od)
    else if bits w 0 9 = 4 ∧ hi = none then some (.amin (fld w 21 5) (fld w 16 5) (fld w 11 5) (flag w 10) (flag w 9) od)
    else if bits w 0 9 = 5 ∧ hi = none then some (.amax (fld w 21 5) (fld w 16 5) (fld w 11 5) (flag w 10) (flag w 9) od)
    else if bits w 0 9 = 6 ∧ hi = none then some (.aminu (fld w 21 5) (fld w 16 5) (fld w 11 5) (flag w 10) (flag w 9) od)
    else if bits w 0 9 = 7 ∧ hi = none then some (.amaxu (fld w 21 5) (fld w 16 5) (fld w 11 5) (flag w 10) (flag w 9) od)
    else if bits w 0 9 = 8 ∧ hi = none then some (.aswap (fld w 21 5) (fld w 16 5) (fld w 11 5) (flag w 10) (flag w 9) od)
    else if bits w 0 9 = 256 ∧ hi = none then some (.aaddW (fld w 21 5) (fld w 16 5) (fld w 11 5) (flag w 10) (flag w 9) od)
    else if bits w 0 9 = 257 ∧ hi = none then some (.aandW (fld w 21 5) (fld w 16 5) (fld w 11 5) (flag w 10) (flag w 9) od)
    else if bits w 0 9 = 258 ∧ hi = none then some (.aorW (fld w 21 5) (fld w 16 5) (fld w 11 5) (flag w 10) (flag w 9) od)
    else if bits w 0 9 = 259 ∧ hi = none then some (.axorW (fld w 21 5) (fld w 16 5) (fld w 11 5) (flag w 10) (flag w 9) od)
    else if bits w 0 9 = 260 ∧ hi = none then some (.aminW (fld w 21 5) (fld w 16 5) (fld w 11 5) (flag w 10) (flag w 9) od)
    else if bits w 0 9 = 261 ∧ hi = none then some (.amaxW (fld w 21 5) (fld w 16 5) (fld w 11 5) (flag w 10) (flag w 9) od)
    else if bits w 0 9 = 262 ∧ hi = none then some (.aminuW (fld w 21 5) (fld w 16 5) (fld w 11 5) (flag w 10) (flag w 9) od)
    else if bits w 0 9 = 263 ∧ hi = none then some (.amaxuW (fld w 21 5) (fld w 16 5) (fld w 11 5) (flag w 10) (flag w 9) od)
    else if bits w 0 9 = 264 ∧ hi = none then some (.aswapW (fld w 21 5) (fld w 16 5) (fld w 11 5) (flag w 10) (flag w 9) od)
    else if bits w 0 9 = 265 ∧ hi = none then some (.afaddW (fld w 21 5) (fld w 16 5) (fld w 11 5) (flag w 10) (flag w 9) od)
    else none
  | 0x29 =>
    if bits w 0 9 = 0 ∧ hi = none then some (.cas (fld w 21 5) (fld w 16 5) (fld w 11 5) (flag w 10) (flag w 9) od)
    else if bits w 0 9 = 256 ∧ hi = none then some (.casW (fld w 21 5) (fld w 16 5) (fld w 11 5) (flag w 10) (flag w 9) od)
    else none
  | 0x2A =>
    if bits w 0 9 = 0 ∧ hi = none then some (.vpush (fld w 21 5) (fld w 16 5) (fld w 11 5) (flag w 10) (flag w 9) od)
    else if bits w 0 10 = 1 ∧ bits w 11 5 = 0 ∧ hi = none then some (.vpop (fld w 21 5) (fld w 16 5) (flag w 10) od)
    else if bits w 0 10 = 2 ∧ hi = none then some (.vpopnb (fld w 21 5) (fld w 16 5) (fld w 11 5) (flag w 10) od)
    else none
  | 0x2B =>
    if bits w 0 10 = 0 ∧ bits w 11 5 = 0 ∧ hi = none then some (.rcsnap (fld w 21 5) (fld w 16 5) (flag w 10) od)
    else if bits w 0 9 = 1 ∧ hi = none then some (.rcread (fld w 21 5) (fld w 16 5) (fld w 11 5) (flag w 10) (flag w 9) od)
    else none
  | 0x2E =>
    if bits w 0 9 = 0 ∧ bits w 21 5 = 0 ∧ hi = none ∧ od = none then some (.tnew (fld w 16 5) (fld w 11 5) (flag w 10) (flag w 9))
    else if bits w 0 10 = 1 ∧ bits w 11 5 = 0 ∧ bits w 21 5 = 0 ∧ hi = none ∧ od = none then some (.tfree (fld w 16 5) (flag w 10))
    else if bits w 0 10 = 2 ∧ bits w 11 5 = 0 ∧ hi = none ∧ od = none then some (.tstate (fld w 21 5) (fld w 16 5) (flag w 10))
    else if bits w 0 10 = 3 ∧ bits w 11 5 = 0 ∧ bits w 21 5 = 0 ∧ hi = none ∧ od = none then some (.tsetrdy (fld w 16 5) (flag w 10))
    else if bits w 0 9 = 4 ∧ bits w 21 5 = 0 ∧ hi = none ∧ od = none then some (.twait (fld w 16 5) (fld w 11 5) (flag w 10) (flag w 9))
    else if bits w 0 9 = 5 ∧ bits w 10 1 = 0 ∧ bits w 21 5 = 0 ∧ hi = none ∧ od = none then some (.rgset (fld w 16 5) (fld w 11 5) (flag w 9))
    else if bits w 0 16 = 6 ∧ hi = none ∧ od = none then some (.rwfill (fld w 21 5) (fld w 16 5))
    else if bits w 0 16 = 7 ∧ hi = none ∧ od = none then some (.rwfree (fld w 21 5) (fld w 16 5))
    else if bits w 0 11 = 8 ∧ hi = none ∧ od = none then some (.rclaim (fld w 21 5) (fld w 16 5) (fld w 11 5))
    else if bits w 0 11 = 9 ∧ bits w 21 5 = 0 ∧ hi = none ∧ od = none then some (.rrelease (fld w 16 5) (fld w 11 5))
    else none
  | 0x2F =>
    if bits w 0 9 = 0 ∧ bits w 10 1 = 0 ∧ hi = none ∧ od = none then some (.abump (fld w 21 5) (fld w 16 5) (fld w 11 5) (flag w 9))
    else if bits w 0 16 = 1 ∧ hi = none ∧ od = none then some (.amark (fld w 21 5) (fld w 16 5))
    else if bits w 0 9 = 2 ∧ bits w 10 1 = 0 ∧ bits w 21 5 = 0 ∧ hi = none ∧ od = none then some (.arelmark (fld w 16 5) (fld w 11 5) (flag w 9))
    else if bits w 0 9 = 3 ∧ bits w 10 1 = 0 ∧ hi = none ∧ od = none then some (.aring (fld w 21 5) (fld w 16 5) (fld w 11 5) (flag w 9))
    else if bits w 0 9 = 4 ∧ bits w 10 1 = 0 ∧ bits w 21 5 = 0 ∧ hi = none ∧ od = none then some (.afree (fld w 16 5) (fld w 11 5) (flag w 9))
    else if bits w 0 11 = 5 ∧ hi = none ∧ od = none then some (.astate (fld w 21 5) (fld w 16 5) (fld w 11 5))
    else none
  | 0x30 =>
    if bits w 0 26 = 0 ∧ hi = none then some (.fence od)
    else if bits w 0 16 = 1 ∧ hi = none then some (.bararr (fld w 21 5) (fld w 16 5) od)
    else if bits w 0 9 = 2 ∧ bits w 10 1 = 0 ∧ bits w 21 5 = 0 ∧ hi = none then some (.barwait (fld w 16 5) (fld w 11 5) (flag w 9) od)
    else if bits w 0 16 = 3 ∧ bits w 21 5 = 0 ∧ hi = none then some (.barsync (fld w 16 5) od)
    else if bits w 0 11 = 4 ∧ bits w 21 5 = 0 ∧ hi = none ∧ od = none then some (.lend (fld w 16 5) (fld w 11 5))
    else if bits w 0 10 = 5 ∧ bits w 21 5 = 0 ∧ hi = none ∧ od = none then some (.latld (fld w 16 5) (fld w 11 5) (flag w 10))
    else none
  | 0x31 =>
    if bits w 6 10 = 0 ∧ bits w 21 5 = 0 ∧ hi = none ∧ od = none then some (.qadd (fld w 16 5) (fld w 0 6))
    else if bits w 6 15 = 1 ∧ hi = none ∧ od = none then some (.qread (fld w 21 5) (fld w 0 6))
    else if bits w 6 10 = 2 ∧ bits w 21 5 = 0 ∧ hi = none ∧ od = none then some (.qwait (fld w 16 5) (fld w 0 6))
    else if bits w 0 10 = 192 ∧ bits w 14 2 = 0 ∧ bits w 21 5 = 0 ∧ hi = none ∧ od = none then some (.qterm (fld w 16 5) (fld w 10 4))
    else none
  | 0x32 =>
    if bits w 4 4 = 0 ∧ hi = none ∧ od = none then some (.vfadd (fld w 20 6) (fld w 14 6) (fld w 8 6) (flag w 3) (flag w 2) (fld w 0 2))
    else if bits w 4 4 = 1 ∧ hi = none ∧ od = none then some (.vfsub (fld w 20 6) (fld w 14 6) (fld w 8 6) (flag w 3) (flag w 2) (fld w 0 2))
    else if bits w 4 4 = 2 ∧ hi = none ∧ od = none then some (.vfmul (fld w 20 6) (fld w 14 6) (fld w 8 6) (flag w 3) (flag w 2) (fld w 0 2))
    else if bits w 4 4 = 3 ∧ hi = none ∧ od = none then some (.vfma (fld w 20 6) (fld w 14 6) (fld w 8 6) (flag w 3) (flag w 2) (fld w 0 2))
    else if bits w 4 4 = 4 ∧ hi = none ∧ od = none then some (.vfms (fld w 20 6) (fld w 14 6) (fld w 8 6) (flag w 3) (flag w 2) (fld w 0 2))
    else if bits w 4 4 = 5 ∧ hi = none ∧ od = none then some (.vfnma (fld w 20 6) (fld w 14 6) (fld w 8 6) (flag w 3) (flag w 2) (fld w 0 2))
    else if bits w 4 4 = 6 ∧ hi = none ∧ od = none then some (.vfmin (fld w 20 6) (fld w 14 6) (fld w 8 6) (flag w 3) (flag w 2) (fld w 0 2))
    else if bits w 4 4 = 7 ∧ hi = none ∧ od = none then some (.vfmax (fld w 20 6) (fld w 14 6) (fld w 8 6) (flag w 3) (flag w 2) (fld w 0 2))
    else if bits w 2 1 = 0 ∧ bits w 4 10 = 8 ∧ hi = none ∧ od = none then some (.vfabs (fld w 20 6) (fld w 14 6) (flag w 3) (fld w 0 2))
    else if bits w 2 1 = 0 ∧ bits w 4 10 = 9 ∧ hi = none ∧ od = none then some (.vfneg (fld w 20 6) (fld w 14 6) (flag w 3) (fld w 0 2))
    else none
  | 0x33 =>
    if bits w 4 4 = 0 ∧ hi = none ∧ od = none then some (.vbadd (fld w 20 6) (fld w 14 6) (fld w 8 6) (flag w 3) (flag w 2) (fld w 0 2))
    else if bits w 4 4 = 1 ∧ hi = none ∧ od = none then some (.vbsub (fld w 20 6) (fld w 14 6) (fld w 8 6) (flag w 3) (flag w 2) (fld w 0 2))
    else if bits w 4 4 = 2 ∧ hi = none ∧ od = none then some (.vbmul (fld w 20 6) (fld w 14 6) (fld w 8 6) (flag w 3) (flag w 2) (fld w 0 2))
    else if bits w 4 4 = 3 ∧ hi = none ∧ od = none then some (.vbfma (fld w 20 6) (fld w 14 6) (fld w 8 6) (flag w 3) (flag w 2) (fld w 0 2))
    else if bits w 4 4 = 4 ∧ hi = none ∧ od = none then some (.vbmin (fld w 20 6) (fld w 14 6) (fld w 8 6) (flag w 3) (flag w 2) (fld w 0 2))
    else if bits w 4 4 = 5 ∧ hi = none ∧ od = none then some (.vbmax (fld w 20 6) (fld w 14 6) (fld w 8 6) (flag w 3) (flag w 2) (fld w 0 2))
    else none
  | 0x34 =>
    if bits w 4 4 = 0 ∧ hi = none ∧ od = none then some (.viadd (fld w 20 6) (fld w 14 6) (fld w 8 6) (flag w 3) (flag w 2) (fld w 0 2))
    else if bits w 4 4 = 1 ∧ hi = none ∧ od = none then some (.visub (fld w 20 6) (fld w 14 6) (fld w 8 6) (flag w 3) (flag w 2) (fld w 0 2))
    else if bits w 4 4 = 2 ∧ hi = none ∧ od = none then some (.vimul (fld w 20 6) (fld w 14 6) (fld w 8 6) (flag w 3) (flag w 2) (fld w 0 2))
    else if bits w 4 4 = 3 ∧ hi = none ∧ od = none then some (.vimulh (fld w 20 6) (fld w 14 6) (fld w 8 6) (flag w 3) (flag w 2) (fld w 0 2))
    else if bits w 4 4 = 4 ∧ hi = none ∧ od = none then some (.vimin (fld w 20 6) (fld w 14 6) (fld w 8 6) (flag w 3) (flag w 2) (fld w 0 2))
    else if bits w 4 4 = 5 ∧ hi = none ∧ od = none then some (.vimax (fld w 20 6) (fld w 14 6) (fld w 8 6) (flag w 3) (flag w 2) (fld w 0 2))
    else if bits w 4 4 = 6 ∧ hi = none ∧ od = none then some (.viminu (fld w 20 6) (fld w 14 6) (fld w 8 6) (flag w 3) (flag w 2) (fld w 0 2))
    else if bits w 4 4 = 7 ∧ hi = none ∧ od = none then some (.vimaxu (fld w 20 6) (fld w 14 6) (fld w 8 6) (flag w 3) (flag w 2) (fld w 0 2))
    else if bits w 2 1 = 0 ∧ bits w 4 10 = 8 ∧ hi = none ∧ od = none then some (.viabs (fld w 20 6) (fld w 14 6) (flag w 3) (fld w 0 2))
    else if bits w 4 4 = 9 ∧ hi = none ∧ od = none then some (.viadds (fld w 20 6) (fld w 14 6) (fld w 8 6) (flag w 3) (flag w 2) (fld w 0 2))
    else if bits w 4 4 = 10 ∧ hi = none ∧ od = none then some (.visubs (fld w 20 6) (fld w 14 6) (fld w 8 6) (flag w 3) (flag w 2) (fld w 0 2))
    else none
  | 0x35 =>
    if bits w 4 4 = 0 ∧ hi = none ∧ od = none then some (.vand (fld w 20 6) (fld w 14 6) (fld w 8 6) (flag w 3) (flag w 2) (fld w 0 2))
    else if bits w 4 4 = 1 ∧ hi = none ∧ od = none then some (.vor (fld w 20 6) (fld w 14 6) (fld w 8 6) (flag w 3) (flag w 2) (fld w 0 2))
    else if bits w 4 4 = 2 ∧ hi = none ∧ od = none then some (.vxor (fld w 20 6) (fld w 14 6) (fld w 8 6) (flag w 3) (flag w 2) (fld w 0 2))
    else if bits w 4 4 = 3 ∧ hi = none ∧ od = none then some (.vandn (fld w 20 6) (fld w 14 6) (fld w 8 6) (flag w 3) (flag w 2) (fld w 0 2))
    else if bits w 4 4 = 4 ∧ hi = none ∧ od = none then some (.vshl (fld w 20 6) (fld w 14 6) (fld w 8 6) (flag w 3) (flag w 2) (fld w 0 2))
    else if bits w 4 4 = 5 ∧ hi = none ∧ od = none then some (.vshr (fld w 20 6) (fld w 14 6) (fld w 8 6) (flag w 3) (flag w 2) (fld w 0 2))
    else if bits w 4 4 = 6 ∧ hi = none ∧ od = none then some (.vsar (fld w 20 6) (fld w 14 6) (fld w 8 6) (flag w 3) (flag w 2) (fld w 0 2))
    else if bits w 2 1 = 0 ∧ bits w 4 10 = 7 ∧ hi = none ∧ od = none then some (.vnot (fld w 20 6) (fld w 14 6) (flag w 3) (fld w 0 2))
    else if bits w 2 1 = 0 ∧ bits w 4 10 = 8 ∧ hi = none ∧ od = none then some (.vpopc (fld w 20 6) (fld w 14 6) (flag w 3) (fld w 0 2))
    else if bits w 2 1 = 0 ∧ bits w 4 10 = 9 ∧ hi = none ∧ od = none then some (.vclz (fld w 20 6) (fld w 14 6) (flag w 3) (fld w 0 2))
    else none
  | 0x36 =>
    if bits w 2 1 = 0 ∧ bits w 4 10 = 0 ∧ hi = none ∧ od = none then some (.frcp (fld w 20 6) (fld w 14 6) (flag w 3) (fld w 0 2))
    else if bits w 2 1 = 0 ∧ bits w 4 10 = 1 ∧ hi = none ∧ od = none then some (.frsq (fld w 20 6) (fld w 14 6) (flag w 3) (fld w 0 2))
    else if bits w 2 1 = 0 ∧ bits w 4 10 = 2 ∧ hi = none ∧ od = none then some (.fexp2 (fld w 20 6) (fld w 14 6) (flag w 3) (fld w 0 2))
    else if bits w 2 1 = 0 ∧ bits w 4 10 = 3 ∧ hi = none ∧ od = none then some (.flog2 (fld w 20 6) (fld w 14 6) (flag w 3) (fld w 0 2))
    else none
  | 0x37 =>
    if bits w 2 1 = 0 ∧ bits w 4 4 = 0 ∧ bits w 12 2 = 0 ∧ hi = none ∧ od = none then some (.vcvtfh (fld w 20 6) (fld w 14 6) (flag w 11) (fld w 8 3) (flag w 3) (fld w 0 2))
    else if bits w 2 1 = 0 ∧ bits w 4 4 = 1 ∧ bits w 12 2 = 0 ∧ hi = none ∧ od = none then some (.vcvthf (fld w 20 6) (fld w 14 6) (flag w 11) (fld w 8 3) (flag w 3) (fld w 0 2))
    else if bits w 2 1 = 0 ∧ bits w 4 4 = 2 ∧ bits w 12 2 = 0 ∧ hi = none ∧ od = none then some (.vcvtfs (fld w 20 6) (fld w 14 6) (flag w 11) (fld w 8 3) (flag w 3) (fld w 0 2))
    else if bits w 2 1 = 0 ∧ bits w 4 4 = 3 ∧ bits w 12 2 = 0 ∧ hi = none ∧ od = none then some (.vcvtsf (fld w 20 6) (fld w 14 6) (flag w 11) (fld w 8 3) (flag w 3) (fld w 0 2))
    else if bits w 2 1 = 0 ∧ bits w 4 4 = 4 ∧ bits w 12 2 = 0 ∧ hi = none ∧ od = none then some (.vcvtfi (fld w 20 6) (fld w 14 6) (flag w 11) (fld w 8 3) (flag w 3) (fld w 0 2))
    else if bits w 2 1 = 0 ∧ bits w 4 4 = 5 ∧ bits w 12 2 = 0 ∧ hi = none ∧ od = none then some (.vcvtif (fld w 20 6) (fld w 14 6) (flag w 11) (fld w 8 3) (flag w 3) (fld w 0 2))
    else if bits w 2 1 = 0 ∧ bits w 4 4 = 6 ∧ bits w 12 2 = 0 ∧ hi = none ∧ od = none then some (.vcvtfu (fld w 20 6) (fld w 14 6) (flag w 11) (fld w 8 3) (flag w 3) (fld w 0 2))
    else if bits w 2 1 = 0 ∧ bits w 4 4 = 7 ∧ bits w 12 2 = 0 ∧ hi = none ∧ od = none then some (.vcvtuf (fld w 20 6) (fld w 14 6) (flag w 11) (fld w 8 3) (flag w 3) (fld w 0 2))
    else if bits w 2 1 = 0 ∧ bits w 4 4 = 8 ∧ bits w 12 2 = 0 ∧ hi = none ∧ od = none then some (.vrnd (fld w 20 6) (fld w 14 6) (flag w 11) (fld w 8 3) (flag w 3) (fld w 0 2))
    else none
  | 0x38 =>
    if bits w 4 4 = 0 ∧ hi = none ∧ od = none then some (.vfceq (fld w 20 6) (fld w 14 6) (fld w 8 6) (flag w 3) (flag w 2) (fld w 0 2))
    else if bits w 4 4 = 1 ∧ hi = none ∧ od = none then some (.vfclt (fld w 20 6) (fld w 14 6) (fld w 8 6) (flag w 3) (flag w 2) (fld w 0 2))
    else if bits w 4 4 = 2 ∧ hi = none ∧ od = none then some (.vfcle (fld w 20 6) (fld w 14 6) (fld w 8 6) (flag w 3) (flag w 2) (fld w 0 2))
    else if bits w 4 4 = 3 ∧ hi = none ∧ od = none then some (.viceq (fld w 20 6) (fld w 14 6) (fld w 8 6) (flag w 3) (flag w 2) (fld w 0 2))
    else if bits w 4 4 = 4 ∧ hi = none ∧ od = none then some (.viclt (fld w 20 6) (fld w 14 6) (fld w 8 6) (flag w 3) (flag w 2) (fld w 0 2))
    else if bits w 4 4 = 5 ∧ hi = none ∧ od = none then some (.vicltu (fld w 20 6) (fld w 14 6) (fld w 8 6) (flag w 3) (flag w 2) (fld w 0 2))
    else if bits w 2 1 = 0 ∧ bits w 4 10 = 6 ∧ bits w 20 6 = 0 ∧ hi = none ∧ od = none then some (.mpush (fld w 14 6) (flag w 3) (fld w 0 2))
    else if bits w 2 24 = 28 ∧ hi = none ∧ od = none then some (.minv (fld w 0 2))
    else if bits w 2 24 = 32 ∧ hi = none ∧ od = none then some (.mpop (fld w 0 2))
    else none
  | 0x39 =>
    if bits w 2 1 = 0 ∧ bits w 4 10 = 0 ∧ hi = none ∧ od = none then some (.vfrsum (fld w 20 6) (fld w 14 6) (flag w 3) (fld w 0 2))
    else if bits w 2 1 = 0 ∧ bits w 4 10 = 1 ∧ hi = none ∧ od = none then some (.vfrmax (fld w 20 6) (fld w 14 6) (flag w 3) (fld w 0 2))
    else if bits w 2 1 = 0 ∧ bits w 4 10 = 2 ∧ hi = none ∧ od = none then some (.vfrmin (fld w 20 6) (fld w 14 6) (flag w 3) (fld w 0 2))
    else if bits w 2 1 = 0 ∧ bits w 4 10 = 3 ∧ hi = none ∧ od = none then some (.virsum (fld w 20 6) (fld w 14 6) (flag w 3) (fld w 0 2))
    else if bits w 2 1 = 0 ∧ bits w 4 10 = 4 ∧ hi = none ∧ od = none then some (.virmax (fld w 20 6) (fld w 14 6) (flag w 3) (fld w 0 2))
    else if bits w 2 1 = 0 ∧ bits w 4 10 = 5 ∧ hi = none ∧ od = none then some (.virmin (fld w 20 6) (fld w 14 6) (flag w 3) (fld w 0 2))
    else if bits w 2 1 = 0 ∧ bits w 4 10 = 6 ∧ hi = none ∧ od = none then some (.vrand (fld w 20 6) (fld w 14 6) (flag w 3) (fld w 0 2))
    else if bits w 2 1 = 0 ∧ bits w 4 10 = 7 ∧ hi = none ∧ od = none then some (.vror (fld w 20 6) (fld w 14 6) (flag w 3) (fld w 0 2))
    else none
  | 0x3A =>
    if bits w 4 4 = 0 ∧ hi = none ∧ od = none then some (.vperm (fld w 20 6) (fld w 14 6) (fld w 8 6) (flag w 3) (flag w 2) (fld w 0 2))
    else if bits w 2 1 = 0 ∧ bits w 4 4 = 1 ∧ hi = none ∧ od = none then some (.vbcast (fld w 20 6) (fld w 14 6) (fld w 8 6) (flag w 3) (fld w 0 2))
    else if bits w 2 1 = 0 ∧ bits w 4 4 = 2 ∧ hi = none ∧ od = none then some (.vrot (fld w 20 6) (fld w 14 6) (fld w 8 6) (flag w 3) (fld w 0 2))
    else if bits w 2 1 = 0 ∧ bits w 4 4 = 3 ∧ hi = none ∧ od = none then some (.vslup (fld w 20 6) (fld w 14 6) (fld w 8 6) (flag w 3) (fld w 0 2))
    else if bits w 2 1 = 0 ∧ bits w 4 4 = 4 ∧ hi = none ∧ od = none then some (.vsldn (fld w 20 6) (fld w 14 6) (fld w 8 6) (flag w 3) (fld w 0 2))
    else if bits w 4 4 = 5 ∧ hi = none ∧ od = none then some (.vzip (fld w 20 6) (fld w 14 6) (fld w 8 6) (flag w 3) (flag w 2) (fld w 0 2))
    else if bits w 4 4 = 6 ∧ hi = none ∧ od = none then some (.vunzip (fld w 20 6) (fld w 14 6) (fld w 8 6) (flag w 3) (flag w 2) (fld w 0 2))
    else if bits w 4 4 = 7 ∧ hi = none ∧ od = none then some (.vcompress (fld w 20 6) (fld w 14 6) (fld w 8 6) (flag w 3) (flag w 2) (fld w 0 2))
    else if bits w 4 4 = 8 ∧ hi = none ∧ od = none then some (.vexpand (fld w 20 6) (fld w 14 6) (fld w 8 6) (flag w 3) (flag w 2) (fld w 0 2))
    else none
  | 0x3B =>
    if bits w 2 1 = 0 ∧ bits w 4 10 = 0 ∧ hi = none ∧ od = none then some (.vmov (fld w 20 6) (fld w 14 6) (flag w 3) (fld w 0 2))
    else if bits w 2 1 = 0 ∧ bits w 4 10 = 1 ∧ hi = none ∧ od = none then some (.vsplat (fld w 20 6) (fld w 14 6) (flag w 3) (fld w 0 2))
    else if bits w 2 1 = 0 ∧ bits w 4 4 = 2 ∧ hi = none ∧ od = none then some (.vins (fld w 20 6) (fld w 14 6) (fld w 8 6) (flag w 3) (fld w 0 2))
    else if bits w 2 1 = 0 ∧ bits w 4 4 = 3 ∧ hi = none ∧ od = none then some (.vext (fld w 20 6) (fld w 14 6) (fld w 8 6) (flag w 3) (fld w 0 2))
    else if bits w 2 18 = 16 ∧ hi = none ∧ od = none then some (.viota (fld w 20 6) (fld w 0 2))
    else if bits w 4 4 = 5 ∧ hi = none ∧ od = none then some (.vsel (fld w 20 6) (fld w 14 6) (fld w 8 6) (flag w 3) (flag w 2) (fld w 0 2))
    else if bits w 2 18 = 24 ∧ hi = none ∧ od = none then some (.vmaskrd (fld w 20 6) (fld w 0 2))
    else if bits w 2 1 = 0 ∧ bits w 4 10 = 7 ∧ bits w 20 6 = 0 ∧ hi = none ∧ od = none then some (.vmaskwr (fld w 14 6) (flag w 3) (fld w 0 2))
    else none
  | 0x3C =>
    if bits w 16 5 = 0 ∧ hi = none ∧ od = none then some (.enqw (fld w 21 5) (fld w 0 16))
    else if bits w 7 14 = 4096 ∧ hi = none ∧ od = none then some (.enqg (fld w 21 5) (fld w 5 2) (fld w 0 5))
    else none
  | 0x3D =>
    if bits w 12 9 = 0 ∧ hi = none ∧ od = none then some (.enqm (fld w 21 5) (fld w 7 5) (fld w 5 2) (fld w 0 5))
    else none
  | 0x3E =>
    if bits w 0 10 = 1 ∧ bits w 11 5 = 0 ∧ bits w 21 5 = 0 ∧ hi = none ∧ od = none then some (.tmark (fld w 16 5) (flag w 10))
    else if bits w 0 10 = 2 ∧ bits w 11 5 = 0 ∧ hi = none ∧ od = none then some (.accrd (fld w 21 5) (fld w 16 5) (flag w 10))
    else if bits w 0 10 = 3 ∧ bits w 11 5 = 0 ∧ hi = none ∧ od = none then some (.enrgrd (fld w 21 5) (fld w 16 5) (flag w 10))
    else if bits w 0 26 = 0 ∧ hi = none ∧ od = none then some (.brk)
    else none
  | 0x18 =>
    if bits w 0 26 = 0 ∧ hi = none ∧ od = none then some (.syscall)
    else if bits w 0 26 = 1 ∧ hi = none ∧ od = none then some (.rett)
    else if bits w 0 26 = 2 ∧ hi = none ∧ od = none then some (.ien)
    else if bits w 0 26 = 3 ∧ hi = none ∧ od = none then some (.idis)
    else if bits w 0 26 = 4 ∧ hi = none ∧ od = none then some (.wfi)
    else none
  | _ => none

/-- An instruction word with its prefixes: decoded, and refused where R59, R60, R62 or R64 reject a value. -/
def decodeWord (w : Nat) (hi : Option (BitVec 26)) (od : Option Ord) : Option Instr :=
  match decodeRow w hi od with
  | none => none
  | some i => if i.wellFormed then some i else none

/-- What the words of a unit, from its first prefix on, decode to. -/
inductive Decoded where
  /-- The unit is complete: the instruction and how many words it took. -/
  | unit (i : Instr) (words : Nat)
  /-- The words so far are prefixes of an unfinished unit: one more word is needed. -/
  | more
  /-- The unit traps with ILLEGAL (R65, R68). -/
  | illegal
  deriving DecidableEq, Repr

/-- The fields of an XIMM word (R58, R63). -/
def ximmOf (w : Nat) : BitVec 26 := fld w 0 26

/-- The fields of an ORD word (R58, R64). -/
def ordOf (w : Nat) : Ord := { order := fld w 24 2, scope := fld w 21 3, ford := fld w 19 2 }

/-- A unit with a reserved bit set: its words are fetched before it is found ILLEGAL (R60, R65). -/
def Decoded.spoilt : Decoded → Decoded
  | .unit _ _ => .illegal
  | d => d

/-- The words of a unit, first to last (R65): at most one XIMM and one ORD, in either order, then the instruction.
`n` counts the words already taken. -/
def decodeUnit (hi : Option (BitVec 26)) (od : Option Ord) (n : Nat) : List (BitVec 32) → Decoded
  | [] => .more
  | w :: ws =>
    if bits w.toNat 26 6 = 0x1C then
      if hi.isSome then .illegal else decodeUnit (some (ximmOf w.toNat)) od (n + 1) ws
    else if bits w.toNat 26 6 = 0x1D then
      if od.isSome then .illegal
      else if bits w.toNat 0 19 = 0 then decodeUnit hi (some (ordOf w.toNat)) (n + 1) ws
      else (decodeUnit hi (some (ordOf w.toNat)) (n + 1) ws).spoilt
    else match decodeWord w.toNat hi od with
      | some i => .unit i (n + 1)
      | none => .illegal

/-- The unit that begins a list of instruction words. -/
def decode (ws : List (BitVec 32)) : Decoded := decodeUnit none none 0 ws

/-- Little-endian words of a list of bytes (R11, R57); bytes left over at the end make no word. -/
def wordsOfBytes : List (BitVec 8) → List (BitVec 32)
  | a :: b :: c :: d :: rest => (d ++ c ++ b ++ a) :: wordsOfBytes rest
  | _ => []

/-- The unit that begins a list of bytes: total, and refused by name (`illegal`, or `more` where it is cut short). -/
def decodeBytes (bs : List (BitVec 8)) : Decoded := decode (wordsOfBytes bs)

/-- An engine word on an engine (R70): literal, extension, stack and shape words and control words are the same on
every engine; launch words are the engine's own. None is an unassigned op (R71) or an argument bit that its
description marks zero, for which the engine faults the entry with ILLEGAL (R156). -/
def decodeEngine (e : EngineKind) (w : Nat) : Option Instr :=
  if bits w 15 1 = 0 then some (.lit (fld w 0 15)) else
  if bits w 13 3 = 4 then some (.ext (fld w 0 13)) else
  if bits w 8 8 = 167 then some (.eshl (fld w 0 8)) else
  if bits w 8 8 = 169 then some (.zpush (fld w 0 8)) else
  if bits w 4 12 = 3616 then some (.gate (fld w 0 4)) else
  if bits w 6 10 = 908 then some (.qgate (fld w 0 6)) else
  if bits w 6 10 = 912 then some (.signal (fld w 0 6)) else
  if bits w 3 13 = 7360 then some (.capstart (fld w 0 3)) else
  if bits w 3 13 = 7392 then some (.capstop (fld w 0 3)) else
  if bits w 0 16 = 40960 then some (.dup) else
  if bits w 0 16 = 41216 then some (.drop) else
  if bits w 0 16 = 41472 then some (.swap) else
  if bits w 0 16 = 41728 then some (.overI) else
  if bits w 0 16 = 41984 then some (.eadd) else
  if bits w 0 16 = 42240 then some (.esub) else
  if bits w 0 16 = 42496 then some (.emul) else
  if bits w 0 16 = 43008 then some (.eor) else
  if bits w 0 16 = 57344 then some (.controlNop) else
  if bits w 0 16 = 57600 then some (.fenceq) else
  if bits w 0 16 = 58624 then some (.mark) else
  match e with
  | .matrix =>
    if bits w 7 9 = 384 then some (.mpass (flag w 6) (flag w 5) (flag w 4) (fld w 2 2) (fld w 0 2)) else
    if bits w 7 9 = 386 then some (.mpassseg (flag w 6) (flag w 5) (flag w 4) (fld w 2 2) (fld w 0 2)) else
    if bits w 5 11 = 1552 then some (.mpassgrp (flag w 4) (fld w 2 2) (fld w 0 2)) else
    if bits w 4 12 = 3120 then some (.mdrain (flag w 3) (flag w 2) (fld w 0 2)) else
    if bits w 0 16 = 50176 then some (.mzero) else
    none
  | .copy =>
    if bits w 7 9 = 384 then some (.ccopy (flag w 6) (flag w 5) (fld w 2 3) (fld w 0 2)) else
    if bits w 2 3 = 0 ∧ bits w 6 10 = 772 then some (.cgather (flag w 5) (fld w 0 2)) else
    if bits w 0 16 = 49664 then some (.cfill) else
    if bits w 0 16 = 49920 then some (.chint) else
    none
  | .transfer =>
    if bits w 1 15 = 24576 then some (.xwrite (flag w 0)) else
    if bits w 0 16 = 49408 then some (.xread) else
    if bits w 1 15 = 24832 then some (.xcoll (flag w 0)) else
    if bits w 0 16 = 49920 then some (.xroute) else
    if bits w 0 16 = 50176 then some (.xrlinv) else
    none

/-- The instruction the decoder reads from an instruction whose bits are `w`, numbered as the opcode table numbers
them: a 16-bit row is an engine word, read for the matrix engine first, then the copy and the transfer engine (the
table's number alone does not name the queue); any other row is a unit of 32-bit words, the first in bits 31..0. -/
def decodeTableWord (nbits w : Nat) : Option Instr :=
  if nbits ≤ 16 then
    (decodeEngine .matrix (w % 65536)).orElse fun _ =>
      (decodeEngine .copy (w % 65536)).orElse fun _ => decodeEngine .transfer (w % 65536)
  else
    match decode [BitVec.ofNat 32 w, BitVec.ofNat 32 (w / 2 ^ 32), BitVec.ofNat 32 (w / 2 ^ 64)] with
    | .unit i _ => some i
    | _ => none

/-! ### The encoder -/

/-- One bit as a number. -/
def bit (b : Bool) : Nat := if b then 1 else 0

/-- The instruction word of format M (R58, R62). -/
def encodeMem (major d : Nat) (m : MemArg) : Nat :=
  major * 2 ^ 26 + d * 2 ^ 21 + m.base.toNat * 2 ^ 16 + m.mode.toNat * 2 ^ 14 + m.mreg.toNat * 2 ^ 11 +
    m.sp.toNat * 2 ^ 9 + m.off.toNat

/-- The instruction word of format A: `base` holds the major opcode and fn. -/
def encodeA (base d a b : Nat) (x y : Bool) : Nat :=
  base + d * 2 ^ 21 + a * 2 ^ 16 + b * 2 ^ 11 + bit x * 2 ^ 10 + bit y * 2 ^ 9

/-- The instruction word of format V: `base` holds the major opcode and fn. -/
def encodeV (base d a b : Nat) (x y : Bool) (l : Nat) : Nat :=
  base + d * 2 ^ 20 + a * 2 ^ 14 + b * 2 ^ 8 + bit x * 2 ^ 3 + bit y * 2 ^ 2 + l

/-- The instruction word of formats I, B and E: a field at bit 21, one at bit 16, and the bits below. -/
def encodeI (base d a imm : Nat) : Nat := base + d * 2 ^ 21 + a * 2 ^ 16 + imm

/-- The instruction word itself, without its prefixes; 0 for a row that is not a control-core instruction. -/
def encodeWord : Instr → Nat
  | .add d a b x y => encodeA 0x4000000 d.toNat a.toNat b.toNat x y
  | .sub d a b x y => encodeA 0x4000001 d.toNat a.toNat b.toNat x y
  | .and d a b x y => encodeA 0x4000002 d.toNat a.toNat b.toNat x y
  | .or d a b x y => encodeA 0x4000003 d.toNat a.toNat b.toNat x y
  | .xor d a b x y => encodeA 0x4000004 d.toNat a.toNat b.toNat x y
  | .andn d a b x y => encodeA 0x4000005 d.toNat a.toNat b.toNat x y
  | .shl d a b x y => encodeA 0x4000006 d.toNat a.toNat b.toNat x y
  | .shr d a b x y => encodeA 0x4000007 d.toNat a.toNat b.toNat x y
  | .sar d a b x y => encodeA 0x4000008 d.toNat a.toNat b.toNat x y
  | .mul d a b x y => encodeA 0x4000009 d.toNat a.toNat b.toNat x y
  | .mulh d a b x y => encodeA 0x400000a d.toNat a.toNat b.toNat x y
  | .mulhu d a b x y => encodeA 0x400000b d.toNat a.toNat b.toNat x y
  | .div d a b x y => encodeA 0x400000c d.toNat a.toNat b.toNat x y
  | .divu d a b x y => encodeA 0x400000d d.toNat a.toNat b.toNat x y
  | .rem d a b x y => encodeA 0x400000e d.toNat a.toNat b.toNat x y
  | .remu d a b x y => encodeA 0x400000f d.toNat a.toNat b.toNat x y
  | .min d a b x y => encodeA 0x4000010 d.toNat a.toNat b.toNat x y
  | .max d a b x y => encodeA 0x4000011 d.toNat a.toNat b.toNat x y
  | .minu d a b x y => encodeA 0x4000012 d.toNat a.toNat b.toNat x y
  | .maxu d a b x y => encodeA 0x4000013 d.toNat a.toNat b.toNat x y
  | .ceq d a b x y => encodeA 0x8000000 d.toNat a.toNat b.toNat x y
  | .cne d a b x y => encodeA 0x8000001 d.toNat a.toNat b.toNat x y
  | .clt d a b x y => encodeA 0x8000002 d.toNat a.toNat b.toNat x y
  | .cltu d a b x y => encodeA 0x8000003 d.toNat a.toNat b.toNat x y
  | .cle d a b x y => encodeA 0x8000004 d.toNat a.toNat b.toNat x y
  | .cleu d a b x y => encodeA 0x8000005 d.toNat a.toNat b.toNat x y
  | .sel d a b x y => encodeA 0x8000006 d.toNat a.toNat b.toNat x y
  | .popc d a x => encodeA 0xc000000 d.toNat a.toNat 0 x false
  | .clz d a x => encodeA 0xc000001 d.toNat a.toNat 0 x false
  | .ctz d a x => encodeA 0xc000002 d.toNat a.toNat 0 x false
  | .rank d a b x y => encodeA 0xc000003 d.toNat a.toNat b.toNat x y
  | .select d a b x y => encodeA 0xc000004 d.toNat a.toNat b.toNat x y
  | .sext d a b x y => encodeA 0xc000005 d.toNat a.toNat b.toNat x y
  | .bext d a b x y => encodeA 0xc000006 d.toNat a.toNat b.toNat x y
  | .brev d a x => encodeA 0xc000007 d.toNat a.toNat 0 x false
  | .addi d a i => encodeI 0x10000000 d.toNat a.toNat i.lo.toNat
  | .andi d a i => encodeI 0x14000000 d.toNat a.toNat i.lo.toNat
  | .ori d a i => encodeI 0x18000000 d.toNat a.toNat i.lo.toNat
  | .xori d a i => encodeI 0x1c000000 d.toNat a.toNat i.lo.toNat
  | .shli d a n => encodeI 0x20000000 d.toNat a.toNat n.toNat
  | .shri d a n => encodeI 0x20000040 d.toNat a.toNat n.toNat
  | .sari d a n => encodeI 0x20000080 d.toNat a.toNat n.toNat
  | .slti d a i => encodeI 0x24000000 d.toNat a.toNat i.lo.toNat
  | .sltiu d a i => encodeI 0x28000000 d.toNat a.toNat i.lo.toNat
  | .addpc d i => encodeI 0x2c000000 d.toNat 0 i.lo.toNat
  | .muli d a i => encodeI 0x30000000 d.toNat a.toNat i.lo.toNat
  | .j p => encodeI 0x40000000 0 0 p.lo.toNat
  | .call p => encodeI 0x44000000 0 0 p.lo.toNat
  | .bez a p => encodeI 0x48000000 a.toNat 0 p.lo.toNat
  | .bnz a p => encodeI 0x4c000000 a.toNat 0 p.lo.toNat
  | .bltz a p => encodeI 0x50000000 a.toNat 0 p.lo.toNat
  | .bknone p => encodeI 0x54000000 0 0 p.lo.toNat
  | .bkany p => encodeI 0x54200000 0 0 p.lo.toNat
  | .bkall p => encodeI 0x54400000 0 0 p.lo.toNat
  | .loop a p => encodeI 0x58000000 a.toNat 0 p.lo.toNat
  | .jr a x => encodeA 0x5c000000 0 a.toNat 0 x false
  | .callr a x => encodeA 0x5c000001 0 a.toNat 0 x false
  | .csrr d c => encodeI 0x64000000 d.toNat 0 c.toNat
  | .csrw d a c => encodeI 0x64001000 d.toNat a.toNat c.toNat
  | .csrs d a c => encodeI 0x64002000 d.toNat a.toNat c.toNat
  | .csrc d a c => encodeI 0x64003000 d.toNat a.toNat c.toNat
  | .csrx d a c => encodeI 0x64004000 d.toNat a.toNat c.toNat
  | .zset d a x => encodeA 0x68000000 d.toNat a.toNat 0 x false
  | .zsetW d a x => encodeA 0x68000001 d.toNat a.toNat 0 x false
  | .zget d a => encodeA 0x68000002 d.toNat a.toNat 0 false false
  | .zpend d a => encodeA 0x68000003 d.toNat a.toNat 0 false false
  | .ld d m _ => encodeMem 0x1E d.toNat m
  | .ldw d m _ => encodeMem 0x1F d.toNat m
  | .st d m _ => encodeMem 0x20 d.toNat m
  | .stw d m _ => encodeMem 0x21 d.toNat m
  | .vld d m _ => encodeMem 0x22 d.toNat m
  | .vst d m _ => encodeMem 0x23 d.toNat m
  | .oqld d m _ => encodeMem 0x24 d.toNat m
  | .aadd d a b x y _ => encodeA 0xa0000000 d.toNat a.toNat b.toNat x y
  | .aand d a b x y _ => encodeA 0xa0000001 d.toNat a.toNat b.toNat x y
  | .aor d a b x y _ => encodeA 0xa0000002 d.toNat a.toNat b.toNat x y
  | .axor d a b x y _ => encodeA 0xa0000003 d.toNat a.toNat b.toNat x y
  | .amin d a b x y _ => encodeA 0xa0000004 d.toNat a.toNat b.toNat x y
  | .amax d a b x y _ => encodeA 0xa0000005 d.toNat a.toNat b.toNat x y
  | .aminu d a b x y _ => encodeA 0xa0000006 d.toNat a.toNat b.toNat x y
  | .amaxu d a b x y _ => encodeA 0xa0000007 d.toNat a.toNat b.toNat x y
  | .aswap d a b x y _ => encodeA 0xa0000008 d.toNat a.toNat b.toNat x y
  | .aaddW d a b x y _ => encodeA 0xa0000100 d.toNat a.toNat b.toNat x y
  | .aandW d a b x y _ => encodeA 0xa0000101 d.toNat a.toNat b.toNat x y
  | .aorW d a b x y _ => encodeA 0xa0000102 d.toNat a.toNat b.toNat x y
  | .axorW d a b x y _ => encodeA 0xa0000103 d.toNat a.toNat b.toNat x y
  | .aminW d a b x y _ => encodeA 0xa0000104 d.toNat a.toNat b.toNat x y
  | .amaxW d a b x y _ => encodeA 0xa0000105 d.toNat a.toNat b.toNat x y
  | .aminuW d a b x y _ => encodeA 0xa0000106 d.toNat a.toNat b.toNat x y
  | .amaxuW d a b x y _ => encodeA 0xa0000107 d.toNat a.toNat b.toNat x y
  | .aswapW d a b x y _ => encodeA 0xa0000108 d.toNat a.toNat b.toNat x y
  | .afaddW d a b x y _ => encodeA 0xa0000109 d.toNat a.toNat b.toNat x y
  | .cas d a b x y _ => encodeA 0xa4000000 d.toNat a.toNat b.toNat x y
  | .casW d a b x y _ => encodeA 0xa4000100 d.toNat a.toNat b.toNat x y
  | .vpush d a b x y _ => encodeA 0xa8000000 d.toNat a.toNat b.toNat x y
  | .vpop d a x _ => encodeA 0xa8000001 d.toNat a.toNat 0 x false
  | .vpopnb d a b x _ => encodeA 0xa8000002 d.toNat a.toNat b.toNat x false
  | .rcsnap d a x _ => encodeA 0xac000000 d.toNat a.toNat 0 x false
  | .rcread d a b x y _ => encodeA 0xac000001 d.toNat a.toNat b.toNat x y
  | .tnew a b x y => encodeA 0xb8000000 0 a.toNat b.toNat x y
  | .tfree a x => encodeA 0xb8000001 0 a.toNat 0 x false
  | .tstate d a x => encodeA 0xb8000002 d.toNat a.toNat 0 x false
  | .tsetrdy a x => encodeA 0xb8000003 0 a.toNat 0 x false
  | .twait a b x y => encodeA 0xb8000004 0 a.toNat b.toNat x y
  | .rgset n b y => encodeA 0xb8000005 0 n.toNat b.toNat false y
  | .rwfill d n => encodeA 0xb8000006 d.toNat n.toNat 0 false false
  | .rwfree d n => encodeA 0xb8000007 d.toNat n.toNat 0 false false
  | .rclaim d n s => encodeA 0xb8000008 d.toNat n.toNat s.toNat false false
  | .rrelease n s => encodeA 0xb8000009 0 n.toNat s.toNat false false
  | .abump d s b y => encodeA 0xbc000000 d.toNat s.toNat b.toNat false y
  | .amark d s => encodeA 0xbc000001 d.toNat s.toNat 0 false false
  | .arelmark s b y => encodeA 0xbc000002 0 s.toNat b.toNat false y
  | .aring d s b y => encodeA 0xbc000003 d.toNat s.toNat b.toNat false y
  | .afree s b y => encodeA 0xbc000004 0 s.toNat b.toNat false y
  | .astate d s w => encodeA 0xbc000005 d.toNat s.toNat w.toNat false false
  | .fence _ => encodeA 0xc0000000 0 0 0 false false
  | .bararr d n _ => encodeA 0xc0000001 d.toNat n.toNat 0 false false
  | .barwait n b y _ => encodeA 0xc0000002 0 n.toNat b.toNat false y
  | .barsync n _ => encodeA 0xc0000003 0 n.toNat 0 false false
  | .lend k s => encodeA 0xc0000004 0 k.toNat s.toNat false false
  | .latld a s x => encodeA 0xc0000005 0 a.toNat s.toNat x false
  | .qadd a n => encodeI 0xc4000000 0 a.toNat n.toNat
  | .qread d n => encodeI 0xc4000040 d.toNat 0 n.toNat
  | .qwait a n => encodeI 0xc4000080 0 a.toNat n.toNat
  | .qterm a t => encodeI 0xc40000c0 0 a.toNat (t.toNat * 1024)
  | .vfadd d a b x y l => encodeV 0xc8000000 d.toNat a.toNat b.toNat x y l.toNat
  | .vfsub d a b x y l => encodeV 0xc8000010 d.toNat a.toNat b.toNat x y l.toNat
  | .vfmul d a b x y l => encodeV 0xc8000020 d.toNat a.toNat b.toNat x y l.toNat
  | .vfma d a b x y l => encodeV 0xc8000030 d.toNat a.toNat b.toNat x y l.toNat
  | .vfms d a b x y l => encodeV 0xc8000040 d.toNat a.toNat b.toNat x y l.toNat
  | .vfnma d a b x y l => encodeV 0xc8000050 d.toNat a.toNat b.toNat x y l.toNat
  | .vfmin d a b x y l => encodeV 0xc8000060 d.toNat a.toNat b.toNat x y l.toNat
  | .vfmax d a b x y l => encodeV 0xc8000070 d.toNat a.toNat b.toNat x y l.toNat
  | .vfabs d a x l => encodeV 0xc8000080 d.toNat a.toNat 0 x false l.toNat
  | .vfneg d a x l => encodeV 0xc8000090 d.toNat a.toNat 0 x false l.toNat
  | .vbadd d a b x y l => encodeV 0xcc000000 d.toNat a.toNat b.toNat x y l.toNat
  | .vbsub d a b x y l => encodeV 0xcc000010 d.toNat a.toNat b.toNat x y l.toNat
  | .vbmul d a b x y l => encodeV 0xcc000020 d.toNat a.toNat b.toNat x y l.toNat
  | .vbfma d a b x y l => encodeV 0xcc000030 d.toNat a.toNat b.toNat x y l.toNat
  | .vbmin d a b x y l => encodeV 0xcc000040 d.toNat a.toNat b.toNat x y l.toNat
  | .vbmax d a b x y l => encodeV 0xcc000050 d.toNat a.toNat b.toNat x y l.toNat
  | .viadd d a b x y l => encodeV 0xd0000000 d.toNat a.toNat b.toNat x y l.toNat
  | .visub d a b x y l => encodeV 0xd0000010 d.toNat a.toNat b.toNat x y l.toNat
  | .vimul d a b x y l => encodeV 0xd0000020 d.toNat a.toNat b.toNat x y l.toNat
  | .vimulh d a b x y l => encodeV 0xd0000030 d.toNat a.toNat b.toNat x y l.toNat
  | .vimin d a b x y l => encodeV 0xd0000040 d.toNat a.toNat b.toNat x y l.toNat
  | .vimax d a b x y l => encodeV 0xd0000050 d.toNat a.toNat b.toNat x y l.toNat
  | .viminu d a b x y l => encodeV 0xd0000060 d.toNat a.toNat b.toNat x y l.toNat
  | .vimaxu d a b x y l => encodeV 0xd0000070 d.toNat a.toNat b.toNat x y l.toNat
  | .viabs d a x l => encodeV 0xd0000080 d.toNat a.toNat 0 x false l.toNat
  | .viadds d a b x y l => encodeV 0xd0000090 d.toNat a.toNat b.toNat x y l.toNat
  | .visubs d a b x y l => encodeV 0xd00000a0 d.toNat a.toNat b.toNat x y l.toNat
  | .vand d a b x y l => encodeV 0xd4000000 d.toNat a.toNat b.toNat x y l.toNat
  | .vor d a b x y l => encodeV 0xd4000010 d.toNat a.toNat b.toNat x y l.toNat
  | .vxor d a b x y l => encodeV 0xd4000020 d.toNat a.toNat b.toNat x y l.toNat
  | .vandn d a b x y l => encodeV 0xd4000030 d.toNat a.toNat b.toNat x y l.toNat
  | .vshl d a b x y l => encodeV 0xd4000040 d.toNat a.toNat b.toNat x y l.toNat
  | .vshr d a b x y l => encodeV 0xd4000050 d.toNat a.toNat b.toNat x y l.toNat
  | .vsar d a b x y l => encodeV 0xd4000060 d.toNat a.toNat b.toNat x y l.toNat
  | .vnot d a x l => encodeV 0xd4000070 d.toNat a.toNat 0 x false l.toNat
  | .vpopc d a x l => encodeV 0xd4000080 d.toNat a.toNat 0 x false l.toNat
  | .vclz d a x l => encodeV 0xd4000090 d.toNat a.toNat 0 x false l.toNat
  | .frcp d a x l => encodeV 0xd8000000 d.toNat a.toNat 0 x false l.toNat
  | .frsq d a x l => encodeV 0xd8000010 d.toNat a.toNat 0 x false l.toNat
  | .fexp2 d a x l => encodeV 0xd8000020 d.toNat a.toNat 0 x false l.toNat
  | .flog2 d a x l => encodeV 0xd8000030 d.toNat a.toNat 0 x false l.toNat
  | .vcvtfh d a f m x l => encodeV 0xdc000000 d.toNat a.toNat (bit f * 8 + m.toNat) x false l.toNat
  | .vcvthf d a f m x l => encodeV 0xdc000010 d.toNat a.toNat (bit f * 8 + m.toNat) x false l.toNat
  | .vcvtfs d a f m x l => encodeV 0xdc000020 d.toNat a.toNat (bit f * 8 + m.toNat) x false l.toNat
  | .vcvtsf d a f m x l => encodeV 0xdc000030 d.toNat a.toNat (bit f * 8 + m.toNat) x false l.toNat
  | .vcvtfi d a f m x l => encodeV 0xdc000040 d.toNat a.toNat (bit f * 8 + m.toNat) x false l.toNat
  | .vcvtif d a f m x l => encodeV 0xdc000050 d.toNat a.toNat (bit f * 8 + m.toNat) x false l.toNat
  | .vcvtfu d a f m x l => encodeV 0xdc000060 d.toNat a.toNat (bit f * 8 + m.toNat) x false l.toNat
  | .vcvtuf d a f m x l => encodeV 0xdc000070 d.toNat a.toNat (bit f * 8 + m.toNat) x false l.toNat
  | .vrnd d a f m x l => encodeV 0xdc000080 d.toNat a.toNat (bit f * 8 + m.toNat) x false l.toNat
  | .vfceq d a b x y l => encodeV 0xe0000000 d.toNat a.toNat b.toNat x y l.toNat
  | .vfclt d a b x y l => encodeV 0xe0000010 d.toNat a.toNat b.toNat x y l.toNat
  | .vfcle d a b x y l => encodeV 0xe0000020 d.toNat a.toNat b.toNat x y l.toNat
  | .viceq d a b x y l => encodeV 0xe0000030 d.toNat a.toNat b.toNat x y l.toNat
  | .viclt d a b x y l => encodeV 0xe0000040 d.toNat a.toNat b.toNat x y l.toNat
  | .vicltu d a b x y l => encodeV 0xe0000050 d.toNat a.toNat b.toNat x y l.toNat
  | .mpush a x l => encodeV 0xe0000060 0 a.toNat 0 x false l.toNat
  | .minv l => encodeV 0xe0000070 0 0 0 false false l.toNat
  | .mpop l => encodeV 0xe0000080 0 0 0 false false l.toNat
  | .vfrsum d a x l => encodeV 0xe4000000 d.toNat a.toNat 0 x false l.toNat
  | .vfrmax d a x l => encodeV 0xe4000010 d.toNat a.toNat 0 x false l.toNat
  | .vfrmin d a x l => encodeV 0xe4000020 d.toNat a.toNat 0 x false l.toNat
  | .virsum d a x l => encodeV 0xe4000030 d.toNat a.toNat 0 x false l.toNat
  | .virmax d a x l => encodeV 0xe4000040 d.toNat a.toNat 0 x false l.toNat
  | .virmin d a x l => encodeV 0xe4000050 d.toNat a.toNat 0 x false l.toNat
  | .vrand d a x l => encodeV 0xe4000060 d.toNat a.toNat 0 x false l.toNat
  | .vror d a x l => encodeV 0xe4000070 d.toNat a.toNat 0 x false l.toNat
  | .vperm d a b x y l => encodeV 0xe8000000 d.toNat a.toNat b.toNat x y l.toNat
  | .vbcast d a n x l => encodeV 0xe8000010 d.toNat a.toNat n.toNat x false l.toNat
  | .vrot d a n x l => encodeV 0xe8000020 d.toNat a.toNat n.toNat x false l.toNat
  | .vslup d a n x l => encodeV 0xe8000030 d.toNat a.toNat n.toNat x false l.toNat
  | .vsldn d a n x l => encodeV 0xe8000040 d.toNat a.toNat n.toNat x false l.toNat
  | .vzip d a b x y l => encodeV 0xe8000050 d.toNat a.toNat b.toNat x y l.toNat
  | .vunzip d a b x y l => encodeV 0xe8000060 d.toNat a.toNat b.toNat x y l.toNat
  | .vcompress d a b x y l => encodeV 0xe8000070 d.toNat a.toNat b.toNat x y l.toNat
  | .vexpand d a b x y l => encodeV 0xe8000080 d.toNat a.toNat b.toNat x y l.toNat
  | .vmov d a x l => encodeV 0xec000000 d.toNat a.toNat 0 x false l.toNat
  | .vsplat d g x l => encodeV 0xec000010 d.toNat g.toNat 0 x false l.toNat
  | .vins d g n x l => encodeV 0xec000020 d.toNat g.toNat n.toNat x false l.toNat
  | .vext g a n x l => encodeV 0xec000030 g.toNat a.toNat n.toNat x false l.toNat
  | .viota d l => encodeV 0xec000040 d.toNat 0 0 false false l.toNat
  | .vsel d a b x y l => encodeV 0xec000050 d.toNat a.toNat b.toNat x y l.toNat
  | .vmaskrd g l => encodeV 0xec000060 g.toNat 0 0 false false l.toNat
  | .vmaskwr g x l => encodeV 0xec000070 0 g.toNat 0 x false l.toNat
  | .enqw q w => encodeI 0xf0000000 q.toNat 0 w.toNat
  | .enqg q n a => encodeI 0xf0080000 q.toNat 0 (a.toNat + n.toNat * 32)
  | .enqm q n s a => encodeI 0xf4000000 q.toNat 0 (a.toNat + s.toNat * 32 + n.toNat * 128)
  | .tmark a x => encodeA 0xf8000001 0 a.toNat 0 x false
  | .accrd d a x => encodeA 0xf8000002 d.toNat a.toNat 0 x false
  | .enrgrd d a x => encodeA 0xf8000003 d.toNat a.toNat 0 x false
  | .lit _ => 0
  | .ext _ => 0
  | .eshl _ => 0
  | .zpush _ => 0
  | .mpass _ _ _ _ _ => 0
  | .mpassseg _ _ _ _ _ => 0
  | .mpassgrp _ _ _ => 0
  | .mdrain _ _ _ => 0
  | .ccopy _ _ _ _ => 0
  | .cgather _ _ => 0
  | .xwrite _ => 0
  | .xcoll _ => 0
  | .gate _ => 0
  | .qgate _ => 0
  | .signal _ => 0
  | .capstart _ => 0
  | .capstop _ => 0
  | .endI => encodeA 0x5c000002 0 0 0 false false
  | .nop => encodeA 0x5c000003 0 0 0 false false
  | .syscall => encodeA 0x60000000 0 0 0 false false
  | .rett => encodeA 0x60000001 0 0 0 false false
  | .ien => encodeA 0x60000002 0 0 0 false false
  | .idis => encodeA 0x60000003 0 0 0 false false
  | .wfi => encodeA 0x60000004 0 0 0 false false
  | .brk => encodeA 0xf8000000 0 0 0 false false
  | .dup => 0
  | .drop => 0
  | .swap => 0
  | .overI => 0
  | .eadd => 0
  | .esub => 0
  | .emul => 0
  | .eor => 0
  | .mzero => 0
  | .cfill => 0
  | .chint => 0
  | .xread => 0
  | .xroute => 0
  | .xrlinv => 0
  | .controlNop => 0
  | .fenceq => 0
  | .mark => 0
  | .resultLands => 0
  | .storeLoadDataArrival => 0
  | .longLatencyReturn => 0
  | .vatReply => 0
  | .trapEntry => 0
  | .interruptEntry => 0
  | .timerExpiry => 0
  | .tmrcntWrite => 0
  | .bankbindWrite => 0
  | .fxdata => 0
  | .capdata => 0
  | .capclr => 0
  | .cueirqClear => 0
  | .qcmdResume => 0
  | .qcmdDiscard => 0
  | .qcmdReset => 0
  | .xinvPage => 0
  | .xinvAsid => 0
  | .xinvAll => 0
  | .watchpointChange => 0
  | .warpop => 0
  | .registerWrite => 0
  | .matrixChunk => 0
  | .entryCompletion => 0
  | .chainedEntryStart => 0
  | .copyTurn => 0
  | .transferChunk => 0
  | .signalCompletion => 0
  | .controlEntryCompletion => 0
  | .deferredReadiness => 0
  | .cueTermEvaluation => 0
  | .xcollFiring => 0
  | .posting => 0
  | .contributionArrival => 0
  | .receptionCueIncrement => 0
  | .backPressureRelease => 0
  | .routeRowScored => 0
  | .writeAppliedAtHome => 0
  | .readAnsweredAtHome => 0
  | .frontierSend => 0
  | .vatHomeOperation => 0
  | .vatArrivalAtPairingPoint => 0
  | .pairingWindowExpiry => 0
  | .clockRenormalisation => 0
  | .pageWalk => 0
  | .notify => 0
  | .remoteNotify => 0
  | .mapperRun => 0
  | .packetRead => 0
  | .troupePlacement => 0
  | .tickEdge => 0
  | .deadlineExpiry => 0
  | .watchdogExpiry => 0
  | .cellCompletion => 0
  | .sceneCompletion => 0
  | .preempt => 0
  | .hardStop => 0
  | .contextSave => 0
  | .contextRestore => 0
  | .debughalt => 0
  | .stop => 0
  | .watchReportEntry => 0
  | .sample => 0
  | .fabricRefusalArrives => 0
  | .ingressRequestArrival => 0
  | .flitArbitration => 0
  | .linkRetry => 0
  | .linkDown => 0
  | .linkRetirement => 0
  | .routingTableRewrite => 0
  | .hostWrite => 0
  | .hostRead => 0
  | .scrubStep => 0
  | .cellRetirement => 0
  | .aperture => 0
  | .qtable => 0
  | .cap => 0
  | .tickper => 0
  | .halt => 0
  | .resume => 0
  | .warmreset => 0
  | .coldReset => 0
  | .linkReset => 0
  | .bringUpPhase => 0
  | .junctionSensorRead => 0
  | .thermalTrip => 0
  | .powerCapStep => 0
  | .ratioChange => 0
  | .writeAcknowledged => 0
  | .operandQueueRowLands => 0

/-- The words of a unit: an ORD word, an XIMM word, the instruction (R74 puts the ORD word first). -/
def encode (i : Instr) : List (BitVec 32) :=
  (match i.ord with
    | some o => [BitVec.ofNat 32 (0x74000000 + o.order.toNat * 2 ^ 24 + o.scope.toNat * 2 ^ 21 + o.ford.toNat * 2 ^ 19)]
    | none => []) ++
  (match i.ximm with
    | some h => [BitVec.ofNat 32 (0x70000000 + h.toNat)]
    | none => []) ++
  [BitVec.ofNat 32 (encodeWord i)]

/-- The 16 bits of an engine word (R70, R162, R165-R185); 0 for a row that is not an engine word. -/
def encodeEngine : Instr → Nat
  | .add _ _ _ _ _ => 0
  | .sub _ _ _ _ _ => 0
  | .and _ _ _ _ _ => 0
  | .or _ _ _ _ _ => 0
  | .xor _ _ _ _ _ => 0
  | .andn _ _ _ _ _ => 0
  | .shl _ _ _ _ _ => 0
  | .shr _ _ _ _ _ => 0
  | .sar _ _ _ _ _ => 0
  | .mul _ _ _ _ _ => 0
  | .mulh _ _ _ _ _ => 0
  | .mulhu _ _ _ _ _ => 0
  | .div _ _ _ _ _ => 0
  | .divu _ _ _ _ _ => 0
  | .rem _ _ _ _ _ => 0
  | .remu _ _ _ _ _ => 0
  | .min _ _ _ _ _ => 0
  | .max _ _ _ _ _ => 0
  | .minu _ _ _ _ _ => 0
  | .maxu _ _ _ _ _ => 0
  | .ceq _ _ _ _ _ => 0
  | .cne _ _ _ _ _ => 0
  | .clt _ _ _ _ _ => 0
  | .cltu _ _ _ _ _ => 0
  | .cle _ _ _ _ _ => 0
  | .cleu _ _ _ _ _ => 0
  | .sel _ _ _ _ _ => 0
  | .popc _ _ _ => 0
  | .clz _ _ _ => 0
  | .ctz _ _ _ => 0
  | .rank _ _ _ _ _ => 0
  | .select _ _ _ _ _ => 0
  | .sext _ _ _ _ _ => 0
  | .bext _ _ _ _ _ => 0
  | .brev _ _ _ => 0
  | .addi _ _ _ => 0
  | .andi _ _ _ => 0
  | .ori _ _ _ => 0
  | .xori _ _ _ => 0
  | .shli _ _ _ => 0
  | .shri _ _ _ => 0
  | .sari _ _ _ => 0
  | .slti _ _ _ => 0
  | .sltiu _ _ _ => 0
  | .addpc _ _ => 0
  | .muli _ _ _ => 0
  | .j _ => 0
  | .call _ => 0
  | .bez _ _ => 0
  | .bnz _ _ => 0
  | .bltz _ _ => 0
  | .bknone _ => 0
  | .bkany _ => 0
  | .bkall _ => 0
  | .loop _ _ => 0
  | .jr _ _ => 0
  | .callr _ _ => 0
  | .csrr _ _ => 0
  | .csrw _ _ _ => 0
  | .csrs _ _ _ => 0
  | .csrc _ _ _ => 0
  | .csrx _ _ _ => 0
  | .zset _ _ _ => 0
  | .zsetW _ _ _ => 0
  | .zget _ _ => 0
  | .zpend _ _ => 0
  | .ld _ _ _ => 0
  | .ldw _ _ _ => 0
  | .st _ _ _ => 0
  | .stw _ _ _ => 0
  | .vld _ _ _ => 0
  | .vst _ _ _ => 0
  | .oqld _ _ _ => 0
  | .aadd _ _ _ _ _ _ => 0
  | .aand _ _ _ _ _ _ => 0
  | .aor _ _ _ _ _ _ => 0
  | .axor _ _ _ _ _ _ => 0
  | .amin _ _ _ _ _ _ => 0
  | .amax _ _ _ _ _ _ => 0
  | .aminu _ _ _ _ _ _ => 0
  | .amaxu _ _ _ _ _ _ => 0
  | .aswap _ _ _ _ _ _ => 0
  | .aaddW _ _ _ _ _ _ => 0
  | .aandW _ _ _ _ _ _ => 0
  | .aorW _ _ _ _ _ _ => 0
  | .axorW _ _ _ _ _ _ => 0
  | .aminW _ _ _ _ _ _ => 0
  | .amaxW _ _ _ _ _ _ => 0
  | .aminuW _ _ _ _ _ _ => 0
  | .amaxuW _ _ _ _ _ _ => 0
  | .aswapW _ _ _ _ _ _ => 0
  | .afaddW _ _ _ _ _ _ => 0
  | .cas _ _ _ _ _ _ => 0
  | .casW _ _ _ _ _ _ => 0
  | .vpush _ _ _ _ _ _ => 0
  | .vpop _ _ _ _ => 0
  | .vpopnb _ _ _ _ _ => 0
  | .rcsnap _ _ _ _ => 0
  | .rcread _ _ _ _ _ _ => 0
  | .tnew _ _ _ _ => 0
  | .tfree _ _ => 0
  | .tstate _ _ _ => 0
  | .tsetrdy _ _ => 0
  | .twait _ _ _ _ => 0
  | .rgset _ _ _ => 0
  | .rwfill _ _ => 0
  | .rwfree _ _ => 0
  | .rclaim _ _ _ => 0
  | .rrelease _ _ => 0
  | .abump _ _ _ _ => 0
  | .amark _ _ => 0
  | .arelmark _ _ _ => 0
  | .aring _ _ _ _ => 0
  | .afree _ _ _ => 0
  | .astate _ _ _ => 0
  | .fence _ => 0
  | .bararr _ _ _ => 0
  | .barwait _ _ _ _ => 0
  | .barsync _ _ => 0
  | .lend _ _ => 0
  | .latld _ _ _ => 0
  | .qadd _ _ => 0
  | .qread _ _ => 0
  | .qwait _ _ => 0
  | .qterm _ _ => 0
  | .vfadd _ _ _ _ _ _ => 0
  | .vfsub _ _ _ _ _ _ => 0
  | .vfmul _ _ _ _ _ _ => 0
  | .vfma _ _ _ _ _ _ => 0
  | .vfms _ _ _ _ _ _ => 0
  | .vfnma _ _ _ _ _ _ => 0
  | .vfmin _ _ _ _ _ _ => 0
  | .vfmax _ _ _ _ _ _ => 0
  | .vfabs _ _ _ _ => 0
  | .vfneg _ _ _ _ => 0
  | .vbadd _ _ _ _ _ _ => 0
  | .vbsub _ _ _ _ _ _ => 0
  | .vbmul _ _ _ _ _ _ => 0
  | .vbfma _ _ _ _ _ _ => 0
  | .vbmin _ _ _ _ _ _ => 0
  | .vbmax _ _ _ _ _ _ => 0
  | .viadd _ _ _ _ _ _ => 0
  | .visub _ _ _ _ _ _ => 0
  | .vimul _ _ _ _ _ _ => 0
  | .vimulh _ _ _ _ _ _ => 0
  | .vimin _ _ _ _ _ _ => 0
  | .vimax _ _ _ _ _ _ => 0
  | .viminu _ _ _ _ _ _ => 0
  | .vimaxu _ _ _ _ _ _ => 0
  | .viabs _ _ _ _ => 0
  | .viadds _ _ _ _ _ _ => 0
  | .visubs _ _ _ _ _ _ => 0
  | .vand _ _ _ _ _ _ => 0
  | .vor _ _ _ _ _ _ => 0
  | .vxor _ _ _ _ _ _ => 0
  | .vandn _ _ _ _ _ _ => 0
  | .vshl _ _ _ _ _ _ => 0
  | .vshr _ _ _ _ _ _ => 0
  | .vsar _ _ _ _ _ _ => 0
  | .vnot _ _ _ _ => 0
  | .vpopc _ _ _ _ => 0
  | .vclz _ _ _ _ => 0
  | .frcp _ _ _ _ => 0
  | .frsq _ _ _ _ => 0
  | .fexp2 _ _ _ _ => 0
  | .flog2 _ _ _ _ => 0
  | .vcvtfh _ _ _ _ _ _ => 0
  | .vcvthf _ _ _ _ _ _ => 0
  | .vcvtfs _ _ _ _ _ _ => 0
  | .vcvtsf _ _ _ _ _ _ => 0
  | .vcvtfi _ _ _ _ _ _ => 0
  | .vcvtif _ _ _ _ _ _ => 0
  | .vcvtfu _ _ _ _ _ _ => 0
  | .vcvtuf _ _ _ _ _ _ => 0
  | .vrnd _ _ _ _ _ _ => 0
  | .vfceq _ _ _ _ _ _ => 0
  | .vfclt _ _ _ _ _ _ => 0
  | .vfcle _ _ _ _ _ _ => 0
  | .viceq _ _ _ _ _ _ => 0
  | .viclt _ _ _ _ _ _ => 0
  | .vicltu _ _ _ _ _ _ => 0
  | .mpush _ _ _ => 0
  | .minv _ => 0
  | .mpop _ => 0
  | .vfrsum _ _ _ _ => 0
  | .vfrmax _ _ _ _ => 0
  | .vfrmin _ _ _ _ => 0
  | .virsum _ _ _ _ => 0
  | .virmax _ _ _ _ => 0
  | .virmin _ _ _ _ => 0
  | .vrand _ _ _ _ => 0
  | .vror _ _ _ _ => 0
  | .vperm _ _ _ _ _ _ => 0
  | .vbcast _ _ _ _ _ => 0
  | .vrot _ _ _ _ _ => 0
  | .vslup _ _ _ _ _ => 0
  | .vsldn _ _ _ _ _ => 0
  | .vzip _ _ _ _ _ _ => 0
  | .vunzip _ _ _ _ _ _ => 0
  | .vcompress _ _ _ _ _ _ => 0
  | .vexpand _ _ _ _ _ _ => 0
  | .vmov _ _ _ _ => 0
  | .vsplat _ _ _ _ => 0
  | .vins _ _ _ _ _ => 0
  | .vext _ _ _ _ _ => 0
  | .viota _ _ => 0
  | .vsel _ _ _ _ _ _ => 0
  | .vmaskrd _ _ => 0
  | .vmaskwr _ _ _ => 0
  | .enqw _ _ => 0
  | .enqg _ _ _ => 0
  | .enqm _ _ _ _ => 0
  | .tmark _ _ => 0
  | .accrd _ _ _ => 0
  | .enrgrd _ _ _ => 0
  | .lit v => 0 + v.toNat
  | .ext v => 0x8000 + v.toNat
  | .eshl n => 0xa700 + n.toNat
  | .zpush z => 0xa900 + z.toNat
  | .mpass g f z b a => 0xc000 + bit g * 2 ^ 6 + bit f * 2 ^ 5 + bit z * 2 ^ 4 + b.toNat * 2 ^ 2 + a.toNat
  | .mpassseg g f z b a => 0xc100 + bit g * 2 ^ 6 + bit f * 2 ^ 5 + bit z * 2 ^ 4 + b.toNat * 2 ^ 2 + a.toNat
  | .mpassgrp z b a => 0xc200 + bit z * 2 ^ 4 + b.toNat * 2 ^ 2 + a.toNat
  | .mdrain c d m => 0xc300 + bit c * 2 ^ 3 + bit d * 2 ^ 2 + m.toNat
  | .ccopy f c r m => 0xc000 + bit f * 2 ^ 6 + bit c * 2 ^ 5 + r.toNat * 2 ^ 2 + m.toNat
  | .cgather c m => 0xc100 + bit c * 2 ^ 5 + m.toNat
  | .xwrite f => 0xc000 + bit f
  | .xcoll r => 0xc200 + bit r
  | .gate t => 0xe200 + t.toNat
  | .qgate n => 0xe300 + n.toNat
  | .signal n => 0xe400 + n.toNat
  | .capstart s => 0xe600 + s.toNat
  | .capstop s => 0xe700 + s.toNat
  | .endI => 0
  | .nop => 0
  | .syscall => 0
  | .rett => 0
  | .ien => 0
  | .idis => 0
  | .wfi => 0
  | .brk => 0
  | .dup => 0xa000
  | .drop => 0xa100
  | .swap => 0xa200
  | .overI => 0xa300
  | .eadd => 0xa400
  | .esub => 0xa500
  | .emul => 0xa600
  | .eor => 0xa800
  | .mzero => 0xc400
  | .cfill => 0xc200
  | .chint => 0xc300
  | .xread => 0xc100
  | .xroute => 0xc300
  | .xrlinv => 0xc400
  | .controlNop => 0xe000
  | .fenceq => 0xe100
  | .mark => 0xe500
  | .resultLands => 0
  | .storeLoadDataArrival => 0
  | .longLatencyReturn => 0
  | .vatReply => 0
  | .trapEntry => 0
  | .interruptEntry => 0
  | .timerExpiry => 0
  | .tmrcntWrite => 0
  | .bankbindWrite => 0
  | .fxdata => 0
  | .capdata => 0
  | .capclr => 0
  | .cueirqClear => 0
  | .qcmdResume => 0
  | .qcmdDiscard => 0
  | .qcmdReset => 0
  | .xinvPage => 0
  | .xinvAsid => 0
  | .xinvAll => 0
  | .watchpointChange => 0
  | .warpop => 0
  | .registerWrite => 0
  | .matrixChunk => 0
  | .entryCompletion => 0
  | .chainedEntryStart => 0
  | .copyTurn => 0
  | .transferChunk => 0
  | .signalCompletion => 0
  | .controlEntryCompletion => 0
  | .deferredReadiness => 0
  | .cueTermEvaluation => 0
  | .xcollFiring => 0
  | .posting => 0
  | .contributionArrival => 0
  | .receptionCueIncrement => 0
  | .backPressureRelease => 0
  | .routeRowScored => 0
  | .writeAppliedAtHome => 0
  | .readAnsweredAtHome => 0
  | .frontierSend => 0
  | .vatHomeOperation => 0
  | .vatArrivalAtPairingPoint => 0
  | .pairingWindowExpiry => 0
  | .clockRenormalisation => 0
  | .pageWalk => 0
  | .notify => 0
  | .remoteNotify => 0
  | .mapperRun => 0
  | .packetRead => 0
  | .troupePlacement => 0
  | .tickEdge => 0
  | .deadlineExpiry => 0
  | .watchdogExpiry => 0
  | .cellCompletion => 0
  | .sceneCompletion => 0
  | .preempt => 0
  | .hardStop => 0
  | .contextSave => 0
  | .contextRestore => 0
  | .debughalt => 0
  | .stop => 0
  | .watchReportEntry => 0
  | .sample => 0
  | .fabricRefusalArrives => 0
  | .ingressRequestArrival => 0
  | .flitArbitration => 0
  | .linkRetry => 0
  | .linkDown => 0
  | .linkRetirement => 0
  | .routingTableRewrite => 0
  | .hostWrite => 0
  | .hostRead => 0
  | .scrubStep => 0
  | .cellRetirement => 0
  | .aperture => 0
  | .qtable => 0
  | .cap => 0
  | .tickper => 0
  | .halt => 0
  | .resume => 0
  | .warmreset => 0
  | .coldReset => 0
  | .linkReset => 0
  | .bringUpPhase => 0
  | .junctionSensorRead => 0
  | .thermalTrip => 0
  | .powerCapStep => 0
  | .ratioChange => 0
  | .writeAcknowledged => 0
  | .operandQueueRowLands => 0

/-- True of the rows that are control-core instructions, the ones `encode` encodes. -/
def Instr.isCore : Instr → Bool
  | .add _ _ _ _ _ => true
  | .sub _ _ _ _ _ => true
  | .and _ _ _ _ _ => true
  | .or _ _ _ _ _ => true
  | .xor _ _ _ _ _ => true
  | .andn _ _ _ _ _ => true
  | .shl _ _ _ _ _ => true
  | .shr _ _ _ _ _ => true
  | .sar _ _ _ _ _ => true
  | .mul _ _ _ _ _ => true
  | .mulh _ _ _ _ _ => true
  | .mulhu _ _ _ _ _ => true
  | .div _ _ _ _ _ => true
  | .divu _ _ _ _ _ => true
  | .rem _ _ _ _ _ => true
  | .remu _ _ _ _ _ => true
  | .min _ _ _ _ _ => true
  | .max _ _ _ _ _ => true
  | .minu _ _ _ _ _ => true
  | .maxu _ _ _ _ _ => true
  | .ceq _ _ _ _ _ => true
  | .cne _ _ _ _ _ => true
  | .clt _ _ _ _ _ => true
  | .cltu _ _ _ _ _ => true
  | .cle _ _ _ _ _ => true
  | .cleu _ _ _ _ _ => true
  | .sel _ _ _ _ _ => true
  | .popc _ _ _ => true
  | .clz _ _ _ => true
  | .ctz _ _ _ => true
  | .rank _ _ _ _ _ => true
  | .select _ _ _ _ _ => true
  | .sext _ _ _ _ _ => true
  | .bext _ _ _ _ _ => true
  | .brev _ _ _ => true
  | .addi _ _ _ => true
  | .andi _ _ _ => true
  | .ori _ _ _ => true
  | .xori _ _ _ => true
  | .shli _ _ _ => true
  | .shri _ _ _ => true
  | .sari _ _ _ => true
  | .slti _ _ _ => true
  | .sltiu _ _ _ => true
  | .addpc _ _ => true
  | .muli _ _ _ => true
  | .j _ => true
  | .call _ => true
  | .bez _ _ => true
  | .bnz _ _ => true
  | .bltz _ _ => true
  | .bknone _ => true
  | .bkany _ => true
  | .bkall _ => true
  | .loop _ _ => true
  | .jr _ _ => true
  | .callr _ _ => true
  | .csrr _ _ => true
  | .csrw _ _ _ => true
  | .csrs _ _ _ => true
  | .csrc _ _ _ => true
  | .csrx _ _ _ => true
  | .zset _ _ _ => true
  | .zsetW _ _ _ => true
  | .zget _ _ => true
  | .zpend _ _ => true
  | .ld _ _ _ => true
  | .ldw _ _ _ => true
  | .st _ _ _ => true
  | .stw _ _ _ => true
  | .vld _ _ _ => true
  | .vst _ _ _ => true
  | .oqld _ _ _ => true
  | .aadd _ _ _ _ _ _ => true
  | .aand _ _ _ _ _ _ => true
  | .aor _ _ _ _ _ _ => true
  | .axor _ _ _ _ _ _ => true
  | .amin _ _ _ _ _ _ => true
  | .amax _ _ _ _ _ _ => true
  | .aminu _ _ _ _ _ _ => true
  | .amaxu _ _ _ _ _ _ => true
  | .aswap _ _ _ _ _ _ => true
  | .aaddW _ _ _ _ _ _ => true
  | .aandW _ _ _ _ _ _ => true
  | .aorW _ _ _ _ _ _ => true
  | .axorW _ _ _ _ _ _ => true
  | .aminW _ _ _ _ _ _ => true
  | .amaxW _ _ _ _ _ _ => true
  | .aminuW _ _ _ _ _ _ => true
  | .amaxuW _ _ _ _ _ _ => true
  | .aswapW _ _ _ _ _ _ => true
  | .afaddW _ _ _ _ _ _ => true
  | .cas _ _ _ _ _ _ => true
  | .casW _ _ _ _ _ _ => true
  | .vpush _ _ _ _ _ _ => true
  | .vpop _ _ _ _ => true
  | .vpopnb _ _ _ _ _ => true
  | .rcsnap _ _ _ _ => true
  | .rcread _ _ _ _ _ _ => true
  | .tnew _ _ _ _ => true
  | .tfree _ _ => true
  | .tstate _ _ _ => true
  | .tsetrdy _ _ => true
  | .twait _ _ _ _ => true
  | .rgset _ _ _ => true
  | .rwfill _ _ => true
  | .rwfree _ _ => true
  | .rclaim _ _ _ => true
  | .rrelease _ _ => true
  | .abump _ _ _ _ => true
  | .amark _ _ => true
  | .arelmark _ _ _ => true
  | .aring _ _ _ _ => true
  | .afree _ _ _ => true
  | .astate _ _ _ => true
  | .fence _ => true
  | .bararr _ _ _ => true
  | .barwait _ _ _ _ => true
  | .barsync _ _ => true
  | .lend _ _ => true
  | .latld _ _ _ => true
  | .qadd _ _ => true
  | .qread _ _ => true
  | .qwait _ _ => true
  | .qterm _ _ => true
  | .vfadd _ _ _ _ _ _ => true
  | .vfsub _ _ _ _ _ _ => true
  | .vfmul _ _ _ _ _ _ => true
  | .vfma _ _ _ _ _ _ => true
  | .vfms _ _ _ _ _ _ => true
  | .vfnma _ _ _ _ _ _ => true
  | .vfmin _ _ _ _ _ _ => true
  | .vfmax _ _ _ _ _ _ => true
  | .vfabs _ _ _ _ => true
  | .vfneg _ _ _ _ => true
  | .vbadd _ _ _ _ _ _ => true
  | .vbsub _ _ _ _ _ _ => true
  | .vbmul _ _ _ _ _ _ => true
  | .vbfma _ _ _ _ _ _ => true
  | .vbmin _ _ _ _ _ _ => true
  | .vbmax _ _ _ _ _ _ => true
  | .viadd _ _ _ _ _ _ => true
  | .visub _ _ _ _ _ _ => true
  | .vimul _ _ _ _ _ _ => true
  | .vimulh _ _ _ _ _ _ => true
  | .vimin _ _ _ _ _ _ => true
  | .vimax _ _ _ _ _ _ => true
  | .viminu _ _ _ _ _ _ => true
  | .vimaxu _ _ _ _ _ _ => true
  | .viabs _ _ _ _ => true
  | .viadds _ _ _ _ _ _ => true
  | .visubs _ _ _ _ _ _ => true
  | .vand _ _ _ _ _ _ => true
  | .vor _ _ _ _ _ _ => true
  | .vxor _ _ _ _ _ _ => true
  | .vandn _ _ _ _ _ _ => true
  | .vshl _ _ _ _ _ _ => true
  | .vshr _ _ _ _ _ _ => true
  | .vsar _ _ _ _ _ _ => true
  | .vnot _ _ _ _ => true
  | .vpopc _ _ _ _ => true
  | .vclz _ _ _ _ => true
  | .frcp _ _ _ _ => true
  | .frsq _ _ _ _ => true
  | .fexp2 _ _ _ _ => true
  | .flog2 _ _ _ _ => true
  | .vcvtfh _ _ _ _ _ _ => true
  | .vcvthf _ _ _ _ _ _ => true
  | .vcvtfs _ _ _ _ _ _ => true
  | .vcvtsf _ _ _ _ _ _ => true
  | .vcvtfi _ _ _ _ _ _ => true
  | .vcvtif _ _ _ _ _ _ => true
  | .vcvtfu _ _ _ _ _ _ => true
  | .vcvtuf _ _ _ _ _ _ => true
  | .vrnd _ _ _ _ _ _ => true
  | .vfceq _ _ _ _ _ _ => true
  | .vfclt _ _ _ _ _ _ => true
  | .vfcle _ _ _ _ _ _ => true
  | .viceq _ _ _ _ _ _ => true
  | .viclt _ _ _ _ _ _ => true
  | .vicltu _ _ _ _ _ _ => true
  | .mpush _ _ _ => true
  | .minv _ => true
  | .mpop _ => true
  | .vfrsum _ _ _ _ => true
  | .vfrmax _ _ _ _ => true
  | .vfrmin _ _ _ _ => true
  | .virsum _ _ _ _ => true
  | .virmax _ _ _ _ => true
  | .virmin _ _ _ _ => true
  | .vrand _ _ _ _ => true
  | .vror _ _ _ _ => true
  | .vperm _ _ _ _ _ _ => true
  | .vbcast _ _ _ _ _ => true
  | .vrot _ _ _ _ _ => true
  | .vslup _ _ _ _ _ => true
  | .vsldn _ _ _ _ _ => true
  | .vzip _ _ _ _ _ _ => true
  | .vunzip _ _ _ _ _ _ => true
  | .vcompress _ _ _ _ _ _ => true
  | .vexpand _ _ _ _ _ _ => true
  | .vmov _ _ _ _ => true
  | .vsplat _ _ _ _ => true
  | .vins _ _ _ _ _ => true
  | .vext _ _ _ _ _ => true
  | .viota _ _ => true
  | .vsel _ _ _ _ _ _ => true
  | .vmaskrd _ _ => true
  | .vmaskwr _ _ _ => true
  | .enqw _ _ => true
  | .enqg _ _ _ => true
  | .enqm _ _ _ _ => true
  | .tmark _ _ => true
  | .accrd _ _ _ => true
  | .enrgrd _ _ _ => true
  | .lit _ => false
  | .ext _ => false
  | .eshl _ => false
  | .zpush _ => false
  | .mpass _ _ _ _ _ => false
  | .mpassseg _ _ _ _ _ => false
  | .mpassgrp _ _ _ => false
  | .mdrain _ _ _ => false
  | .ccopy _ _ _ _ => false
  | .cgather _ _ => false
  | .xwrite _ => false
  | .xcoll _ => false
  | .gate _ => false
  | .qgate _ => false
  | .signal _ => false
  | .capstart _ => false
  | .capstop _ => false
  | .endI => true
  | .nop => true
  | .syscall => true
  | .rett => true
  | .ien => true
  | .idis => true
  | .wfi => true
  | .brk => true
  | .dup => false
  | .drop => false
  | .swap => false
  | .overI => false
  | .eadd => false
  | .esub => false
  | .emul => false
  | .eor => false
  | .mzero => false
  | .cfill => false
  | .chint => false
  | .xread => false
  | .xroute => false
  | .xrlinv => false
  | .controlNop => false
  | .fenceq => false
  | .mark => false
  | .resultLands => false
  | .storeLoadDataArrival => false
  | .longLatencyReturn => false
  | .vatReply => false
  | .trapEntry => false
  | .interruptEntry => false
  | .timerExpiry => false
  | .tmrcntWrite => false
  | .bankbindWrite => false
  | .fxdata => false
  | .capdata => false
  | .capclr => false
  | .cueirqClear => false
  | .qcmdResume => false
  | .qcmdDiscard => false
  | .qcmdReset => false
  | .xinvPage => false
  | .xinvAsid => false
  | .xinvAll => false
  | .watchpointChange => false
  | .warpop => false
  | .registerWrite => false
  | .matrixChunk => false
  | .entryCompletion => false
  | .chainedEntryStart => false
  | .copyTurn => false
  | .transferChunk => false
  | .signalCompletion => false
  | .controlEntryCompletion => false
  | .deferredReadiness => false
  | .cueTermEvaluation => false
  | .xcollFiring => false
  | .posting => false
  | .contributionArrival => false
  | .receptionCueIncrement => false
  | .backPressureRelease => false
  | .routeRowScored => false
  | .writeAppliedAtHome => false
  | .readAnsweredAtHome => false
  | .frontierSend => false
  | .vatHomeOperation => false
  | .vatArrivalAtPairingPoint => false
  | .pairingWindowExpiry => false
  | .clockRenormalisation => false
  | .pageWalk => false
  | .notify => false
  | .remoteNotify => false
  | .mapperRun => false
  | .packetRead => false
  | .troupePlacement => false
  | .tickEdge => false
  | .deadlineExpiry => false
  | .watchdogExpiry => false
  | .cellCompletion => false
  | .sceneCompletion => false
  | .preempt => false
  | .hardStop => false
  | .contextSave => false
  | .contextRestore => false
  | .debughalt => false
  | .stop => false
  | .watchReportEntry => false
  | .sample => false
  | .fabricRefusalArrives => false
  | .ingressRequestArrival => false
  | .flitArbitration => false
  | .linkRetry => false
  | .linkDown => false
  | .linkRetirement => false
  | .routingTableRewrite => false
  | .hostWrite => false
  | .hostRead => false
  | .scrubStep => false
  | .cellRetirement => false
  | .aperture => false
  | .qtable => false
  | .cap => false
  | .tickper => false
  | .halt => false
  | .resume => false
  | .warmreset => false
  | .coldReset => false
  | .linkReset => false
  | .bringUpPhase => false
  | .junctionSensorRead => false
  | .thermalTrip => false
  | .powerCapStep => false
  | .ratioChange => false
  | .writeAcknowledged => false
  | .operandQueueRowLands => false

/-- True of the rows that are engine words. -/
def Instr.isEngineWord : Instr → Bool
  | .add _ _ _ _ _ => false
  | .sub _ _ _ _ _ => false
  | .and _ _ _ _ _ => false
  | .or _ _ _ _ _ => false
  | .xor _ _ _ _ _ => false
  | .andn _ _ _ _ _ => false
  | .shl _ _ _ _ _ => false
  | .shr _ _ _ _ _ => false
  | .sar _ _ _ _ _ => false
  | .mul _ _ _ _ _ => false
  | .mulh _ _ _ _ _ => false
  | .mulhu _ _ _ _ _ => false
  | .div _ _ _ _ _ => false
  | .divu _ _ _ _ _ => false
  | .rem _ _ _ _ _ => false
  | .remu _ _ _ _ _ => false
  | .min _ _ _ _ _ => false
  | .max _ _ _ _ _ => false
  | .minu _ _ _ _ _ => false
  | .maxu _ _ _ _ _ => false
  | .ceq _ _ _ _ _ => false
  | .cne _ _ _ _ _ => false
  | .clt _ _ _ _ _ => false
  | .cltu _ _ _ _ _ => false
  | .cle _ _ _ _ _ => false
  | .cleu _ _ _ _ _ => false
  | .sel _ _ _ _ _ => false
  | .popc _ _ _ => false
  | .clz _ _ _ => false
  | .ctz _ _ _ => false
  | .rank _ _ _ _ _ => false
  | .select _ _ _ _ _ => false
  | .sext _ _ _ _ _ => false
  | .bext _ _ _ _ _ => false
  | .brev _ _ _ => false
  | .addi _ _ _ => false
  | .andi _ _ _ => false
  | .ori _ _ _ => false
  | .xori _ _ _ => false
  | .shli _ _ _ => false
  | .shri _ _ _ => false
  | .sari _ _ _ => false
  | .slti _ _ _ => false
  | .sltiu _ _ _ => false
  | .addpc _ _ => false
  | .muli _ _ _ => false
  | .j _ => false
  | .call _ => false
  | .bez _ _ => false
  | .bnz _ _ => false
  | .bltz _ _ => false
  | .bknone _ => false
  | .bkany _ => false
  | .bkall _ => false
  | .loop _ _ => false
  | .jr _ _ => false
  | .callr _ _ => false
  | .csrr _ _ => false
  | .csrw _ _ _ => false
  | .csrs _ _ _ => false
  | .csrc _ _ _ => false
  | .csrx _ _ _ => false
  | .zset _ _ _ => false
  | .zsetW _ _ _ => false
  | .zget _ _ => false
  | .zpend _ _ => false
  | .ld _ _ _ => false
  | .ldw _ _ _ => false
  | .st _ _ _ => false
  | .stw _ _ _ => false
  | .vld _ _ _ => false
  | .vst _ _ _ => false
  | .oqld _ _ _ => false
  | .aadd _ _ _ _ _ _ => false
  | .aand _ _ _ _ _ _ => false
  | .aor _ _ _ _ _ _ => false
  | .axor _ _ _ _ _ _ => false
  | .amin _ _ _ _ _ _ => false
  | .amax _ _ _ _ _ _ => false
  | .aminu _ _ _ _ _ _ => false
  | .amaxu _ _ _ _ _ _ => false
  | .aswap _ _ _ _ _ _ => false
  | .aaddW _ _ _ _ _ _ => false
  | .aandW _ _ _ _ _ _ => false
  | .aorW _ _ _ _ _ _ => false
  | .axorW _ _ _ _ _ _ => false
  | .aminW _ _ _ _ _ _ => false
  | .amaxW _ _ _ _ _ _ => false
  | .aminuW _ _ _ _ _ _ => false
  | .amaxuW _ _ _ _ _ _ => false
  | .aswapW _ _ _ _ _ _ => false
  | .afaddW _ _ _ _ _ _ => false
  | .cas _ _ _ _ _ _ => false
  | .casW _ _ _ _ _ _ => false
  | .vpush _ _ _ _ _ _ => false
  | .vpop _ _ _ _ => false
  | .vpopnb _ _ _ _ _ => false
  | .rcsnap _ _ _ _ => false
  | .rcread _ _ _ _ _ _ => false
  | .tnew _ _ _ _ => false
  | .tfree _ _ => false
  | .tstate _ _ _ => false
  | .tsetrdy _ _ => false
  | .twait _ _ _ _ => false
  | .rgset _ _ _ => false
  | .rwfill _ _ => false
  | .rwfree _ _ => false
  | .rclaim _ _ _ => false
  | .rrelease _ _ => false
  | .abump _ _ _ _ => false
  | .amark _ _ => false
  | .arelmark _ _ _ => false
  | .aring _ _ _ _ => false
  | .afree _ _ _ => false
  | .astate _ _ _ => false
  | .fence _ => false
  | .bararr _ _ _ => false
  | .barwait _ _ _ _ => false
  | .barsync _ _ => false
  | .lend _ _ => false
  | .latld _ _ _ => false
  | .qadd _ _ => false
  | .qread _ _ => false
  | .qwait _ _ => false
  | .qterm _ _ => false
  | .vfadd _ _ _ _ _ _ => false
  | .vfsub _ _ _ _ _ _ => false
  | .vfmul _ _ _ _ _ _ => false
  | .vfma _ _ _ _ _ _ => false
  | .vfms _ _ _ _ _ _ => false
  | .vfnma _ _ _ _ _ _ => false
  | .vfmin _ _ _ _ _ _ => false
  | .vfmax _ _ _ _ _ _ => false
  | .vfabs _ _ _ _ => false
  | .vfneg _ _ _ _ => false
  | .vbadd _ _ _ _ _ _ => false
  | .vbsub _ _ _ _ _ _ => false
  | .vbmul _ _ _ _ _ _ => false
  | .vbfma _ _ _ _ _ _ => false
  | .vbmin _ _ _ _ _ _ => false
  | .vbmax _ _ _ _ _ _ => false
  | .viadd _ _ _ _ _ _ => false
  | .visub _ _ _ _ _ _ => false
  | .vimul _ _ _ _ _ _ => false
  | .vimulh _ _ _ _ _ _ => false
  | .vimin _ _ _ _ _ _ => false
  | .vimax _ _ _ _ _ _ => false
  | .viminu _ _ _ _ _ _ => false
  | .vimaxu _ _ _ _ _ _ => false
  | .viabs _ _ _ _ => false
  | .viadds _ _ _ _ _ _ => false
  | .visubs _ _ _ _ _ _ => false
  | .vand _ _ _ _ _ _ => false
  | .vor _ _ _ _ _ _ => false
  | .vxor _ _ _ _ _ _ => false
  | .vandn _ _ _ _ _ _ => false
  | .vshl _ _ _ _ _ _ => false
  | .vshr _ _ _ _ _ _ => false
  | .vsar _ _ _ _ _ _ => false
  | .vnot _ _ _ _ => false
  | .vpopc _ _ _ _ => false
  | .vclz _ _ _ _ => false
  | .frcp _ _ _ _ => false
  | .frsq _ _ _ _ => false
  | .fexp2 _ _ _ _ => false
  | .flog2 _ _ _ _ => false
  | .vcvtfh _ _ _ _ _ _ => false
  | .vcvthf _ _ _ _ _ _ => false
  | .vcvtfs _ _ _ _ _ _ => false
  | .vcvtsf _ _ _ _ _ _ => false
  | .vcvtfi _ _ _ _ _ _ => false
  | .vcvtif _ _ _ _ _ _ => false
  | .vcvtfu _ _ _ _ _ _ => false
  | .vcvtuf _ _ _ _ _ _ => false
  | .vrnd _ _ _ _ _ _ => false
  | .vfceq _ _ _ _ _ _ => false
  | .vfclt _ _ _ _ _ _ => false
  | .vfcle _ _ _ _ _ _ => false
  | .viceq _ _ _ _ _ _ => false
  | .viclt _ _ _ _ _ _ => false
  | .vicltu _ _ _ _ _ _ => false
  | .mpush _ _ _ => false
  | .minv _ => false
  | .mpop _ => false
  | .vfrsum _ _ _ _ => false
  | .vfrmax _ _ _ _ => false
  | .vfrmin _ _ _ _ => false
  | .virsum _ _ _ _ => false
  | .virmax _ _ _ _ => false
  | .virmin _ _ _ _ => false
  | .vrand _ _ _ _ => false
  | .vror _ _ _ _ => false
  | .vperm _ _ _ _ _ _ => false
  | .vbcast _ _ _ _ _ => false
  | .vrot _ _ _ _ _ => false
  | .vslup _ _ _ _ _ => false
  | .vsldn _ _ _ _ _ => false
  | .vzip _ _ _ _ _ _ => false
  | .vunzip _ _ _ _ _ _ => false
  | .vcompress _ _ _ _ _ _ => false
  | .vexpand _ _ _ _ _ _ => false
  | .vmov _ _ _ _ => false
  | .vsplat _ _ _ _ => false
  | .vins _ _ _ _ _ => false
  | .vext _ _ _ _ _ => false
  | .viota _ _ => false
  | .vsel _ _ _ _ _ _ => false
  | .vmaskrd _ _ => false
  | .vmaskwr _ _ _ => false
  | .enqw _ _ => false
  | .enqg _ _ _ => false
  | .enqm _ _ _ _ => false
  | .tmark _ _ => false
  | .accrd _ _ _ => false
  | .enrgrd _ _ _ => false
  | .lit _ => true
  | .ext _ => true
  | .eshl _ => true
  | .zpush _ => true
  | .mpass _ _ _ _ _ => true
  | .mpassseg _ _ _ _ _ => true
  | .mpassgrp _ _ _ => true
  | .mdrain _ _ _ => true
  | .ccopy _ _ _ _ => true
  | .cgather _ _ => true
  | .xwrite _ => true
  | .xcoll _ => true
  | .gate _ => true
  | .qgate _ => true
  | .signal _ => true
  | .capstart _ => true
  | .capstop _ => true
  | .endI => false
  | .nop => false
  | .syscall => false
  | .rett => false
  | .ien => false
  | .idis => false
  | .wfi => false
  | .brk => false
  | .dup => true
  | .drop => true
  | .swap => true
  | .overI => true
  | .eadd => true
  | .esub => true
  | .emul => true
  | .eor => true
  | .mzero => true
  | .cfill => true
  | .chint => true
  | .xread => true
  | .xroute => true
  | .xrlinv => true
  | .controlNop => true
  | .fenceq => true
  | .mark => true
  | .resultLands => false
  | .storeLoadDataArrival => false
  | .longLatencyReturn => false
  | .vatReply => false
  | .trapEntry => false
  | .interruptEntry => false
  | .timerExpiry => false
  | .tmrcntWrite => false
  | .bankbindWrite => false
  | .fxdata => false
  | .capdata => false
  | .capclr => false
  | .cueirqClear => false
  | .qcmdResume => false
  | .qcmdDiscard => false
  | .qcmdReset => false
  | .xinvPage => false
  | .xinvAsid => false
  | .xinvAll => false
  | .watchpointChange => false
  | .warpop => false
  | .registerWrite => false
  | .matrixChunk => false
  | .entryCompletion => false
  | .chainedEntryStart => false
  | .copyTurn => false
  | .transferChunk => false
  | .signalCompletion => false
  | .controlEntryCompletion => false
  | .deferredReadiness => false
  | .cueTermEvaluation => false
  | .xcollFiring => false
  | .posting => false
  | .contributionArrival => false
  | .receptionCueIncrement => false
  | .backPressureRelease => false
  | .routeRowScored => false
  | .writeAppliedAtHome => false
  | .readAnsweredAtHome => false
  | .frontierSend => false
  | .vatHomeOperation => false
  | .vatArrivalAtPairingPoint => false
  | .pairingWindowExpiry => false
  | .clockRenormalisation => false
  | .pageWalk => false
  | .notify => false
  | .remoteNotify => false
  | .mapperRun => false
  | .packetRead => false
  | .troupePlacement => false
  | .tickEdge => false
  | .deadlineExpiry => false
  | .watchdogExpiry => false
  | .cellCompletion => false
  | .sceneCompletion => false
  | .preempt => false
  | .hardStop => false
  | .contextSave => false
  | .contextRestore => false
  | .debughalt => false
  | .stop => false
  | .watchReportEntry => false
  | .sample => false
  | .fabricRefusalArrives => false
  | .ingressRequestArrival => false
  | .flitArbitration => false
  | .linkRetry => false
  | .linkDown => false
  | .linkRetirement => false
  | .routingTableRewrite => false
  | .hostWrite => false
  | .hostRead => false
  | .scrubStep => false
  | .cellRetirement => false
  | .aperture => false
  | .qtable => false
  | .cap => false
  | .tickper => false
  | .halt => false
  | .resume => false
  | .warmreset => false
  | .coldReset => false
  | .linkReset => false
  | .bringUpPhase => false
  | .junctionSensorRead => false
  | .thermalTrip => false
  | .powerCapStep => false
  | .ratioChange => false
  | .writeAcknowledged => false
  | .operandQueueRowLands => false

/-- The engine on which an engine word has its meaning: launch words have one, the others every engine. -/
def Instr.onEngine (e : EngineKind) : Instr → Bool
  | .add _ _ _ _ _ => false
  | .sub _ _ _ _ _ => false
  | .and _ _ _ _ _ => false
  | .or _ _ _ _ _ => false
  | .xor _ _ _ _ _ => false
  | .andn _ _ _ _ _ => false
  | .shl _ _ _ _ _ => false
  | .shr _ _ _ _ _ => false
  | .sar _ _ _ _ _ => false
  | .mul _ _ _ _ _ => false
  | .mulh _ _ _ _ _ => false
  | .mulhu _ _ _ _ _ => false
  | .div _ _ _ _ _ => false
  | .divu _ _ _ _ _ => false
  | .rem _ _ _ _ _ => false
  | .remu _ _ _ _ _ => false
  | .min _ _ _ _ _ => false
  | .max _ _ _ _ _ => false
  | .minu _ _ _ _ _ => false
  | .maxu _ _ _ _ _ => false
  | .ceq _ _ _ _ _ => false
  | .cne _ _ _ _ _ => false
  | .clt _ _ _ _ _ => false
  | .cltu _ _ _ _ _ => false
  | .cle _ _ _ _ _ => false
  | .cleu _ _ _ _ _ => false
  | .sel _ _ _ _ _ => false
  | .popc _ _ _ => false
  | .clz _ _ _ => false
  | .ctz _ _ _ => false
  | .rank _ _ _ _ _ => false
  | .select _ _ _ _ _ => false
  | .sext _ _ _ _ _ => false
  | .bext _ _ _ _ _ => false
  | .brev _ _ _ => false
  | .addi _ _ _ => false
  | .andi _ _ _ => false
  | .ori _ _ _ => false
  | .xori _ _ _ => false
  | .shli _ _ _ => false
  | .shri _ _ _ => false
  | .sari _ _ _ => false
  | .slti _ _ _ => false
  | .sltiu _ _ _ => false
  | .addpc _ _ => false
  | .muli _ _ _ => false
  | .j _ => false
  | .call _ => false
  | .bez _ _ => false
  | .bnz _ _ => false
  | .bltz _ _ => false
  | .bknone _ => false
  | .bkany _ => false
  | .bkall _ => false
  | .loop _ _ => false
  | .jr _ _ => false
  | .callr _ _ => false
  | .csrr _ _ => false
  | .csrw _ _ _ => false
  | .csrs _ _ _ => false
  | .csrc _ _ _ => false
  | .csrx _ _ _ => false
  | .zset _ _ _ => false
  | .zsetW _ _ _ => false
  | .zget _ _ => false
  | .zpend _ _ => false
  | .ld _ _ _ => false
  | .ldw _ _ _ => false
  | .st _ _ _ => false
  | .stw _ _ _ => false
  | .vld _ _ _ => false
  | .vst _ _ _ => false
  | .oqld _ _ _ => false
  | .aadd _ _ _ _ _ _ => false
  | .aand _ _ _ _ _ _ => false
  | .aor _ _ _ _ _ _ => false
  | .axor _ _ _ _ _ _ => false
  | .amin _ _ _ _ _ _ => false
  | .amax _ _ _ _ _ _ => false
  | .aminu _ _ _ _ _ _ => false
  | .amaxu _ _ _ _ _ _ => false
  | .aswap _ _ _ _ _ _ => false
  | .aaddW _ _ _ _ _ _ => false
  | .aandW _ _ _ _ _ _ => false
  | .aorW _ _ _ _ _ _ => false
  | .axorW _ _ _ _ _ _ => false
  | .aminW _ _ _ _ _ _ => false
  | .amaxW _ _ _ _ _ _ => false
  | .aminuW _ _ _ _ _ _ => false
  | .amaxuW _ _ _ _ _ _ => false
  | .aswapW _ _ _ _ _ _ => false
  | .afaddW _ _ _ _ _ _ => false
  | .cas _ _ _ _ _ _ => false
  | .casW _ _ _ _ _ _ => false
  | .vpush _ _ _ _ _ _ => false
  | .vpop _ _ _ _ => false
  | .vpopnb _ _ _ _ _ => false
  | .rcsnap _ _ _ _ => false
  | .rcread _ _ _ _ _ _ => false
  | .tnew _ _ _ _ => false
  | .tfree _ _ => false
  | .tstate _ _ _ => false
  | .tsetrdy _ _ => false
  | .twait _ _ _ _ => false
  | .rgset _ _ _ => false
  | .rwfill _ _ => false
  | .rwfree _ _ => false
  | .rclaim _ _ _ => false
  | .rrelease _ _ => false
  | .abump _ _ _ _ => false
  | .amark _ _ => false
  | .arelmark _ _ _ => false
  | .aring _ _ _ _ => false
  | .afree _ _ _ => false
  | .astate _ _ _ => false
  | .fence _ => false
  | .bararr _ _ _ => false
  | .barwait _ _ _ _ => false
  | .barsync _ _ => false
  | .lend _ _ => false
  | .latld _ _ _ => false
  | .qadd _ _ => false
  | .qread _ _ => false
  | .qwait _ _ => false
  | .qterm _ _ => false
  | .vfadd _ _ _ _ _ _ => false
  | .vfsub _ _ _ _ _ _ => false
  | .vfmul _ _ _ _ _ _ => false
  | .vfma _ _ _ _ _ _ => false
  | .vfms _ _ _ _ _ _ => false
  | .vfnma _ _ _ _ _ _ => false
  | .vfmin _ _ _ _ _ _ => false
  | .vfmax _ _ _ _ _ _ => false
  | .vfabs _ _ _ _ => false
  | .vfneg _ _ _ _ => false
  | .vbadd _ _ _ _ _ _ => false
  | .vbsub _ _ _ _ _ _ => false
  | .vbmul _ _ _ _ _ _ => false
  | .vbfma _ _ _ _ _ _ => false
  | .vbmin _ _ _ _ _ _ => false
  | .vbmax _ _ _ _ _ _ => false
  | .viadd _ _ _ _ _ _ => false
  | .visub _ _ _ _ _ _ => false
  | .vimul _ _ _ _ _ _ => false
  | .vimulh _ _ _ _ _ _ => false
  | .vimin _ _ _ _ _ _ => false
  | .vimax _ _ _ _ _ _ => false
  | .viminu _ _ _ _ _ _ => false
  | .vimaxu _ _ _ _ _ _ => false
  | .viabs _ _ _ _ => false
  | .viadds _ _ _ _ _ _ => false
  | .visubs _ _ _ _ _ _ => false
  | .vand _ _ _ _ _ _ => false
  | .vor _ _ _ _ _ _ => false
  | .vxor _ _ _ _ _ _ => false
  | .vandn _ _ _ _ _ _ => false
  | .vshl _ _ _ _ _ _ => false
  | .vshr _ _ _ _ _ _ => false
  | .vsar _ _ _ _ _ _ => false
  | .vnot _ _ _ _ => false
  | .vpopc _ _ _ _ => false
  | .vclz _ _ _ _ => false
  | .frcp _ _ _ _ => false
  | .frsq _ _ _ _ => false
  | .fexp2 _ _ _ _ => false
  | .flog2 _ _ _ _ => false
  | .vcvtfh _ _ _ _ _ _ => false
  | .vcvthf _ _ _ _ _ _ => false
  | .vcvtfs _ _ _ _ _ _ => false
  | .vcvtsf _ _ _ _ _ _ => false
  | .vcvtfi _ _ _ _ _ _ => false
  | .vcvtif _ _ _ _ _ _ => false
  | .vcvtfu _ _ _ _ _ _ => false
  | .vcvtuf _ _ _ _ _ _ => false
  | .vrnd _ _ _ _ _ _ => false
  | .vfceq _ _ _ _ _ _ => false
  | .vfclt _ _ _ _ _ _ => false
  | .vfcle _ _ _ _ _ _ => false
  | .viceq _ _ _ _ _ _ => false
  | .viclt _ _ _ _ _ _ => false
  | .vicltu _ _ _ _ _ _ => false
  | .mpush _ _ _ => false
  | .minv _ => false
  | .mpop _ => false
  | .vfrsum _ _ _ _ => false
  | .vfrmax _ _ _ _ => false
  | .vfrmin _ _ _ _ => false
  | .virsum _ _ _ _ => false
  | .virmax _ _ _ _ => false
  | .virmin _ _ _ _ => false
  | .vrand _ _ _ _ => false
  | .vror _ _ _ _ => false
  | .vperm _ _ _ _ _ _ => false
  | .vbcast _ _ _ _ _ => false
  | .vrot _ _ _ _ _ => false
  | .vslup _ _ _ _ _ => false
  | .vsldn _ _ _ _ _ => false
  | .vzip _ _ _ _ _ _ => false
  | .vunzip _ _ _ _ _ _ => false
  | .vcompress _ _ _ _ _ _ => false
  | .vexpand _ _ _ _ _ _ => false
  | .vmov _ _ _ _ => false
  | .vsplat _ _ _ _ => false
  | .vins _ _ _ _ _ => false
  | .vext _ _ _ _ _ => false
  | .viota _ _ => false
  | .vsel _ _ _ _ _ _ => false
  | .vmaskrd _ _ => false
  | .vmaskwr _ _ _ => false
  | .enqw _ _ => false
  | .enqg _ _ _ => false
  | .enqm _ _ _ _ => false
  | .tmark _ _ => false
  | .accrd _ _ _ => false
  | .enrgrd _ _ _ => false
  | .lit _ => true
  | .ext _ => true
  | .eshl _ => true
  | .zpush _ => true
  | .mpass _ _ _ _ _ => e == .matrix
  | .mpassseg _ _ _ _ _ => e == .matrix
  | .mpassgrp _ _ _ => e == .matrix
  | .mdrain _ _ _ => e == .matrix
  | .ccopy _ _ _ _ => e == .copy
  | .cgather _ _ => e == .copy
  | .xwrite _ => e == .transfer
  | .xcoll _ => e == .transfer
  | .gate _ => true
  | .qgate _ => true
  | .signal _ => true
  | .capstart _ => true
  | .capstop _ => true
  | .endI => false
  | .nop => false
  | .syscall => false
  | .rett => false
  | .ien => false
  | .idis => false
  | .wfi => false
  | .brk => false
  | .dup => true
  | .drop => true
  | .swap => true
  | .overI => true
  | .eadd => true
  | .esub => true
  | .emul => true
  | .eor => true
  | .mzero => e == .matrix
  | .cfill => e == .copy
  | .chint => e == .copy
  | .xread => e == .transfer
  | .xroute => e == .transfer
  | .xrlinv => e == .transfer
  | .controlNop => true
  | .fenceq => true
  | .mark => true
  | .resultLands => false
  | .storeLoadDataArrival => false
  | .longLatencyReturn => false
  | .vatReply => false
  | .trapEntry => false
  | .interruptEntry => false
  | .timerExpiry => false
  | .tmrcntWrite => false
  | .bankbindWrite => false
  | .fxdata => false
  | .capdata => false
  | .capclr => false
  | .cueirqClear => false
  | .qcmdResume => false
  | .qcmdDiscard => false
  | .qcmdReset => false
  | .xinvPage => false
  | .xinvAsid => false
  | .xinvAll => false
  | .watchpointChange => false
  | .warpop => false
  | .registerWrite => false
  | .matrixChunk => false
  | .entryCompletion => false
  | .chainedEntryStart => false
  | .copyTurn => false
  | .transferChunk => false
  | .signalCompletion => false
  | .controlEntryCompletion => false
  | .deferredReadiness => false
  | .cueTermEvaluation => false
  | .xcollFiring => false
  | .posting => false
  | .contributionArrival => false
  | .receptionCueIncrement => false
  | .backPressureRelease => false
  | .routeRowScored => false
  | .writeAppliedAtHome => false
  | .readAnsweredAtHome => false
  | .frontierSend => false
  | .vatHomeOperation => false
  | .vatArrivalAtPairingPoint => false
  | .pairingWindowExpiry => false
  | .clockRenormalisation => false
  | .pageWalk => false
  | .notify => false
  | .remoteNotify => false
  | .mapperRun => false
  | .packetRead => false
  | .troupePlacement => false
  | .tickEdge => false
  | .deadlineExpiry => false
  | .watchdogExpiry => false
  | .cellCompletion => false
  | .sceneCompletion => false
  | .preempt => false
  | .hardStop => false
  | .contextSave => false
  | .contextRestore => false
  | .debughalt => false
  | .stop => false
  | .watchReportEntry => false
  | .sample => false
  | .fabricRefusalArrives => false
  | .ingressRequestArrival => false
  | .flitArbitration => false
  | .linkRetry => false
  | .linkDown => false
  | .linkRetirement => false
  | .routingTableRewrite => false
  | .hostWrite => false
  | .hostRead => false
  | .scrubStep => false
  | .cellRetirement => false
  | .aperture => false
  | .qtable => false
  | .cap => false
  | .tickper => false
  | .halt => false
  | .resume => false
  | .warmreset => false
  | .coldReset => false
  | .linkReset => false
  | .bringUpPhase => false
  | .junctionSensorRead => false
  | .thermalTrip => false
  | .powerCapStep => false
  | .ratioChange => false
  | .writeAcknowledged => false
  | .operandQueueRowLands => false

end Sys2Proof
end

