-- ==== Sys2Proof/Machine/Sparse.lean ====
section
/-!
DEFINITION. Sparse storage: a list of (key, value) pairs in one canonical form, keys strictly rising and no entry
equal to zero, which is what an unlisted key reads as. Memories, stores, the register space, the CSRs and the small
tables are all held so, so that equal contents are equal data. Byte order is little-endian (R11), decided here once.
-/

namespace Sys2Proof.Machine

/-- Sparse contents of `w`-bit values. -/
abbrev Sparse (w : Nat) := List (Nat × BitVec w)

/-- The value at a key. -/
def Sparse.get {w : Nat} : Sparse w → Nat → BitVec w
  | [], _ => 0
  | (a, v) :: m, k => if a = k then v else Sparse.get m k

/-- Every key of the list lies above `k`, rising, with no zero entry. -/
def Sparse.above {w : Nat} : Nat → Sparse w → Bool
  | _, [] => true
  | k, (a, v) :: m => decide (k < a) && decide (v ≠ 0) && Sparse.above a m

/-- The canonical form. -/
def Sparse.wf {w : Nat} : Sparse w → Bool
  | [] => true
  | (a, v) :: m => decide (v ≠ 0) && Sparse.above a m

/-- The entries of consecutive keys from `k`, zeros left out. -/
def Sparse.run {w : Nat} : Nat → List (BitVec w) → Sparse w
  | _, [] => []
  | k, v :: vs => if v = 0 then Sparse.run (k + 1) vs else (k, v) :: Sparse.run (k + 1) vs

/-- The contents with the consecutive keys from `k` replaced by a list of values. -/
def Sparse.setRun {w : Nat} (m : Sparse w) (k : Nat) (vs : List (BitVec w)) : Sparse w :=
  m.filter (fun e => decide (e.1 < k)) ++ Sparse.run k vs ++ m.filter (fun e => decide (k + vs.length ≤ e.1))

/-- The contents with the value at a key replaced; writing zero removes the entry. -/
def Sparse.set {w : Nat} (m : Sparse w) (k : Nat) (v : BitVec w) : Sparse w := Sparse.setRun m k [v]

/-- The values of `n` consecutive keys from `k`. -/
def Sparse.getRun {w : Nat} (m : Sparse w) (k n : Nat) : List (BitVec w) :=
  let part := m.filter fun e => decide (k ≤ e.1) && decide (e.1 < k + n)
  (List.range n).map fun i => Sparse.get part (k + i)

/-- Memory: bytes by address. -/
abbrev Memory := Sparse 8

/-- The canonical form of memory. -/
abbrev Memory.wf (m : Memory) : Bool := Sparse.wf m

/-- The `n` bytes at `a`, little-endian, as a number. -/
def Memory.readLE (m : Memory) (a : Nat) : Nat → Nat
  | 0 => 0
  | n + 1 => (Sparse.get m a).toNat + 256 * Memory.readLE m (a + 1) n

/-- The memory with the `n` bytes at `a` replaced, little-endian. -/
def Memory.writeLE (m : Memory) (a : Nat) : Nat → Nat → Memory
  | 0, _ => m
  | n + 1, v => Memory.writeLE (Sparse.set m a (BitVec.ofNat 8 v)) (a + 1) n (v / 256)

/-- The memory with a list of (address, byte) pairs written in order. -/
def Memory.writeBytes (m : Memory) : List (Nat × Byte) → Memory
  | [] => m
  | (a, b) :: bs => Memory.writeBytes (Sparse.set m a b) bs

/-- The little-endian bytes of a value at consecutive addresses. -/
def bytesAt (a : Nat) : Nat → Nat → List (Nat × Byte)
  | 0, _ => []
  | n + 1, v => (a, BitVec.ofNat 8 v) :: bytesAt (a + 1) n (v / 256)

/-- A list with element `i` replaced. -/
def setAt {α : Type} : List α → Nat → α → List α
  | [], _, _ => []
  | _ :: l, 0, v => v :: l
  | x :: l, n + 1, v => x :: setAt l n v

end Sys2Proof.Machine
end

