-- ==== Sys2Proof/Machine/State.lean ====
section
/-!
DEFINITION. The state of the machine as plain data: the modelled cell, the homes and the memory, the hub units, the
stage manager, the fabric, and the inputs that come from outside. INVENTORY.md lists every field with its rule.
-/

namespace Sys2Proof.Machine

/-- Why the machine stops with a fault. Nothing raises one: the spec gives every instruction and event an effect, and what it
leaves undefined for a launch queue is a free value (R294, log 9). -/
inductive Fault where
  deriving DecidableEq, Repr

/-- Why an instruction has no meaning. -/
inductive Refusal where
  /-- Raised by an arm of `exec` that is not modelled yet. Safe: nothing is claimed of it. -/
  | notModelled (mnemonic : String)
  deriving DecidableEq, Repr

/-- The twenty slot-accounting causes (R196). -/
inductive Cause where
  | issued | squashed | fetch | delay | scoreboard | emptyWait | tile | ringWait | cueWait | orderWait
  | queueFull | queueEmpty | translation | memory | barrier | trap | power | debug | notResident | notDemanded
  deriving DecidableEq, Repr

/-- The cell's standing (R91, R202, R221, R337, R372). -/
inductive Status where
  /-- No context on the cell. -/
  | absent
  /-- The control core issues. -/
  | running
  /-- END has retired; engines drain. -/
  | ended
  /-- A double trap stopped issue (R202). -/
  | doubled
  /-- Stopped by a debugger halt (R372). -/
  | halted
  /-- Stopped by pre-emption, not yet saved (R334). -/
  | preempted
  /-- The context is away (R337). -/
  | away
  /-- The cell has completed (R221). -/
  | completed
  deriving DecidableEq, Repr

/-- What a result latch writes (R205): lanes of a vector fixed at issue, or a g register. -/
inductive Target where
  | vec (off : Nat) (lanes : Word) (data : List Lane)
  | reg (r : Nat) (val : Word)
  deriving DecidableEq, Repr

/-- A result in flight (R133, R192, R193). -/
structure Latch where
  target  : Target
  /-- first clk in which a unit reads the result -/
  visible : Nat
  /-- clk in which store-load data arrives; 0 for a fixed-latency result -/
  arrive  : Nat
  /-- the producer's slot is the scalar slot (R205) -/
  scalar  : Bool
  /-- the store whose port has not yet been granted to this load; `arrive` then reckons with a grant in this clk (R193) -/
  port    : Option Nat
  deriving DecidableEq, Repr

/-- A trap or interrupt as it is taken (R199, R206). -/
structure TrapInfo where
  code  : Nat
  sub   : Nat := 0
  addr  : Word := 0
  info0 : Word := 0
  info1 : Word := 0
  info2 : Word := 0
  /-- MCINFO of a MACHINE (R386) -/
  mc    : Word := 0
  deriving DecidableEq, Repr

/-- A trap or interrupt recognised while the data of a store load are outstanding: its frame is written once they have
arrived, or after 64 clk (R200, R201). -/
structure Entering where
  info   : TrapInfo
  /-- pc of the frame, and the resume point b -/
  pc     : Word
  b      : Nat
  /-- clk of W gone by -/
  waited : Nat
  deriving DecidableEq, Repr

/-- A leaf page-table entry as the translation caches hold it (R315, R323). -/
structure Page where
  asid : Nat
  /-- first virtual address of the page, 56 bits -/
  base : Nat
  /-- page size in bytes -/
  size : Nat
  w0   : Word
  w1   : Word
  deriving DecidableEq, Repr

/-- A block of a narrow page (R22, R23, R25): format, geometry, LAT2 slot, address of its first byte, address of its
group's scale slot, its number in the group and the blocks of the group. -/
structure Block where
  fmt   : Nat
  geo   : Nat
  lslot : Nat
  pa    : Nat
  slot  : Nat
  blk   : Nat
  group : Nat
  deriving DecidableEq, Repr

/-- Where a long-latency result goes (R50, R112). -/
inductive Dest where
  | none
  | reg (r : Nat)
  | vec (off : Nat) (lanes : Word)
  /-- operand queue, row number, and offset of the part in the row -/
  | row (oq row off : Nat)
  /-- a part of the table that the head unit's LATLD loads, at an offset (R129) -/
  | table (off : Nat)
  /-- the head unit's access to the register-space window (R321) -/
  | win
  /-- bytes the head unit asks another module for before it issues (R318) -/
  | far
  /-- bytes an engine entry reads at a virtual address of another module, with the number of its start read (R269) -/
  | entry (n va : Nat)
  /-- the head unit's vat operation -/
  | vat
  /-- an access of the stage manager (R318, log 12) -/
  | mgr
  deriving DecidableEq, Repr

/-- A vat operation (R117). -/
inductive VatOp where
  | push | pop | popNb
  deriving DecidableEq, Repr

/-- A collective contribution: whole words at a tile offset, with its identity (R273-R275). -/
structure Contrib where
  cidx  : Nat
  dev   : Nat
  cell  : Nat
  off   : Nat
  words : List Lane
  /-- a chunk of a copy, a transfer or an XCOLL firing (checked for duplicates, R282) -/
  chunk : Bool
  epoch : Option Nat
  add   : Bool
  /-- receiving device and cell -/
  tdev  : Nat
  tcell : Nat
  /-- its stamp, once it has reached its receiver (R257) -/
  clock : List Nat
  deriving DecidableEq, Repr

/-- What a request does at its home. -/
inductive ReqOp where
  /-- n bytes, zero-extended -/
  | load (n : Nat)
  /-- elements of format 0-3: lane and address of each -/
  | vload (fmt : Nat) (elems : List (Nat × Nat))
  /-- blocks of a narrow page, each with the lane of its first element -/
  | bload (blocks : List (Nat × Block))
  /-- a part of a row of an operand queue, from an offset on: bytes, or blocks -/
  | rowBytes (n : Nat)
  | rowBlocks (blocks : List Block)
  /-- bytes written -/
  | store (bytes : List (Nat × Byte))
  /-- FP32 lanes of whole narrow blocks encoded at the home (R35) -/
  | encode (blocks : List Block) (lanes : List Lane) (mode : Nat)
  /-- read-modify-write: function code of R114, size in bytes, operand -/
  | atomic (fn size : Nat) (b : Word)
  | cas (size : Nat) (expect new : Word)
  | vat (op : VatOp) (pair : Bool) (val : Word)
  | rcsnap (hub : Nat)
  | rcread (hub : Nat) (idx : Word)
  | contrib (c : Contrib)
  /-- a row of a route unit: bitmap bits and weight slots of its hub die (R291) -/
  | route (ors : List (Nat × Nat)) (bytes : List (Nat × Byte))
  deriving DecidableEq, Repr

/-- Who made an access (R370, R371): the modelled cell, another cell or a hub unit of the module, or a cell of another
module. -/
inductive Origin where
  | own
  | cell (c : Nat)
  | hub (die : Nat)
  | module (dev cell : Nat)
  deriving DecidableEq, Repr

/-- A global access that its home has not performed (R254-R256). `queue = 15` is the control core (R366). -/
structure Req where
  id    : Nat
  op    : ReqOp
  pa    : Nat
  va    : Word
  home  : Nat
  /-- die whose clock stamps it -/
  die   : Nat
  /-- the write's stamp: VC of the die, 28 components (R255) -/
  stamp : List Nat
  /-- the clock of its read part (R255) -/
  rclk  : List Nat
  dest  : Dest
  queue : Nat
  seq   : Nat
  pc    : Word
  /-- target device of a remote access (R318) -/
  dev   : Option Nat
  cls   : Nat
  key   : Nat
  /-- later accesses wait for it (R259) -/
  acq   : Bool
  /-- target ASID of a compatibility-mode access, whose VA is sent (R330) -/
  casid : Option Nat
  origin : Origin
  deriving DecidableEq, Repr

/-- A row of an operand queue (R112, R246): how many of its parts, one for each page, have not landed; its bytes or
elements, scales, format. -/
structure OqRow where
  id     : Nat
  parts  : Nat
  /-- offset of the bytes in the row -/
  off    : Nat
  bytes  : List Byte
  /-- element codes of a narrow row and the scale byte of each element's block -/
  codes  : List Nat
  scales : List Nat
  fmt    : Nat
  geo    : Nat
  lslot  : Nat
  deriving DecidableEq, Repr

/-- An answer on its way back: value or lanes, or an uncorrectable error (R385). -/
structure Reply where
  /-- the request it answers -/
  id    : Nat
  dest  : Dest
  /-- bytes returned to a g register -/
  size  : Nat
  /-- value; status of a vat operation in `lanes`, with how it was answered -/
  val   : Word
  lanes : List Lane
  clock : List Nat
  bad   : Bool
  addr  : Nat
  queue : Nat
  seq   : Nat
  acq   : Bool
  /-- rows: bytes, codes, scale bytes -/
  row   : Option OqRow
  deriving DecidableEq, Repr

/-- A vat operation's answer (R118, R267). -/
structure VatReply where
  val    : Word
  status : Word
  deriving DecidableEq, Repr

/-- The head unit's vat operation (R118). -/
inductive VatWait where
  | none
  | sent (id : Nat)
  | parked (id : Nat)
  | done (r : VatReply)
  /-- answered with a trap: VAT for its header (R117), MACHINE for bad data (R385) -/
  | bad (code : Nat)
  deriving DecidableEq, Repr

/-- The head unit's access to the register-space window (R321): sent, answered with data, or refused. -/
inductive WinWait where
  | none
  | sent
  | done (bytes : List Byte) (lanes : List Lane)
  | refused (code : Nat) (va : Word)
  deriving DecidableEq, Repr

/-- The head unit's table load (R129): the slot, the parts asked for, those that have arrived by ascending offset, and the
addresses of uncorrectable errors in them. -/
structure LatWait where
  slot : Nat
  need : Nat
  got  : List (Nat × List Byte)
  bad  : List Word
  deriving DecidableEq, Repr

/-- Bytes that the head unit asks another module for before it issues: words of code, or of a trace area under replay (R318,
R377). They are kept until it leaves the head. -/
structure Far where
  va  : Word
  n   : Nat
  /-- the request -/
  id  : Nat
  ans : Option (List Byte)
  /-- the answer is an uncorrectable error -/
  bad : Bool
  deriving DecidableEq, Repr

/-- A release fence (R259): its scope, its clk, and the number of the next access when it issued. -/
structure RelFence where
  scope : Nat
  clk   : Nat
  id    : Nat
  deriving DecidableEq, Repr

/-- A refusal under R329. -/
structure RefusalInfo where
  va  : Word
  why : Nat
  dev : Nat
  deriving DecidableEq, Repr

/-- A deferred MACHINE (R386): address and the fields of MCINFO. -/
structure MachInfo where
  addr : Word
  info : Word
  deriving DecidableEq, Repr

/-- A request of the control core for a store's port that has issued and has not been granted (R107, R228): the store, its
issue clk, the ENQ units retired before it, the bytes it writes at its grant, by offset (none for a read), and the row that
an OQLD has read, on its way from the grant on (R112). -/
structure Posted where
  st    : Nat
  clk   : Nat
  enq   : Nat
  parts : List (Nat × List Byte)
  row   : Option Reply
  deriving DecidableEq, Repr

/-- The control core's registers and its issue state. -/
structure Core where
  pc      : Word
  g       : Vector Word 32
  /-- bit r = 1: g[r] is empty (R50) -/
  gEmpty  : BitVec 32
  m       : Vector Word 8
  z       : Vector Lane 16
  zpend   : Vector Nat 16
  /-- shape register written in this clk and its old value, which engine words of this clk still read (R94) -/
  zOld    : Option (Nat × Lane)
  q       : Vector Lane 64
  /-- counter a QADD raised in this clk and its old value, which the terms and engines of this clk read (R216) -/
  qOld    : Option (Nat × Lane)
  /-- term a QTERM replaced in this clk and its old words, which the evaluation of this clk uses (R219) -/
  termOld : Option (Nat × List Word)
  mask    : Vector Word 8
  status  : Status
  inflight : List Latch
  /-- latches waiting for the resumed unit's first chance to issue; `visible` holds the count r (R203) -/
  reinject : List Latch
  /-- clk in which a resumed unit of one word has its first chance to issue (R203) -/
  reinjectAt : Nat
  /-- requests for store ports, in issue order (R228) -/
  posted   : List Posted
  /-- the pre-emption latch record (R334) -/
  preLatch : List Latch
  busy     : Nat
  fetchClk : Nat
  delayClk : Nat
  /-- the timer was written or expired in this clk (R97) -/
  tmrSet   : Bool
  /-- clk in which the value of an acquire load from a store has landed (R259) -/
  acqUntil : Nat
  wfi      : Bool
  /-- PC, instance and generation of a BARSYNC that has arrived (R127) -/
  barsync  : Option (Word × Nat × Nat)
  /-- the same, as recorded with trap frames that have not been returned through (R127, log 23) -/
  frameBar : List (Word × Nat × Nat)
  /-- accesses numbered below it are those a waiting FENCE waits for (R126) -/
  fenceId  : Option Nat
  vat      : VatWait
  /-- the head unit's access to the register-space window (R321) -/
  win      : WinWait
  /-- the head unit's table load (R129) -/
  latWait  : Option LatWait
  /-- bytes asked of other modules (R318) -/
  far      : List Far
  /-- release fences that later writes wait for (R259) -/
  relFences : List RelFence
  /-- watchpoint change sent and not yet retired: CSR number, value, taken by the home (R379) -/
  wpSent   : Option (Nat × Word × Bool)
  /-- the clock of a read that the head unit makes before it issues; empty: none is under way (R109, R255) -/
  readClk  : List Nat
  /-- walks that failed for the head unit: address, cause, and the page where only its permission was refused (R324) -/
  walkFault : List (Word × Nat × Option Page)
  skipBkpt : Bool
  /-- a trap recognised while fetching, to be entered by TRAP_ENTRY -/
  trapPend : Option TrapInfo
  entering : Option Entering
  /-- queues whose faults are still to be taken, in the order recorded (R157) -/
  engPend  : List Nat
  refusals : List RefusalInfo
  machines : List MachInfo
  /-- cause charged to the head unit's slot in this clk, and whether that slot is V (R195) -/
  charge   : Cause
  chargeV  : Bool
  /-- PC of the unit charged -/
  chargePc : Word
  /-- clk that the head unit has spent on its own wait so far, for the wait graph (R195, R220) -/
  waited   : Nat
  deriving DecidableEq, Repr

/-- A pending readiness (R233): tile, whether it came from a release of a ring, the ENQ count at the release, the
first clk in which it may take effect. -/
structure Ready where
  tile : Nat
  ring : Bool
  enq  : Nat
  at'  : Nat
  deriving DecidableEq, Repr

/-- A ring descriptor (R122). -/
structure Ring where
  set   : Bool
  base  : Nat
  count : Nat
  head  : Nat
  tail  : Nat
  pclaim : Nat
  cclaim : Nat
  deriving DecidableEq, Repr

/-- An allocator (R123). -/
structure Alloc where
  bump  : Nat
  rbase : Nat
  rhead : Nat
  rtail : Nat
  rlive : Nat
  deriving DecidableEq, Repr

/-- A barrier instance (R127): its generation and the ranks that have arrived in it. -/
structure Barrier where
  gen     : Nat
  arrived : Word
  deriving DecidableEq, Repr

/-- A layout record as read (R241, R242). -/
structure LRec where
  /-- 0 in an MPASSGRP table: the block is skipped -/
  used   : Bool
  base   : Nat
  fmt    : Nat
  geo    : Nat
  lslot  : Nat
  stride : Nat
  lines  : Nat
  deriving DecidableEq, Repr

/-- A resolved place (R174): a global address, or an offset in a store. -/
inductive Place where
  | none
  | glob (va : Word)
  | store (st off : Nat)
  deriving DecidableEq, Repr

/-- What an entry read or resolved at its start (R160): accumulator offset, records, segments of rows and columns
(0 is none, s + 1 is segment s), the descriptor's words, the bypass source and where it lies, an index or rank list, the
table slots as they stood (R29); its places, and the format, geometry and table slot of the pages of each side once known;
the start reads already answered, and whether all of them have been. -/
structure Start where
  src   : Place
  dst   : Place
  sattr : Option (Nat × Nat × Nat)
  dattr : Option (Nat × Nat × Nat)
  got   : List (List Byte)
  ready : Bool
  acc   : Nat
  recA  : Option LRec
  recB  : List LRec
  seg   : Option (List Nat × List Nat × Bool × Nat × Nat)
  desc  : List Word
  list  : List Word
  byp   : List Lane
  bypAt : Nat
  table : Sparse 32
  deriving DecidableEq, Repr

/-- A started engine entry (R153-R160). -/
structure Entry where
  queue : Nat
  seq   : Nat
  pc    : Word
  enq   : Nat
  /-- ENQ number of the copy that carries a chained entry; its own for any other (R233) -/
  lead  : Nat
  /-- clk of its start (R224) -/
  begun : Nat
  op    : Instr
  vals  : List Word
  /-- KDONE, ROWS, bytes, elements or rows (R159) -/
  done  : Nat
  /-- work whose writes are on their way: they have been performed up to `done` -/
  next  : Nat
  /-- GROUP of an MPASSGRP, PEER of an XCOLL -/
  group : Nat
  firing : Nat
  fill  : List Nat
  drain : List Nat
  /-- clk in which the entry completes its work, once known -/
  fin   : Option Nat
  chained : Bool
  posted  : Bool
  armed   : Bool
  /-- a trigger transition kept for the next firing (R182); of a chained entry: handed over before its cell was stopped
  (R335) -/
  trig    : Bool
  /-- an armed entry that disarms when its firing completes (R158, R182) -/
  disarm  : Bool
  start : Start
  /-- clk waited so far (R188, R220) -/
  waited : Nat
  deriving DecidableEq, Repr

/-- An engine word in a queue: its bits, the PC of the ENQ unit and that unit's number. -/
structure EWord where
  w   : BitVec 16
  pc  : Word
  enq : Nat
  deriving DecidableEq, Repr

/-- A recorded fault of a queue (R157, R158). -/
structure QFault where
  cause : Nat
  addr  : Word
  seq   : Nat
  pc    : Word
  prog  : Word
  /-- number of the firing of an armed entry (R287) -/
  firing : Nat
  armed : Bool
  /-- raised at a word that is still at the head of the queue: the entry has not started -/
  atWord : Bool
  deriving DecidableEq, Repr

/-- An engine queue (R151-R158). -/
structure Queue where
  words   : List EWord
  nextSeq : Nat
  /-- words of the head entry already issued -/
  issued  : Nat
  /-- values of the head entry, on its engine's parameter stack while it is evaluated and kept with it from its terminal
  word on; entries of one engine are evaluated one at a time (R155, log 23) -/
  stack   : List Word
  /-- the second stack, of the chained entry being evaluated (R155, R176) -/
  chain   : List Word
  /-- a copy entry with CHAIN has issued: the words that follow are its chained entry's (R176) -/
  inChain : Bool
  /-- the evaluated chained entry, until it is handed over (R176) -/
  chainEntry : Option Entry
  run     : List Entry
  armed   : List Entry
  fault   : Option QFault
  stopped : Bool
  /-- clk that the head entry's terminal word has waited -/
  waited  : Nat
  /-- clk that a standing gate has held the head entry (R217, R220) -/
  gateWait : Nat
  deriving DecidableEq, Repr

/-- A store's port (R228); its requesters are 0 the matrix engine, 1 the accumulate-on-write port, 2 the control core, 3 the
copy engine and 4 the transfer engine. -/
structure StorePort where
  /-- consecutive clk in which each requester has been refused -/
  refused : Vector Nat 5
  /-- requesters refused in this clk -/
  lost    : BitVec 5
  /-- granted in this clk -/
  taken   : Bool
  deriving DecidableEq, Repr

/-- The cell outside its control core and queues. -/
structure Cell where
  /-- register space, by word index (R43) -/
  rsp      : Sparse 32
  /-- 1: the word is empty (R50) -/
  rspEmpty : Sparse 1
  store0   : Memory
  store1   : Memory
  store2   : Memory
  dirtyBanks : BitVec 12
  /-- store * 1024 + granule (R332) -/
  dirtyGran  : Sparse 1
  /-- words of register space with a latent error: 1 correctable, 2 not (log 10) -/
  rspErr   : Sparse 2
  /-- the same for the stores: key store * 2^24 + word (log 10) -/
  storeErr : Sparse 2
  /-- the ports of the three stores (R228) -/
  ports    : Vector StorePort 3
  lat2     : Sparse 32
  tiles    : Sparse 64
  ready    : List Ready
  rings    : Vector Ring 16
  allocs   : Vector Alloc 3
  /-- word 8t + p of term t (R215) -/
  terms    : Sparse 64
  bars     : Vector Barrier 16
  /-- ranks of the troupe whose END has retired (R127) -/
  endedRanks : Word
  troupeSize : Nat
  rank     : Nat
  oq       : Vector (List OqRow) 4
  queues   : Vector Queue 13
  /-- chained entries handed over to the matrix engine, in order (R176) -/
  chained  : List Entry
  /-- status code and cause the cell will report (R223) -/
  endStatus : Nat
  endCause : Nat
  /-- rank lists cached by address (R184) -/
  rankCache : List (Nat × List Word)
  enqNo    : Nat
  /-- queue whose entry each engine's parameter stack last served: M, C, X (R155) -/
  evals    : Vector Nat 3
  /-- start clk and ENQ number of the copy last served (R224) -/
  copyTurn : Nat × Nat
  xferTurn : Nat
  /-- latch records of the frame buffer, 64-bit words 0-407 (R205) -/
  fx       : Sparse 64
  /-- last increment of each counter: counter, agent, clk (R214, R220) -/
  bumps    : List (Nat × Nat × Nat)
  deriving DecidableEq, Repr

/-- A vat operation held at a pairing point (R264). -/
structure Held where
  point : Nat
  req   : Req
  /-- fabric cycle in which it was held -/
  cycle : Nat
  until' : Nat
  /-- source device and cell -/
  sdev  : Nat
  scell : Nat
  deriving DecidableEq, Repr

/-- What an access needs of its page (R322). -/
inductive Access where
  | read | write | both | fetch
  deriving DecidableEq, Repr

/-- The memory system: requests, replies, acknowledgements, clocks, caches, pairing points. -/
structure MemSys where
  nextId  : Nat
  reqs    : List Req
  replies : List Reply
  /-- performed writes not yet acknowledged: queue and sequence number of the writer -/
  acks    : List (Nat × Nat)
  /-- VC_d[e] at key 32 d + e (R255) -/
  vc      : Sparse 40
  /-- F_e, the frontier die e last sent to every home, key e (R256, log 3) -/
  front   : Sparse 40
  /-- M_h[e] at key 32 h + e -/
  maxv    : Sparse 40
  /-- dies that issued a write in this clk -/
  wrote   : List Nat
  hold    : Bool
  /-- the cell's own translation cache, and its die's (R323) -/
  ctlb    : List Page
  tlb     : List Page
  /-- walks waiting: VA, access and the clock of their reads (R324) -/
  walks   : List (Word × Access × List Nat)
  /-- translations that engine entries have missed: queue, sequence number, VA and the clock of the walk's reads (R324) -/
  missed  : List (Nat × Nat × Word × List Nat)
  /-- the read clock of an engine read that waits: queue and sequence number of its entry (R255, R261) -/
  readClks : List (Nat × Nat × List Nat)
  held    : List Held
  /-- WIN per pairing point: the number of the die, or 28 + h - 24 for the router of hub h (R263) -/
  pairctl : Sparse 8
  /-- WIN written by the stage manager (R263); unlisted points read 16 -/
  pairset : List Nat
  parked  : List Req
  /-- pairing points passed by a vat request, by its id (R266) -/
  passed  : List (Nat × Nat)
  /-- ids of the modelled cell's vat operations, once for each full buffer that they passed (R267) -/
  fullPass : List Nat
  deriving DecidableEq, Repr

/-- A posting (R276). -/
structure Posting where
  cidx    : Nat
  tile    : Nat
  expect  : Nat
  got     : Nat
  epoch   : Nat
  ordered : Bool
  rq      : Option Nat
  /-- (source rank, chunk number) seen (R282) -/
  bitmap  : List (Nat × Nat)
  /-- rank list words (R285) -/
  ranks   : List Word
  /-- ordered mode: (source rank, tile word) applied -/
  applied : List (Nat × Nat)
  /-- ordered mode: (source rank, tile word, value) held (R279) -/
  held    : List (Nat × Nat × Lane)
  /-- maximum of the stamps of the contributions counted (R257) -/
  clock   : List Nat
  deriving DecidableEq, Repr

/-- The last withdrawn posting of a CIDX (R280, R282): its epoch, chunk bitmaps, rank list, and the bytes its bitmaps take. -/
structure Withdrawn where
  cidx   : Nat
  epoch  : Nat
  bitmap : List (Nat × Nat)
  ranks  : List Word
  bytes  : Nat
  deriving DecidableEq, Repr

/-- Collective reception of the cell and its wings (R276-R282). -/
structure Coll where
  postings : List Posting
  /-- last withdrawn posting of each CIDX -/
  last     : List Withdrawn
  parked   : List Contrib
  /-- contributions held at this cell because the wings are full -/
  outHeld  : List Req
  /-- cue increments due in the clk after readiness (R277) -/
  cues     : List Nat
  deriving DecidableEq, Repr

/-- A hub die's route unit and interface state (R120, R292). Keys are job key * 512 + entry. -/
structure Hub where
  live : Sparse 64
  snap : Sparse 64
  /-- (job key, source cell, token) -/
  seen : List (Nat × Nat × Nat)
  deriving DecidableEq, Repr

/-- A capture set (R348): 0 idle, 1 running, 2 stopped. -/
structure CapSet where
  st   : Nat
  base : Sparse 64
  vals : Sparse 64
  deriving DecidableEq, Repr

/-- Accounts, energy and capture (R341-R348). -/
structure Acct where
  cnt     : Sparse 64
  elapsed : Word
  energy  : Sparse 64
  /-- occurrences counted in this clk, per event (R347) -/
  occur   : Sparse 64
  caps    : Vector CapSet 8
  /-- open runs: slot, cause code, PC, count (R343) -/
  runs    : List (Nat × Nat × Word × Nat)
  /-- charges of the engine slots in this clk: slot, ENQ number of the entry, cause, PC (R190) -/
  eng     : List (Nat × Nat × Cause × Word)
  /-- charges of the head unit since its first fetch clk, entered once it issues or is abandoned (R197): slot V, cause,
  PC, clk -/
  late    : List (Bool × Cause × Word × Nat)
  deriving DecidableEq, Repr

/-- A watch report (R371). -/
structure Report where
  addr : Word
  mask : BitVec 16
  kind : Nat
  queue : Nat
  src  : Nat
  scell : Nat
  id   : Word
  /-- clk in which the write was applied -/
  at'  : Nat
  deriving DecidableEq, Repr

/-- Watchpoints armed at homes and the report FIFO (R369-R371). -/
structure Dbg where
  /-- watchpoint, physical address of its range, VA, byte mask -/
  armed   : List (Nat × Nat × Word × BitVec 16)
  war     : List Report
  warLost : Nat
  /-- reports on the way to the FIFO -/
  coming  : List Report
  deriving DecidableEq, Repr

/-- A scene that the walker or completion handles (R297-R310). -/
structure Scene where
  queue  : Nat
  index  : Nat
  packet : List Word
  record : List Word
  templ  : List (Nat × Word)
  ext    : List Nat
  /-- the iteration vector to be placed next, each index with its direction (true: up); none once every one has been
  placed or dropped (R309) -/
  walk   : Option (List (Nat × Bool))
  /-- clk of acceptance or of the last placement -/
  since  : Nat
  placed : Nat
  dropped : Nat
  /-- highest troupe status; 4 REFUSED; 5: the packet could not be read (R297) -/
  status : Nat
  fcell  : Nat
  fcause : Nat
  late   : Bool
  /-- release tick (R305) -/
  release : Nat
  lastDie : Nat
  /-- request of a completion record that has gone to another module (R298, R318) -/
  sent   : Option Nat
  deriving DecidableEq, Repr

/-- A placed troupe (R210): scene queue and index, its cells, first-issue clk, watchdog in µs, the cells that have completed,
with status and cause (R223), and whether it has been saved away (R337). -/
structure Troupe where
  queue : Nat
  index : Nat
  cells : List Nat
  first : Nat
  wdog  : Nat
  done  : List (Nat × Nat × Nat)
  away  : Bool
  deriving DecidableEq, Repr

/-- Launch queues, mapper, walker (R294-R310). -/
structure Launch where
  /-- queue in each of 32 slots, with the clk it was mapped -/
  slots   : List (Option (Nat × Nat))
  age     : Sparse 16
  /-- queues that the mapper has seen ready (R301) -/
  ready   : List Nat
  /-- queues that lose their slot at the end of their walk (R301) -/
  spent   : List Nat
  notifyBad : Sparse 64
  peerDrop  : Sparse 64
  /-- queues whose head packet has been released, with the tick (R303) -/
  released : List (Nat × Nat)
  /-- queue, clk in which its head packet was covered by a notify and became head (R303) -/
  notified : List (Nat × Nat)
  scenes  : List Scene
  troupes : List Troupe
  /-- queues whose device fields software wrote while enabled (R294) -/
  undef   : List Nat
  deriving DecidableEq, Repr

/-- A request that arrives from another module (R355). -/
structure Ingress where
  dev  : Nat
  cell : Nat
  cls  : Nat
  key  : Nat
  /-- its number among those of its source and class -/
  seq  : Nat
  /-- port at which it arrives; its hub's die issues it into the module -/
  port : Nat
  hub  : Nat
  op   : ReqOp
  pa   : Nat
  pc   : Word
  /-- queue and sequence number of the entry that made it; 15 for a control core (R371) -/
  queue : Nat
  entry : Nat
  /-- compatibility mode: ASID and VA (R330) -/
  casid : Option (Nat × Word)
  /-- dropped for its key, here or on the way: only its number is left -/
  void : Bool
  deriving DecidableEq, Repr

/-- A packet of other modules that passes through this one (R354). -/
structure Transit where
  /-- source and target device -/
  dev   : Nat
  goal  : Nat
  /-- port at which it arrives -/
  port  : Nat
  cls   : Nat
  key   : Nat
  flits : Nat
  /-- a reply, or its request -/
  reply : Bool
  deriving DecidableEq, Repr

/-- Flits of one packet in a port's queue: how many, their class and target device, the request of this module that they
carry, and whether the modelled cell is charged for them (R347). -/
structure Flits where
  n   : Nat
  cls : Nat
  dev : Nat
  id  : Option Nat
  own : Bool
  deriving DecidableEq, Repr

/-- A fabric port (R356, R357, R391): flits queued per class, deficits and the class whose turn it is, flits that class 0
has used in the current µs, consecutive retries of the oldest flit, the next flit's number, flits not acknowledged. -/
structure Port where
  up      : Bool
  queues  : List (List Flits)
  deficit : List Nat
  turn    : Nat
  used0   : Nat
  window  : Nat
  retries : Nat
  nextSeq : Nat
  unacked : List (Nat × Flits)
  deriving DecidableEq, Repr

/-- The fabric side of the module (R328, R350-R357, R391-R392). -/
structure Fabric where
  /-- word w of the entry of device i at key 4 i + w (R353) -/
  routes  : Sparse 64
  /-- membership tables: port 0-35, or 36 for the ingress, with a key that is a member (R328) -/
  members : List (Nat × Nat)
  /-- KEYDROP of each table -/
  keyDrop : Sparse 64
  ports   : Vector Port 36
  /-- next sequence number expected per (device, cell, class) (R355) -/
  expect  : List (Nat × Nat × Nat × Nat)
  waiting : List Ingress
  /-- requests that left for other modules -/
  out     : List Req
  /-- requests whose path is chosen: id and first port (R354) -/
  routed  : List (Nat × Nat)
  /-- replies and refusals sent back: device, WHY (0: done), value -/
  back    : List (Nat × Nat × Word)
  compat  : Bool
  /-- (ASID, root) pairs (R330) -/
  roots   : List (Nat × Nat)
  /-- the ingress's cache of translations (R330) -/
  icache  : List Page
  deriving DecidableEq, Repr

/-- Islands, sensors and limits (R398-R403). -/
structure Power where
  /-- 16 - N per island, so that an unlisted island runs at N = 16 -/
  slow    : Sparse 5
  /-- one entry for each step of N that the cap holds an island below 16, the latest first (R401) -/
  capped  : List Nat
  /-- islands that a thermal limit lowers, with the limit on N (R403) -/
  hot     : List (Nat × Nat)
  /-- last reading of each junction sensor, in °C -/
  temps   : Sparse 16
  /-- ratio changes waiting for a clk that is a multiple of 16: island, N -/
  pending : List (Nat × Nat)
  deriving DecidableEq, Repr

/-- The stage manager (R294, R337, R387-R390, R405-R408). -/
structure Manager where
  phase    : Nat
  err      : Nat
  busy     : Bool
  cmd      : Option Nat
  args     : Vector Word 8
  res      : Vector Word 8
  stop     : List Word
  aperture : Nat
  qtable   : Option Nat
  root     : Word
  cellmap  : Vector Word 28
  chanmap  : Vector Word 28
  portmap  : Vector Word 28
  cxlsize  : Vector Word 28
  errcnt   : Vector Word 28
  memErr   : Sparse 2
  /-- clk of the next tick edge (R302) -/
  nextTick : Nat
  /-- the context's image, section by section: header and coded body (R339, R340) -/
  images   : List (List Word)
  /-- departure clk of a context that is away (R337) -/
  departed : Nat
  /-- first clk of the resumed context, while a restore is in progress (R338) -/
  restoreAt : Option Nat
  /-- the context was halted when it was pre-empted (R334) -/
  heldHalted : Bool
  msix     : List Nat
  /-- causes reported for completion; of an engine fault its queue and record, with identity and progress (R202, R222) -/
  reports  : List (Nat × Option (Nat × QFault))
  /-- addresses of uncorrectable errors that scrubbers reported: 1 register space, 2 store, 3 memory (R384) -/
  badAddrs : List (Nat × Nat)
  /-- the bring-up in progress follows a warm reset (R405) -/
  warm     : Bool
  /-- a HALT command waits for its stop (R407) -/
  haltAsked : Bool
  /-- bytes that the stage manager has asked other modules for (R318) -/
  far      : List Far
  /-- clk of a pre-emption request, and its deadline in clk (R336) -/
  preemptAt : Option Nat
  deadline : Nat
  /-- link down, by PCIe reset or trip -/
  linkUp   : Bool
  deriving DecidableEq, Repr

/-- What comes from outside the modelled cell and module, oldest first (log 1). -/
structure Inputs where
  /-- a CSR access of the stage manager: number and value -/
  csr      : Option (Nat × Word)
  inbox    : List Contrib
  ingress  : List Ingress
  transit  : List Transit
  hostWrites : List (Nat × Nat × Nat × Word)
  hostReads  : List (Nat × Nat × Nat)
  hostData   : List Word
  fabricIn : List Reply
  refusals : List (Nat × RefusalInfo)
  /-- arrivals of the other cells of the troupe: rank, and instance, or 16 for an END -/
  arrivals : List (Nat × Nat)
  /-- another cell of a troupe completed: cell, status, cause -/
  completions : List (Nat × Nat × Nat)
  /-- troupes that system software ends, each named by a cell of it (R223) -/
  kills    : List Nat
  halt     : Bool
  preempt  : Bool
  resume   : Bool
  restore  : Bool
  /-- clk that the restore of a context occupies (R338) -/
  restoreClk : Nat
  /-- new placement of a restored troupe: its cells by rank (R210) -/
  place    : List Nat
  /-- junction readings: island, degrees -/
  sensors  : List (Nat × Nat)
  /-- module power in W, and the power of each die -/
  power    : Nat
  diePower : List (Nat × Nat)
  /-- loss of coolant flow (R403) -/
  coolantLost : Bool
  /-- power-on or PERST#; PCIe hot reset (R405) -/
  cold     : Bool
  linkReset : Bool
  /-- bring-up phases whose work is done (R406) -/
  phasesDone : Nat
  retire   : List Nat
  linkFail : List Nat
  flitFail : List Nat
  /-- link-level acknowledgements: port and flit number -/
  flitAcks : List (Nat × Nat)
  routes   : List (Nat × Word)
  spares   : List Nat
  scrub    : List Nat
  ratios   : List (Nat × Nat)
  /-- accesses of other cells, with their device and cell -/
  peers    : List (Nat × Nat × Req)
  /-- results of the bring-up tests: CELLMAP, CHANMAP, PORTMAP, CXLSIZE per die, DEVID, failure code -/
  maps     : List (Nat × Nat × Word)
  devid    : Word
  /-- neighbours that bring-up finds: port, device number that it reports (R351, R408) -/
  cabled   : List (Nat × Nat)
  bringErr : Nat
  /-- settings of the stage manager: its translation root, membership bits (table, key, member), and compatibility mode
  with its pairs (R328, R330) -/
  root     : Option Word
  members  : List (Nat × Nat × Bool)
  compat   : Option (Bool × List (Nat × Nat))
  /-- stop deadline of the job in µs, as the stage manager sets it (R336) -/
  deadline : Option Nat
  /-- system QADDs made for the context (R214) -/
  qadds    : List (Nat × Lane)
  /-- BANKBIND of other cells where it is not 0xF00 (R47) -/
  binds    : List (Nat × Nat)
  deriving DecidableEq, Repr

/-- Who moves next within a clk (log 2): a queue whose head word issues, an event, or the end of the clk. -/
inductive Agent where
  | word (q : Nat)
  | event (q : Nat) (i : Instr)
  | edge
  deriving DecidableEq, Repr

/-- The machine. -/
structure State where
  clk    : Nat
  gcell  : Nat
  core   : Core
  csr    : Sparse 64
  cell   : Cell
  mem    : Memory
  sys    : MemSys
  coll   : Coll
  hubs   : Vector Hub 4
  acct   : Acct
  dbg    : Dbg
  mgr    : Manager
  lq     : Launch
  fab    : Fabric
  pwr    : Power
  inp    : Inputs
  agenda : List Agent
  actq   : Nat
  deriving DecidableEq, Repr

/-! ### Reset (R405): every register at its reset value, no context, no queue, every clock zero. -/

def Queue.reset : Queue :=
  { words := [], nextSeq := 0, issued := 0, stack := [], chain := [], inChain := false, chainEntry := none, run := [], armed := [],
    fault := none, stopped := false, waited := 0, gateWait := 0 }

def Core.reset : Core :=
  { pc := 0, g := Vector.replicate 32 0, gEmpty := 0, m := Vector.replicate 8 0, z := Vector.replicate 16 0,
    zpend := Vector.replicate 16 0, zOld := none, q := Vector.replicate 64 0, qOld := none, termOld := none,
    mask := (Vector.replicate 8 0).set 0 (BitVec.allOnes 64), status := .absent, inflight := [], reinject := [],
    reinjectAt := 0, posted := [],
    preLatch := [], busy := 0, fetchClk := 0, delayClk := 0, tmrSet := false, acqUntil := 0, wfi := false, barsync := none,
    frameBar := [], fenceId := none,
    vat := .none, win := .none, latWait := none, far := [], relFences := [], wpSent := none, readClk := [], walkFault := [], skipBkpt := false, trapPend := none, entering := none, engPend := [],
    refusals := [], machines := [], charge := .issued, chargeV := false, chargePc := 0, waited := 0 }

/-- Sizes of the three stores in bytes (R105). -/
def storeSize : Nat → Nat
  | 0 => 0x200000
  | 1 => 0x100000
  | 2 => 0x80000
  | _ => 0

def Alloc.reset (s : Nat) : Alloc :=
  { bump := 0, rbase := storeSize s, rhead := storeSize s, rtail := storeSize s, rlive := 0 }

def Cell.reset : Cell :=
  { rsp := [], rspEmpty := [], store0 := [], store1 := [], store2 := [], dirtyBanks := 0, dirtyGran := [],
    rspErr := [], storeErr := [], ports := Vector.replicate 3 { refused := Vector.replicate 5 0, lost := 0, taken := false }, lat2 := [], tiles := [], ready := [],
    rings := Vector.replicate 16 { set := false, base := 0, count := 0, head := 0, tail := 0, pclaim := 0, cclaim := 0 },
    allocs := #v[Alloc.reset 0, Alloc.reset 1, Alloc.reset 2], terms := [],
    bars := Vector.replicate 16 { gen := 0, arrived := 0 }, endedRanks := 0, troupeSize := 1, rank := 0,
    oq := Vector.replicate 4 [], queues := Vector.replicate 13 Queue.reset, chained := [], endStatus := 0, endCause := 0, rankCache := [],
    enqNo := 0, evals := Vector.replicate 3 0, copyTurn := (0, 0), xferTurn := 0, fx := [], bumps := [] }

def MemSys.reset : MemSys :=
  { nextId := 0, reqs := [], replies := [], acks := [], vc := [], front := [], maxv := [], wrote := [], hold := false,
    ctlb := [], tlb := [], walks := [], missed := [], readClks := [], held := [], pairctl := [], pairset := [], parked := [], passed := [], fullPass := [] }

def Coll.reset : Coll := { postings := [], last := [], parked := [], outHeld := [], cues := [] }

def Acct.reset : Acct :=
  { cnt := [], elapsed := 0, energy := [], occur := [],
    caps := Vector.replicate 8 { st := 0, base := [], vals := [] }, runs := [], eng := [], late := [] }

def Dbg.reset : Dbg := { armed := [], war := [], warLost := 0, coming := [] }

def Launch.reset : Launch :=
  { slots := List.replicate 32 none, age := [], ready := [], spent := [], notifyBad := [], peerDrop := [], released := [], notified := [],
    scenes := [], troupes := [], undef := [] }

def Port.reset : Port :=
  { up := false, queues := [[], [], [], []], deficit := [0, 0, 0, 0], turn := 0, used0 := 0, window := 0,
    retries := 0, nextSeq := 0, unacked := [] }

def Fabric.reset : Fabric :=
  { routes := [], members := [], keyDrop := [], ports := Vector.replicate 36 Port.reset, expect := [], waiting := [],
    out := [], routed := [], back := [], compat := false, roots := [], icache := [] }

def Power.reset : Power := { slow := [], capped := [], hot := [], temps := [], pending := [] }

def Manager.reset : Manager :=
  { phase := 0, err := 0, busy := false, cmd := none, args := Vector.replicate 8 0, res := Vector.replicate 8 0,
    stop := [], aperture := 0, qtable := none, root := 0, cellmap := Vector.replicate 28 0,
    chanmap := Vector.replicate 28 0, portmap := Vector.replicate 28 0, cxlsize := Vector.replicate 28 0,
    errcnt := Vector.replicate 28 0, memErr := [], nextTick := 66666667, images := [], departed := 0, restoreAt := none, heldHalted := false,
    msix := [], reports := [], badAddrs := [], warm := false, haltAsked := false, far := [], preemptAt := none, deadline := 400000, linkUp := true }

def Inputs.reset : Inputs :=
  { csr := none, inbox := [], ingress := [], transit := [], hostWrites := [], hostReads := [], hostData := [], fabricIn := [],
    refusals := [], arrivals := [], completions := [], kills := [], halt := false, preempt := false,
    resume := false, restore := false, restoreClk := 0, place := [], sensors := [], power := 0, diePower := [],
    coolantLost := false, cold := false, linkReset := false, phasesDone := 0, retire := [], linkFail := [],
    flitFail := [], flitAcks := [], routes := [], spares := [], scrub := [], ratios := [], peers := [], maps := [], devid := 0, cabled := [],
    bringErr := 0, root := none, members := [], compat := none, deadline := none, qadds := [], binds := [] }

/-- CSRs whose reset value is not zero (R7, R44, R47, R96, R302, R402). -/
def csrReset : Sparse 64 :=
  [(0x000, Config.featureXnl24), (0x011, 8), (0x012, 8), (0x013, 0xF00), (0x100, 0x3F01), (0x181, 66666667),
   (0x1D1, 18000)]

/-- The machine right after a cold reset (R405). -/
def State.reset : State :=
  { clk := 0, gcell := 0, core := Core.reset, csr := csrReset, cell := Cell.reset, mem := [], sys := MemSys.reset,
    coll := Coll.reset, hubs := Vector.replicate 4 { live := [], snap := [], seen := [] }, acct := Acct.reset,
    dbg := Dbg.reset, mgr := Manager.reset, lq := Launch.reset, fab := Fabric.reset, pwr := Power.reset,
    inp := Inputs.reset, agenda := [], actq := 0 }

end Sys2Proof.Machine
end

