-- ==== Sys2Proof/Machine/Ops.lean ====
section
/-!
DEFINITION. The operations every instruction shares: reading and writing registers, what a unit does when it
retires, waits or traps (R65, R195), taking a trap (R200-R206) and returning from one (R203).
-/

namespace Sys2Proof.Machine

/-- The three outcomes of a step. -/
abbrev Out := Host.Outcome State Fault Refusal

/-! ### Numbers -/

/-- Bits lo + n - 1 : lo of a word. -/
def Word.bits (w : Word) (lo n : Nat) : Nat := Sys2Proof.bits w.toNat lo n

/-- The word with those bits replaced. -/
def Word.setBits (w : Word) (lo n v : Nat) : Word :=
  BitVec.ofNat 64 (w.toNat - Word.bits w lo n * 2 ^ lo + v % 2 ^ n * 2 ^ lo)

/-- A number modulo 2^56, sign-extended from bit 55 (R61, R82). -/
def canon (n : Nat) : Word := (BitVec.ofNat 56 n).signExtend 64

/-- The 32-bit word at index i of a 64-bit word. -/
def Word.half (w : Word) (i : Nat) : Lane := BitVec.ofNat 32 (Word.bits w (32 * i) 32)

/-! ### CSRs and their fields (R55, R96, R204, R205) -/

def State.readCsr (s : State) (n : Nat) : Word := Sparse.get s.csr n

def State.setCsr (s : State) (n : Nat) (v : Word) : State := { s with csr := Sparse.set s.csr n v }

/-- CTL.RM (R55). -/
def State.rm (s : State) : Nat := Word.bits (s.readCsr 1) 0 3

/-- CTL.FTZ (R55). -/
def State.ftz (s : State) : Bool := (s.readCsr 1).getLsbD 3

/-- CTL.LATMODE (R55). -/
def State.latmode (s : State) : Bool := (s.readCsr 1).getLsbD 4

/-- CTL.PL: true at system level (R55). -/
def State.system (s : State) : Bool := (s.readCsr 1).getLsbD 8

/-- FSTAT.HELD (R205). -/
def State.held (s : State) : Bool := (s.readCsr 0x040).getLsbD 1

/-- MSP (R54). -/
def State.msp (s : State) : Nat := Word.bits (s.readCsr 0x014) 0 3

/-- k, the mask-stack entry at MSP (R54). -/
def State.k (s : State) : Word := s.core.mask[s.msp]?.getD 0

/-- Sets an interrupt's bit in ISTAT.IPEND; i is its code less 0x20 (R96). -/
def State.pend (s : State) (i : Nat) : State := s.setCsr 0x100 (s.readCsr 0x100 ||| ((1 : Word) <<< (16 + i)))

/-- Clears an interrupt's bit in ISTAT.IPEND (R208). -/
def State.unpend (s : State) (i : Nat) : State := s.setCsr 0x100 (s.readCsr 0x100 &&& ~~~ ((1 : Word) <<< (16 + i)))

/-- Occurrences of an energy event counted in this clk (R346, R347). -/
def State.count (s : State) (e n : Nat) : State :=
  { s with acct := { s.acct with occur := Sparse.set s.acct.occur e (Sparse.get s.acct.occur e + BitVec.ofNat 64 n) } }

/-- Accesses of n bytes, per 64 bytes (R346). -/
def per64 (n : Nat) : Nat := (n + 63) / 64

/-! ### Scalar registers (R39, R50) -/

def State.setCore (s : State) (c : Core) : State := { s with core := c }

def State.setCell (s : State) (c : Cell) : State := { s with cell := c }

/-- g[r]; g0 reads zero (R39). -/
def State.g (s : State) (r : Nat) : Word := if r = 0 then 0 else s.core.g[r]?.getD 0

/-- g[r] is empty; g0 is always full (R39, R50). -/
def State.emptyG (s : State) (r : Nat) : Bool := decide (r ≠ 0) && s.core.gEmpty.getLsbD r

/-- The latch holds a late word of g[r] (R193): its nominal latency has elapsed and it is not yet written. -/
def Latch.lateReg (l : Latch) (clk r : Nat) : Bool :=
  decide (l.visible ≤ clk) && match l.target with
    | .reg q _ => decide (q = r)
    | .vec _ _ _ => false

def State.lateG (s : State) (r : Nat) : Bool :=
  decide (r ≠ 0) && s.core.inflight.any (fun l => l.lateReg s.clk r)

/-- The latch writes nothing but g[r], by the end of this clk: a result written in this clk by a younger unit
replaces it. A store load whose data arrive later lands later, and stands (R135). -/
def Latch.replacedReg (l : Latch) (clk r : Nat) : Bool :=
  l.lateReg (clk + 1) r && decide (l.arrive ≤ clk) && l.port.isNone

/-- The registers with g[r] written and set full; a write to g0 is discarded (R39, R50). -/
def Core.putG (c : Core) (r : Nat) (v : Word) : Core :=
  if r = 0 then c else { c with g := c.g.setIfInBounds r v, gEmpty := c.gEmpty &&& ~~~ ((1 : BitVec 32) <<< r) }

/-- A result of latency 1: visible to every unit that issues in a later clk (R76, R192). -/
def State.putG (s : State) (r : Nat) (v : Word) : State :=
  s.setCore { (s.core.putG r v) with
    inflight := s.core.inflight.filter (fun l => !(l.replacedReg s.clk r)) }

/-- A result of latency L: a latch visible from clk + L (R133, R192). A result for g0 is discarded. -/
def State.later (s : State) (l : Nat) (t : Target) (scalar : Bool) : State :=
  s.setCore { s.core with inflight := s.core.inflight ++
    [{ target := t, visible := s.clk + l, arrive := 0, scalar := scalar, port := none }] }

/-- A scalar result of exposed latency l. -/
def State.result (s : State) (l r : Nat) (v : Word) : State :=
  if r = 0 then s else if l ≤ 1 then s.putG r v else s.later l (.reg r v) true

/-- Marks g[r] empty (R50). -/
def State.emptyReg (s : State) (r : Nat) : State :=
  if r = 0 then s else s.setCore { s.core with gEmpty := s.core.gEmpty ||| (1 <<< r) }

/-! ### Register space (R43-R48) -/

/-- The 32-bit word of register space with a given index (byte offset / 4). -/
def State.word (s : State) (w : Nat) : Lane := Sparse.get s.cell.rsp w

def State.emptyWord (s : State) (w : Nat) : Bool := Sparse.get s.cell.rspEmpty w == 1

/-- The latch holds a late word of register space (R193). -/
def Latch.lateWord (l : Latch) (clk w : Nat) : Bool :=
  decide (l.visible ≤ clk) && match l.target with
    | .reg _ _ => false
    | .vec off lanes _ => decide (off / 4 ≤ w) && decide (w < off / 4 + 64) && lanes.getLsbD (w - off / 4)

def State.lateWord (s : State) (w : Nat) : Bool := s.core.inflight.any (fun l => l.lateWord s.clk w)

/-- Byte offset of v[n] (R45), an 18-bit register-space address (R43). -/
def State.vOff (s : State) (n : Nat) : Nat := (256 * Word.bits (s.readCsr 0x010) 0 10 + 256 * n) % 2 ^ 18

/-- Byte offset of t[n] (R45). -/
def State.tOff (s : State) (n : Nat) : Nat := 2048 * Word.bits (s.readCsr 0x011) 0 7 + 2048 * n

/-- Byte offset of c[n] (R45). -/
def State.cOff (s : State) (n : Nat) : Nat := 8192 * Word.bits (s.readCsr 0x012) 0 5 + 8192 * n

/-- Word indices of the enabled lanes of a vector at a byte offset. -/
def laneWords (off : Nat) (lanes : Word) : List Nat :=
  ((List.range 64).filter lanes.getLsbD).map (fun l => off / 4 + l)

/-- The 64 lanes of a vector at a byte offset. -/
def State.lanesAt (s : State) (off : Nat) : List Lane := Sparse.getRun s.cell.rsp (off / 4) 64

/-- v[n] (R45). -/
def State.v (s : State) (n : Nat) : List Lane := s.lanesAt (s.vOff n)

/-- Bank b is bound to the matrix slot (R47). -/
def State.matrixBank (s : State) (b : Nat) : Bool := (s.readCsr 0x013).getLsbD b

/-- Bank of a word index (R43). -/
def bankOf (w : Nat) : Nat := w / 4096

/-- Words written into the register space, each set full, and their banks marked dirty (R50, R332). Old values are
kept where `lanes` is clear. -/
def Cell.putLanes (c : Cell) (off : Nat) (lanes : Word) (data : List Lane) : Cell :=
  if lanes = 0 then c else
  let w := off / 4
  let old := Sparse.getRun c.rsp w 64
  let oldE := Sparse.getRun c.rspEmpty w 64
  let pick : Nat → Lane := fun l => if lanes.getLsbD l then (data[l]?).getD 0 else (old[l]?).getD 0
  let pickE : Nat → BitVec 1 := fun l => if lanes.getLsbD l then 0 else (oldE[l]?).getD 0
  { c with
    rsp := Sparse.setRun c.rsp w ((List.range 64).map pick)
    rspEmpty := Sparse.setRun c.rspEmpty w ((List.range 64).map pickE)
    rspErr := c.rspErr.filter fun e => !(decide (w ≤ e.1) && decide (e.1 < w + 64) && lanes.getLsbD (e.1 - w))
    dirtyBanks := c.dirtyBanks ||| (1 <<< bankOf w) }

/-- One word of register space written and set full (R50). -/
def Cell.putWord (c : Cell) (w : Nat) (v : Lane) : Cell :=
  { c with rsp := Sparse.set c.rsp w v, rspEmpty := Sparse.set c.rspEmpty w 0, rspErr := Sparse.set c.rspErr w 0,
           dirtyBanks := c.dirtyBanks ||| (1 <<< bankOf w) }

/-- Consecutive words of register space written and set full. -/
def Cell.putWords (c : Cell) (w : Nat) (vs : List Lane) : Cell :=
  { c with
    rsp := Sparse.setRun c.rsp w vs
    rspEmpty := Sparse.setRun c.rspEmpty w (vs.map fun _ => 0)
    rspErr := c.rspErr.filter (fun e => !(decide (w ≤ e.1) && decide (e.1 < w + vs.length)))
    dirtyBanks := c.dirtyBanks ||| (1 <<< bankOf w) ||| (1 <<< bankOf (w + vs.length - 1)) }

def State.putLanes (s : State) (off : Nat) (lanes : Word) (data : List Lane) : State :=
  s.setCell (s.cell.putLanes off lanes data)

/-- Marks the enabled lanes of a vector empty (R50). -/
def State.emptyLanes (s : State) (off : Nat) (lanes : Word) : State :=
  let w := off / 4
  let oldE := Sparse.getRun s.cell.rspEmpty w 64
  let newE := (List.range 64).map fun l => if lanes.getLsbD l then 1 else (oldE[l]?).getD 0
  s.setCell { s.cell with rspEmpty := Sparse.setRun s.cell.rspEmpty w newE }

/-! ### Checks at issue -/

/-! Trap and interrupt codes (R199). -/

abbrev Code.illegal : Nat := 0x01
abbrev Code.privilege : Nat := 0x02
abbrev Code.align : Nat := 0x03
abbrev Code.translate : Nat := 0x04
abbrev Code.protect : Nat := 0x05
abbrev Code.format : Nat := 0x06
abbrev Code.emptyread : Nat := 0x07
abbrev Code.latency : Nat := 0x08
abbrev Code.lend : Nat := 0x09
abbrev Code.exhaust : Nat := 0x0A
abbrev Code.ring : Nat := 0x0B
abbrev Code.tile : Nat := 0x0C
abbrev Code.engine : Nat := 0x0D
abbrev Code.stack : Nat := 0x0E
abbrev Code.absent : Nat := 0x0F
abbrev Code.shape : Nat := 0x10
abbrev Code.watch : Nat := 0x11
abbrev Code.break : Nat := 0x12
abbrev Code.machine : Nat := 0x13
abbrev Code.fabric : Nat := 0x14
abbrev Code.vat : Nat := 0x15
abbrev Code.syscall : Nat := 0x16
abbrev Code.timer : Nat := 0x20
abbrev Code.cue : Nat := 0x21
abbrev Code.tick : Nat := 0x22
abbrev Code.watchasync : Nat := 0x23

/-- What a check at issue finds: nothing wrong, a wait charged to a cause, a trap, or correctable errors in words of
register space, which are corrected while the unit replays once, or a missing translation (R53, R65, R195). -/
inductive Verdict where
  | pass
  | wait (c : Cause)
  | trap (t : TrapInfo)
  | fix (words : List Nat)
  /-- the same for store words, by their keys in the list of errors (R230) -/
  | fixStore (words : List Nat)
  /-- a translation missed: the walk of a page, for an access (R324) -/
  | walk (va : Word) (acc : Access)
  /-- a read at a home before the unit issues has not been answered (R109) -/
  | read
  deriving DecidableEq, Repr

/-- The first check that does not pass decides (R77, R103, R132). -/
def firstOf : List Verdict → Verdict
  | [] => .pass
  | .pass :: vs => firstOf vs
  | v :: _ => v

/-- A trap with a code and nothing else to report. -/
def trapWith (code : Nat) : Verdict := .trap { code := code }

/-- A condition whose failure traps. -/
def require (ok : Bool) (code : Nat) : Verdict := if ok then .pass else trapWith code

/-- A condition the unit waits for. -/
def await (ok : Bool) (c : Cause) : Verdict := if ok then .pass else .wait c

/-- R68: an encoding the map does not assign, or a field R59, R60, R62 or R64 rejects, traps with ILLEGAL. -/
def legal (i : Instr) : Verdict := require i.wellFormed Code.illegal

/-- R51, R77: an empty source whose per-source bit is 1 traps with EMPTYREAD. The frame names the g register as
0x4_0000 + n (R194, R206). -/
def noEmptyTrap (s : State) (r : Nat) (bit : Bool) : Verdict :=
  if bit && s.emptyG r then .trap { code := Code.emptyread, info0 := BitVec.ofNat 64 (0x40000 + r) } else .pass

/-! ### Locations (R194): a register-space byte offset, or 0x4_0000 + n for g[n] -/

def gLoc (r : Nat) : Nat := 0x40000 + r

def State.emptyLoc (s : State) (l : Nat) : Bool :=
  if 0x40000 ≤ l then s.emptyG (l - 0x40000) else s.emptyWord (l / 4)

def State.lateLoc (s : State) (l : Nat) : Bool :=
  if 0x40000 ≤ l then s.lateG (l - 0x40000) else s.lateWord (l / 4)

/-- The first of some locations in ascending order. -/
def lowestLoc : List Nat → Option Nat
  | [] => none
  | l :: ls => some (match lowestLoc ls with
    | none => l
    | some m => min l m)

/-- A late source word waits, or traps with LATENCY and names the first one in ascending order (R194). -/
def lateRead (s : State) (ls : List Nat) : Verdict :=
  match lowestLoc (ls.filter s.lateLoc) with
  | some l => if s.latmode then .trap { code := Code.latency, info0 := BitVec.ofNat 64 l } else .wait .scoreboard
  | none => .pass

/-- A late destination word is waited for (R194). -/
def lateWrite (s : State) (ls : List Nat) : Verdict := await (!ls.any s.lateLoc) .scoreboard

/-- The wait for full words (R51, R52). -/
def awaitFull (s : State) (ls : List Nat) : Verdict := await (!ls.any s.emptyLoc) .emptyWait

/-- The checks of the scalar sources, with their per-source bits, and of the scalar destinations of a unit (R77,
R51, R52, R194): EMPTYREAD in the order given, then waits for empty registers, then late ones. -/
def scalarChecks (s : State) (srcs : List (Nat × Bool)) (dsts : List Nat) : List Verdict :=
  let all := srcs.map fun p => gLoc p.1
  srcs.map (fun p => noEmptyTrap s p.1 p.2) ++
    [awaitFull s (all ++ dsts.map gLoc), lateRead s all, lateWrite s (dsts.map gLoc)]

/-! ### Taking a trap (R200-R206) -/

/-- The latches in flight at a resume point b. Latches still to be re-injected come first, their producers being the older
(R135), and count from it (R203). -/
def Core.pending (c : Core) (b : Nat) : List Latch :=
  c.reinject.map (fun l => { l with visible := b + l.visible }) ++ c.inflight

/-- The latch's target written and set full. -/
def State.land (s : State) (t : Target) : State :=
  match t with
  | .reg r v => s.setCore (s.core.putG r v)
  | .vec off lanes data => s.putLanes off lanes data

/-- The targets written in order. -/
def State.landAll (s : State) : List Latch → State
  | [] => s
  | l :: ls => State.landAll (s.land l.target) ls

/-- The header word of a latch record (R205). -/
def Latch.header (l : Latch) (b : Nat) : Word :=
  let count := min 12 (l.visible - b)
  match l.target with
  | .reg r _ => BitVec.ofNat 64 (1 + 4 * bit l.scalar + 256 * count + 2 ^ 32 * r)
  | .vec off _ _ => BitVec.ofNat 64 (4 * bit l.scalar + 256 * count + 2 ^ 32 * off)

/-- Lanes 2i and 2i + 1 in one word. -/
def packLanes : List Lane → List Word
  | a :: b :: r => BitVec.ofNat 64 (a.toNat + 2 ^ 32 * b.toNat) :: packLanes r
  | [a] => [BitVec.ofNat 64 a.toNat]
  | [] => []

/-- The 34 words of a latch record (R205). -/
def Latch.record (l : Latch) (b : Nat) : List Word :=
  match l.target with
  | .reg _ v => [l.header b, 0, v] ++ List.replicate 31 0
  | .vec _ lanes data => l.header b :: lanes :: (packLanes data ++ List.replicate 32 0).take 32

/-- The latch records of a frame (R205, R207): each saved latch in its slot, the other slots as they stand. -/
def saveLatches (fx : Sparse 64) (b : Nat) : Nat → List Latch → Sparse 64
  | _, [] => fx
  | j, l :: ls => saveLatches (Sparse.setRun fx (34 * j) (l.record b)) b (j + 1) ls

/-- The latches saved at a resume point: those not yet visible there, at most twelve (R200). -/
def savedLatches (ls : List Latch) (b : Nat) : List Latch :=
  (ls.filter (fun l => decide (b < l.visible))).take 12

/-- The data of a store load have not arrived by the end of clk e (R193, R200). -/
def Latch.outstanding (l : Latch) (e : Nat) : Bool := l.port.isSome || decide (e < l.arrive)

/-- The frame CSRs and modes of a trap entry (R201, R204, R206). -/
def State.writeFrame (s : State) (t : TrapInfo) (fpc : Word) (nlat : Nat) : State :=
  let ctl := s.readCsr 1
  let istat := s.readCsr 0x100
  let fstat := 3 + 4 * Word.bits ctl 8 1 + 8 * Word.bits istat 0 1 + 16 * nlat
  let pairs : List (Nat × Word) :=
    [(0x040, BitVec.ofNat 64 fstat), (0x041, BitVec.ofNat 64 (Word.bits fpc 0 56)),
     (0x042, BitVec.ofNat 64 (t.code + 256 * t.sub)), (0x043, t.addr), (0x044, t.info0), (0x045, t.info1),
     (0x046, t.info2), (0x1C5, if t.code = Code.machine then t.mc else s.readCsr 0x1C5), (0x048, BitVec.ofNat 64 s.msp)] ++
    (List.range 8).map (fun i => (0x049 + i, s.core.mask[i]?.getD 0)) ++
    [(1, Word.setBits ctl 8 1 1), (0x100, Word.setBits istat 0 1 0), (0x014, 0)]
  { s with csr := pairs.foldl (fun c p => Sparse.set c p.1 p.2) s.csr }

/-- The handler's address: bits 55:2 of TVEC (R201, R204). -/
def State.handler (s : State) : Word := canon (Word.bits (s.readCsr 0x101) 2 54 * 4)

/-- Trap entry after its W clk (R200, R201). `b` is the resume point, `spent` the clk of entry that the step itself
occupies: results that belong before b are written, the other pending latches are saved in the frame, the level is raised
and the pc set to the handler; 4 + NLAT clk of entry remain. -/
def State.enterNow (s : State) (t : TrapInfo) (fpc : Word) (b spent : Nat) : State :=
  let ls := s.core.pending b
  let saved := savedLatches ls b
  let s1 := s.landAll (ls.filter (fun l => decide (l.visible ≤ b)))
  let s2 := s1.writeFrame t fpc saved.length
  { s2 with
    cell := { s2.cell with fx := saveLatches s2.cell.fx b 0 saved }
    core := { s2.core with
      pc := s.handler, mask := s2.core.mask.setIfInBounds 0 (BitVec.allOnes 64), inflight := [], reinject := [],
      busy := 4 + saved.length - spent, fetchClk := 0, delayClk := 0, wfi := false, barsync := none,
      frameBar := s.core.barsync.toList ++ s.core.frameBar.filter fun x => !(s.core.barsync.any fun y => y.1 == x.1),
      fenceId := none, readClk := [], far := [],
      walkFault := [], trapPend := none, entering := none, skipBkpt := false, waited := 0, charge := .trap, chargeV := false,
      chargePc := s.core.pc } }

/-- Trap entry. `e` is the clk whose end is the recognition boundary: where the data of a store load are outstanding there,
entry first waits for them (R200, R201). -/
def State.enterTrap (s : State) (t : TrapInfo) (fpc : Word) (b e spent : Nat) : State :=
  if s.core.inflight.any fun l => l.outstanding e then
    s.setCore { s.core with
      entering := some { info := t, pc := fpc, b := b, waited := spent }, charge := .trap, chargeV := false, chargePc := s.core.pc }
  else s.enterNow t fpc b spent

/-- R202: a double trap stops issue and the queues at entry boundaries; the frame is left as it stands. -/
def State.doubleTrap (s : State) (t : TrapInfo) : State :=
  { s with
    mgr := { s.mgr with reports := s.mgr.reports ++ [(t.code, none)] }
    cell := { s.cell with endStatus := 2, endCause := t.code, chained := s.cell.chained.map fun e => { e with trig := true } }
    core := { s.core with status := .doubled, charge := .trap, chargeV := false, chargePc := s.core.pc } }

/-- Errors counted in ERRCNT of a die, each field saturating (R390). -/
def State.countErrors (s : State) (die ce ue : Nat) : State :=
  let w := (s.mgr.errcnt[die]?).getD 0
  let v := BitVec.ofNat 64 (min 0xFFFFFFFF (Word.bits w 0 32 + ce) + 2 ^ 32 * min 0xFFFFFFFF (Word.bits w 32 32 + ue))
  if die < 28 ∧ ce + ue ≠ 0 then { s with mgr := { s.mgr with errcnt := s.mgr.errcnt.setIfInBounds die v } } else s

/-- A synchronous trap of the unit at the pc, with a resume pc (R200): b is its issue clk, and entry begins in the
next clk. An uncorrectable word of the cell is counted (R390). -/
def State.syncTrap (s : State) (t : TrapInfo) (fpc : Word) : State :=
  let s1 := if t.code = Code.machine ∧ (Word.bits t.mc 0 3 = 1 ∨ Word.bits t.mc 0 3 = 2) then s.countErrors (s.gcell / 64) 0 1 else s
  if s.system && s.held then s1.doubleTrap t else s1.enterTrap t fpc s.clk s.clk 0

/-! ### What a unit does at its issue clk (R65, R191, R195) -/

/-- The unit belongs to slot V: majors 0x32-0x3B, 0x22 and 0x23 (R195). -/
def slotV : Instr → Bool
  | .vld .. | .vst .. | .vfadd .. | .vfsub .. | .vfmul .. | .vfma .. | .vfms .. | .vfnma .. | .vfmin ..
  | .vfmax .. | .vfabs .. | .vfneg .. | .vbadd .. | .vbsub .. | .vbmul .. | .vbfma .. | .vbmin .. | .vbmax ..
  | .viadd .. | .visub .. | .vimul .. | .vimulh .. | .vimin .. | .vimax .. | .viminu .. | .vimaxu ..
  | .viabs .. | .viadds .. | .visubs .. | .vand .. | .vor .. | .vxor .. | .vandn .. | .vshl .. | .vshr ..
  | .vsar .. | .vnot .. | .vpopc .. | .vclz .. | .frcp .. | .frsq .. | .fexp2 .. | .flog2 .. | .vcvtfh ..
  | .vcvthf .. | .vcvtfs .. | .vcvtsf .. | .vcvtfi .. | .vcvtif .. | .vcvtfu .. | .vcvtuf .. | .vrnd ..
  | .vfceq .. | .vfclt .. | .vfcle .. | .viceq .. | .viclt .. | .vicltu .. | .mpush .. | .minv .. | .mpop ..
  | .vfrsum .. | .vfrmax .. | .vfrmin .. | .virsum .. | .virmax .. | .virmin .. | .vrand .. | .vror ..
  | .vperm .. | .vbcast .. | .vrot .. | .vslup .. | .vsldn .. | .vzip .. | .vunzip .. | .vcompress ..
  | .vexpand .. | .vmov .. | .vsplat .. | .vins .. | .vext .. | .viota .. | .vsel .. | .vmaskrd ..
  | .vmaskwr .. => true
  | _ => false

/-- The unit's own waits, row 11 of R195. -/
def Cause.own : Cause → Bool
  | .tile | .ringWait | .cueWait | .orderWait | .barrier | .queueFull | .memory => true
  | _ => false

/-- The unit waits: nothing changes but the charge, and the count of its own wait (R195, R220). -/
def State.hold (s : State) (i : Instr) (c : Cause) : State :=
  s.setCore { s.core with
    charge := c, chargeV := slotV i, chargePc := s.core.pc, waited := if c.own then s.core.waited + 1 else s.core.waited }

/-- The unit leaves the head: the next unit begins at `pc`. -/
def State.goto (s : State) (i : Instr) (pc : Word) : State :=
  s.setCore { s.core with
    chargePc := s.core.pc, charge := .issued, chargeV := slotV i, pc := pc, fetchClk := 0, delayClk := 0,
    wfi := false, barsync := none, fenceId := none, readClk := [], far := [], walkFault := [], skipBkpt := false, waited := 0 }

/-- The pc after the unit's words. -/
def nextPc (i : Instr) (pc : Word) : Word := pc + BitVec.ofNat 64 (4 * i.words)

/-- Corrects single-bit errors in the named words of register space, counting them (R53, R390). -/
def State.correct (s : State) (ws : List Nat) : State :=
  let fixed := s.cell.rspErr.filter fun e => ws.contains e.1 && e.2 == 1
  (s.setCell { s.cell with rspErr := s.cell.rspErr.filter fun e => !(ws.contains e.1 && e.2 == 1) }).countErrors
    (s.gcell / 64) fixed.length 0

/-- Corrects single-bit errors in store words, by their keys, counting them; scrubbing aside, event 27 of R346 (R230,
R390). -/
def State.correctStore (s : State) (ks : List Nat) : State :=
  let fixed := s.cell.storeErr.filter fun e => ks.contains e.1 && e.2 == 1
  let s1 := (s.setCell { s.cell with storeErr := s.cell.storeErr.filter fun e => !(ks.contains e.1 && e.2 == 1) }).countErrors
    (s.gcell / 64) fixed.length 0
  s1.count 27 fixed.length

/-- VC_d (R255). -/
def State.vcOf (s : State) (d : Nat) : List Nat := (List.range 28).map fun e => (Sparse.get s.sys.vc (32 * d + e)).toNat

/-- Asks for the walk of a page; a walk in progress with the same identity is joined, whatever asked for it (R324). -/
def State.askWalk (s : State) (va : Word) (acc : Access) : State :=
  if s.sys.walks.any fun w => decide (Word.bits w.1 16 40 = Word.bits va 16 40) then s
  else { s with sys := { s.sys with walks := s.sys.walks ++ [(va, acc, s.vcOf (s.gcell / 64))] } }

/-- The clock of a read that the unit makes before it issues: that of the clk in which it was first made (R255). -/
def State.noteRead (s : State) : State :=
  if s.core.readClk.isEmpty then s.setCore { s.core with readClk := s.vcOf (s.gcell / 64) } else s

/-- A unit that does not pass its checks: it waits, traps, replays or waits for a walk. -/
def State.blocked (s : State) (i : Instr) : Verdict → State
  | .pass => s
  | .wait c => s.hold i c
  | .trap t => s.syncTrap t s.core.pc
  | .fix ws => (s.correct ws).hold i .scoreboard
  | .fixStore ks => (s.correctStore ks).hold i .scoreboard
  | .walk va w => (s.askWalk va w).hold i .translation
  | .read => s.noteRead.hold i .memory

/-- A unit's outcome: the first check that fails holds it or traps; otherwise `effect` is the state with its effects,
and the next unit begins at `target`. -/
def settleTo (i : Instr) (s : State) (checks : List Verdict) (effect : State) (target : Word) : Out :=
  match firstOf (legal i :: checks) with
  | .pass => .next (effect.goto i target)
  | v => .next (s.blocked i v)

/-- The same for a unit that falls through to the next. -/
def settle (i : Instr) (s : State) (checks : List Verdict) (effect : State) : Out :=
  settleTo i s checks effect (nextPc i s.core.pc)

/-! ### Returning from a trap (R49, R203) -/

/-- Latch record j of the frame buffer (R205). -/
def State.frameWord (s : State) (w : Nat) : Word := if w < 408 then Sparse.get s.cell.fx w else 0

/-- KIND, COUNT as re-injected, DEST of latch record j (R205). -/
def State.latchKind (s : State) (j : Nat) : Nat := Word.bits (s.frameWord (34 * j)) 0 2
def State.latchDest (s : State) (j : Nat) : Nat := Word.bits (s.frameWord (34 * j)) 32 18
def State.latchCount (s : State) (j : Nat) : Nat := max 1 (min 12 (Word.bits (s.frameWord (34 * j)) 8 4))

/-- R203: the record is malformed. -/
def State.latchBad (s : State) (j : Nat) : Bool :=
  let d := s.latchDest j
  match s.latchKind j with
  | 0 => decide (d % 256 ≠ 0) || decide (0x2FF00 < d)
  | 1 => decide (d = 0) || decide (31 < d)
  | _ => true

/-- The 64 lanes of a latch record. -/
def unpackWords : List Word → List Lane
  | [] => []
  | w :: ws => Word.half w 0 :: Word.half w 1 :: unpackWords ws

/-- The latch a record holds, with its count in place of its visible-from clk. -/
def State.latchOf (s : State) (j : Nat) : Latch :=
  let t : Target := if s.latchKind j = 1 then .reg (s.latchDest j) (s.frameWord (34 * j + 2))
    else .vec (s.latchDest j) (s.frameWord (34 * j + 1))
      (unpackWords ((List.range 32).map fun i => s.frameWord (34 * j + 2 + i)))
  { target := t, visible := s.latchCount j, arrive := 0, scalar := (s.frameWord (34 * j)).getLsbD 2, port := none }

/-- R49: the latch targets a bank bound to the matrix slot. -/
def State.latchLent (s : State) (j : Nat) : Bool :=
  s.latchKind j = 0 && s.frameWord (34 * j + 1) ≠ 0 && s.matrixBank (bankOf (s.latchDest j / 4))

/-- NLAT of FSTAT (R205). -/
def State.nlat (s : State) : Nat := min 12 (Word.bits (s.readCsr 0x040) 4 4)

/-- Restoration of the frame (R203): pc, level, IE, mask stack and MSP; VALID and HELD clear; 4 + NLAT clk are charged
to TRAP, with the fetch of the resumed unit's further words after them. -/
def State.restoreFrame (s : State) : State :=
  let fstat := s.readCsr 0x040
  let pairs : List (Nat × Word) :=
    [(1, Word.setBits (s.readCsr 1) 8 1 (Word.bits fstat 2 1)),
     (0x100, Word.setBits (s.readCsr 0x100) 0 1 (Word.bits fstat 3 1)),
     (0x014, BitVec.ofNat 64 (Word.bits (s.readCsr 0x048) 0 3)), (0x040, Word.setBits fstat 0 2 0)]
  { s with
    csr := pairs.foldl (fun c p => Sparse.set c p.1 p.2) s.csr
    core := { s.core with
      pc := canon (Word.bits (s.readCsr 0x041) 0 56)
      mask := Vector.ofFn (fun i => s.readCsr (0x049 + i.val))
      reinject := (List.range s.nlat).map s.latchOf, reinjectAt := s.clk + 5 + s.nlat
      busy := 4 + s.nlat, fetchClk := 0, delayClk := 0, skipBkpt := true, waited := 0
      barsync := s.core.frameBar.find? fun x => x.1 == canon (Word.bits (s.readCsr 0x041) 0 56)
      frameBar := s.core.frameBar.filter fun x => x.1 != canon (Word.bits (s.readCsr 0x041) 0 56)
      charge := .issued, chargeV := false, chargePc := s.core.pc } }

end Sys2Proof.Machine
end

