-- ==== Sys2Proof/Machine/Scalar.lean ====
section
/-!
DEFINITION. Integer and address arithmetic, compares, bit counting, rank and select (R76-R85): majors 0x01-0x0C.
-/

namespace Sys2Proof.Machine

/-! ### The functions (R78-R85) -/

/-- Signed quotient truncated toward zero, with the edge cases of R79. -/
def sdivWord (a b : Word) : Word := if b = 0 then BitVec.allOnes 64 else BitVec.ofInt 64 (a.toInt.tdiv b.toInt)

def udivWord (a b : Word) : Word := if b = 0 then BitVec.allOnes 64 else BitVec.ofNat 64 (a.toNat / b.toNat)

/-- Remainder with the sign of a (R79). -/
def sremWord (a b : Word) : Word := if b = 0 then a else BitVec.ofInt 64 (a.toInt.tmod b.toInt)

def uremWord (a b : Word) : Word := if b = 0 then a else BitVec.ofNat 64 (a.toNat % b.toNat)

/-- Bits 127:64 of the signed product (R78). -/
def mulhWord (a b : Word) : Word := BitVec.ofInt 64 ((a.toInt * b.toInt) / 2 ^ 64)

def mulhuWord (a b : Word) : Word := BitVec.ofNat 64 (a.toNat * b.toNat / 2 ^ 64)

/-- The shift amount b[5:0] (R78). -/
def shamt (b : Word) : Nat := b.toNat % 64

/-- Number of set bits below position n. -/
def onesBelow {w : Nat} (a : BitVec w) (n : Nat) : Nat := ((List.range (min n w)).filter a.getLsbD).length

/-- Number of set bits. -/
def popCount {w : Nat} (a : BitVec w) : Nat := onesBelow a w

/-- Leading zeros; the width for zero (R84). -/
def leadingZeros {w : Nat} (a : BitVec w) : Nat := ((List.range w).takeWhile fun i => !a.getMsbD i).length

/-- Trailing zeros; the width for zero (R84). -/
def trailingZeros {w : Nat} (a : BitVec w) : Nat := ((List.range w).takeWhile fun i => !a.getLsbD i).length

/-- Position of the set bit with exactly b set bits below it, or 64 (R85). -/
def selectBit (a : Word) (b : Nat) : Nat :=
  (((List.range 64).filter a.getLsbD)[b]?).getD 64

/-- Sext(a[n:0], n + 1) (R84). -/
def sextFrom (a : Word) (n : Nat) : Word := BitVec.ofInt 64 (Int.bmod (a.toNat % 2 ^ (n + 1)) (2 ^ (n + 1)))

/-- The field of BEXT (R84): shift b[5:0], width Min(b[14:8], 64). -/
def bextField (a b : Word) : Word :=
  BitVec.ofNat 64 (a.toNat / 2 ^ shamt b % 2 ^ min (Word.bits b 8 7) 64)

/-- The immediate of format I, sign-extended, with any XIMM (R61). -/
def Imm.signed {n : Nat} (i : Imm n) : Word :=
  match i.hi with
  | none => i.lo.signExtend 64
  | some h => (h ++ i.lo).signExtend 64

/-- The immediate of format I, zero-extended, with any XIMM (R61). -/
def Imm.unsigned {n : Nat} (i : Imm n) : Word :=
  match i.hi with
  | none => i.lo.zeroExtend 64
  | some h => (h ++ i.lo).zeroExtend 64

/-! ### The shared forms -/

/-- Format A with two sources: g[rd] ← f(g[ra], g[rb]) with exposed latency l (R76, R78). -/
def execAlu (i : Instr) (l : Nat) (f : Word → Word → Word) (d a b : BitVec 5) (x y : Bool) (s : State) : Out :=
  settle i s (scalarChecks s [(a.toNat, x), (b.toNat, y)] [d.toNat])
    (s.result l d.toNat (f (s.g a.toNat) (s.g b.toNat)))

/-- Format A with one source. -/
def execUnary (i : Instr) (f : Word → Word) (d a : BitVec 5) (x : Bool) (s : State) : Out :=
  settle i s (scalarChecks s [(a.toNat, x)] [d.toNat]) (s.result 1 d.toNat (f (s.g a.toNat)))

/-- Format I: one source without a per-source bit, and an immediate operand (R76, R80). -/
def execImm (i : Instr) (l : Nat) (f : Word → Word → Word) (d a : BitVec 5) (v : Word) (s : State) : Out :=
  settle i s (scalarChecks s [(a.toNat, false)] [d.toNat]) (s.result l d.toNat (f (s.g a.toNat) v))

/-! ### Arithmetic (R78, R79) -/

/-- ADD (R78). -/
def execAdd (d a b : BitVec 5) (x y : Bool) (s : State) : Out :=
  execAlu (.add d a b x y) 1 (fun a b => a + b) d a b x y s

/-- SUB (R78). -/
def execSub (d a b : BitVec 5) (x y : Bool) (s : State) : Out :=
  execAlu (.sub d a b x y) 1 (fun a b => a - b) d a b x y s

/-- AND (R78). -/
def execAnd (d a b : BitVec 5) (x y : Bool) (s : State) : Out :=
  execAlu (.and d a b x y) 1 (fun a b => a &&& b) d a b x y s

/-- OR (R78). -/
def execOr (d a b : BitVec 5) (x y : Bool) (s : State) : Out :=
  execAlu (.or d a b x y) 1 (fun a b => a ||| b) d a b x y s

/-- XOR (R78). -/
def execXor (d a b : BitVec 5) (x y : Bool) (s : State) : Out :=
  execAlu (.xor d a b x y) 1 (fun a b => a ^^^ b) d a b x y s

/-- ANDN (R78). -/
def execAndn (d a b : BitVec 5) (x y : Bool) (s : State) : Out :=
  execAlu (.andn d a b x y) 1 (fun a b => a &&& ~~~b) d a b x y s

/-- SHL (R78). -/
def execShl (d a b : BitVec 5) (x y : Bool) (s : State) : Out :=
  execAlu (.shl d a b x y) 1 (fun a b => a <<< shamt b) d a b x y s

/-- SHR (R78). -/
def execShr (d a b : BitVec 5) (x y : Bool) (s : State) : Out :=
  execAlu (.shr d a b x y) 1 (fun a b => a >>> shamt b) d a b x y s

/-- SAR (R78). -/
def execSar (d a b : BitVec 5) (x y : Bool) (s : State) : Out :=
  execAlu (.sar d a b x y) 1 (fun a b => a.sshiftRight (shamt b)) d a b x y s

/-- MUL (R78). -/
def execMul (d a b : BitVec 5) (x y : Bool) (s : State) : Out :=
  execAlu (.mul d a b x y) 3 (fun a b => a * b) d a b x y s

/-- MULH (R78). -/
def execMulh (d a b : BitVec 5) (x y : Bool) (s : State) : Out :=
  execAlu (.mulh d a b x y) 3 mulhWord d a b x y s

/-- MULHU (R78). -/
def execMulhu (d a b : BitVec 5) (x y : Bool) (s : State) : Out :=
  execAlu (.mulhu d a b x y) 3 mulhuWord d a b x y s

/-- DIV (R79). -/
def execDiv (d a b : BitVec 5) (x y : Bool) (s : State) : Out :=
  execAlu (.div d a b x y) 12 sdivWord d a b x y s

/-- DIVU (R79). -/
def execDivu (d a b : BitVec 5) (x y : Bool) (s : State) : Out :=
  execAlu (.divu d a b x y) 12 udivWord d a b x y s

/-- REM (R79). -/
def execRem (d a b : BitVec 5) (x y : Bool) (s : State) : Out :=
  execAlu (.rem d a b x y) 12 sremWord d a b x y s

/-- REMU (R79). -/
def execRemu (d a b : BitVec 5) (x y : Bool) (s : State) : Out :=
  execAlu (.remu d a b x y) 12 uremWord d a b x y s

/-- MIN (R78). -/
def execMin (d a b : BitVec 5) (x y : Bool) (s : State) : Out :=
  execAlu (.min d a b x y) 1 (fun a b => if a.slt b then a else b) d a b x y s

/-- MAX (R78). -/
def execMax (d a b : BitVec 5) (x y : Bool) (s : State) : Out :=
  execAlu (.max d a b x y) 1 (fun a b => if a.slt b then b else a) d a b x y s

/-- MINU (R78). -/
def execMinu (d a b : BitVec 5) (x y : Bool) (s : State) : Out :=
  execAlu (.minu d a b x y) 1 (fun a b => if a.ult b then a else b) d a b x y s

/-- MAXU (R78). -/
def execMaxu (d a b : BitVec 5) (x y : Bool) (s : State) : Out :=
  execAlu (.maxu d a b x y) 1 (fun a b => if a.ult b then b else a) d a b x y s

/-! ### Compare and select (R83) -/

/-- CEQ (R83). -/
def execCeq (d a b : BitVec 5) (x y : Bool) (s : State) : Out :=
  execAlu (.ceq d a b x y) 1 (fun a b => Word.ofBool (a == b)) d a b x y s

/-- CNE (R83). -/
def execCne (d a b : BitVec 5) (x y : Bool) (s : State) : Out :=
  execAlu (.cne d a b x y) 1 (fun a b => Word.ofBool (a != b)) d a b x y s

/-- CLT (R83). -/
def execClt (d a b : BitVec 5) (x y : Bool) (s : State) : Out :=
  execAlu (.clt d a b x y) 1 (fun a b => Word.ofBool (a.slt b)) d a b x y s

/-- CLTU (R83). -/
def execCltu (d a b : BitVec 5) (x y : Bool) (s : State) : Out :=
  execAlu (.cltu d a b x y) 1 (fun a b => Word.ofBool (a.ult b)) d a b x y s

/-- CLE (R83). -/
def execCle (d a b : BitVec 5) (x y : Bool) (s : State) : Out :=
  execAlu (.cle d a b x y) 1 (fun a b => Word.ofBool (a.sle b)) d a b x y s

/-- CLEU (R83). -/
def execCleu (d a b : BitVec 5) (x y : Bool) (s : State) : Out :=
  execAlu (.cleu d a b x y) 1 (fun a b => Word.ofBool (a.ule b)) d a b x y s

/-- SEL (R83): the old g[rd] is a third source without a per-source bit. -/
def execSel (d a b : BitVec 5) (x y : Bool) (s : State) : Out :=
  settle (.sel d a b x y) s (scalarChecks s [(a.toNat, x), (b.toNat, y), (d.toNat, false)] [d.toNat])
    (s.result 1 d.toNat (if s.g d.toNat ≠ 0 then s.g a.toNat else s.g b.toNat))

/-! ### Bit counting, rank and select (R84, R85) -/

/-- POPC (R84). -/
def execPopc (d a : BitVec 5) (x : Bool) (s : State) : Out :=
  execUnary (.popc d a x) (fun a => BitVec.ofNat 64 (popCount a)) d a x s

/-- CLZ (R84). -/
def execClz (d a : BitVec 5) (x : Bool) (s : State) : Out :=
  execUnary (.clz d a x) (fun a => BitVec.ofNat 64 (leadingZeros a)) d a x s

/-- CTZ (R84). -/
def execCtz (d a : BitVec 5) (x : Bool) (s : State) : Out :=
  execUnary (.ctz d a x) (fun a => BitVec.ofNat 64 (trailingZeros a)) d a x s

/-- RANK (R85). -/
def execRank (d a b : BitVec 5) (x y : Bool) (s : State) : Out :=
  execAlu (.rank d a b x y) 1 (fun a b => BitVec.ofNat 64 (onesBelow a b.toNat)) d a b x y s

/-- SELECT (R85). -/
def execSelect (d a b : BitVec 5) (x y : Bool) (s : State) : Out :=
  execAlu (.select d a b x y) 1 (fun a b => BitVec.ofNat 64 (selectBit a b.toNat)) d a b x y s

/-- SEXT (R84). -/
def execSext (d a b : BitVec 5) (x y : Bool) (s : State) : Out :=
  execAlu (.sext d a b x y) 1 (fun a b => sextFrom a (shamt b)) d a b x y s

/-- BEXT (R84). -/
def execBext (d a b : BitVec 5) (x y : Bool) (s : State) : Out :=
  execAlu (.bext d a b x y) 1 bextField d a b x y s

/-- BREV (R84). -/
def execBrev (d a : BitVec 5) (x : Bool) (s : State) : Out :=
  execUnary (.brev d a x) BitVec.reverse d a x s

/-! ### Immediate forms (R80-R82) -/

/-- ADDI (R80). -/
def execAddi (d a : BitVec 5) (i : Imm 16) (s : State) : Out :=
  execImm (.addi d a i) 1 (fun a b => a + b) d a (Imm.signed i) s

/-- ANDI (R80). -/
def execAndi (d a : BitVec 5) (i : Imm 16) (s : State) : Out :=
  execImm (.andi d a i) 1 (fun a b => a &&& b) d a (Imm.unsigned i) s

/-- ORI (R80). -/
def execOri (d a : BitVec 5) (i : Imm 16) (s : State) : Out :=
  execImm (.ori d a i) 1 (fun a b => a ||| b) d a (Imm.unsigned i) s

/-- XORI (R80). -/
def execXori (d a : BitVec 5) (i : Imm 16) (s : State) : Out :=
  execImm (.xori d a i) 1 (fun a b => a ^^^ b) d a (Imm.unsigned i) s

/-- SLTI (R80). -/
def execSlti (d a : BitVec 5) (i : Imm 16) (s : State) : Out :=
  execImm (.slti d a i) 1 (fun a b => Word.ofBool (a.slt b)) d a (Imm.signed i) s

/-- SLTIU (R80). -/
def execSltiu (d a : BitVec 5) (i : Imm 16) (s : State) : Out :=
  execImm (.sltiu d a i) 1 (fun a b => Word.ofBool (a.ult b)) d a (Imm.signed i) s

/-- MULI (R80). -/
def execMuli (d a : BitVec 5) (i : Imm 16) (s : State) : Out :=
  execImm (.muli d a i) 3 (fun a b => a * b) d a (Imm.signed i) s

/-- SHLI (R81). -/
def execShli (d a : BitVec 5) (n : BitVec 6) (s : State) : Out :=
  execImm (.shli d a n) 1 (fun a b => a <<< shamt b) d a (n.zeroExtend 64) s

/-- SHRI (R81). -/
def execShri (d a : BitVec 5) (n : BitVec 6) (s : State) : Out :=
  execImm (.shri d a n) 1 (fun a b => a >>> shamt b) d a (n.zeroExtend 64) s

/-- SARI (R81). -/
def execSari (d a : BitVec 5) (n : BitVec 6) (s : State) : Out :=
  execImm (.sari d a n) 1 (fun a b => a.sshiftRight (shamt b)) d a (n.zeroExtend 64) s

/-- ADDPC (R82): the unit PC plus 4 times the immediate, modulo 2^56, sign-extended from bit 55. -/
def execAddpc (d : BitVec 5) (i : Imm 16) (s : State) : Out :=
  settle (.addpc d i) s (scalarChecks s [] [d.toNat])
    (s.result 1 d.toNat (canon (s.core.pc + 4 * Imm.signed i).toNat))

end Sys2Proof.Machine
end

