-- ==== Sys2Proof/Machine/Float.lean ====
section
/-!
DEFINITION. Floating-point values, exact arithmetic on them, and the one rounding function of the machine (R15-R19,
R31-R33, R137-R144). A finite value is a sign, a natural number and a power of two; nothing is rounded before
`Fmt.encode`.
-/

namespace Sys2Proof.Machine

/-- An IEEE-style format (R15, R17): exponent bits, mantissa bits, bias. -/
structure Fmt where
  eb   : Nat
  mb   : Nat
  bias : Nat
  deriving DecidableEq, Repr

def Fmt.fp32 : Fmt := { eb := 8, mb := 23, bias := 127 }
def Fmt.bf16 : Fmt := { eb := 8, mb := 7, bias := 127 }
def Fmt.fp16 : Fmt := { eb := 5, mb := 10, bias := 15 }

/-- A value: NaN, an infinity, or (-1)^neg m 2^e. -/
inductive FVal where
  | nan
  | inf (neg : Bool)
  | fin (neg : Bool) (m : Nat) (e : Int)
  deriving DecidableEq, Repr

/-- Number of bits of a natural number. -/
def bitLen (n : Nat) : Nat := if n = 0 then 0 else Nat.log2 n + 1

/-- Floor of the base-2 logarithm of m 2^e, for m > 0. -/
def ilog (m : Nat) (e : Int) : Int := Nat.log2 m + e

/-! ### Rounding (R31) -/

/-- Whether a discarded part rounds the magnitude up: `q` the kept integer, `r` over `d` the discarded part. -/
def roundsUp (mode : Nat) (neg : Bool) (q r d : Nat) : Bool :=
  match mode with
  | 0 => decide (d < 2 * r) || (decide (2 * r = d) && decide (q % 2 = 1))
  | 1 => false
  | 2 => decide (0 < r) && !neg
  | 3 => decide (0 < r) && neg
  | _ => decide (d ≤ 2 * r)

/-- m 2^e rounded to a multiple of 2^q, as that multiple. -/
def roundAt (mode : Nat) (neg : Bool) (m : Nat) (e q : Int) : Nat :=
  if q ≤ e then m * 2 ^ (e - q).toNat
  else
    let d := 2 ^ (q - e).toNat
    m / d + bit (roundsUp mode neg (m / d) (m % d) d)

/-- Smallest exponent of the format's last place (that of its subnormals). -/
def Fmt.emin (f : Fmt) : Int := 1 - (f.bias : Int) - f.mb

/-- The code of an infinity without its sign. -/
def Fmt.infCode (f : Fmt) : Nat := (2 ^ f.eb - 1) * 2 ^ f.mb

/-- The canonical NaN (R18). -/
def Fmt.nanCode (f : Fmt) : Nat := f.infCode + 2 ^ (f.mb - 1)

/-- The sign bit of a code. -/
def Fmt.signCode (f : Fmt) (neg : Bool) : Nat := if neg then 2 ^ (f.eb + f.mb) else 0

/-- The code of a magnitude rounded by the mode, without its sign; overflow as R32 states. -/
def Fmt.roundMag (f : Fmt) (mode : Nat) (neg : Bool) (m : Nat) (e : Int) : Nat :=
  if m = 0 then 0
  else
    let q := max f.emin (ilog m e - f.mb)
    let c := (q - f.emin).toNat * 2 ^ f.mb + roundAt mode neg m e q
    if c < f.infCode then c
    else match mode with
      | 1 => f.infCode - 1
      | 2 => if neg then f.infCode - 1 else f.infCode
      | 3 => if neg then f.infCode else f.infCode - 1
      | _ => f.infCode

/-- The code of a value in the format, rounded once by the mode; with `ftz`, a value whose exact magnitude is non-zero
and below the smallest normal gives a zero of its sign (R33). -/
def Fmt.encode (f : Fmt) (mode : Nat) (ftz : Bool) : FVal → Nat
  | .nan => f.nanCode
  | .inf neg => f.signCode neg + f.infCode
  | .fin neg m e =>
    if ftz && decide (m ≠ 0) && decide (ilog m e < 1 - (f.bias : Int)) then f.signCode neg
    else f.signCode neg + f.roundMag mode neg m e

/-- The value of a code (R17); with `ftz`, a subnormal reads as zero of its sign (R33). -/
def Fmt.decode (f : Fmt) (ftz : Bool) (c : Nat) : FVal :=
  let neg := decide (bits c (f.eb + f.mb) 1 = 1)
  let e := bits c f.mb f.eb
  let m := bits c 0 f.mb
  if e = 2 ^ f.eb - 1 then (if m = 0 then .inf neg else .nan)
  else if e = 0 then .fin neg (if ftz then 0 else m) f.emin
  else .fin neg (2 ^ f.mb + m) (f.emin + e - 1)

/-! ### Exact arithmetic -/

/-- (-1)^neg m 2^e as an integer multiple of 2^q, for q ≤ e. -/
def scaleInt (neg : Bool) (m : Nat) (e q : Int) : Int :=
  let n : Int := (m * 2 ^ (e - q).toNat : Nat)
  if neg then -n else n

def FVal.neg : FVal → FVal
  | .nan => .nan
  | .inf n => .inf (!n)
  | .fin n m e => .fin (!n) m e

/-- Exact sum; an exact zero sum of operands of opposite sign is -0 under RDN and +0 otherwise (R32). -/
def FVal.add (rdn : Bool) : FVal → FVal → FVal
  | .nan, _ => .nan
  | _, .nan => .nan
  | .inf a, .inf b => if a = b then .inf a else .nan
  | .inf a, .fin _ _ _ => .inf a
  | .fin _ _ _, .inf b => .inf b
  | .fin a m e, .fin b n f =>
    let q := min e f
    let i := scaleInt a m e q + scaleInt b n f q
    if i = 0 then .fin (if a = b then a else rdn) 0 q else .fin (decide (i < 0)) i.natAbs q

/-- Exact product; an infinity times zero is NaN. -/
def FVal.mul : FVal → FVal → FVal
  | .nan, _ => .nan
  | _, .nan => .nan
  | .inf a, .inf b => .inf (a != b)
  | .inf a, .fin b n _ => if n = 0 then .nan else .inf (a != b)
  | .fin a m _, .inf b => if m = 0 then .nan else .inf (a != b)
  | .fin a m e, .fin b n f => .fin (a != b) (m * n) (e + f)

/-- A value times 2^k. -/
def FVal.scale (k : Int) : FVal → FVal
  | .fin n m e => .fin n m (e + k)
  | v => v

/-- a < b as numbers: -0 equals +0, and a NaN makes it false. -/
def FVal.lt : FVal → FVal → Bool
  | .nan, _ => false
  | _, .nan => false
  | .inf a, .inf b => a && !b
  | .inf a, .fin _ _ _ => a
  | .fin _ _ _, .inf b => !b
  | .fin a m e, .fin b n f => decide (scaleInt a m e (min e f) < scaleInt b n f (min e f))

/-- a = b as numbers. -/
def FVal.eqv : FVal → FVal → Bool
  | .nan, _ => false
  | _, .nan => false
  | a, b => !a.lt b && !b.lt a

/-- The sign of a value that is not a NaN. -/
def FVal.isNeg : FVal → Bool
  | .nan => false
  | .inf n => n
  | .fin n _ _ => n

/-- a lies below b in the order of VFMIN and VFMAX, which puts -0 below +0 (R138). -/
def FVal.below (a b : FVal) : Bool := a.lt b || (a.eqv b && a.isNeg && !b.isNeg)

def FVal.min (a b : FVal) : FVal :=
  match a, b with
  | .nan, _ => .nan
  | _, .nan => .nan
  | a, b => if b.below a then b else a

def FVal.max (a b : FVal) : FVal :=
  match a, b with
  | .nan, _ => .nan
  | _, .nan => .nan
  | a, b => if a.below b then b else a

/-! ### Reciprocals (R142) -/

/-- Integer square root, bit by bit from bit n - 1. -/
def isqrtFrom (x : Nat) : Nat → Nat → Nat
  | 0, r => r
  | n + 1, r => isqrtFrom x n (if (r + 2 ^ n) * (r + 2 ^ n) ≤ x then r + 2 ^ n else r)

def isqrt (x : Nat) : Nat := isqrtFrom x (bitLen x / 2 + 1) 0

/-- 1 / a: sixty more bits of quotient than the operand has, with a sticky bit below them, so that one rounding gives
the rounding of the exact quotient. -/
def FVal.rcp : FVal → FVal
  | .nan => .nan
  | .inf n => .fin n 0 0
  | .fin n m e =>
    if m = 0 then .inf n
    else
      let k := bitLen m + 60
      .fin n (2 * (2 ^ k / m) + bit (2 ^ k % m != 0)) (-e - k - 1)

/-- 1 / √a, with a sticky bit. -/
def FVal.rsqrt : FVal → FVal
  | .nan => .nan
  | .inf n => if n then .nan else .fin false 0 0
  | .fin n m e =>
    if m = 0 then .inf n
    else if n then .nan
    else
      let odd := e.emod 2 = 1
      let m' := if odd then 2 * m else m
      let e' := if odd then e - 1 else e
      let k := bitLen m' + 60
      let q := isqrt (2 ^ (2 * k) / m')
      .fin false (2 * q + bit (q * q * m' != 2 ^ (2 * k))) (-(e' / 2) - k - 1)

/-! ### 2^a and log2 a (R142) -/

/-- Bounds of 2^(2^-i) for i = 1 … n in units of 2^-p, highest first: each is the root of the one before. -/
def rootBounds (p : Nat) : Nat → Nat → Nat → List (Nat × Nat)
  | 0, _, _ => []
  | n + 1, lo, hi =>
    let l := isqrt (lo * 2 ^ p)
    let h := isqrt (hi * 2 ^ p) + 1
    (l, h) :: rootBounds p n l h

/-- Bounds of 2^(f / 2^n), for f < 2^n, in units of 2^-p: the product of the roots at the set bits of f, from the
bit below the point down. -/
def expBounds (p f n : Nat) : Nat × Nat :=
  let step : (Nat × Nat) → ((Nat × Nat) × Nat) → (Nat × Nat) := fun acc r =>
    if bits f r.2 1 = 1 then (acc.1 * r.1.1 / 2 ^ p, acc.2 * r.1.2 / 2 ^ p + 1) else acc
  ((rootBounds p n (2 * 2 ^ p) (2 * 2 ^ p)).zip ((List.range n).reverse)).foldl step (2 ^ p, 2 ^ p)

/-- Bounds of 2^a, as two numbers times one power of two, for a finite a: the fraction is cut at n bits, and
2^d ≤ 1 + d covers the rest. -/
def exp2Bounds (n : Nat) (neg : Bool) (m : Nat) (e : Int) : Nat × Nat × Int :=
  let p := n + 64
  let i := scaleInt neg m (max e (-(n : Int))) (-(n : Int))
  let exact := decide (-(n : Int) ≤ e)
  let v : Int := if exact then scaleInt neg m e (-(n : Int))
    else (if neg then -((m / 2 ^ (-(n : Int) - e).toNat : Nat) : Int) - 1 else ((m / 2 ^ (-(n : Int) - e).toNat : Nat) : Int))
  let w := v / 2 ^ n
  let f := (v % 2 ^ n).toNat
  let b := expBounds p f n
  let hi := if exact then b.2 else b.2 + b.2 / 2 ^ n + 1
  if i = 0 ∧ exact then (2 ^ p, 2 ^ p, w - p) else (b.1, hi, w - p)

/-- Bits of log2 of y / 2^p, for 2^p ≤ y < 2^(p+1), from bounds of y: none where the bounds no longer tell. -/
def logBits (p : Nat) : Nat → Nat → Nat → Nat → Option Nat
  | 0, _, _, acc => some acc
  | n + 1, lo, hi, acc =>
    let l := lo * lo / 2 ^ p
    let h := hi * hi / 2 ^ p + 1
    if h < 2 * 2 ^ p then logBits p n l h (2 * acc)
    else if 2 * 2 ^ p ≤ l then logBits p n (l / 2) (h / 2 + 1) (2 * acc + 1)
    else none

/-- Where both bounds of a value round to one code, that code. -/
def agree (f : Fmt) (ftz : Bool) (a b : FVal) : Option Nat :=
  let x := f.encode 0 ftz a
  if x = f.encode 0 ftz b then some x else none

/-- 2^a of a finite a below 128 in magnitude order, rounded RNE, trying longer fractions in turn. -/
def exp2Code (ftz : Bool) (neg : Bool) (m : Nat) (e : Int) : List Nat → Option Nat
  | [] => none
  | n :: ns =>
    let b := exp2Bounds n neg m e
    match agree Fmt.fp32 ftz (.fin false b.1 b.2.2) (.fin false b.2.1 b.2.2) with
    | some c => some c
    | none => exp2Code ftz neg m e ns

/-- log2 of a positive finite value that is no power of two, rounded RNE. -/
def log2Code (ftz : Bool) (m : Nat) (e : Int) : List Nat → Option Nat
  | [] => none
  | n :: ns =>
    let x := ilog m e
    let p := 2 * n + 64
    let y := m * 2 ^ (p - Nat.log2 m)
    let r := match logBits p n y y 0 with
      | none => none
      | some l =>
        let lo : Int := x * 2 ^ n + l
        let val : Int → FVal := fun i => .fin (decide (i < 0)) i.natAbs (-(n : Int))
        agree Fmt.fp32 ftz (val lo) (val (lo + 1))
    match r with
    | some c => some c
    | none => log2Code ftz m e ns

/-- Fraction lengths tried (log 9). -/
def precisions : List Nat := (List.range Config.fuel).map fun i => 64 * 2 ^ i

/-- FEXP2 on a lane (R142). -/
def exp2Lane (ftz : Bool) (a : Lane) : Lane :=
  match Fmt.fp32.decode ftz a.toNat with
  | .nan => BitVec.ofNat 32 Fmt.fp32.nanCode
  | .inf n => BitVec.ofNat 32 (if n then 0 else Fmt.fp32.infCode)
  | .fin neg m e =>
    if m = 0 then BitVec.ofNat 32 (Fmt.fp32.encode 0 ftz (.fin false 1 0))
    else if 7 ≤ ilog m e ∧ !neg then BitVec.ofNat 32 Fmt.fp32.infCode
    else if 8 ≤ ilog m e then 0
    else match exp2Code ftz neg m e precisions with
      | some c => BitVec.ofNat 32 c
      | none => Config.freeLane a.toNat

/-- FLOG2 on a lane (R142). -/
def log2Lane (ftz : Bool) (a : Lane) : Lane :=
  match Fmt.fp32.decode ftz a.toNat with
  | .nan => BitVec.ofNat 32 Fmt.fp32.nanCode
  | .inf n => BitVec.ofNat 32 (if n then Fmt.fp32.nanCode else Fmt.fp32.infCode)
  | .fin neg m e =>
    if m = 0 then BitVec.ofNat 32 (Fmt.fp32.signCode true + Fmt.fp32.infCode)
    else if neg then BitVec.ofNat 32 Fmt.fp32.nanCode
    else if m = 2 ^ Nat.log2 m then
      let x := ilog m e
      BitVec.ofNat 32 (Fmt.fp32.encode 0 ftz (.fin (decide (x < 0)) x.natAbs 0))
    else match log2Code ftz m e precisions with
      | some c => BitVec.ofNat 32 c
      | none => Config.freeLane a.toNat

/-! ### Integers (R144) -/

/-- A finite value rounded to an integer by the mode. -/
def roundInt (mode : Nat) (neg : Bool) (m : Nat) (e : Int) : Int :=
  let n : Int := (roundAt mode neg m e 0 : Nat)
  if neg then -n else n

/-- A value rounded to an integer and clamped; NaN gives 0 and an infinity clamps. -/
def toIntClamped (mode : Nat) (lo hi : Int) : FVal → Int
  | .nan => 0
  | .inf neg => if neg then lo else hi
  | .fin neg m e =>
    if 64 ≤ ilog m e ∧ m ≠ 0 then (if neg then lo else hi) else max lo (min hi (roundInt mode neg m e))

/-- A value rounded to an integral value: an infinity is kept and a zero keeps the sign of the input. -/
def toIntegral (mode : Nat) : FVal → FVal
  | .nan => .nan
  | .inf neg => .inf neg
  | .fin neg m e => .fin neg (roundAt mode neg m e 0) 0

/-- An integer as a value; zero is +0. -/
def ofInteger (i : Int) : FVal := .fin (decide (i < 0)) i.natAbs 0

end Sys2Proof.Machine
end

