-- ==== Sys2Proof/Machine/Branch.lean ====
section
/-!
DEFINITION. Branches, calls, loops, jumps and NOP (R86-R90): majors 0x10-0x17 without END.
-/

namespace Sys2Proof.Machine

/-- Address of the unit's instruction word, after its prefixes (R61). -/
def wordPc (i : Instr) (pc : Word) : Word := pc + BitVec.ofNat 64 (4 * (i.words - 1))

/-- A branch target (R61): the branch word's address plus 4 times the displacement, canonical. -/
def branchTarget (i : Instr) (pc : Word) (p : Imm 21) : Word := canon (wordPc i pc + 4 * Imm.signed p).toNat

/-- A taken transfer records the unit's pc in LASTBR (R86, R204). -/
def State.lastBr (s : State) : State := s.setCsr 0x047 (BitVec.ofNat 64 (Word.bits s.core.pc 0 56))

/-- A branch: taken, it records LASTBR and goes to its target; otherwise the next unit follows (R86). `effect` is
what the branch does either way. -/
def execBranch (i : Instr) (p : Imm 21) (checks : List Verdict) (taken : Bool) (effect : State) (s : State) : Out :=
  if taken then settleTo i s checks effect.lastBr (branchTarget i s.core.pc p)
  else settle i s checks effect

/-- J (R86). -/
def execJ (p : Imm 21) (s : State) : Out := execBranch (.j p) p [] true s s

/-- CALL (R86): the link is the address of the word after the CALL word. -/
def execCall (p : Imm 21) (s : State) : Out :=
  execBranch (.call p) p (scalarChecks s [] [31]) true (s.result 1 31 (nextPc (.call p) s.core.pc)) s

/-- A conditional branch on one register (R86). -/
def execBranchOn (i : Instr) (p : Imm 21) (a : BitVec 5) (taken : Bool) (s : State) : Out :=
  execBranch i p (scalarChecks s [(a.toNat, false)] []) taken s s

/-- BEZ (R86). -/
def execBez (a : BitVec 5) (p : Imm 21) (s : State) : Out :=
  execBranchOn (.bez a p) p a (s.g a.toNat == 0) s

/-- BNZ (R86). -/
def execBnz (a : BitVec 5) (p : Imm 21) (s : State) : Out :=
  execBranchOn (.bnz a p) p a (s.g a.toNat != 0) s

/-- BLTZ (R86). -/
def execBltz (a : BitVec 5) (p : Imm 21) (s : State) : Out :=
  execBranchOn (.bltz a p) p a (s.g a.toNat).msb s

/-- BKNONE (R87). -/
def execBknone (p : Imm 21) (s : State) : Out := execBranch (.bknone p) p [] (s.k == 0) s s

/-- BKANY (R87). -/
def execBkany (p : Imm 21) (s : State) : Out := execBranch (.bkany p) p [] (s.k != 0) s s

/-- BKALL (R87). -/
def execBkall (p : Imm 21) (s : State) : Out := execBranch (.bkall p) p [] (s.k == BitVec.allOnes 64) s s

/-- LOOP (R86): the decrement is written whether or not it branches. -/
def execLoop (a : BitVec 5) (p : Imm 21) (s : State) : Out :=
  execBranch (.loop a p) p (scalarChecks s [(a.toNat, false)] [a.toNat]) (s.g a.toNat - 1 != 0)
    (s.result 1 a.toNat (s.g a.toNat - 1)) s

/-- JR (R88): a target that is not a multiple of 4 faults when it is fetched (R57). -/
def execJr (a : BitVec 5) (x : Bool) (s : State) : Out :=
  settleTo (.jr a x) s (scalarChecks s [(a.toNat, x)] []) s.lastBr (s.g a.toNat)

/-- CALLR (R88): the target is read before the link is written. -/
def execCallr (a : BitVec 5) (x : Bool) (s : State) : Out :=
  settleTo (.callr a x) s (scalarChecks s [(a.toNat, x)] [31])
    (s.result 1 31 (nextPc (.callr a x) s.core.pc)).lastBr (s.g a.toNat)

/-- NOP (R90). -/
def execNop (s : State) : Out := settle .nop s [] s

end Sys2Proof.Machine
end

