-- ==== Sys2Proof/Machine/System.lean ====
section
/-!
DEFINITION. Shape-register instructions (R93, R94), system instructions (R95-R99), BRK (R101) and the values the
account reads return (R102): majors 0x18, 0x1A and BRK.
-/

namespace Sys2Proof.Machine

/-! ### Shape registers (R41, R93, R94) -/

def State.z (s : State) (n : Nat) : Lane := s.core.z[n]?.getD 0

def State.zpend (s : State) (n : Nat) : Nat := s.core.zpend[n]?.getD 0

/-- The value an engine word of this clk reads: the value before a ZSET of this clk (R94). -/
def State.zForEngine (s : State) (n : Nat) : Lane :=
  match s.core.zOld with
  | some (m, v) => if m = n then v else s.z n
  | none => s.z n

/-- A write of a shape register at once, with the old value kept for this clk's engine words. -/
def State.putZ (s : State) (n : Nat) (v : Lane) : State :=
  s.setCore { s.core with z := s.core.z.setIfInBounds n v, zOld := some (n, s.z n) }

/-- The pending-reader count changed. -/
def State.setZpend (s : State) (n c : Nat) : State :=
  s.setCore { s.core with zpend := s.core.zpend.setIfInBounds n c }

/-- R93: a source above 32 bits traps with SHAPE. -/
def shapeOk (s : State) (a : BitVec 5) : Verdict := require (Word.bits (s.g a.toNat) 32 32 == 0) Code.shape

/-- ZSET (R93). -/
def execZset (d a : BitVec 5) (x : Bool) (s : State) : Out :=
  settle (.zset d a x) s (scalarChecks s [(a.toNat, x)] [] ++ [shapeOk s a])
    (s.putZ d.toNat (Word.half (s.g a.toNat) 0))

/-- ZSET.W (R93): waits until no pending reader is left. -/
def execZsetW (d a : BitVec 5) (x : Bool) (s : State) : Out :=
  settle (.zsetW d a x) s
    (scalarChecks s [(a.toNat, x)] [] ++ [shapeOk s a, await (s.zpend d.toNat == 0) .orderWait])
    (s.putZ d.toNat (Word.half (s.g a.toNat) 0))

/-- ZGET (R93). -/
def execZget (d a : BitVec 5) (s : State) : Out :=
  settle (.zget d a) s (scalarChecks s [] [d.toNat]) (s.result 1 d.toNat ((s.z a.toNat).zeroExtend 64))

/-- ZPEND (R93). -/
def execZpend (d a : BitVec 5) (s : State) : Out :=
  settle (.zpend d a) s (scalarChecks s [] [d.toNat])
    (s.result 1 d.toNat (BitVec.ofNat 64 (s.zpend a.toNat)))

/-! ### System instructions (R95-R99) -/

/-- PRIVILEGE at user level (R68, R95). -/
def privileged (s : State) : Verdict := require s.system Code.privilege

/-- SYSCALL (R95): the frame's resume PC is the next unit. -/
def execSyscall (s : State) : Out :=
  .next (s.syncTrap { code := Code.syscall } (nextPc .syscall s.core.pc))

/-- BRK (R101): the frame's resume PC is the next unit. -/
def execBrk (s : State) : Out :=
  .next (s.syncTrap { code := Code.break } (nextPc .brk s.core.pc))

/-- R203, R49: what RETT checks of the frame before it returns. -/
def rettChecks (s : State) : List Verdict :=
  [require ((s.readCsr 0x040).getLsbD 0) Code.illegal,
   require (!(List.range s.nlat).any s.latchBad) Code.illegal,
   require (!(List.range s.nlat).any s.latchLent) Code.lend]

/-- A return that traps: the clk is charged to TRAP, the frame is left unchanged, and the handler continues with its next
unit (R49, R203, log 23). -/
def State.rettTraps (s : State) : State :=
  let t := s.goto .rett (nextPc .rett s.core.pc)
  t.setCore { t.core with charge := .trap, chargeV := false }

/-- RETT (R95, R203). At user level it is a trap like any other. -/
def execRett (s : State) : Out :=
  match privileged s, firstOf (rettChecks s) with
  | .pass, .pass => .next s.restoreFrame
  | .pass, _ => .next s.rettTraps
  | v, _ => .next (s.blocked .rett v)

/-- ISTAT.IE written (R96, R98). -/
def State.setIe (s : State) (v : Nat) : State := s.setCsr 0x100 (Word.setBits (s.readCsr 0x100) 0 1 v)

/-- IEN (R95, R98). -/
def execIen (s : State) : Out := settle .ien s [privileged s] (s.setIe 1)

/-- IDIS (R95, R98). -/
def execIdis (s : State) : Out := settle .idis s [privileged s] (s.setIe 0)

/-- The interrupts 0x20-0x23 that are pending and enabled by IMASK, as bits 3:0 (R96). -/
def State.enabledPending (s : State) : Nat :=
  ((BitVec.ofNat 4 (Word.bits (s.readCsr 0x100) 16 4)) &&& (BitVec.ofNat 4 (Word.bits (s.readCsr 0x100) 8 4))).toNat

/-- WFI (R99): IE is not consulted. While it waits, an interrupt resumes after it. -/
def execWfi (s : State) : Out :=
  if s.enabledPending ≠ 0 || s.inp.halt || s.inp.preempt then settle .wfi s [] s
  else .next ((s.setCore { s.core with wfi := true }).hold .wfi .cueWait)

/-! ### Accounts (R102) -/

/-- The value ACCRD returns for an index. -/
def State.account (s : State) (n : Nat) : Word :=
  if n < 100 then Sparse.get s.acct.cnt n else if n = 100 then s.acct.elapsed else 0

/-- The value ENRGRD returns for an index; 32 is the sum of the totals. -/
def State.energyTotal (s : State) (n : Nat) : Word :=
  if n < 32 then Sparse.get s.acct.energy n
  else if n = 32 then ((List.range 32).map (Sparse.get s.acct.energy)).foldl (· + ·) 0 else 0

end Sys2Proof.Machine
end

