-- ==== Sys2Proof/Machine/Operands.lean ====
section
/-!
DEFINITION. Operand forms: vector operands with their checks (R130-R134), and the addresses and base-register updates
of format M (R40, R62).
-/

namespace Sys2Proof.Machine

/-! ### Vector locations (R194) -/

/-- The location lies in a bank bound to the matrix slot (R47). -/
def State.lentLoc (s : State) (l : Nat) : Bool :=
  decide (l < 0x40000) && s.matrixBank (bankOf (l / 4))

/-- Byte offsets of the enabled lanes of v[n], ascending. -/
def State.vLocs (s : State) (n : Nat) (lanes : Word) : List Nat :=
  ((List.range 64).filter lanes.getLsbD).map (fun l => s.vOff n + 4 * l)

/-- A source: its locations, and its per-source bit. -/
abbrev Source := List Nat × Bool

/-- EMPTYREAD on a source whose bit is 1: the frame names its first empty word (R51, R206). -/
def emptyReadTrap (s : State) (src : Source) : Verdict :=
  if src.2 then
    match src.1.find? s.emptyLoc with
    | some l => .trap { code := Code.emptyread, info0 := BitVec.ofNat 64 l }
    | none => .pass
  else .pass


/-- The bank check of a destination (R48, R130). -/
def lendCheck (s : State) (ls : List Nat) : Verdict := require (!ls.any s.lentLoc) Code.lend

/-- SECDED on the register-space words read (R53): an uncorrectable word raises MACHINE and is named; correctable words
are corrected and the unit replays once. -/
def secded (s : State) (ls : List Nat) : Verdict :=
  let bad := s.cell.rspErr.filter (fun e => decide (1 < e.2.toNat) && ls.contains (4 * e.1))
  let fix := s.cell.rspErr.filter (fun e => decide (e.2 = 1) && ls.contains (4 * e.1))
  match bad with
  | e :: _ => .trap { code := Code.machine, addr := BitVec.ofNat 64 (4 * e.1), mc := 1 + 64 * 0x7FFFF }
  | [] => if fix.isEmpty then .pass else .fix (fix.map Prod.fst)

/-- The checks of R132 with the waits between them: EMPTYREAD in the order of the sources, waits for empty words, LEND,
late words, check bits. -/
def vectorChecks (s : State) (srcs : List Source) (dst : List Nat) : List Verdict :=
  let all := (srcs.map Prod.fst).flatten
  srcs.map (emptyReadTrap s) ++
    [awaitFull s (all ++ dst), lendCheck s dst, lateRead s all, lateWrite s dst, secded s all]

/-- The verdict is a wait of some kind. -/
def waits : Verdict → Bool
  | .pass => false
  | .trap _ => false
  | .wait _ => true
  | .fix _ => true
  | .fixStore _ => true
  | .walk _ _ => true
  | .read => true

/-- A clk of a unit's delay count goes by (R134). -/
def State.spendDelay (s : State) : State :=
  s.setCore { s.core with charge := .delay, chargeV := true, chargePc := s.core.pc, delayClk := s.core.delayClk + 1 }

/-- R134: a unit of format V issues no earlier than its delay count after the first clk in which it could otherwise
issue; those clk are charged to DELAY. -/
def settleV (i : Instr) (l : BitVec 2) (s : State) (checks : List Verdict) (effect : State) : Out :=
  if i.wellFormed && decide (s.core.delayClk < l.toNat) && (decide (0 < s.core.delayClk) || !waits (firstOf checks)) then
    .next s.spendDelay
  else settle i s checks effect

/-- The lanes of v[n] as a function of the lane number. -/
def laneOf (v : List Lane) (l : Nat) : Lane := v[l]?.getD 0

/-- A vector result: a latch that writes the enabled lanes at its clk (R130, R133). -/
def State.vresult (s : State) (lat off : Nat) (lanes : Word) (data : List Lane) : State :=
  s.later lat (.vec off lanes data) false

/-- A vector result computed lane by lane. -/
def State.vlanes (s : State) (lat d : Nat) (f : Nat → Lane) : State :=
  s.vresult lat (s.vOff d) s.k ((List.range 64).map f)

/-- Two vector sources, lane by lane; the enabled lanes are tested (R130). -/
def execLanes2 (i : Instr) (lat : Nat) (f : Lane → Lane → Lane) (d a b : BitVec 6) (x y : Bool) (l : BitVec 2)
    (s : State) : Out :=
  settleV i l s
    (vectorChecks s [(s.vLocs a.toNat s.k, x), (s.vLocs b.toNat s.k, y)] (s.vLocs d.toNat s.k))
    (s.vlanes lat d.toNat fun n => f (laneOf (s.v a.toNat) n) (laneOf (s.v b.toNat) n))

/-- The same with the old vd as a third source (R130). -/
def execLanes3 (i : Instr) (lat : Nat) (f : Lane → Lane → Lane → Lane) (d a b : BitVec 6) (x y : Bool) (l : BitVec 2)
    (s : State) : Out :=
  settleV i l s
    (vectorChecks s [(s.vLocs a.toNat s.k, x), (s.vLocs b.toNat s.k, y), (s.vLocs d.toNat s.k, false)]
      (s.vLocs d.toNat s.k))
    (s.vlanes lat d.toNat fun n =>
      f (laneOf (s.v a.toNat) n) (laneOf (s.v b.toNat) n) (laneOf (s.v d.toNat) n))

/-- One vector source, lane by lane. -/
def execLanes1 (i : Instr) (lat : Nat) (f : Lane → Lane) (d a : BitVec 6) (x : Bool) (l : BitVec 2) (s : State) : Out :=
  settleV i l s (vectorChecks s [(s.vLocs a.toNat s.k, x)] (s.vLocs d.toNat s.k))
    (s.vlanes lat d.toNat fun n => f (laneOf (s.v a.toNat) n))

/-! ### Format M (R40, R61, R62) -/

/-- The access size that scales offsets (R62). -/
inductive Scale where
  | b4 | b8 | b128 | b256
  deriving DecidableEq, Repr

def Scale.bytes : Scale → Nat
  | .b4 => 4
  | .b8 => 8
  | .b128 => 128
  | .b256 => 256

/-- The offset part, signed, with any XIMM above it: off[7:0] in vector forms, off[8:0] otherwise (R61, R62). -/
def MemArg.offset (m : MemArg) (vec : Bool) : Word :=
  if vec then
    match m.hi with
    | none => (m.off.setWidth 8).signExtend 64
    | some h => (h ++ m.off.setWidth 8).signExtend 64
  else
    match m.hi with
    | none => m.off.signExtend 64
    | some h => (h ++ m.off).signExtend 64

/-- Offset times scale. -/
def memStep (m : MemArg) (sc : Scale) : Word := MemArg.offset m (sc == .b256) * BitVec.ofNat 64 sc.bytes

/-- Index register and shift of the indexed mode (R62). -/
def MemArg.index (m : MemArg) : Nat := bits m.off.toNat 0 5
def MemArg.shift (m : MemArg) : Nat := bits m.off.toNat 5 3

/-- The address used (R62). -/
def State.address (s : State) (m : MemArg) (sc : Scale) : Word :=
  match m.mode.toNat with
  | 0 => s.g m.base.toNat + memStep m sc
  | 3 => s.g m.base.toNat + (s.g (MemArg.index m) <<< MemArg.shift m)
  | _ => s.g m.base.toNat

/-- The base register afterwards, where the mode updates it (R40, R62). -/
def State.newBase (s : State) (m : MemArg) (sc : Scale) : Option Word :=
  let old := s.g m.base.toNat
  let step := memStep m sc
  let mr : Word := s.core.m[m.mreg.toNat]?.getD 0
  let len := Word.bits mr 24 24
  match m.mode.toNat with
  | 1 => some (old + step)
  | 2 =>
    if len = 0 then some (old + step)
    else
      let b : Int := Word.bits mr 0 24
      some (BitVec.ofInt 64 (b + ((old.toNat : Int) - b + step.toInt) % len))
  | _ => none

/-- The address registers of the operand: they wait while empty (R51). -/
def MemArg.sources (m : MemArg) : List Nat :=
  if m.mode = 3 then [m.base.toNat, MemArg.index m] else [m.base.toNat]

/-- The registers the operand's mode writes. -/
def MemArg.dests (m : MemArg) : List Nat := if m.mode = 1 ∨ m.mode = 2 then [m.base.toNat] else []

/-- The base-register update, which takes place once the unit passes its issue checks (R62). -/
def State.updateBase (s : State) (m : MemArg) (sc : Scale) : State :=
  match s.newBase m sc with
  | some v => s.putG m.base.toNat v
  | none => s

end Sys2Proof.Machine
end

