-- ==== Sys2Proof/Machine/Vector.lean ====
section
/-!
DEFINITION. The vector instructions (R130-R150): majors 0x32-0x3B. The mask-stack instructions are in Flags.
-/

namespace Sys2Proof.Machine

/-! ### FP32 lanes (R137, R138) -/

/-- FP32 lane value under CTL.FTZ. -/
def fpIn (s : State) (a : Lane) : FVal := Fmt.fp32.decode s.ftz a.toNat

/-- One rounding by a mode under CTL.FTZ. -/
def fpOut (s : State) (mode : Nat) (v : FVal) : Lane := BitVec.ofNat 32 (Fmt.fp32.encode mode s.ftz v)

/-- RDN is the mode that makes an exact zero sum negative (R32). -/
def rdnMode (mode : Nat) : Bool := decide (mode = 3)

def fpAdd (s : State) (a b : Lane) : Lane := fpOut s s.rm ((fpIn s a).add (rdnMode s.rm) (fpIn s b))
def fpSub (s : State) (a b : Lane) : Lane := fpOut s s.rm ((fpIn s a).add (rdnMode s.rm) (fpIn s b).neg)
def fpMul (s : State) (a b : Lane) : Lane := fpOut s s.rm ((fpIn s a).mul (fpIn s b))
/-- a b + d with one rounding. -/
def fpFma (s : State) (a b d : Lane) : Lane := fpOut s s.rm (((fpIn s a).mul (fpIn s b)).add (rdnMode s.rm) (fpIn s d))
def fpFms (s : State) (a b d : Lane) : Lane := fpOut s s.rm (((fpIn s a).mul (fpIn s b)).add (rdnMode s.rm) (fpIn s d).neg)
def fpFnma (s : State) (a b d : Lane) : Lane := fpOut s s.rm (((fpIn s a).mul (fpIn s b)).neg.add (rdnMode s.rm) (fpIn s d))
def fpMin (s : State) (a b : Lane) : Lane := fpOut s s.rm ((fpIn s a).min (fpIn s b))
def fpMax (s : State) (a b : Lane) : Lane := fpOut s s.rm ((fpIn s a).max (fpIn s b))

/-! ### BF16 half lanes (R139) -/

/-- Both halves of a lane, each computed on its own. -/
def halves (f : Nat → Nat → Nat → Nat) (a b d : Lane) : Lane :=
  let h : Lane → Nat → Nat := fun x i => bits x.toNat (16 * i) 16
  BitVec.ofNat 32 (f (h a 0) (h b 0) (h d 0) + 2 ^ 16 * f (h a 1) (h b 1) (h d 1))

def bfIn (s : State) (a : Nat) : FVal := Fmt.bf16.decode s.ftz a
def bfOut (s : State) (v : FVal) : Nat := Fmt.bf16.encode s.rm s.ftz v

def bfAdd (s : State) (a b _d : Nat) : Nat := bfOut s ((bfIn s a).add (rdnMode s.rm) (bfIn s b))
def bfSub (s : State) (a b _d : Nat) : Nat := bfOut s ((bfIn s a).add (rdnMode s.rm) (bfIn s b).neg)
def bfMul (s : State) (a b _d : Nat) : Nat := bfOut s ((bfIn s a).mul (bfIn s b))
def bfFma (s : State) (a b d : Nat) : Nat := bfOut s (((bfIn s a).mul (bfIn s b)).add (rdnMode s.rm) (bfIn s d))
def bfMin (s : State) (a b _d : Nat) : Nat := bfOut s ((bfIn s a).min (bfIn s b))
def bfMax (s : State) (a b _d : Nat) : Nat := bfOut s ((bfIn s a).max (bfIn s b))

/-! ### Integer and bitwise lanes (R140, R141) -/

/-- Clamped to the signed 32-bit range. -/
def clampS32 (i : Int) : Lane := BitVec.ofInt 32 (max (-(2 ^ 31)) (min (2 ^ 31 - 1) i))

def laneMulh (a b : Lane) : Lane := BitVec.ofInt 32 (a.toInt * b.toInt / 2 ^ 32)

/-- The shift amount b[4:0]. -/
def laneShamt (b : Lane) : Nat := b.toNat % 32

/-! ### Conversions (R143, R144) -/

/-- The mode of a conversion: its own, or CTL.RM. -/
def convMode (s : State) (f : Bool) (m : BitVec 3) : Nat := if f then m.toNat else s.rm

def cvtFH (s : State) (mode : Nat) (a : Lane) : Lane := BitVec.ofNat 32 (Fmt.fp16.encode mode s.ftz (fpIn s a))
def cvtHF (s : State) (mode : Nat) (a : Lane) : Lane := fpOut s mode (Fmt.fp16.decode s.ftz (bits a.toNat 0 16))
def cvtFS (s : State) (mode : Nat) (a : Lane) : Lane := BitVec.ofNat 32 (Fmt.bf16.encode mode s.ftz (fpIn s a))
def cvtSF (s : State) (mode : Nat) (a : Lane) : Lane := fpOut s mode (Fmt.bf16.decode s.ftz (bits a.toNat 0 16))
def cvtFI (mode : Nat) (a : Lane) : Lane :=
  BitVec.ofInt 32 (toIntClamped mode (-(2 ^ 31)) (2 ^ 31 - 1) (Fmt.fp32.decode false a.toNat))
def cvtIF (mode : Nat) (a : Lane) : Lane := BitVec.ofNat 32 (Fmt.fp32.encode mode false (ofInteger a.toInt))
def cvtFU (mode : Nat) (a : Lane) : Lane :=
  BitVec.ofInt 32 (toIntClamped mode 0 (2 ^ 32 - 1) (Fmt.fp32.decode false a.toNat))
def cvtUF (mode : Nat) (a : Lane) : Lane := BitVec.ofNat 32 (Fmt.fp32.encode mode false (ofInteger a.toNat))
def roundLane (s : State) (mode : Nat) (a : Lane) : Lane := fpOut s mode (toIntegral mode (fpIn s a))

/-- A conversion (R143). -/
def execConv (i : Instr) (f : Nat → Lane → Lane) (d a : BitVec 6) (fl : Bool) (m : BitVec 3) (x : Bool) (l : BitVec 2)
    (s : State) : Out :=
  execLanes1 i 3 (f (convMode s fl m)) d a x l s

/-! ### Compares (R145) -/

/-- All ones where the relation holds. -/
def maskLane (b : Bool) : Lane := if b then BitVec.allOnes 32 else 0

/-! ### Reductions (R147, R148) -/

/-- One level of the tree: neighbours combined. -/
def pairUp (f : Lane → Lane → Lane) : List Lane → List Lane
  | a :: b :: r => f a b :: pairUp f r
  | r => r

/-- The fixed tree of R148: six levels over 64 lanes. -/
def treeReduce (f : Lane → Lane → Lane) (xs : List Lane) : Lane :=
  ((pairUp f (pairUp f (pairUp f (pairUp f (pairUp f (pairUp f xs))))))[0]?).getD 0

/-- A reduction: disabled lanes count as the identity and the result goes to every enabled lane (R147). -/
def execReduce (i : Instr) (lat : Nat) (f : Lane → Lane → Lane) (ident : Lane) (d a : BitVec 6) (x : Bool)
    (l : BitVec 2) (s : State) : Out :=
  let v := s.v a.toNat
  let r := treeReduce f ((List.range 64).map fun n => if s.k.getLsbD n then laneOf v n else ident)
  settleV i l s (vectorChecks s [(s.vLocs a.toNat s.k, x)] (s.vLocs d.toNat s.k)) (s.vlanes lat d.toNat fun _ => r)

/-- FP32 tree sum: RNE whatever CTL.RM (R147). -/
def sumLane (s : State) (a b : Lane) : Lane := fpOut s 0 ((fpIn s a).add false (fpIn s b))

/-! ### Lane moves (R131, R149, R150) -/

/-- The lanes a word names. -/
def laneMask (p : Nat → Bool) : Word := BitVec.ofNat 64 ((List.range 64).foldr (fun n acc => bit (p n) + 2 * acc) 0)

/-- Lanes read from va by the enabled lanes of vd, where lane n reads lane `src n`. -/
def readLanes (k : Word) (src : Nat → Option Nat) : Word :=
  laneMask fun j => (List.range 64).any fun n => k.getLsbD n && src n == some j

/-- A move in which enabled lane n reads lane `src n` of va, or 0 where that is none. -/
def execMove (i : Instr) (src : Nat → Option Nat) (d a : BitVec 6) (x : Bool) (l : BitVec 2) (s : State) : Out :=
  settleV i l s (vectorChecks s [(s.vLocs a.toNat (readLanes s.k src), x)] (s.vLocs d.toNat s.k))
    (s.vlanes 2 d.toNat fun n => match src n with
      | some j => laneOf (s.v a.toNat) j
      | none => 0)

/-- A move whose va lanes depend on vb: vb is tested first (R131). -/
def execMoveBy (i : Instr) (src : List Lane → Nat → Option Nat) (lanes : Word) (d a b : BitVec 6) (x y : Bool)
    (l : BitVec 2) (s : State) : Out :=
  let vb := s.v b.toNat
  let srcB : Source := (s.vLocs b.toNat s.k, y)
  let srcA : Source := (s.vLocs a.toNat (readLanes lanes (src vb)), x)
  settleV i l s
    ([emptyReadTrap s srcB, awaitFull s srcB.1, emptyReadTrap s srcA] ++
      vectorChecks s [srcB, srcA] (s.vLocs d.toNat lanes))
    (s.vresult 2 (s.vOff d.toNat) lanes ((List.range 64).map fun n => match src vb n with
      | some j => laneOf (s.v a.toNat) j
      | none => 0))

/-- Lanes selected by vb under k (R149). -/
def selected (k : Word) (vb : List Lane) (j : Nat) : Bool := k.getLsbD j && laneOf vb j != 0

/-! ### Major 0x32 (R138) -/

/-- VFADD (R138). -/
def execVfadd (d a b : BitVec 6) (x y : Bool) (l : BitVec 2) (s : State) : Out :=
  execLanes2 (.vfadd d a b x y l) 4 (fpAdd s) d a b x y l s

/-- VFSUB (R138). -/
def execVfsub (d a b : BitVec 6) (x y : Bool) (l : BitVec 2) (s : State) : Out :=
  execLanes2 (.vfsub d a b x y l) 4 (fpSub s) d a b x y l s

/-- VFMUL (R138). -/
def execVfmul (d a b : BitVec 6) (x y : Bool) (l : BitVec 2) (s : State) : Out :=
  execLanes2 (.vfmul d a b x y l) 4 (fpMul s) d a b x y l s

/-- VFMA (R138). -/
def execVfma (d a b : BitVec 6) (x y : Bool) (l : BitVec 2) (s : State) : Out :=
  execLanes3 (.vfma d a b x y l) 4 (fpFma s) d a b x y l s

/-- VFMS (R138). -/
def execVfms (d a b : BitVec 6) (x y : Bool) (l : BitVec 2) (s : State) : Out :=
  execLanes3 (.vfms d a b x y l) 4 (fpFms s) d a b x y l s

/-- VFNMA (R138). -/
def execVfnma (d a b : BitVec 6) (x y : Bool) (l : BitVec 2) (s : State) : Out :=
  execLanes3 (.vfnma d a b x y l) 4 (fpFnma s) d a b x y l s

/-- VFMIN (R138). -/
def execVfmin (d a b : BitVec 6) (x y : Bool) (l : BitVec 2) (s : State) : Out :=
  execLanes2 (.vfmin d a b x y l) 2 (fpMin s) d a b x y l s

/-- VFMAX (R138). -/
def execVfmax (d a b : BitVec 6) (x y : Bool) (l : BitVec 2) (s : State) : Out :=
  execLanes2 (.vfmax d a b x y l) 2 (fpMax s) d a b x y l s

/-- VFABS (R138). -/
def execVfabs (d a : BitVec 6) (x : Bool) (l : BitVec 2) (s : State) : Out :=
  execLanes1 (.vfabs d a x l) 1 (fun a => a &&& 0x7FFFFFFF) d a x l s

/-- VFNEG (R138). -/
def execVfneg (d a : BitVec 6) (x : Bool) (l : BitVec 2) (s : State) : Out :=
  execLanes1 (.vfneg d a x l) 1 (fun a => a ^^^ 0x80000000) d a x l s

/-! ### Major 0x33 (R139) -/

/-- VBADD (R139). -/
def execVbadd (d a b : BitVec 6) (x y : Bool) (l : BitVec 2) (s : State) : Out :=
  execLanes2 (.vbadd d a b x y l) 3 (fun a b => halves (bfAdd s) a b 0) d a b x y l s

/-- VBSUB (R139). -/
def execVbsub (d a b : BitVec 6) (x y : Bool) (l : BitVec 2) (s : State) : Out :=
  execLanes2 (.vbsub d a b x y l) 3 (fun a b => halves (bfSub s) a b 0) d a b x y l s

/-- VBMUL (R139). -/
def execVbmul (d a b : BitVec 6) (x y : Bool) (l : BitVec 2) (s : State) : Out :=
  execLanes2 (.vbmul d a b x y l) 3 (fun a b => halves (bfMul s) a b 0) d a b x y l s

/-- VBFMA (R139). -/
def execVbfma (d a b : BitVec 6) (x y : Bool) (l : BitVec 2) (s : State) : Out :=
  execLanes3 (.vbfma d a b x y l) 3 (halves (bfFma s)) d a b x y l s

/-- VBMIN (R139). -/
def execVbmin (d a b : BitVec 6) (x y : Bool) (l : BitVec 2) (s : State) : Out :=
  execLanes2 (.vbmin d a b x y l) 3 (fun a b => halves (bfMin s) a b 0) d a b x y l s

/-- VBMAX (R139). -/
def execVbmax (d a b : BitVec 6) (x y : Bool) (l : BitVec 2) (s : State) : Out :=
  execLanes2 (.vbmax d a b x y l) 3 (fun a b => halves (bfMax s) a b 0) d a b x y l s

/-! ### Major 0x34 (R140) -/

/-- VIADD (R140). -/
def execViadd (d a b : BitVec 6) (x y : Bool) (l : BitVec 2) (s : State) : Out :=
  execLanes2 (.viadd d a b x y l) 2 (fun a b => a + b) d a b x y l s

/-- VISUB (R140). -/
def execVisub (d a b : BitVec 6) (x y : Bool) (l : BitVec 2) (s : State) : Out :=
  execLanes2 (.visub d a b x y l) 2 (fun a b => a - b) d a b x y l s

/-- VIMUL (R140). -/
def execVimul (d a b : BitVec 6) (x y : Bool) (l : BitVec 2) (s : State) : Out :=
  execLanes2 (.vimul d a b x y l) 4 (fun a b => a * b) d a b x y l s

/-- VIMULH (R140). -/
def execVimulh (d a b : BitVec 6) (x y : Bool) (l : BitVec 2) (s : State) : Out :=
  execLanes2 (.vimulh d a b x y l) 4 laneMulh d a b x y l s

/-- VIMIN (R140). -/
def execVimin (d a b : BitVec 6) (x y : Bool) (l : BitVec 2) (s : State) : Out :=
  execLanes2 (.vimin d a b x y l) 2 (fun a b => if a.slt b then a else b) d a b x y l s

/-- VIMAX (R140). -/
def execVimax (d a b : BitVec 6) (x y : Bool) (l : BitVec 2) (s : State) : Out :=
  execLanes2 (.vimax d a b x y l) 2 (fun a b => if a.slt b then b else a) d a b x y l s

/-- VIMINU (R140). -/
def execViminu (d a b : BitVec 6) (x y : Bool) (l : BitVec 2) (s : State) : Out :=
  execLanes2 (.viminu d a b x y l) 2 (fun a b => if a.ult b then a else b) d a b x y l s

/-- VIMAXU (R140). -/
def execVimaxu (d a b : BitVec 6) (x y : Bool) (l : BitVec 2) (s : State) : Out :=
  execLanes2 (.vimaxu d a b x y l) 2 (fun a b => if a.ult b then b else a) d a b x y l s

/-- VIABS (R140). -/
def execViabs (d a : BitVec 6) (x : Bool) (l : BitVec 2) (s : State) : Out :=
  execLanes1 (.viabs d a x l) 2 (fun a => if a.msb then 0 - a else a) d a x l s

/-- VIADDS (R140). -/
def execViadds (d a b : BitVec 6) (x y : Bool) (l : BitVec 2) (s : State) : Out :=
  execLanes2 (.viadds d a b x y l) 2 (fun a b => clampS32 (a.toInt + b.toInt)) d a b x y l s

/-- VISUBS (R140). -/
def execVisubs (d a b : BitVec 6) (x y : Bool) (l : BitVec 2) (s : State) : Out :=
  execLanes2 (.visubs d a b x y l) 2 (fun a b => clampS32 (a.toInt - b.toInt)) d a b x y l s

/-! ### Major 0x35 (R141) -/

/-- VAND (R141). -/
def execVand (d a b : BitVec 6) (x y : Bool) (l : BitVec 2) (s : State) : Out :=
  execLanes2 (.vand d a b x y l) 1 (fun a b => a &&& b) d a b x y l s

/-- VOR (R141). -/
def execVor (d a b : BitVec 6) (x y : Bool) (l : BitVec 2) (s : State) : Out :=
  execLanes2 (.vor d a b x y l) 1 (fun a b => a ||| b) d a b x y l s

/-- VXOR (R141). -/
def execVxor (d a b : BitVec 6) (x y : Bool) (l : BitVec 2) (s : State) : Out :=
  execLanes2 (.vxor d a b x y l) 1 (fun a b => a ^^^ b) d a b x y l s

/-- VANDN (R141). -/
def execVandn (d a b : BitVec 6) (x y : Bool) (l : BitVec 2) (s : State) : Out :=
  execLanes2 (.vandn d a b x y l) 1 (fun a b => a &&& ~~~b) d a b x y l s

/-- VSHL (R141). -/
def execVshl (d a b : BitVec 6) (x y : Bool) (l : BitVec 2) (s : State) : Out :=
  execLanes2 (.vshl d a b x y l) 1 (fun a b => a <<< laneShamt b) d a b x y l s

/-- VSHR (R141). -/
def execVshr (d a b : BitVec 6) (x y : Bool) (l : BitVec 2) (s : State) : Out :=
  execLanes2 (.vshr d a b x y l) 1 (fun a b => a >>> laneShamt b) d a b x y l s

/-- VSAR (R141). -/
def execVsar (d a b : BitVec 6) (x y : Bool) (l : BitVec 2) (s : State) : Out :=
  execLanes2 (.vsar d a b x y l) 1 (fun a b => a.sshiftRight (laneShamt b)) d a b x y l s

/-- VNOT (R141). -/
def execVnot (d a : BitVec 6) (x : Bool) (l : BitVec 2) (s : State) : Out :=
  execLanes1 (.vnot d a x l) 1 (fun a => ~~~a) d a x l s

/-- VPOPC (R141). -/
def execVpopc (d a : BitVec 6) (x : Bool) (l : BitVec 2) (s : State) : Out :=
  execLanes1 (.vpopc d a x l) 2 (fun a => BitVec.ofNat 32 (popCount a)) d a x l s

/-- VCLZ (R141). -/
def execVclz (d a : BitVec 6) (x : Bool) (l : BitVec 2) (s : State) : Out :=
  execLanes1 (.vclz d a x l) 2 (fun a => BitVec.ofNat 32 (leadingZeros a)) d a x l s

/-! ### Major 0x36 (R142) -/

/-- FRCP (R142). -/
def execFrcp (d a : BitVec 6) (x : Bool) (l : BitVec 2) (s : State) : Out :=
  execLanes1 (.frcp d a x l) 12 (fun a => fpOut s 0 (fpIn s a).rcp) d a x l s

/-- FRSQ (R142). -/
def execFrsq (d a : BitVec 6) (x : Bool) (l : BitVec 2) (s : State) : Out :=
  execLanes1 (.frsq d a x l) 12 (fun a => fpOut s 0 (fpIn s a).rsqrt) d a x l s

/-- FEXP2 (R142). -/
def execFexp2 (d a : BitVec 6) (x : Bool) (l : BitVec 2) (s : State) : Out :=
  execLanes1 (.fexp2 d a x l) 12 (exp2Lane s.ftz) d a x l s

/-- FLOG2 (R142). -/
def execFlog2 (d a : BitVec 6) (x : Bool) (l : BitVec 2) (s : State) : Out :=
  execLanes1 (.flog2 d a x l) 12 (log2Lane s.ftz) d a x l s

/-! ### Major 0x37 (R144) -/

/-- VCVTFH (R144). -/
def execVcvtfh (d a : BitVec 6) (f : Bool) (m : BitVec 3) (x : Bool) (l : BitVec 2) (s : State) : Out :=
  execConv (.vcvtfh d a f m x l) (cvtFH s) d a f m x l s

/-- VCVTHF (R144). -/
def execVcvthf (d a : BitVec 6) (f : Bool) (m : BitVec 3) (x : Bool) (l : BitVec 2) (s : State) : Out :=
  execConv (.vcvthf d a f m x l) (cvtHF s) d a f m x l s

/-- VCVTFS (R144). -/
def execVcvtfs (d a : BitVec 6) (f : Bool) (m : BitVec 3) (x : Bool) (l : BitVec 2) (s : State) : Out :=
  execConv (.vcvtfs d a f m x l) (cvtFS s) d a f m x l s

/-- VCVTSF (R144). -/
def execVcvtsf (d a : BitVec 6) (f : Bool) (m : BitVec 3) (x : Bool) (l : BitVec 2) (s : State) : Out :=
  execConv (.vcvtsf d a f m x l) (cvtSF s) d a f m x l s

/-- VCVTFI (R144). -/
def execVcvtfi (d a : BitVec 6) (f : Bool) (m : BitVec 3) (x : Bool) (l : BitVec 2) (s : State) : Out :=
  execConv (.vcvtfi d a f m x l) cvtFI d a f m x l s

/-- VCVTIF (R144). -/
def execVcvtif (d a : BitVec 6) (f : Bool) (m : BitVec 3) (x : Bool) (l : BitVec 2) (s : State) : Out :=
  execConv (.vcvtif d a f m x l) cvtIF d a f m x l s

/-- VCVTFU (R144). -/
def execVcvtfu (d a : BitVec 6) (f : Bool) (m : BitVec 3) (x : Bool) (l : BitVec 2) (s : State) : Out :=
  execConv (.vcvtfu d a f m x l) cvtFU d a f m x l s

/-- VCVTUF (R144). -/
def execVcvtuf (d a : BitVec 6) (f : Bool) (m : BitVec 3) (x : Bool) (l : BitVec 2) (s : State) : Out :=
  execConv (.vcvtuf d a f m x l) cvtUF d a f m x l s

/-- VRND (R144). -/
def execVrnd (d a : BitVec 6) (f : Bool) (m : BitVec 3) (x : Bool) (l : BitVec 2) (s : State) : Out :=
  execConv (.vrnd d a f m x l) (roundLane s) d a f m x l s

/-! ### Major 0x38, compares (R145) -/

/-- VFCEQ (R145). -/
def execVfceq (d a b : BitVec 6) (x y : Bool) (l : BitVec 2) (s : State) : Out :=
  execLanes2 (.vfceq d a b x y l) 2 (fun a b => maskLane ((fpIn s a).eqv (fpIn s b))) d a b x y l s

/-- VFCLT (R145). -/
def execVfclt (d a b : BitVec 6) (x y : Bool) (l : BitVec 2) (s : State) : Out :=
  execLanes2 (.vfclt d a b x y l) 2 (fun a b => maskLane ((fpIn s a).lt (fpIn s b))) d a b x y l s

/-- VFCLE (R145). -/
def execVfcle (d a b : BitVec 6) (x y : Bool) (l : BitVec 2) (s : State) : Out :=
  execLanes2 (.vfcle d a b x y l) 2 (fun a b => maskLane ((fpIn s a).lt (fpIn s b) || (fpIn s a).eqv (fpIn s b))) d a b x y l s

/-- VICEQ (R145). -/
def execViceq (d a b : BitVec 6) (x y : Bool) (l : BitVec 2) (s : State) : Out :=
  execLanes2 (.viceq d a b x y l) 2 (fun a b => maskLane (a == b)) d a b x y l s

/-- VICLT (R145). -/
def execViclt (d a b : BitVec 6) (x y : Bool) (l : BitVec 2) (s : State) : Out :=
  execLanes2 (.viclt d a b x y l) 2 (fun a b => maskLane (a.slt b)) d a b x y l s

/-- VICLTU (R145). -/
def execVicltu (d a b : BitVec 6) (x y : Bool) (l : BitVec 2) (s : State) : Out :=
  execLanes2 (.vicltu d a b x y l) 2 (fun a b => maskLane (a.ult b)) d a b x y l s

/-! ### Major 0x39 (R147, R148) -/

/-- VFRSUM (R147). -/
def execVfrsum (d a : BitVec 6) (x : Bool) (l : BitVec 2) (s : State) : Out :=
  execReduce (.vfrsum d a x l) 8 (sumLane s) 0x80000000 d a x l s

/-- VFRMAX (R147). -/
def execVfrmax (d a : BitVec 6) (x : Bool) (l : BitVec 2) (s : State) : Out :=
  execReduce (.vfrmax d a x l) 4 (fpMax s) 0xFF800000 d a x l s

/-- VFRMIN (R147). -/
def execVfrmin (d a : BitVec 6) (x : Bool) (l : BitVec 2) (s : State) : Out :=
  execReduce (.vfrmin d a x l) 4 (fpMin s) 0x7F800000 d a x l s

/-- VIRSUM (R147). -/
def execVirsum (d a : BitVec 6) (x : Bool) (l : BitVec 2) (s : State) : Out :=
  execReduce (.virsum d a x l) 4 (fun a b => a + b) 0 d a x l s

/-- VIRMAX (R147). -/
def execVirmax (d a : BitVec 6) (x : Bool) (l : BitVec 2) (s : State) : Out :=
  execReduce (.virmax d a x l) 4 (fun a b => if a.slt b then b else a) 0x80000000 d a x l s

/-- VIRMIN (R147). -/
def execVirmin (d a : BitVec 6) (x : Bool) (l : BitVec 2) (s : State) : Out :=
  execReduce (.virmin d a x l) 4 (fun a b => if a.slt b then a else b) 0x7FFFFFFF d a x l s

/-- VRAND (R147). -/
def execVrand (d a : BitVec 6) (x : Bool) (l : BitVec 2) (s : State) : Out :=
  execReduce (.vrand d a x l) 3 (fun a b => a &&& b) 0xFFFFFFFF d a x l s

/-- VROR (R147). -/
def execVror (d a : BitVec 6) (x : Bool) (l : BitVec 2) (s : State) : Out :=
  execReduce (.vror d a x l) 3 (fun a b => a ||| b) 0 d a x l s

/-! ### Major 0x3A (R149) -/

/-- VPERM (R149). -/
def execVperm (d a b : BitVec 6) (x y : Bool) (l : BitVec 2) (s : State) : Out :=
  execMoveBy (.vperm d a b x y l) (fun vb n => some ((laneOf vb n).toNat % 64)) s.k d a b x y l s

/-- VBCAST (R149). -/
def execVbcast (d a n : BitVec 6) (x : Bool) (l : BitVec 2) (s : State) : Out :=
  execMove (.vbcast d a n x l) (fun _ => some n.toNat) d a x l s

/-- VROT (R149). -/
def execVrot (d a n : BitVec 6) (x : Bool) (l : BitVec 2) (s : State) : Out :=
  execMove (.vrot d a n x l) (fun p => some ((p + n.toNat) % 64)) d a x l s

/-- VSLUP (R149). -/
def execVslup (d a n : BitVec 6) (x : Bool) (l : BitVec 2) (s : State) : Out :=
  execMove (.vslup d a n x l) (fun p => if n.toNat ≤ p then some (p - n.toNat) else none) d a x l s

/-- VSLDN (R149). -/
def execVsldn (d a n : BitVec 6) (x : Bool) (l : BitVec 2) (s : State) : Out :=
  execMove (.vsldn d a n x l) (fun p => if p + n.toNat ≤ 63 then some (p + n.toNat) else none) d a x l s

/-- Two sources, each lane taken from one of them: `src n` is true with a lane of va, false with one of vb (R131). -/
def execMerge (i : Instr) (src : Nat → Bool × Nat) (d a b : BitVec 6) (x y : Bool) (l : BitVec 2) (s : State) : Out :=
  let pick : Bool → Nat → Option Nat := fun w n => if (src n).1 = w then some (src n).2 else none
  settleV i l s
    (vectorChecks s [(s.vLocs a.toNat (readLanes s.k (pick true)), x), (s.vLocs b.toNat (readLanes s.k (pick false)), y)]
      (s.vLocs d.toNat s.k))
    (s.vlanes 2 d.toNat fun n => laneOf (if (src n).1 then s.v a.toNat else s.v b.toNat) (src n).2)

/-- VZIP (R149). -/
def execVzip (d a b : BitVec 6) (x y : Bool) (l : BitVec 2) (s : State) : Out :=
  execMerge (.vzip d a b x y l) (fun n => (decide (n % 2 = 0), n / 2)) d a b x y l s

/-- VUNZIP (R149). -/
def execVunzip (d a b : BitVec 6) (x y : Bool) (l : BitVec 2) (s : State) : Out :=
  execMerge (.vunzip d a b x y l) (fun n => if n < 32 then (true, 2 * n) else (false, 2 * (n - 32))) d a b x y l s

/-- VCOMPRESS (R149): lane n receives the n-th selected lane, or 0. -/
def execVcompress (d a b : BitVec 6) (x y : Bool) (l : BitVec 2) (s : State) : Out :=
  execMoveBy (.vcompress d a b x y l) (fun vb n => ((List.range 64).filter (selected s.k vb))[n]?) s.k d a b x y l s

/-- VEXPAND (R149): a lane with vb[l] = 0 keeps its old value. -/
def execVexpand (d a b : BitVec 6) (x y : Bool) (l : BitVec 2) (s : State) : Out :=
  let vb := s.v b.toNat
  execMoveBy (.vexpand d a b x y l) (fun vb n => some (((List.range n).filter (selected s.k vb)).length))
    (laneMask (selected s.k vb)) d a b x y l s

/-! ### Major 0x3B (R150) -/

/-- VMOV (R150). -/
def execVmov (d a : BitVec 6) (x : Bool) (l : BitVec 2) (s : State) : Out :=
  execLanes1 (.vmov d a x l) 1 (fun a => a) d a x l s

/-- VSPLAT (R150). -/
def execVsplat (d g : BitVec 6) (x : Bool) (l : BitVec 2) (s : State) : Out :=
  settleV (.vsplat d g x l) l s (vectorChecks s [([gLoc g.toNat], x)] (s.vLocs d.toNat s.k))
    (s.vlanes 1 d.toNat fun _ => Word.half (s.g g.toNat) 0)

/-- VINS (R150). -/
def execVins (d g n : BitVec 6) (x : Bool) (l : BitVec 2) (s : State) : Out :=
  let lanes := laneMask fun j => decide (j = n.toNat) && s.k.getLsbD j
  settleV (.vins d g n x l) l s (vectorChecks s [([gLoc g.toNat], x)] (s.vLocs d.toNat lanes))
    (s.vresult 1 (s.vOff d.toNat) lanes (List.replicate 64 (Word.half (s.g g.toNat) 0)))

/-- A result of the vector slot for a g register: the latch names that slot (R205). A result for g0 is discarded. -/
def State.vectorToReg (s : State) (lat r : Nat) (v : Word) : State := if r = 0 then s else s.later lat (.reg r v) false

/-- VEXT (R150): k is not consulted. -/
def execVext (g a n : BitVec 6) (x : Bool) (l : BitVec 2) (s : State) : Out :=
  settleV (.vext g a n x l) l s
    (vectorChecks s [(s.vLocs a.toNat (laneMask fun j => decide (j = n.toNat)), x)] [gLoc g.toNat])
    (s.vectorToReg 2 g.toNat ((laneOf (s.v a.toNat) n.toNat).zeroExtend 64))

/-- VIOTA (R150). -/
def execViota (d : BitVec 6) (l : BitVec 2) (s : State) : Out :=
  settleV (.viota d l) l s (vectorChecks s [] (s.vLocs d.toNat s.k))
    (s.vlanes 2 d.toNat fun n => BitVec.ofNat 32 (onesBelow s.k n))

/-- VSEL (R150). -/
def execVsel (d a b : BitVec 6) (x y : Bool) (l : BitVec 2) (s : State) : Out :=
  execLanes3 (.vsel d a b x y l) 1 (fun a b d => if d ≠ 0 then a else b) d a b x y l s

/-- VMASKRD (R150). -/
def execVmaskrd (g : BitVec 6) (l : BitVec 2) (s : State) : Out :=
  settleV (.vmaskrd g l) l s (vectorChecks s [] [gLoc g.toNat]) (s.vectorToReg 2 g.toNat s.k)

end Sys2Proof.Machine
end

