-- ==== Sys2Proof/Machine/Flags.lean ====
section
/-!
DEFINITION. The machine keeps no arithmetic flags (R19): its conditions are the mask stack (R54, R145, R146) and the
modes of CTL. Here are the mask-stack instructions.
-/

namespace Sys2Proof.Machine

/-- Entry i of the mask stack. -/
def State.maskAt (s : State) (i : Nat) : Word := s.core.mask[i]?.getD 0

/-- The stack with one entry and MSP replaced; seen by any unit that issues one clk later (R146). -/
def State.setMask (s : State) (msp i : Nat) (v : Word) : State :=
  (s.setCore { s.core with mask := s.core.mask.setIfInBounds i v }).setCsr 0x014 (BitVec.ofNat 64 msp)

/-- MPUSH (R146). -/
def execMpush (a : BitVec 6) (x : Bool) (l : BitVec 2) (s : State) : Out :=
  settleV (.mpush a x l) l s
    (vectorChecks s [(s.vLocs a.toNat s.k, x)] [] ++ [require (decide (s.msp ≠ 7)) Code.stack])
    (s.setMask (s.msp + 1) (s.msp + 1) (s.k &&& laneMask fun n => laneOf (s.v a.toNat) n != 0))

/-- MINV (R146). -/
def execMinv (l : BitVec 2) (s : State) : Out :=
  settleV (.minv l) l s [require (decide (s.msp ≠ 0)) Code.stack]
    (s.setMask s.msp s.msp (s.maskAt (s.msp - 1) &&& ~~~ s.maskAt s.msp))

/-- MPOP (R146). -/
def execMpop (l : BitVec 2) (s : State) : Out :=
  settleV (.mpop l) l s [require (decide (s.msp ≠ 0)) Code.stack]
    (s.setCsr 0x014 (BitVec.ofNat 64 (s.msp - 1)))

/-- VMASKWR (R146, R150). -/
def execVmaskwr (g : BitVec 6) (x : Bool) (l : BitVec 2) (s : State) : Out :=
  settleV (.vmaskwr g x l) l s (vectorChecks s [([gLoc g.toNat], x)] [])
    (s.setMask s.msp s.msp (s.g g.toNat))

end Sys2Proof.Machine
end

