-- ==== Sys2Proof/Machine/Formats.lean ====
section
/-!
DEFINITION. The twelve element formats (R15, R16), narrow elements (R20, R21), blocks and packing (R22, R23), block
scales and scale streams (R24-R26), the LAT2 codebook (R27, R28), and conversion into narrow formats (R34, R35).
-/

namespace Sys2Proof.Machine

/-- Element width in bits (R15); LAT2 is 2 bits per weight. -/
def fmtWidth : Nat → Nat
  | 0 => 8
  | 1 => 16
  | 2 => 16
  | 3 => 32
  | 4 => 8
  | 5 => 8
  | 6 => 6
  | 7 => 6
  | 8 => 4
  | 9 => 8
  | 10 => 4
  | 11 => 2
  | _ => 0

/-- Formats 4-11 are block-scaled (R22). -/
def isNarrow (fmt : Nat) : Bool := decide (4 ≤ fmt) && decide (fmt ≤ 11)

/-- A use of the format and geometry that R16 and R22 allow. -/
def fmtOk (fmt geo : Nat) : Bool := decide (fmt < 12) && (!isNarrow fmt || decide (geo ≠ 3))

/-- Elements (LAT2: weights) per block (R22). -/
def blockElems (geo : Nat) : Nat := 16 * 2 ^ geo

/-- Bytes per block (R22). -/
def blockBytes (fmt geo : Nat) : Nat := blockElems geo * fmtWidth fmt / 8

/-- The narrow floating formats (R15, R20). -/
def narrowFmt : Nat → Option Fmt
  | 4 => some { eb := 4, mb := 3, bias := 7 }
  | 5 => some { eb := 5, mb := 2, bias := 15 }
  | 6 => some { eb := 3, mb := 2, bias := 3 }
  | 7 => some { eb := 2, mb := 3, bias := 1 }
  | 8 => some { eb := 2, mb := 1, bias := 1 }
  | _ => none

/-- A narrow floating code: every exponent is finite (R20). -/
def Fmt.decodeFinite (f : Fmt) (c : Nat) : FVal :=
  let neg := decide (bits c (f.eb + f.mb) 1 = 1)
  let e := bits c f.mb f.eb
  let m := bits c 0 f.mb
  if e = 0 then .fin neg m f.emin else .fin neg (2 ^ f.mb + m) (f.emin + e - 1)

/-- Two's-complement element of w bits (R21). -/
def intElem (w c : Nat) : FVal := ofInteger (Int.bmod (c % 2 ^ w) (2 ^ w))

/-- A narrow element before its scale (R20, R21); LAT2 is decoded by `lat2Elem`. -/
def narrowElem (fmt c : Nat) : FVal :=
  match narrowFmt fmt with
  | some f => f.decodeFinite c
  | none => if fmt = 9 then intElem 8 c else intElem 4 c

/-- Weight j of a LAT2 index, before its scale, from its table's row word (R27, R28). -/
def lat2Elem (row : Nat) (index j : Nat) : FVal :=
  let signs := (List.range 7).map fun i => bits index (i + 1) 1
  let s := if j < 7 then bits index (j + 1) 1 else signs.foldl (· + ·) 0 % 2
  .fin (decide (s = 1)) (2 * bits row (4 * j) 4 + bits index 0 1) (-1)

/-- An element with its block's scale byte (R24): 255 makes every element NaN. -/
def scaled (scale : Nat) (v : FVal) : FVal := if scale = 255 then .nan else v.scale ((scale : Int) - 127)

/-- FP32 bits of a value rounded RNE, subnormals kept (R33, R34). -/
def toFp32 (v : FVal) : Lane := BitVec.ofNat 32 (Fmt.fp32.encode 0 false v)

/-- The value of an FP32 lane, subnormals kept. -/
def ofFp32 (a : Lane) : FVal := Fmt.fp32.decode false a.toNat

/-- An element of format 1, 2 or 3 as a value. -/
def wideElem (fmt c : Nat) : FVal :=
  match fmt with
  | 1 => Fmt.bf16.decode false c
  | 2 => Fmt.fp16.decode false c
  | _ => Fmt.fp32.decode false c

/-! ### Into narrow formats (R34, R35) -/

/-- Emax of R35. -/
def emaxOf : Nat → Int
  | 4 => 8
  | 5 => 16
  | 6 => 4
  | 7 => 2
  | 8 => 2
  | 9 => 6
  | _ => 2

/-- The code of the finite element of a sign that is largest in magnitude (R35). -/
def signedMaxCode (fmt : Nat) (neg : Bool) : Nat :=
  match narrowFmt fmt with
  | some f => f.signCode neg + (2 ^ (f.eb + f.mb) - 1)
  | none => let w := fmtWidth fmt; if neg then 2 ^ (w - 1) else 2 ^ (w - 1) - 1

/-- RoundSat of R35: a finite value rounded by the mode and saturated. -/
def roundSat (fmt mode : Nat) (neg : Bool) (m : Nat) (e : Int) : Nat :=
  match narrowFmt fmt with
  | some f =>
    if m = 0 then f.signCode neg
    else
      let q := max f.emin (ilog m e - f.mb)
      let c := (q - f.emin).toNat * 2 ^ f.mb + roundAt mode neg m e q
      f.signCode neg + min c (2 ^ (f.eb + f.mb) - 1)
  | none =>
    let w := fmtWidth fmt
    let v := max (-(2 ^ (w - 1) : Int)) (min (2 ^ (w - 1) - 1) (toIntClamped mode (-(2 ^ (w - 1))) (2 ^ (w - 1) - 1) (.fin neg m e)))
    (v % 2 ^ w).toNat

/-- Greatest floor of log2 over the finite non-zero values; none if there is none. -/
def maxLog : List FVal → Option Int
  | [] => none
  | .fin _ m e :: vs =>
    if m = 0 then maxLog vs
    else match maxLog vs with
      | none => some (ilog m e)
      | some x => some (max x (ilog m e))
  | _ :: vs => maxLog vs

/-- Scale byte and element codes of a block (R35). -/
def encodeBlock (fmt mode : Nat) (xs : List FVal) : Nat × List Nat :=
  if xs.contains .nan then (255, xs.map fun _ => 0)
  else
    let s : Nat := match maxLog xs with
      | none => 127
      | some l => (max 0 (min 254 (l - emaxOf fmt + 127))).toNat
    (s, xs.map fun x => match x with
      | .fin n m e => roundSat fmt mode n m (e - (s : Int) + 127)
      | .inf n => signedMaxCode fmt n
      | .nan => 0)

/-! ### Packing (R23) -/

/-- A list of bytes as one little-endian number. -/
def numOfBytes : List Byte → Nat
  | [] => 0
  | b :: bs => b.toNat + 256 * numOfBytes bs

/-- The n little-endian bytes of a number. -/
def bytesOfNum : Nat → Nat → List Byte
  | 0, _ => []
  | n + 1, v => BitVec.ofNat 8 v :: bytesOfNum n (v / 256)

/-- Element codes of a bit string, element j at bits w j + w - 1 : w j. -/
def unpackCodes (w n : Nat) (bs : List Byte) : List Nat :=
  let x := numOfBytes bs
  (List.range n).map fun j => bits x (w * j) w

/-- The bytes of packed element codes. -/
def packCodes (w : Nat) (cs : List Nat) : List Byte :=
  bytesOfNum (w * cs.length / 8) (cs.foldr (fun c acc => c % 2 ^ w + 2 ^ w * acc) 0)

/-! ### Scale streams (R25, R26) -/

/-- Nibbles of bytes, low nibble first. -/
def nibbles : List Byte → List Nat
  | [] => []
  | b :: bs => b.toNat % 16 :: b.toNat / 16 :: nibbles bs

/-- Scale bytes of the first n blocks after a block of scale `prev`; none where the stream is malformed. `first` is
true at the group's first block, which must be an escape. -/
def readScales (first : Bool) (prev : Nat) : Nat → List Nat → Option (List Nat)
  | 0, _ => some []
  | n + 1, 8 :: lo :: hi :: r => (readScales false (lo + 16 * hi) n r).map (fun l => (lo + 16 * hi) :: l)
  | _ + 1, 8 :: _ => none
  | _ + 1, [] => none
  | n + 1, d :: r =>
    if first then none
    else
      let v : Int := (prev : Int) + (if d < 8 then (d : Int) else (d : Int) - 16)
      if v < 0 ∨ 255 < v then none else (readScales false v.toNat n r).map (fun l => v.toNat :: l)

/-- Scale bytes of the first n blocks of a group's slot (R25). -/
def decodeSlot (slot : List Byte) (n : Nat) : Option (List Nat) := readScales true 0 n (nibbles slot)

/-- Nibbles of scale bytes after a block of scale `prev` (R26). -/
def scaleNibbles (first : Bool) (prev : Nat) : List Nat → List Nat
  | [] => []
  | s :: r =>
    let d : Int := (s : Int) - prev
    (if first || decide (d < -7) || decide (7 < d) then [8, s % 16, s / 16] else [(d % 16).toNat]) ++ scaleNibbles false s r

/-- Bytes of nibbles, low first. -/
def bytesOfNibbles : List Nat → List Byte
  | lo :: hi :: r => BitVec.ofNat 8 (lo + 16 * hi) :: bytesOfNibbles r
  | [lo] => [BitVec.ofNat 8 lo]
  | [] => []

/-- The 96 bytes of a group's slot (R25, R26). The nibbles past the encoding are free values that the scale bytes fix, as
R26 has the slot fixed by them (log 15). -/
def encodeSlot (scales : List Nat) : List Byte :=
  let ns := scaleNibbles true 0 scales
  bytesOfNibbles (ns ++ (List.range (192 - ns.length)).map fun i => Config.freeNibble scales i % 16)

end Sys2Proof.Machine
end

