-- ==== Sys2Proof/Machine/Translate.lean ====
section
/-!
DEFINITION. The physical map, page tables, page attributes, permissions, translation caches and walks (R311-R326).
-/

namespace Sys2Proof.Machine

/-! ### The physical map (R1, R5, R312, R389) -/

/-- Compute and hub dies present, from FEATURE (R7). -/
def State.cdies (s : State) : Nat := Word.bits (s.readCsr 0) 0 5
def State.hdies (s : State) : Nat := Word.bits (s.readCsr 0) 5 3

/-- FEATURE.ROUTE and FEATURE.LAT2 (R7). -/
def State.hasRoute (s : State) : Bool := (s.readCsr 0).getLsbD 8
def State.hasLat2 (s : State) : Bool := (s.readCsr 0).getLsbD 9

/-- The die is a compute or hub die that the part has (R5). -/
def State.diePresent (s : State) (d : Nat) : Bool :=
  decide (d < s.cdies) || (decide (24 ≤ d) && decide (d < 24 + s.hdies))

/-- The die of the modelled cell (R3). -/
def State.die (s : State) : Nat := s.gcell / 64

/-- A map of the stage manager for a die: CHANMAP, CXLSIZE and so on (R387). -/
def mapOf (v : Vector Word 28) (d : Nat) : Word := v[d]?.getD 0

/-- Channels in service of stack s of a die, or of a hub's cellar (R387, R389). -/
def State.stackChans (s : State) (d k : Nat) : Nat :=
  popCount (BitVec.ofNat 16 (Word.bits (mapOf s.mgr.chanmap d) (16 * k) 16))
def State.cellarChans (s : State) (d : Nat) : Nat := popCount (BitVec.ofNat 24 (mapOf s.mgr.chanmap d).toNat)

/-- Where the model places the register-space windows, above the physical addresses (R252, log 1). -/
def windowSpace : Nat := 2 ^ 52

/-- The die at which an address is homed (R252, R312). -/
def homeOf (pa : Nat) : Nat :=
  if windowSpace ≤ pa then (pa - windowSpace) / 0x40000 / 64
  else if pa < 0x1000000000000 then pa / 2 ^ 37
  else if pa < 0x2000000000000 then 24 + (pa - 0x1000000000000) / 2 ^ 41
  else if pa < 0xF000000000000 then 24 + (pa - 0x2000000000000) / 2 ^ 46
  else if pa < 0xF000100000000 then 24 + (pa - 0xF000000000000) / 0x800000
  else 24

/-- Something lies at the physical address: the die is present and the memory fitted and in service (R312, R389). -/
def State.presentPa (s : State) (pa : Nat) : Bool :=
  let h := homeOf pa
  s.diePresent h &&
  (if pa < 0x1000000000000 then
    decide (h < 24) && decide (pa % 2 ^ 36 < 2 ^ 32 * s.stackChans h (pa / 2 ^ 36 % 2))
  else if pa < 0x2000000000000 then decide ((pa - 0x1000000000000) % 2 ^ 41 < 64000000000 * s.cellarChans h)
  else if pa < 0xF000000000000 then
    decide ((pa - 0x2000000000000) % 2 ^ 46 < 2 ^ 30 * Word.bits (mapOf s.mgr.cxlsize h) 0 32)
  else if pa < 0xF000100000000 then decide (pa < 0xF000000000000 + 4 * 0x800000)
  else decide (pa < 0xF000100002000))

/-! ### Virtual addresses (R311, R321) -/

/-- Bits 63:56 are copies of bit 55. -/
def canonical (va : Word) : Bool := canon (Word.bits va 0 56) == va

/-- The 56-bit address. -/
def va56 (va : Word) : Nat := Word.bits va 0 56

/-- The register-space window (R321): base, and the cell and byte an address names. -/
def windowBase : Nat := 0xFFFFF00000000000

def inWindow (va : Word) : Bool :=
  decide (windowBase ≤ va.toNat) && decide (va.toNat < windowBase + 0x40000 * 1536)

def windowCell (va : Word) : Nat := (va.toNat - windowBase) / 0x40000
def windowByte (va : Word) : Nat := (va.toNat - windowBase) % 0x40000

/-! ### Page attributes (R315) -/

def Page.fmt (p : Page) : Nat := Word.bits p.w0 8 4
def Page.geo (p : Page) : Nat := Word.bits p.w0 12 2
def Page.lslot (p : Page) : Nat := Word.bits p.w0 14 2
def Page.frame (p : Page) : Nat := Word.bits p.w0 16 36 * 2 ^ 16
def Page.cls (p : Page) : Nat := Word.bits p.w0 52 2
def Page.rwin (p : Page) : Bool := p.w0.getLsbD 54
def Page.compat (p : Page) : Bool := p.w0.getLsbD 55
/-- Address of the page's scale stream, for a narrow page. -/
def Page.ssb (p : Page) : Nat := Word.bits p.w1 0 46 * 64
def Page.tdev (p : Page) : Nat := if isNarrow p.fmt then 0 else Word.bits p.w1 0 11
def Page.tcell (p : Page) : Nat := Word.bits p.w1 11 11
def Page.cidx (p : Page) : Nat := Word.bits p.w1 22 12
/-- The collective operation; 0 is no collective page. -/
def Page.coll (p : Page) : Nat := if isNarrow p.fmt then 0 else Word.bits p.w1 34 2
def Page.poff (p : Page) : Nat := Word.bits p.w1 36 4
def Page.casid (p : Page) : Nat := Word.bits p.w1 40 16

/-- The physical address of a virtual address inside the page. -/
def Page.pa (p : Page) (va : Nat) : Nat := p.frame + (va - p.base)

/-! ### Permissions (R322) -/

def Access.writes : Access → Bool
  | .write => true
  | .both => true
  | _ => false

/-- The checks at translation, at the level of the context; `ux` is TVEC.UX. -/
def permitted (w0 : Word) (acc : Access) (system ux : Bool) : Bool :=
  let r := w0.getLsbD 2
  let w := w0.getLsbD 3
  let x := w0.getLsbD 4
  let u := w0.getLsbD 5
  (match acc with
    | .read => r
    | .write => w
    | .both => r && w
    | .fetch => x) &&
  (if system then acc != .fetch || !u || ux else u)

/-! ### Vector clocks (R255, R256) -/


/-- The component-wise maximum of two clocks; missing components are zero. -/
def maxClock : List Nat → List Nat → List Nat
  | [], b => b
  | a, [] => a
  | x :: a, y :: b => max x y :: maxClock a b

/-- Joining (R255): VC_d takes the maximum of itself and a clock. -/
def State.joinVc (s : State) (d : Nat) (c : List Nat) : State :=
  if c.isEmpty then s else
  { s with sys := { s.sys with vc := Sparse.setRun s.sys.vc (32 * d) ((maxClock (s.vcOf d) c).map (BitVec.ofNat 40)) } }

/-- VC_d raised in its own component, as a write of this clk carries it (R255). -/
def State.writeStamp (s : State) (d : Nat) : List Nat := setAt (s.vcOf d) d ((s.vcOf d)[d]?.getD 0 + 1)

/-- F_e as every home holds it (R256, log 3). -/
def State.frontier (s : State) (e : Nat) : Nat := (Sparse.get s.sys.front e).toNat

/-- M_h (R256). -/
def State.maxOf (s : State) (h : Nat) : List Nat := (List.range 28).map fun e => (Sparse.get s.sys.maxv (32 * h + e)).toNat

/-- M_h raised by a stamp (R256). -/
def State.raiseMax (s : State) (h : Nat) (c : List Nat) : State :=
  { s with sys := { s.sys with maxv := Sparse.setRun s.sys.maxv (32 * h) ((maxClock (s.maxOf h) c).map (BitVec.ofNat 40)) } }

/-- A home holds a clock, one component left out for a write (R256). -/
def State.holds (s : State) (v : List Nat) (out : Option Nat) : Bool :=
  (List.range 28).all fun e => out == some e || decide (v[e]?.getD 0 ≤ s.frontier e)

/-- A read of the cell's die with a clock is answered at its home; a clock not taken yet is that of now (R255, R256). -/
def State.readOpen (s : State) (clock : List Nat) : Bool := s.holds (if clock.isEmpty then s.vcOf s.die else clock) none

/-- The die joins M_h of the homes that have answered a read (R255, R256). -/
def State.joinHomes (s : State) (pas : List Nat) : State := pas.foldl (fun t pa => t.joinVc s.die (t.maxOf (homeOf pa))) s

/-- The die issues a write in this clk (R255). -/
def State.marksWrite (s : State) (d : Nat) : State :=
  if s.sys.wrote.contains d then s else { s with sys := { s.sys with wrote := d :: s.sys.wrote } }

/-! ### Walks (R313, R316, R324) -/

/-- The levels: lowest index bit, index bits, leaf page size (0: no leaf). -/
def levels : List (Nat × Nat × Nat) :=
  [(44, 12, 0), (32, 12, 2 ^ 32), (28, 4, 2 ^ 28), (21, 7, 2 ^ 21), (16, 5, 2 ^ 16)]

/-- What R316 asks of a leaf. -/
def State.leafOk (s : State) (size : Nat) (w0 w1 : Word) : Bool :=
  let p : Page := { asid := 0, base := 0, size := size, w0 := w0, w1 := w1 }
  decide (Word.bits w0 56 8 = 0) && decide (size ≠ 0) && decide (p.frame % size = 0) &&
  (p.rwin || s.presentPa p.frame) &&
  (if isNarrow p.fmt then decide (Word.bits w1 46 18 = 0) && s.presentPa p.ssb && !p.rwin
   else decide (Word.bits w1 56 8 = 0) && !(p.rwin && decide (p.coll ≠ 0))) &&
  (!p.compat || p.rwin)

/-- A table pointer's other bits are zero. -/
def pointerOk (w0 w1 : Word) : Bool :=
  decide (Word.bits w0 2 6 = 0) && decide (Word.bits w0 56 8 = 0) && w1 == 0

/-- The outcome of a walk: the address of the leaf entry and the page, or the cause. -/
inductive WalkResult where
  | leaf (entry : Nat) (p : Page)
  | fault (cause : Nat)
  deriving DecidableEq, Repr

/-- An uncorrectable error in the 64-byte line of an address (R383, log 10). -/
def State.badLine (s : State) (pa : Nat) : Bool := decide (1 < (Sparse.get s.mgr.memErr (pa / 64)).toNat)

/-- Addresses of the entries that a walk reads, in order. -/
def State.walkAddrs (s : State) (va table : Nat) : List (Nat × Nat × Nat) → List Nat
  | [] => []
  | (shift, width, _) :: ls =>
    let e := table + 16 * bits va shift width
    if !s.presentPa table || !s.presentPa e then []
    else
      let w0 : Word := BitVec.ofNat 64 (Memory.readLE s.mem e 8)
      e :: (if w0.getLsbD 0 && !w0.getLsbD 1 then State.walkAddrs s va (Word.bits w0 8 48 * 16) ls else [])

/-- The walk from a table on. -/
def State.walkFrom (s : State) (asid va : Nat) (table : Nat) : List (Nat × Nat × Nat) → WalkResult
  | [] => .fault Code.translate
  | (shift, width, size) :: ls =>
    let e := table + 16 * bits va shift width
    if !s.presentPa table || !s.presentPa e then .fault Code.translate
    else if s.badLine e then .fault Code.machine
    else
      let w0 : Word := BitVec.ofNat 64 (Memory.readLE s.mem e 8)
      let w1 : Word := BitVec.ofNat 64 (Memory.readLE s.mem (e + 8) 8)
      if !w0.getLsbD 0 then .fault Code.translate
      else if w0.getLsbD 1 then
        if s.leafOk size w0 w1 then .leaf e { asid := asid, base := va / size * size, size := size, w0 := w0, w1 := w1 }
        else .fault Code.translate
      else if pointerOk w0 w1 then State.walkFrom s asid va (Word.bits w0 8 48 * 16) ls
      else .fault Code.translate

/-- PTROOT's ASID and root table (R314). -/
def State.asid (s : State) : Nat := Word.bits (s.readCsr 0x102) 0 16
def State.root (s : State) : Nat := Word.bits (s.readCsr 0x102) 16 48 * 16

/-- TVEC.UX (R204). -/
def State.ux (s : State) : Bool := (s.readCsr 0x101).getLsbD 0

/-- A cached page replaced or added, in a cache of n pages (R323). -/
def cachePage (n : Nat) (tlb : List Page) (p : Page) : List Page :=
  (p :: tlb.filter (fun q => !(q.asid == p.asid && q.base == p.base && q.size == p.size))).take n

/-- Word 0 of a table entry written by the walker of a die, as a write of the die at the entry's home (R255, R324). -/
def State.writeEntry (s : State) (die e : Nat) (w0 : Word) : State :=
  let t := (s.raiseMax (homeOf e) (s.writeStamp die)).marksWrite die
  { t with mem := Memory.writeLE s.mem e 8 w0.toNat }

/-- A walk for an access (R323, R324). Its reads join M_h of their homes; a failed walk or a refused permission leaves
nothing cached; otherwise A, and for a write D, are set in the entry, and the cell's and the die's caches take the page.
Each entry read is counted (R346). -/
def State.walk (s : State) (va : Word) (acc : Access) (system : Bool) : State × Option (Nat × Option Page) :=
  let read := s.walkAddrs (va56 va) s.root levels
  let s0 := (s.joinHomes read).count 22 read.length
  match s.walkFrom s.asid (va56 va) s.root levels with
  | .fault c => (s0, some (c, none))
  | .leaf e p =>
    if !permitted p.w0 acc system s.ux then (s0, some (Code.protect, some p))
    else
      let w0 := p.w0 ||| 0x40 ||| (if acc.writes then 0x80 else 0)
      let q : Page := { p with w0 := w0 }
      let s1 := if w0 = p.w0 then s0 else s0.writeEntry s.die e w0
      ({ s1 with sys := { s1.sys with ctlb := cachePage 64 s1.sys.ctlb q, tlb := cachePage 8192 s1.sys.tlb q } }, none)

/-! ### Translation of an access (R103, R323) -/

/-- The cached page that holds an address: the cell's own cache is looked in first, then its die's (R323). -/
def State.cached (s : State) (va : Word) : Option Page :=
  (s.sys.ctlb ++ s.sys.tlb).find? fun p =>
    decide (p.asid = s.asid) && decide (p.base ≤ va56 va) && decide (va56 va < p.base + p.size)

/-- A page and whether the access is permitted there, a translation that is missing, or a failed one. -/
inductive Xlate where
  | hit (p : Page) (ok : Bool)
  | miss
  | fault (cause : Nat)
  deriving DecidableEq, Repr

/-- The outcome of a walk already made for the head unit (R324). -/
def State.walkOutcome (s : State) (va : Word) : Option (Nat × Option Page) :=
  (s.core.walkFault.find? fun w => decide (Word.bits w.1 16 40 = Word.bits va 16 40)).map Prod.snd

/-- Translates an access of the head unit; a write does not use a cached page whose D bit is 0 (R323). -/
def State.xlate (s : State) (va : Word) (acc : Access) : Xlate :=
  if !canonical va then .fault Code.translate
  else match s.walkOutcome va with
    | some (_, some p) => .hit p false
    | some (c, none) => .fault c
    | none =>
      match s.cached va with
      | none => .miss
      | some p =>
        if acc.writes && !p.w0.getLsbD 7 then .miss
        else .hit p (permitted p.w0 acc s.system s.ux)

/-- A trap that names an address (R206). -/
def addrTrap (code : Nat) (va : Word) : Verdict :=
  .trap { code := code, addr := va, mc := if code = Code.machine then 6 + 64 * 0x7FFFF else 0 }

/-- The part of an access that lies in one page: offset in the footprint, length, page, permission. -/
structure Span where
  off : Nat
  len : Nat
  page : Page
  ok  : Bool
  deriving DecidableEq, Repr

/-- The translation check of an access of n bytes and its spans, page by page, lowest first (R103). `used` says whether
a part of the footprint holds anything accessed: the page of the first byte is always translated, the next one only
where it is used (R110). No footprint covers more than two pages. -/
def State.spans (s : State) (va : Word) (acc : Access) (n : Nat) (used : Nat → Nat → Bool) : Verdict × List Span :=
  match s.xlate va acc with
  | .fault c => (addrTrap c va, [])
  | .miss => (.walk va acc, [])
  | .hit p ok =>
    let len := min n (p.base + p.size - va56 va)
    let first : Span := { off := 0, len := len, page := p, ok := ok }
    if n ≤ len || !used len (n - len) then (.pass, [first])
    else
      let a := va + BitVec.ofNat 64 len
      match s.xlate a acc with
      | .fault c => (addrTrap c a, [first])
      | .miss => (.walk a acc, [first])
      | .hit q ok2 => (.pass, [first, { off := len, len := n - len, page := q, ok := ok2 }])

/-- The permission check: PROTECT names the lowest address refused (R103, R110). -/
def spansPermitted (va : Word) (used : Nat → Nat → Bool) (sps : List Span) : Verdict :=
  match sps.find? fun sp => !sp.ok && used sp.off sp.len with
  | some sp => addrTrap Code.protect (va + BitVec.ofNat 64 sp.off)
  | none => .pass

/-- Every byte is used. -/
def useAll : Nat → Nat → Bool := fun _ _ => true

/-- The virtual address of a span's first byte. -/
def Span.va (sp : Span) (va : Word) : Word := va + BitVec.ofNat 64 sp.off

/-- The physical address of a span's first byte. -/
def Span.pa (sp : Span) (va : Word) : Nat := sp.page.pa (va56 (va + BitVec.ofNat 64 sp.off))

/-! ### Blocks of a page (R22, R23, R25) -/

/-- Blocks that a page holds. -/
def Page.blocks (p : Page) : Nat := p.size / blockBytes p.fmt p.geo

/-- Block number b of a page. -/
def Page.block (p : Page) (b : Nat) : Block :=
  { fmt := p.fmt, geo := p.geo, lslot := p.lslot, pa := p.frame + b * blockBytes p.fmt p.geo,
    slot := p.ssb + 96 * (b / 64), blk := b % 64, group := min 64 (p.blocks - b / 64 * 64) }

/-- The n bytes at a physical address. -/
def State.bytes (s : State) (pa n : Nat) : List Byte := Sparse.getRun s.mem pa n

/-- Scale byte of a block; none where the stream is malformed (R25). -/
def State.scaleOf (s : State) (b : Block) : Option Nat :=
  match decodeSlot (s.bytes b.slot 96) (b.blk + 1) with
  | some l => l[b.blk]?
  | none => none

/-- Row r of a LAT2 table slot (R28). -/
def State.lat2Row (s : State) (slot r : Nat) : Nat := (Sparse.get s.cell.lat2 (256 * slot + r)).toNat

/-- Element codes of a block; LAT2 indices for format 11. -/
def blockCodes (fmt geo : Nat) (bs : List Byte) : List Nat :=
  if fmt = 11 then unpackCodes 16 (blockElems geo / 8) bs else unpackCodes (fmtWidth fmt) (blockElems geo) bs

/-- Exact values of a block's elements before its scale, LAT2 rows read by `row`. -/
def tableVals (row : Nat → Nat) (fmt : Nat) (codes : List Nat) : List FVal :=
  if fmt = 11 then (codes.map fun c => (List.range 8).map fun j => lat2Elem (row (bits c 8 8)) c j).flatten
  else codes.map (narrowElem fmt)

/-- The same with a table slot as it stands. -/
def State.blockVals (s : State) (fmt lslot : Nat) (codes : List Nat) : List FVal :=
  tableVals (s.lat2Row lslot) fmt codes

/-- A block decoded to FP32 (R24, R34). A malformed stream was refused at issue; where a write has spoilt the slot since, its
scale byte reads as 255, which is NaN (R25; DESIGN CHOICE, log 15). -/
def State.decodeBlock (s : State) (b : Block) : List Lane :=
  let codes := blockCodes b.fmt b.geo (s.bytes b.pa (blockBytes b.fmt b.geo))
  (s.blockVals b.fmt b.lslot codes).map fun v => toFp32 (scaled ((s.scaleOf b).getD 255) v)

end Sys2Proof.Machine
end

