-- ==== Sys2Proof/Machine/MemSys.lean ====
section
/-!
DEFINITION. The memory system at the cell: the stores (R105, R226-R230), requests to homes with their stamps
(R252-R259), the waits of acquire and release, the register-space window (R321), watchpoints on own stores (R370),
trace records (R365-R367, R376) and replay (R377).
-/

namespace Sys2Proof.Machine


/-! ### The stores (R105, R226, R230, R332) -/

def Cell.store (c : Cell) : Nat → Memory
  | 0 => c.store0
  | 1 => c.store1
  | _ => c.store2

def Cell.withStore (c : Cell) (st : Nat) (m : Memory) : Cell :=
  match st with
  | 0 => { c with store0 := m }
  | 1 => { c with store1 := m }
  | _ => { c with store2 := m }

/-- Consecutive bytes of a store written; granules become dirty, and words written whole lose their errors (R332,
R384). -/
def Cell.putStore (c : Cell) (st off : Nat) (bs : List Byte) : Cell :=
  if bs.isEmpty then c else
  let c1 := c.withStore st (Sparse.setRun (c.store st) off bs)
  let key := st * 2 ^ 24
  { c1 with
    dirtyGran := Sparse.setRun c1.dirtyGran (1024 * st + off / 4096)
      (List.replicate ((off + bs.length - 1) / 4096 - off / 4096 + 1) 1)
    storeErr := c1.storeErr.filter fun e =>
      !(decide (key + (off + 3) / 4 ≤ e.1) && decide (e.1 < key + (off + bs.length) / 4)) }

/-- The n bytes at an offset of a store. -/
def State.storeBytes (s : State) (st off n : Nat) : List Byte := Sparse.getRun (s.cell.store st) off n

/-- The access lies inside the store (R105). -/
def storeBounds (st : Nat) (a : Word) (n : Nat) : Bool := decide (a.toNat + n ≤ storeSize st)

/-- Errors in the store words of a range: uncorrectable ones, and correctable ones (R230). -/
def State.storeErrors (s : State) (st off n : Nat) : List (Nat × BitVec 2) :=
  s.cell.storeErr.filter fun e =>
    decide (st * 2 ^ 24 + off / 4 ≤ e.1) && decide (e.1 < st * 2 ^ 24 + (off + n + 3) / 4)

/-- R230: an uncorrectable store word raises MACHINE at the consumer; MCINFO has KIND 2 and the store (R386). -/
def storeSecded (s : State) (st off n : Nat) : Verdict :=
  match (s.storeErrors st off n).find? fun e => decide (1 < e.2.toNat) with
  | some e => .trap { code := Code.machine, addr := BitVec.ofNat 64 (4 * (e.1 % 2 ^ 24)),
                      mc := BitVec.ofNat 64 (2 + 16 * st + 64 * 0x7FFFF) }
  | none => .pass

/-! ### Store ports (R228) -/

/-- Bytes a port carries in a clk (R226). -/
def portWidth : Nat → Nat
  | 0 => 1024
  | 1 => 256
  | _ => 512

def State.storePort (s : State) (st : Nat) : StorePort :=
  s.cell.ports[st]?.getD { refused := Vector.replicate 5 0, lost := 0, taken := false }

/-- The requester that is granted first: the one refused for the most consecutive clk, from eight on, and of those the
higher in the order. -/
def StorePort.first (p : StorePort) : Option Nat :=
  (List.range 5).foldl (fun (w : Option Nat) i =>
    let n := p.refused[i]?.getD 0
    if n < 8 then w else match w with
      | none => some i
      | some j => if p.refused[j]?.getD 0 < n then some i else some j) none

/-- The bytes of a request of the core for a store's port, written at its grant (R228). -/
def Cell.perform (c : Cell) (p : Posted) : Cell := p.parts.foldl (fun c x => c.putStore p.st x.1 x.2) c

/-- The stores as the control core sees them: with the writes of its earlier units, granted or not (R107). -/
def State.coreView (s : State) : State := s.setCell (s.core.posted.foldl Cell.perform s.cell)

/-- The core asks for a store's port, to write some bytes or to read a row or another value (R228). -/
def State.askPort (s : State) (st : Nat) (parts : List (Nat × List Byte)) (row : Option Reply) : State :=
  s.setCore { s.core with posted := s.core.posted ++
    [{ st := st, clk := s.clk, enq := s.cell.enqNo, parts := parts, row := row }] }

/-- Issue clk of a load from a store (R193). -/
def Latch.issued (l : Latch) : Nat := l.visible - (if l.scalar then 6 else 8)

/-- Issue clk of the oldest request of the core for a store's port. -/
def State.corePort (s : State) (st : Nat) : Option Nat :=
  ((s.core.inflight.filter fun l => l.port == some st).map Latch.issued ++
    (s.core.posted.filter fun p => p.st == st).map Posted.clk).min?

/-- The core waits for the port of a store. -/
def State.coreWaits (s : State) (st : Nat) : Bool := (s.corePort st).isSome

/-- The core is granted the port of a store for what it asked in a clk: its bytes are written, its load or row goes on. -/
def State.grantCore (s : State) (st clk : Nat) : State :=
  let mine := fun (p : Posted) => p.st == st && p.clk == clk
  let got := s.core.posted.filter mine
  { s with
    cell := got.foldl Cell.perform s.cell
    core := { s.core with
      posted := s.core.posted.filter fun p => !mine p
      inflight := s.core.inflight.map fun l => if l.port == some st && l.issued == clk then { l with port := none } else l }
    sys := { s.sys with replies := s.sys.replies ++ got.filterMap Posted.row } }

/-- A requester is granted the port in this clk. -/
def State.portOpen (s : State) (who st : Nat) : Bool :=
  !(s.storePort st).taken && (match (s.storePort st).first with
    | some w => w == who
    | none => decide (who < 3) || !s.coreWaits st)

def State.setStorePort (s : State) (st : Nat) (p : StorePort) : State :=
  s.setCell { s.cell with ports := s.cell.ports.setIfInBounds st p }

/-- The ports of stores granted to a requester. -/
def State.takePorts (s : State) (sts : List Nat) : State :=
  sts.foldl (fun (t : State) st => t.setStorePort st { t.storePort st with taken := true }) s

/-- A requester refused: those of its ports that are not open to it count the clk. -/
def State.refusePorts (s : State) (who : Nat) (sts : List Nat) : State :=
  sts.foldl (fun (t : State) st =>
    if s.portOpen who st then t else t.setStorePort st { t.storePort st with lost := (t.storePort st).lost ||| 1 <<< who }) s

/-- The end of a clk at a store's port: the core's oldest request is served, last of the clk; its loads that still wait
arrive one clk later, and refusals are counted. Where the island of the stores does not tick nothing is granted or counted
(R228, R400). -/
def State.endPort (s : State) (ticks : Bool) (st : Nat) : State :=
  let p := s.storePort st
  let free := ticks && s.portOpen 2 st
  let s1 := match s.corePort st with
    | some c => if free then s.grantCore st c else s
    | none => s
  let held := fun (l : Latch) => l.port == some st
  let s2 := s1.setCore { s1.core with
    inflight := s1.core.inflight.map fun l => if held l then { l with arrive := l.arrive + 1 } else l
    acqUntil := if decide (s.clk < s.core.acqUntil) && ((s1.core.inflight.getLast?).map held).getD false
      then s.core.acqUntil + 1 else s.core.acqUntil }
  if !ticks then s2 else
    let lost := if s.coreWaits st && !free then p.lost ||| 4 else p.lost
    s2.setStorePort st
      { refused := Vector.ofFn fun i => if lost.getLsbD i.val then p.refused[i] + 1 else 0, lost := 0, taken := false }

/-- The core reads a store at issue (R230): an uncorrectable word raises MACHINE; a correctable one is corrected and delays
the unit one clk. -/
def coreRead (s : State) (st off n : Nat) : List Verdict :=
  let fix := (s.coreView.storeErrors st off n).filter fun e => e.2 == 1
  [storeSecded s.coreView st off n, if fix.isEmpty then .pass else .fixStore (fix.map Prod.fst)]

/-- A store load: its port is asked for in its issue clk, and the data arrive with the nominal latency after the grant, one
clk later for a correction (R193, R230). -/
def State.storeLoad (s : State) (lat st off n : Nat) (t : Target) (scalar acq : Bool) : State :=
  let fixed := s.coreView.storeErrors st off n
  let late := if fixed.isEmpty then 0 else 1
  let l : Latch := { target := t, visible := s.clk + lat, arrive := s.clk + lat - 1 + late, scalar := scalar, port := some st }
  let s1 := (s.count (9 + st) (per64 n)).correctStore (fixed.map Prod.fst)
  let s2 := match t with
    | .reg 0 _ => s1.askPort st [] none
    | _ => s1.setCore { s1.core with inflight := s1.core.inflight ++ [l] }
  s2.setCore { s2.core with acqUntil := if acq then l.arrive + 1 else s2.core.acqUntil }

/-- Bytes that a unit of the core writes to a store: its port is asked for at issue, and the bytes are written at the grant,
in issue order with the core's other accesses (R107, R228). -/
def State.corePut (s : State) (st : Nat) (parts : List (Nat × List Byte)) (n : Nat) : State :=
  (s.askPort st parts none).count (9 + st) (per64 n)

/-- Bytes that an engine granted the port writes to a store (R229). -/
def State.storeWrite (s : State) (st off : Nat) (bs : List Byte) : State :=
  (s.setCell (s.cell.putStore st off bs)).count (9 + st) (per64 bs.length)

/-! ### Vector clocks and requests (R252-R258) -/

/-- The write part of an access carries a stamp (R255). -/
def ReqOp.writes : ReqOp → Bool
  | .load _ | .vload _ _ | .bload _ | .rowBytes _ | .rowBlocks _ | .rcread _ _ => false
  | _ => true

/-- The access has a read part (R255). -/
def ReqOp.reads : ReqOp → Bool
  | .store _ | .encode _ _ _ | .contrib _ | .route _ _ => false
  | _ => true

/-- The stamp of an access of a die: its clock, raised by one in its own component for a write, which is stamped again with
what has been joined by the end of its clk (R255). -/
def State.stampOf (s : State) (d : Nat) (op : ReqOp) : List Nat := if op.writes then s.writeStamp d else []

/-- DEVID (R352). -/
def State.devid (s : State) : Nat := Word.bits (s.readCsr 0x1B0) 0 11

/-- JOBKEY (R327). -/
def State.jobKey (s : State) : Nat := Word.bits (s.readCsr 0x103) 0 16

/-- The device a page's accesses go to, if it is not this one (R318). -/
def State.remote (s : State) (p : Option Page) : Option Nat :=
  match p with
  | some p => if p.rwin && decide (p.tdev ≠ s.devid) then some p.tdev else none
  | none => none

/-- Who makes an access: queue (15: the control core), sequence number, PC (R153, R364). -/
structure Who where
  queue : Nat
  seq   : Nat
  pc    : Word
  deriving DecidableEq, Repr

/-- The control core as the source of an access. -/
def State.self (s : State) : Who := { queue := 15, seq := 0, pc := s.core.pc }

/-- Bytes an access carries, for its energy (R346). -/
def ReqOp.size : ReqOp → Nat
  | .load n => n
  | .vload _ es => 4 * es.length
  | .bload bs => (bs.map fun b => blockBytes b.2.fmt b.2.geo).foldl (· + ·) 0
  | .rowBytes n => n
  | .rowBlocks bs => (bs.map fun b => blockBytes b.fmt b.geo).foldl (· + ·) 0
  | .store bs => bs.length
  | .encode bs _ _ => (bs.map fun b => blockBytes b.fmt b.geo).foldl (· + ·) 0
  | .contrib c => 4 * c.words.length
  | _ => 8

/-- Sends an access stamped by die d to its home, or to another module (R252, R255, R262, R318). -/
def State.sendAs (s : State) (d : Nat) (src : Who) (op : ReqOp) (va : Word) (p : Option Page) (pa : Nat) (dest : Dest)
    (acq : Bool) : State :=
  let r : Req :=
    { id := s.sys.nextId, op := op, pa := pa, va := va, home := homeOf pa, die := d, stamp := s.stampOf d op,
      rclk := s.vcOf d, dest := dest, queue := src.queue, seq := src.seq, pc := src.pc, dev := s.remote p,
      cls := (p.map Page.cls).getD 0, key := s.jobKey, acq := acq,
      casid := p.bind fun p => if p.compat then some p.casid else none
      origin := if d = s.die then .own else .hub d }
  let s0 := if op.writes then s.marksWrite d else s
  let sys1 := { s0.sys with nextId := s.sys.nextId + 1 }
  let s1 := ((s.count 21 1).count 18 (if r.home = d then 0 else per64 op.size))
  if r.dev.isSome then { s1 with sys := sys1, fab := { s1.fab with out := s1.fab.out ++ [r] } }
  else { s1 with sys := { sys1 with reqs := sys1.reqs ++ [r] } }

/-- Sends an access of the cell. -/
def State.send (s : State) (src : Who) (op : ReqOp) (va : Word) (p : Option Page) (pa : Nat) (dest : Dest)
    (acq : Bool) : State := s.sendAs s.die src op va p pa dest acq

/-- What an agent finds when it asks for something: it has it, it waits, or it faults. -/
inductive Got (α : Type) where
  | ok (a : α)
  | wait (c : Cause)
  | fault (code : Nat) (addr : Word)
  deriving DecidableEq, Repr

/-- n bytes at an address of another module, asked for by the head unit once and kept (R318). -/
def State.farRead (s : State) (va : Word) (p : Page) (n : Nat) : State × Got (List Byte) :=
  match s.core.far.find? fun f => f.va == va && f.n == n with
  | some f => match f.ans with
    | some bs => (s, if f.bad then .fault Code.machine va else .ok bs)
    | none => (s, .wait .memory)
  | none =>
    let t := s.send s.self (.load n) va (some p) (p.pa (va56 va)) .far false
    (t.setCore { t.core with far := { va := va, n := n, id := s.sys.nextId, ans := none, bad := false } :: t.core.far }, .wait .memory)

/-- The answer to such a request. -/
def State.farAnswer (s : State) (id : Nat) (bs : List Byte) (bad : Bool) : State :=
  s.setCore { s.core with far := s.core.far.map fun f => if f.id = id then { f with ans := some bs, bad := bad } else f }

/-- R258, R395: global accesses of the agents of a die are held for renormalisation. -/
def State.dieHeld (s : State) (d : Nat) (write : Bool) : Bool :=
  s.sys.hold || (write && decide (2 ^ 40 - 2 ^ 20 ≤ (Sparse.get s.sys.vc (33 * d)).toNat))

/-- The same for the cell's die. -/
def State.trafficHeld (s : State) (write : Bool) : Bool := s.dieHeld s.die write

/-- The wait for traffic to be released. -/
def trafficOpen (s : State) (write : Bool) : Verdict := await (!s.trafficHeld write) .memory

/-- The other module that accesses of a page go to: that of its window, or, of a write, of its receiver (R111, R318). -/
def State.toward (s : State) (p : Page) (write : Bool) : Option Nat :=
  if !write || p.coll = 0 then s.remote (some p) else if p.tdev = s.devid then none else some p.tdev

/-- Made by the modelled cell: by itself, or by one of its engines in a hub's name (R257, R347). -/
def Req.mine (r : Req) : Bool :=
  match r.origin with
  | .own => true
  | .hub _ => decide (r.queue < 13)
  | _ => false

/-- Remote requests of the cell that are outstanding for a target device and class (R355). -/
def State.outstanding (s : State) (dev cls : Nat) : Nat :=
  ((s.fab.out ++ s.sys.held.map Held.req).filter fun r => r.mine && r.dev == some dev && r.cls == cls).length

/-- n more requests for a page stay within the 256 that may be outstanding for its target and class (R355). -/
def State.farRoom (s : State) (p : Page) (write : Bool) (n : Nat) : Bool :=
  match s.toward p write with
  | some d => decide (s.outstanding d p.cls + n ≤ 256)
  | none => true

/-- The same wait, and that for room among the remote requests of the pages of an access, of which each makes `n` (R258,
R355). -/
def pagesOpen (s : State) (write : Bool) (sps : List Span) (n : Span → Nat) : Verdict :=
  await (!s.trafficHeld write && sps.all fun sp => s.farRoom sp.page write (n sp)) .memory

/-- One request for each page. -/
def oneEach : Span → Nat := fun _ => 1

/-! ### Acquire and release (R259, R126) -/

def ordOrder (od : Option Ord) : Nat := (od.map fun o => o.order.toNat).getD 0
def ordScope (od : Option Ord) : Nat := (od.map fun o => o.scope.toNat).getD 0
def isAcquire (od : Option Ord) : Bool := decide (ordOrder od = 1) || decide (ordOrder od = 3)
def isRelease (od : Option Ord) : Bool := decide (ordOrder od = 2) || decide (ordOrder od = 3)

/-- Accesses of the cell that have not been performed. -/
def State.ownReqs (s : State) : List Req := (s.sys.reqs ++ s.fab.out ++ s.coll.outHeld).filter Req.mine

/-- Those of the control core, and the answers on their way to it. -/
def State.coreReqs (s : State) : List Req := s.ownReqs.filter fun r => r.queue == 15

def State.coreReplies (s : State) : List Reply := s.sys.replies.filter fun r => r.queue == 15

/-- A later access waits while an acquire has not landed (R259). -/
def acquireWait (s : State) : Verdict :=
  let rows := s.core.posted.filterMap Posted.row
  await (decide (s.core.acqUntil ≤ s.clk) && !(s.coreReqs.any Req.acq || (s.coreReplies ++ rows).any Reply.acq)) .orderWait

/-- Every store-space access that the core issued before a clk has been performed. -/
def State.storesDone (s : State) (clk : Nat) : Bool :=
  s.core.inflight.all (fun l => l.arrive == 0 || decide (l.arrive < s.clk) || decide (clk ≤ l.issued)) &&
    s.core.posted.all fun p => decide (clk ≤ p.clk)

/-- Every global load of the cell numbered below n has landed. -/
def State.loadsDone (s : State) (n : Nat) : Bool :=
  s.coreReplies.all (fun r => decide (n ≤ r.id)) && s.coreReqs.all fun r => !r.op.reads || decide (n ≤ r.id)

/-- Every access of the cell issued before a clk or numbered below n has been performed at its home, those of its engines
included, and its loads have landed (R126, R209). -/
def State.allDone (s : State) (clk n : Nat) : Bool :=
  s.storesDone clk && s.loadsDone n && s.ownReqs.all fun r => decide (n ≤ r.id)

/-- What a release in a scope waits for, of the accesses before a clk and below a number (R259). -/
def State.releasedAt (s : State) (scope clk n : Nat) : Bool :=
  if scope = 0 then s.storesDone clk else if scope < 4 then s.storesDone clk && s.loadsDone n else s.allDone clk n

/-- The same for an access that issues now. -/
def State.released (s : State) (scope : Nat) : Bool := s.releasedAt scope s.clk s.sys.nextId

/-- The wait of a release order (R259). -/
def releaseWait (s : State) (od : Option Ord) : Verdict :=
  if isRelease od then await (s.released (ordScope od)) .orderWait else .pass

/-- What release fences wait for has been performed (R259). -/
def State.fencesOpen (s : State) : Bool := s.core.relFences.all fun f => s.releasedAt f.scope f.clk f.id

/-- The waits of a write: for earlier release fences, and for its own release order (R259). -/
def writeWait (s : State) (od : Option Ord) : Verdict :=
  if s.fencesOpen then releaseWait s od else .wait .orderWait

/-! ### Checks of R103 -/

/-- The checks of a unit of this chapter in the order of R103: ABSENT and PRIVILEGE (`pre`), EMPTYREAD and waits, that for
an earlier acquire last of them (rows 9 to 11 of R195), steps 3 to 6, LATENCY (R194), the unit's own. -/
def memChecks (s : State) (pre : List Verdict) (srcs : List Source) (dst : List Nat) (steps own : List Verdict) :
    List Verdict :=
  let all := (srcs.map Prod.fst).flatten
  pre ++ srcs.map (emptyReadTrap s) ++
  [awaitFull s (all ++ dst), if s.latmode then .pass else lateRead s all, lateWrite s dst, acquireWait s] ++ steps ++
  [lateRead s all] ++ own

/-- The checks of a VLD or VST with k = 0, which makes no access and traps in step 1 of R103 only: its base register is
waited for (R110). -/
def idleChecks (s : State) (srcs : List Source) (dst : List Nat) : List Verdict :=
  let all := (srcs.map Prod.fst).flatten ++ dst
  [awaitFull s all, lateWrite s all]

/-- Alignment, naming the address (R106). -/
def aligned (a : Word) (n : Nat) : Verdict := if a.toNat % n = 0 then .pass else addrTrap Code.align a

/-! ### The register-space window (R321) -/

/-- The cell is the modelled one, or a usable cell of a die present (R321, R388). -/
def State.cellUsable (s : State) (c : Nat) : Bool :=
  decide (c = s.gcell) ||
    (decide (c / 64 < 24) && s.diePresent (c / 64) && (mapOf s.mgr.cellmap (c / 64)).getLsbD (c % 64))

/-- Bank b of a cell is bound to the matrix slot; other cells' bindings are inputs (log 1). -/
def State.bankBound (s : State) (cell b : Nat) : Bool :=
  if cell = s.gcell then s.matrixBank b
  else (BitVec.ofNat 12 (((s.inp.binds.find? fun p => p.1 == cell).map Prod.snd).getD 0xF00)).getLsbD b

/-- The checks of a window access at issue, on the byte ranges it uses; the binding of a bank is checked at the home (R48,
R321). Check bits of the cell's own words are checked before the access leaves (R53, R385). -/
def windowChecks (s : State) (va : Word) (write : Bool) (used : List (Nat × Nat)) : List Verdict :=
  let bad := used.find? fun u =>
    let a := va + BitVec.ofNat 64 u.1
    !s.system || decide (0x30000 < windowByte a + u.2) || !s.cellUsable (windowCell a)
  let words := (used.map fun u => (List.range (u.2 / 4)).map fun i => va + BitVec.ofNat 64 (u.1 + 4 * i)).flatten
  let own := (words.filter fun a => decide (windowCell a = s.gcell)).map windowByte
  [match bad with
    | some u => addrTrap Code.protect (va + BitVec.ofNat 64 u.1)
    | none => .pass,
   if write then .pass else secded s own]

/-- A window byte's place among the physical addresses: cell c's byte b at 2^52 + 0x40000 c + b; other cells' bytes lie in
`mem` (R252, R321, log 1). -/
def windowPa (va : Word) : Nat := windowSpace + (va.toNat - windowBase)

/-- The modelled cell's register space holds the byte. -/
def State.ownWindow (s : State) (pa : Nat) : Bool := decide (windowSpace ≤ pa) && decide ((pa - windowSpace) / 0x40000 = s.gcell)

/-- Offset in its cell's register space. -/
def windowOff (pa : Nat) : Nat := (pa - windowSpace) % 0x40000

/-- Bytes of the modelled cell's register space. -/
def State.rspBytes (s : State) (off n : Nat) : List Byte :=
  (((Sparse.getRun s.cell.rsp (off / 4) ((off + n + 3) / 4 - off / 4)).map fun w => bytesOfNum 4 w.toNat).flatten.drop
    (off % 4)).take n

/-! ### Watchpoints on the cell's own stores (R369, R370) -/

/-- Watchpoint i is armed; its range and mask. -/
def State.wpArmed (s : State) (i : Nat) : Bool := (s.readCsr (0x0D1 + 2 * i)).getLsbD 16
def State.wpAddr (s : State) (i : Nat) : Nat := Word.bits (s.readCsr (0x0D0 + 2 * i)) 4 52 * 16
def State.wpMask (s : State) (i : Nat) : BitVec 16 := BitVec.ofNat 16 (Word.bits (s.readCsr (0x0D1 + 2 * i)) 0 16)

/-- The bytes of a 16-byte range at `base` that a list of (address, length) writes. -/
def writtenMask (base : Nat) (ranges : List (Nat × Nat)) : BitVec 16 :=
  BitVec.ofNat 16 ((List.range 16).foldl (fun m b =>
    m + (if ranges.any (fun r => decide (r.1 ≤ base + b) && decide (base + b < r.1 + r.2)) then 2 ^ b else 0)) 0)

/-- Least set bit of a 16-bit mask. -/
def lowest16 (m : BitVec 16) : Nat := ((List.range 16).find? m.getLsbD).getD 0

/-- A store of the watching cell that matches a watchpoint traps precisely (R370). -/
def watchCheck (s : State) (ranges : List (Nat × Nat)) : Verdict :=
  let hit := (List.range 4).find? fun i => s.wpArmed i && (writtenMask (s.wpAddr i) ranges &&& s.wpMask i) != 0
  match hit with
  | some i =>
    let m := writtenMask (s.wpAddr i) ranges &&& s.wpMask i
    .trap { code := Code.watch, addr := canon (s.wpAddr i + lowest16 m), info0 := m.zeroExtend 64 }
  | none => .pass

/-! ### Translation outside the head unit: engines, records, hub units -/

/-- The page of an address, if it is cached for the access (R323). -/
def State.cachedFor (s : State) (va : Word) (acc : Access) : Option Page :=
  match s.cached va with
  | some p => if acc.writes && !p.w0.getLsbD 7 then none else some p
  | none => none

/-- The page of an address, walked at once if it is not cached (R323, R324, R326). -/
def State.reach (s : State) (va : Word) (acc : Access) (system : Bool) : State × Except Nat Page :=
  if !canonical va then (s, .error Code.translate)
  else
    match s.cachedFor va acc with
    | some p => (s, if permitted p.w0 acc system s.ux then .ok p else .error Code.protect)
    | none =>
      match s.walk va acc system with
      | (t, some (c, _)) => (t, .error c)
      | (t, none) =>
        match t.cachedFor va acc with
        | some p => (t, .ok p)
        | none => (t, .error Code.translate)

/-! ### Errors in memory (R383, R390) -/

/-- Lines of 64 bytes in ranges. -/
def linesOf (rs : List (Nat × Nat)) : List Nat :=
  ((rs.filter fun r => decide (0 < r.2)).map fun r =>
    (List.range ((r.1 + r.2 - 1) / 64 - r.1 / 64 + 1)).map fun j => r.1 / 64 + j).flatten.eraseDups

def State.lineErr (s : State) (line : Nat) : Nat := (Sparse.get s.mgr.memErr line).toNat

/-- The ranges are read: correctable lines are corrected and written back, uncorrectable ones counted, each at its home;
true where one is uncorrectable (R383, R390). -/
def State.readLines (s : State) (rs : List (Nat × Nat)) : State × Bool :=
  let ls := linesOf rs
  let fix := ls.filter fun l => s.lineErr l == 1
  let bad := ls.filter fun l => decide (1 < s.lineErr l)
  if fix.isEmpty && bad.isEmpty then (s, false)
  else
    let s1 : State := { s with mgr := { s.mgr with memErr := s.mgr.memErr.filter fun e => !fix.contains e.1 } }
    let s2 := fix.foldl (fun t l => t.countErrors (homeOf (64 * l)) 1 0) s1
    (bad.foldl (fun t l => t.countErrors (homeOf (64 * l)) 0 1) s2, !bad.isEmpty)

/-! ### Trace records (R365-R367) -/

/-- The fields of TRCTL (R365). -/
def State.trace (s : State) (b : Nat) : Bool := (s.readCsr 0x0C0).getLsbD b

/-- A record that is not written is counted (R365). -/
def State.traceLost (s : State) : State := s.setCsr 0x0C4 (s.readCsr 0x0C4 + 1)

/-- One slot of 16 bytes of a record, sent to its home; the record fails where its page does (R367). -/
def State.traceSlot (s : State) (va : Word) (ws : List Word) : State × Bool :=
  match s.reach va .write s.system with
  | (t, .error _) => (t, false)
  | (t, .ok p) =>
    let pa := p.pa (va56 va)
    (t.send t.self (.store (bytesAt pa 8 (ws[0]?.getD 0).toNat ++ bytesAt (pa + 8) 8 (ws[1]?.getD 0).toNat))
      va (some p) pa .none false, true)

/-- The slots of a record from an offset of the area on. -/
def State.traceSlots (s : State) (at' : Nat) : List (List Word) → State × Bool
  | [] => (s, true)
  | ws :: r =>
    let va := canon (Word.bits (s.readCsr 0x0C1) 6 50 * 64 + at')
    match s.traceSlot va ws with
    | (t, true) => State.traceSlots t (at' + 16) r
    | (t, false) => (t, false)

/-- Pairs of words. -/
def pairs : List Word → List (List Word)
  | a :: b :: r => [a, b] :: pairs r
  | [a] => [[a, 0]]
  | [] => []

/-- A record written at TRHEAD (R367): a full area wraps, or the record is lost; a CAPTURE halts instead (R367, R374).
A failed write counts the record, sets FAULT and clears EN. -/
def State.record (s : State) (ws : List Word) (capture : Bool) : State :=
  if !s.trace 0 then s else
  let len := Word.bits (s.readCsr 0x0C2) 6 34 * 64
  let head := Word.bits (s.readCsr 0x0C3) 4 36 * 16
  let size := 8 * ws.length
  let full := decide (len < head + size)
  if full && (!s.trace 1 || decide (len < size)) then
    if capture then { s with inp := { s.inp with halt := true } } else s.traceLost
  else
    let at' := if full then 0 else head
    match s.traceSlots at' (pairs ws) with
    | (t, true) => t.setCsr 0x0C3 (BitVec.ofNat 64 (at' + size))
    | (_, false) => s.traceLost.setCsr 0x0C0 (Word.setBits (s.readCsr 0x0C0 ||| 0x20) 0 1 0)

/-- The first two words of a record (R366). -/
def State.recordHead (s : State) (type : Nat) (src : Who) : List Word :=
  [BitVec.ofNat 64 (Word.bits src.pc 0 56),
   BitVec.ofNat 64 (src.seq % 2 ^ 32 + 2 ^ 32 * src.queue + 2 ^ 36 * s.gcell + 2 ^ 59 * type)]

/-- A record of 32 bytes. -/
def State.emit (s : State) (type : Nat) (src : Who) (w2 w3 : Word) : State :=
  s.record (s.recordHead type src ++ [w2, w3]) false

/-- Words of bytes, eight at a time. -/
def wordsOfBytes (n : Nat) (bs : List Byte) : List Word :=
  (List.range n).map fun i => BitVec.ofNat 64 (numOfBytes ((bs.drop (8 * i)).take 8))

/-- A CAPTURE record of data that lands from outside (R366, R376); `dest` is coded as in R194. -/
def State.capture (s : State) (src : Who) (dest : Nat) (bs : List Byte) : State :=
  if s.trace 3 then
    s.record (s.recordHead 5 src ++ [BitVec.ofNat 64 (bs.length + 2 ^ 16 * dest), s.acct.elapsed] ++
      wordsOfBytes ((bs.length + 15) / 16 * 2) bs) true
  else s

/-- Code of a destination (R194); 0x7_FFFF names none. -/
def Dest.code : Dest → Nat
  | .reg r => gLoc r
  | .vec off _ => off
  | .none => gLoc 0
  | _ => 0x7FFFF

/-! ### Replay (R377) -/

/-- n bytes of the trace area from an offset on, within one 16-byte-aligned piece of a page; a page of another module is asked
(R318). -/
def State.traceRead (s : State) (at' n : Nat) : State × Got (List Byte) :=
  let va := canon (Word.bits (s.readCsr 0x0C1) 6 50 * 64 + at')
  if Word.bits (s.readCsr 0x0C2) 6 34 * 64 < at' + n then (s, .fault 0 va)
  else match s.reach va .read s.system with
    | (t, .ok p) =>
      if (t.remote (some p)).isSome then t.farRead va p n else (t, .ok (t.bytes (p.pa (va56 va)) n))
    | (t, .error c) => (t, .fault c va)

/-- The slots of 16 bytes from an offset on. -/
def State.traceReads (s : State) (at' : Nat) : Nat → State × Got (List Byte)
  | 0 => (s, .ok [])
  | k + 1 =>
    match s.traceRead at' 16 with
    | (t, .ok bs) =>
      match State.traceReads t (at' + 16) k with
      | (u, .ok cs) => (u, .ok (bs ++ cs))
      | r => r
    | r => r

/-- The next CAPTURE record from TRHEAD: its offset, size in the area, data length, destination and data. -/
def State.nextCapture (s : State) (at' : Nat) : Nat → State × Got (Nat × Nat × Nat × Nat × List Byte)
  | 0 => (s, .fault 0 0)
  | fuel + 1 =>
    match s.traceReads at' 2 with
    | (t, .wait c) => (t, .wait c)
    | (t, .fault c a) => (t, .fault c a)
    | (t, .ok bs) =>
      let w1 : Word := BitVec.ofNat 64 (numOfBytes ((bs.drop 8).take 8))
      let w2 : Word := BitVec.ofNat 64 (numOfBytes ((bs.drop 16).take 8))
      match Word.bits w1 59 5 with
      | 5 =>
        let n := Word.bits w2 0 16
        match t.traceReads (at' + 32) ((n + 15) / 16) with
        | (u, .ok d) => (u, .ok (at', 32 + (n + 15) / 16 * 16, n, Word.bits w2 16 19, d.take n))
        | (u, .wait c) => (u, .wait c)
        | (u, .fault c a) => (u, .fault c a)
      | 0 => t.nextCapture (at' + 16) fuel
      | _ => t.nextCapture (at' + 32) fuel

/-- R377: the data of the next CAPTURE record, if its destination and size are the unit's, with TRHEAD past it; none while
the record is asked of another module. Otherwise the troupe is halted with TRHEAD at the record. -/
def State.replay (s : State) (dest n : Nat) : State × Option (List Byte) :=
  let head := Word.bits (s.readCsr 0x0C3) 4 36 * 16
  let stop := fun (h : Nat) =>
    (({ s with inp := { s.inp with halt := true } } : State).setCsr 0x0C3 (BitVec.ofNat 64 h), none)
  match s.nextCapture head 4096 with
  | (t, .wait _) => (t, none)
  | (_, .fault _ _) => stop head
  | (_, .ok (at', size, m, d, bs)) =>
    if m = n && d = dest then (s.setCsr 0x0C3 (BitVec.ofNat 64 (at' + size)), some bs) else stop at'

/-- REPLAY is on (R377). -/
def State.replaying (s : State) : Bool := s.trace 4

/-- Lanes of bytes. -/
def lanesOfBytes (n : Nat) (bs : List Byte) : List Lane :=
  (List.range n).map fun i => BitVec.ofNat 32 (numOfBytes ((bs.drop (4 * i)).take 4))

/-- A reply that a replayed unit receives in place of a memory access. -/
def State.replyBytes (s : State) (dest : Dest) (bs : List Byte) : State :=
  let lanes := lanesOfBytes 64 bs
  let r : Reply :=
    { id := 0, dest := dest, size := 0, val := BitVec.ofNat 64 (numOfBytes bs), lanes := lanes, clock := [], bad := false, addr := 0,
      queue := 15, seq := 0, acq := false, row := none }
  { s with sys := { s.sys with replies := s.sys.replies ++ [r] } }

/-- Marks the destination words of a long-latency result empty (R50). -/
def State.emptyDest (s : State) : Dest → State
  | .reg r => s.emptyReg r
  | .vec off lanes => s.emptyLanes off lanes
  | _ => s

/-- A unit whose value comes from outside the cell: under replay it takes the next CAPTURE record, with `pre` its
other checks, or halts; otherwise it makes its access. -/
def settleReplay (i : Instr) (s : State) (pre checks : List Verdict) (dest : Dest) (n : Nat) (base effect : State) :
    Out :=
  if s.replaying then
    match firstOf (legal i :: pre) with
    | .pass =>
      match s.replay dest.code n with
      | (t, some bs) =>
        let moved : State := { base with csr := t.csr }
        .next (((moved.emptyDest dest).replyBytes dest bs).goto i (nextPc i s.core.pc))
      | (t, none) => .next (t.hold i .memory)
    | v => .next (s.blocked i v)
  else settle i s checks effect

end Sys2Proof.Machine
end

