-- ==== Sys2Proof/Machine/MemIns.lean ====
section
/-!
DEFINITION. Loads, stores and operand-queue loads (R108-R112), atomics and CAS (R113-R115), vat instructions
(R116-R119) and route counters (R120): majors 0x1E-0x2B.
-/

namespace Sys2Proof.Machine

/-- The bounds check of a store space: PROTECT at the first byte beyond it (R103, R105). -/
def storeCheck (st : Nat) (va : Word) (n : Nat) : Verdict :=
  if storeBounds st va n then .pass
  else addrTrap Code.protect (BitVec.ofNat 64 (max va.toNat (storeSize st)))

/-- Formats that plain scalar accesses, atomics and contributions need (R109, R113, R273); OP = 3 traps (R274). -/
def plainFormat (p : Page) (fmts : List Nat) (va : Word) : Verdict :=
  if fmts.contains p.fmt && p.coll != 3 then .pass else addrTrap Code.format va

/-- A check on the pages of an access. -/
def onPages (sps : List Span) (f : Page → Verdict) : List Verdict := sps.map fun sp => f sp.page

/-- The words of a contribution, from bytes (R273). -/
def State.contrib (s : State) (p : Page) (va : Nat) (ws : List Lane) : Contrib :=
  { cidx := p.cidx, dev := s.devid, cell := s.gcell, off := p.poff * p.size + (va - p.base), words := ws,
    chunk := false, epoch := none, add := decide (p.coll = 2), tdev := p.tdev, tcell := p.tcell, clock := [] }

/-- Sends a contribution toward its receiver: the home is the receiving cell's die, or another module (R111, R257). -/
def State.sendContrib (s : State) (src : Who) (va : Word) (p : Page) (c : Contrib) : State :=
  let away := decide (p.tdev ≠ s.devid)
  let q : Page := { p with w0 := if away then p.w0 ||| ((1 : Word) <<< 54) else p.w0 }
  s.send src (.contrib c) va (some q) (c.tcell / 64 * 2 ^ 37) .none false

/-- Sends bytes to a page: a plain write, or a contribution on a collective page (R111). -/
def State.sendStore (s : State) (src : Who) (va : Word) (p : Page) (bs : List Byte) : State :=
  let pa := p.pa (va56 va)
  if p.coll = 0 then
    s.send src (.store (bs.zipIdx.map fun b => (pa + b.2, b.1))) va (some p) pa .none false
  else
    s.sendContrib src va p (s.contrib p (va56 va) (lanesOfBytes (bs.length / 4) bs))

/-! ### LD, LDW, ST, STW (R108) -/

/-- Scale of a scalar access of n bytes. -/
def scalarScale (n : Nat) : Scale := if n = 8 then .b8 else .b4

/-- The unit's access to the register-space window is over. -/
def State.windowOver (s : State) : State := s.setCore { s.core with win := .none }

/-- The request of a window access, to the cell whose register space it names (R252, R321). -/
def State.sendWindow (s : State) (op : ReqOp) (va : Word) (acq : Bool) : State :=
  let t := s.send s.self op va none (windowPa va) .win acq
  t.setCore { t.core with win := .sent }

/-- A unit that accesses the register-space window: its first clk sends the access, it waits at the head, charged to
MEMORY, and completes with the home's answer (R321). -/
def execWindow (i : Instr) (s : State) (checks : List Verdict) (op : ReqOp) (va : Word) (acq : Bool)
    (finish : List Byte → List Lane → State → State) : Out :=
  match s.core.win with
  | .done bs ls => settle i s [] ((finish bs ls s).windowOver)
  | .refused c a => .next (s.windowOver.blocked i (addrTrap c a))
  | .sent => .next (s.hold i .memory)
  | .none =>
    match firstOf (legal i :: checks) with
    | .pass => .next ((s.sendWindow op va acq).hold i .memory)
    | v => .next (s.blocked i v)

/-- Bytes written at a window address. -/
def windowBytes (va : Word) (bs : List Byte) : List (Nat × Byte) := bs.zipIdx.map fun b => (windowPa va + b.2, b.1)

/-- A scalar load of n bytes. -/
def execLoad (i : Instr) (n : Nat) (d : BitVec 5) (m : MemArg) (od : Option Ord) (s : State) : Out :=
  let va := s.address m (scalarScale n)
  let s1 := s.updateBase m (scalarScale n)
  let srcs : List Source := [((MemArg.sources m).map gLoc, false)]
  let dst := gLoc d.toNat :: (MemArg.dests m).map gLoc
  let dest : Dest := if d = 0 then .none else .reg d.toNat
  if m.sp ≠ 3 then
    let st := m.sp.toNat
    settle i s (memChecks s [] srcs dst [aligned va n, storeCheck st va n]
        [storeSecded s.coreView st va.toNat n])
      (s1.storeLoad 6 st va.toNat n
        (.reg d.toNat (BitVec.ofNat 64 (numOfBytes (s.coreView.storeBytes st va.toNat n)))) true (isAcquire od))
  else if inWindow va then
    execWindow i s (memChecks s [] srcs dst (aligned va n :: windowChecks s va false [(0, n)]) [trafficOpen s false])
      (.load n) va (isAcquire od)
      fun bs _ t => (t.updateBase m (scalarScale n)).result 1 d.toNat (BitVec.ofNat 64 (numOfBytes bs))
  else
    let x := s.spans va .read n useAll
    settleReplay i s (memChecks s [] srcs dst [aligned va n] [])
      (memChecks s [] srcs dst
        ([aligned va n, x.1, spansPermitted va useAll x.2] ++ onPages x.2 (fun p => plainFormat p [0, 3] va))
        [pagesOpen s false x.2 oneEach])
      dest n s1
      ((x.2.foldl (fun t sp => t.send s.self (.load n) (sp.va va) (some sp.page) (sp.pa va) dest (isAcquire od)) s1).emptyDest dest)

/-- A scalar store of n bytes. -/
def execStore (i : Instr) (n : Nat) (d : BitVec 5) (m : MemArg) (od : Option Ord) (s : State) : Out :=
  let va := s.address m (scalarScale n)
  let s1 := s.updateBase m (scalarScale n)
  let srcs : List Source := [((MemArg.sources m).map gLoc, false), ([gLoc d.toNat], false)]
  let dst := (MemArg.dests m).map gLoc
  let bs := bytesOfNum n (s.g d.toNat).toNat
  if m.sp ≠ 3 then
    let st := m.sp.toNat
    settle i s (memChecks s [] srcs dst [aligned va n, storeCheck st va n] [writeWait s od])
      (s1.corePut st [(va.toNat, bs)] n)
  else if inWindow va then
    execWindow i s
      (memChecks s [] srcs dst (aligned va n :: windowChecks s va true [(0, n)])
        [watchCheck s [(va56 va, n)], writeWait s od, trafficOpen s true])
      (.store (windowBytes va bs)) va false fun _ _ t => t.updateBase m (scalarScale n)
  else
    let x := s.spans va .write n useAll
    settle i s
      (memChecks s [] srcs dst
        ([aligned va n, x.1, spansPermitted va useAll x.2] ++ onPages x.2 (fun p => plainFormat p [0, 3] va))
        [watchCheck s [(va56 va, n)], writeWait s od, pagesOpen s true x.2 oneEach])
      (x.2.foldl (fun t sp => t.sendStore s.self va sp.page bs) s1)

/-- LD (R108). -/
def execLd (d : BitVec 5) (m : MemArg) (od : Option Ord) (s : State) : Out := execLoad (.ld d m od) 8 d m od s

/-- LDW (R108). -/
def execLdw (d : BitVec 5) (m : MemArg) (od : Option Ord) (s : State) : Out := execLoad (.ldw d m od) 4 d m od s

/-- ST (R108). -/
def execSt (d : BitVec 5) (m : MemArg) (od : Option Ord) (s : State) : Out := execStore (.st d m od) 8 d m od s

/-- STW (R108). -/
def execStw (d : BitVec 5) (m : MemArg) (od : Option Ord) (s : State) : Out := execStore (.stw d m od) 4 d m od s

/-! ### VLD and VST (R109, R110) -/

/-- The vector register of VLD and VST: off[8]:rd (R62). -/
def vecNumber (d : BitVec 5) (m : MemArg) : Nat := d.toNat + 32 * bit (m.off.getLsbD 8)

/-- Footprint of 64 elements on a page of a format (R109). -/
def vecBytes (fmt : Nat) : Nat := if fmt = 0 then 256 else if fmt = 11 then 16 else 64 * fmtWidth fmt / 8

/-- First byte and length of lane l's element in the footprint; of a LAT2 page, its index (R110). -/
def elemBytes (fmt l : Nat) : Nat × Nat :=
  if fmt = 0 then (4 * l, 4) else if fmt = 11 then (2 * (l / 8), 2)
  else
    let w := fmtWidth fmt
    (w * l / 8, (w * l + w - 1) / 8 - w * l / 8 + 1)

/-- An enabled lane's element lies in the part of the footprint. -/
def lanesIn (k : Word) (fmt off len : Nat) : Bool :=
  (List.range 64).any fun l =>
    let e := elemBytes fmt l
    k.getLsbD l && decide (e.1 < off + len) && decide (off < e.1 + e.2)

/-- The enabled lanes whose elements begin in the part of the footprint. -/
def lanesOfSpan (k : Word) (fmt : Nat) (sp : Span) : Word :=
  BitVec.ofNat 64 ((List.range 64).foldl (fun n l =>
    let e := elemBytes fmt l
    n + (if k.getLsbD l && decide (sp.off ≤ e.1) && decide (e.1 < sp.off + sp.len) then 2 ^ l else 0)) 0)

/-- The format of the page that holds the access address (R110). -/
def State.firstPage (s : State) (va : Word) (acc : Access) : Option Page :=
  match s.xlate va acc with
  | .hit p _ => some p
  | _ => none

/-- Blocks that a span touches, with the offset of each in the footprint (R22, R23). -/
def Span.blocks (sp : Span) (va : Word) : List (Nat × Block) :=
  let bb := blockBytes sp.page.fmt sp.page.geo
  let first := (va56 (va + BitVec.ofNat 64 sp.off) - sp.page.base) / bb
  (List.range (sp.len / bb)).map fun j => (sp.off + j * bb, sp.page.block (first + j))

/-- The format checks of narrow pages on the pages translated: reserved geometry, start of a block, tail bytes,
uniform attributes (R16, R22, R23, R106, R109). A second page that differs is named by its first address, and a page's tail
traps whatever lanes are enabled (DESIGN CHOICE, log 23). -/
def narrowChecks (va : Word) (p : Page) (sps : List Span) : List Verdict :=
  let bb := blockBytes p.fmt p.geo
  [if fmtOk p.fmt p.geo && (va56 va - p.base) % bb = 0 then .pass else addrTrap Code.format va] ++
  sps.map (fun sp =>
    if sp.page.fmt = p.fmt && sp.page.geo = p.geo && sp.page.lslot = p.lslot then .pass
    else addrTrap Code.format (va + BitVec.ofNat 64 sp.off)) ++
  sps.map (fun sp =>
    if sp.len % bb = 0 then .pass
    else addrTrap Code.format (va + BitVec.ofNat 64 (sp.off + sp.len / bb * bb)))

/-- The scale-stream slots of the blocks touched are read and checked at their homes before issue completes (R109); one in
absent memory is left to the home of its block, which refuses the access (R312, R329). -/
def slotChecks (s : State) (va : Word) (write : Bool) (bs : List (Nat × Block)) : List Verdict :=
  (if bs.isEmpty || s.readOpen s.core.readClk then .pass else .read) ::
  bs.map fun b =>
    let at' := va + BitVec.ofNat 64 b.1
    if !(s.presentPa b.2.slot && s.presentPa (b.2.slot + 95)) then .pass
    else if s.badLine b.2.slot || s.badLine (b.2.slot + 95) then addrTrap Code.machine at'
    else if (decodeSlot (s.bytes b.2.slot 96) (if write then b.2.group else b.2.blk + 1)).isNone
    then addrTrap Code.format at' else .pass

/-- Formats 0-3 on every page translated, alike (R109); OP = 3 and a formatted collective page trap on a write
(R273, R274). The trap names the first address of the page (DESIGN CHOICE, log 23). -/
def wideChecks (va : Word) (p : Page) (sps : List Span) (write : Bool) : List Verdict :=
  sps.map fun sp =>
    let q := sp.page
    if q.fmt = p.fmt && fmtOk q.fmt q.geo && q.coll != 3 && !(write && q.coll != 0 && !(q.fmt = 0 || q.fmt = 3))
    then .pass else addrTrap Code.format (va + BitVec.ofNat 64 sp.off)

/-- What a vector access to pages needs before it issues: steps 3 to 6 of R103, its spans, and the slots it has read. -/
structure VecSteps where
  steps : List Verdict
  spans : List Span
  slots : List Nat

/-- Steps 3 to 6 of R103 for a vector access to pages (R106, R109, R110); VLD and OQLD of a LAT2 page trap with ABSENT on a
part without LAT2 (R396). A format with no footprint takes one byte. -/
def vecSteps (s : State) (va : Word) (acc : Access) (k : Word) (foot : Nat → Nat) (used : Nat → Nat → Nat → Bool) :
    VecSteps :=
  match s.firstPage va acc with
  | none => { steps := [(s.spans va acc 1 useAll).1], spans := [], slots := [] }
  | some p =>
    let x := s.spans va acc (max 1 (foot p.fmt)) (used p.fmt)
    let fmtBad := decide (11 < p.fmt) || (acc.writes && p.fmt == 11) ||
      (acc.writes && isNarrow p.fmt && k != BitVec.allOnes 64)
    let bs := if p.fmt < 4 then [] else
      (x.2.map fun sp => sp.blocks va).flatten.filter fun b => used p.fmt b.1 (blockBytes p.fmt p.geo)
    { steps := [if p.fmt < 4 then aligned va 64 else .pass, x.1, spansPermitted va (used p.fmt) x.2,
        if p.fmt = 11 && !s.hasLat2 && !acc.writes then trapWith Code.absent else .pass,
        if fmtBad then addrTrap Code.format va else .pass] ++
        (if p.fmt < 4 then wideChecks va p x.2 acc.writes else narrowChecks va p x.2 ++ slotChecks s va acc.writes bs)
      spans := x.2, slots := bs.map fun b => b.2.slot }

/-- The request of a VLD for one span (R109). -/
def vldOp (va : Word) (k : Word) (sp : Span) : ReqOp :=
  let p := sp.page
  if isNarrow p.fmt then
    .bload ((sp.blocks va).map fun b => (b.1 / blockBytes p.fmt p.geo * blockElems p.geo, b.2))
  else
    .vload p.fmt (((List.range 64).filter (lanesOfSpan k p.fmt sp).getLsbD).map fun l =>
      (l, sp.pa va + ((elemBytes p.fmt l).1 - sp.off)))

/-- VLD (R108-R110). -/
def execVld (d : BitVec 5) (m : MemArg) (od : Option Ord) (s : State) : Out :=
  let i : Instr := .vld d m od
  let va := s.address m .b256
  let k := s.k
  let off := s.vOff (vecNumber d m)
  let locs := s.vLocs (vecNumber d m) k
  let s1 := s.updateBase m .b256
  let srcs : List Source := [((MemArg.sources m).map gLoc, false)]
  let dst := locs ++ (MemArg.dests m).map gLoc
  let lend := lendCheck s locs
  if k = 0 then settle i s (idleChecks s srcs dst) s1
  else if m.sp ≠ 3 then
    let st := m.sp.toNat
    let data := lanesOfBytes 64 (s.coreView.storeBytes st va.toNat 256)
    settle i s (memChecks s [] srcs dst [aligned va 64, storeCheck st va 256]
        [lend, storeSecded s.coreView st va.toNat 256])
      (s1.storeLoad 8 st va.toNat 256 (.vec off k data) false (isAcquire od))
  else if inWindow va then
    let lanes := (List.range 64).filter k.getLsbD
    execWindow i s
      (memChecks s [] srcs dst (aligned va 64 :: windowChecks s va false (lanes.map fun l => (4 * l, 4)))
        [lend, trafficOpen s false])
      (.vload 0 (lanes.map fun l => (l, windowPa va + 4 * l))) va (isAcquire od)
      fun _ ls t => (t.updateBase m .b256).vresult 1 off k ls
  else
    let x := vecSteps s va .read k vecBytes (lanesIn k)
    let dest : Dest := .vec off k
    settleReplay i s (memChecks s [] srcs dst [] [lend])
      (memChecks s [] srcs dst x.steps [lend, pagesOpen s false x.spans oneEach])
      dest 256 s1
      ((x.spans.foldl (fun t sp =>
          let ls := lanesOfSpan k sp.page.fmt sp
          if ls = 0 then t else t.send s.self (vldOp va k sp) (sp.va va) (some sp.page) (sp.pa va) (.vec off ls) (isAcquire od))
        (s1.joinHomes x.slots)).emptyDest dest)

/-- Ranges a VST writes, by virtual address (R370). -/
def vstRanges (va : Word) (k : Word) (fmt : Nat) : List (Nat × Nat) :=
  ((List.range 64).filter k.getLsbD).map fun l =>
    let e := elemBytes fmt l
    (va56 va + e.1, e.2)

/-- The lanes at and after a lane. -/
def lanesFrom (v : List Lane) (l n : Nat) : List Lane := (v.drop l).take n

/-- The writes of a VST on one span (R109, R111): narrow blocks encoded at the home; otherwise the enabled lanes. -/
def State.vstSpan (s : State) (src : Who) (va : Word) (k : Word) (v : List Lane) (sp : Span) : State :=
  let p := sp.page
  let at' := sp.pa va
  if isNarrow p.fmt then
    let bs := sp.blocks va
    let e := blockElems p.geo
    let first := sp.off / blockBytes p.fmt p.geo * e
    s.send src (.encode (bs.map Prod.snd) (lanesFrom v first (e * bs.length)) s.rm) (sp.va va) (some p) at' .none false
  else
    let ls := (List.range 64).filter (lanesOfSpan k p.fmt sp).getLsbD
    if p.coll ≠ 0 then
      ls.foldl (fun t l =>
        let a := va + BitVec.ofNat 64 (4 * l)
        t.sendContrib src a p (t.contrib p (va56 a) [laneOf v l])) s
    else
      let code := fun l =>
        if p.fmt = 1 then Fmt.bf16.encode s.rm false (ofFp32 (laneOf v l))
        else if p.fmt = 2 then Fmt.fp16.encode s.rm false (ofFp32 (laneOf v l))
        else (laneOf v l).toNat
      let bytes := (ls.map fun l =>
        let e := elemBytes p.fmt l
        bytesAt (at' + (e.1 - sp.off)) e.2 (code l)).flatten
      if bytes.isEmpty then s else s.send src (.store bytes) (sp.va va) (some p) at' .none false

/-- Requests that a VST makes for a span: one for each enabled lane on a collective page (R111, R275). -/
def vstRequests (k : Word) (sp : Span) : Nat := if sp.page.coll = 0 then 1 else popCount (lanesOfSpan k sp.page.fmt sp)

/-- VST (R108-R111). -/
def execVst (d : BitVec 5) (m : MemArg) (od : Option Ord) (s : State) : Out :=
  let i : Instr := .vst d m od
  let va := s.address m .b256
  let k := s.k
  let v := s.v (vecNumber d m)
  let locs := s.vLocs (vecNumber d m) k
  let s1 := s.updateBase m .b256
  let srcs : List Source := [((MemArg.sources m).map gLoc, false), (locs, false)]
  let dst := (MemArg.dests m).map gLoc
  let data := secded s locs
  let lanes := (List.range 64).filter k.getLsbD
  if k = 0 then settle i s (idleChecks s srcs dst) s1
  else if m.sp ≠ 3 then
    let st := m.sp.toNat
    settle i s (memChecks s [] srcs dst [aligned va 64, storeCheck st va 256] [data, writeWait s od])
      (s1.corePut st (lanes.map fun l => (va.toNat + 4 * l, bytesOfNum 4 (laneOf v l).toNat)) 256)
  else if inWindow va then
    execWindow i s
      (memChecks s [] srcs dst
        (aligned va 64 :: windowChecks s va true (lanes.map fun l => (4 * l, 4)))
        [data, watchCheck s (vstRanges va k 0), writeWait s od, trafficOpen s true])
      (.store (lanes.map fun l => windowBytes (va + BitVec.ofNat 64 (4 * l)) (bytesOfNum 4 (laneOf v l).toNat)).flatten)
      va false fun _ _ t => t.updateBase m .b256
  else
    let x := vecSteps s va .write k vecBytes (lanesIn k)
    let fmt := ((s.firstPage va .write).map Page.fmt).getD 0
    settle i s
      (memChecks s [] srcs dst x.steps
        [data, watchCheck s (vstRanges va k fmt), writeWait s od, pagesOpen s true x.spans (vstRequests k)])
      (x.spans.foldl (fun t sp => t.vstSpan s.self va k v sp) (s1.joinHomes x.slots))

/-! ### OQLD (R112) -/

/-- Footprint of a row: 128 bytes, or 128 elements of a narrow page (R112). -/
def rowFoot (fmt : Nat) : Nat :=
  if fmt < 4 then 128 else if fmt = 11 then 32 else if fmt < 11 then 128 * fmtWidth fmt / 8 else 0

/-- The next row number of an operand queue: one above every row it holds. -/
def nextRow (q : List OqRow) : Nat := q.foldl (fun n r => max n (r.id + 1)) 0

/-- A row added to an operand queue. -/
def State.addRow (s : State) (q : Nat) (row : OqRow) : State :=
  s.setCell { s.cell with oq := s.cell.oq.setIfInBounds q (s.cell.oq[q]?.getD [] ++ [row]) }

/-- Reserves the next row of an operand queue, which lands in a number of parts (R112). -/
def State.reserveRow (s : State) (q parts fmt geo lslot : Nat) : State :=
  s.addRow q
    { id := nextRow (s.cell.oq[q]?.getD []), parts := parts, off := 0, bytes := [], codes := [], scales := [], fmt := fmt,
      geo := geo, lslot := lslot }

/-- The request of a row for a span: bytes, or blocks (R112). -/
def rowOp (va : Word) (sp : Span) : ReqOp :=
  if isNarrow sp.page.fmt then .rowBlocks ((sp.blocks va).map Prod.snd) else .rowBytes sp.len

/-- Bytes a row carries: its data, and the scale bytes of its blocks (R112). -/
def rowSize (fmt geo : Nat) : Nat := rowFoot fmt + (if isNarrow fmt then 128 / blockElems geo else 0)

/-- n blocks of a narrow row from their bytes and then their scale bytes: element codes (LAT2: indices) and the scale byte of
each element's block. `at'` is the row and their offset in it. -/
def narrowPart (at' : Nat × Nat) (fmt geo lslot n : Nat) (bs : List Byte) : OqRow :=
  let e := n * blockElems geo
  let data := bs.take (n * blockBytes fmt geo)
  let scales := (bs.drop (n * blockBytes fmt geo)).map fun b => List.replicate (blockElems geo) b.toNat
  let codes := if fmt = 11 then unpackCodes 16 (e / 8) data else unpackCodes (fmtWidth fmt) e data
  { id := at'.1, parts := 0, off := at'.2, bytes := data, codes := codes, scales := scales.flatten, fmt := fmt, geo := geo,
    lslot := lslot }

/-- Plain bytes of a row. -/
def rawPart (at' : Nat × Nat) (bs : List Byte) : OqRow :=
  { id := at'.1, parts := 0, off := at'.2, bytes := bs, codes := [], scales := [], fmt := 0, geo := 0, lslot := 0 }

/-- The row of an OQLD from a store: its port is asked for, and the row is on its way once granted (R112, R228). -/
def State.storeRow (s : State) (q st off : Nat) (acq : Bool) : State :=
  let id := nextRow (s.cell.oq[q]?.getD [])
  let r : Reply :=
    { id := s.sys.nextId, dest := .row q id 0, size := 0, val := 0, lanes := [], clock := [], bad := false, addr := 0, queue := 15,
      seq := 0, acq := acq, row := some (rawPart (id, 0) (s.coreView.storeBytes st off 128)) }
  let t := ((s.reserveRow q 1 0 0 0).askPort st [] (some r)).count (9 + st) 2
  { t with sys := { t.sys with nextId := t.sys.nextId + 1 } }

/-- OQLD (R112). A row that crosses pages is one access to each. -/
def execOqld (d : BitVec 5) (m : MemArg) (od : Option Ord) (s : State) : Out :=
  let i : Instr := .oqld d m od
  let va := s.address m .b128
  let q := d.toNat
  let rows := s.cell.oq[q]?.getD []
  let s1 := s.updateBase m .b128
  let srcs : List Source := [((MemArg.sources m).map gLoc, false)]
  let dst := (MemArg.dests m).map gLoc
  let room := await (decide (rows.length < 64)) .queueFull
  if m.sp ≠ 3 then
    let st := m.sp.toNat
    settle i s (memChecks s [] srcs dst [aligned va 64, storeCheck st va 128] (coreRead s st va.toNat 128 ++ [room]))
      (s1.storeRow q st va.toNat (isAcquire od))
  else if inWindow va then
    execWindow i s
      (memChecks s [] srcs dst (aligned va 64 :: windowChecks s va false [(0, 128)]) [room, trafficOpen s false])
      (.rowBytes 128) va (isAcquire od)
      fun bs _ t => (t.updateBase m .b128).addRow q (rawPart (nextRow rows, 0) bs)
  else
    let x := vecSteps s va .read (BitVec.allOnes 64) rowFoot (fun _ => useAll)
    match x.spans with
    | [] => settle i s (memChecks s [] srcs dst x.steps [room]) s
    | sp :: _ =>
      let p := sp.page
      let checks := memChecks s [] srcs dst x.steps [room, pagesOpen s false x.spans oneEach]
      if s.replaying then
        match firstOf (legal i :: checks) with
        | .pass =>
          match s.replay 0x7FFFF (rowSize p.fmt p.geo) with
          | (t, some bs) =>
            let at' := (nextRow rows, 0)
            let row := if isNarrow p.fmt then narrowPart at' p.fmt p.geo p.lslot (128 / blockElems p.geo) bs
              else { rawPart at' bs with fmt := p.fmt }
            .next (({ s1.addRow q row with csr := t.csr } : State).goto i (nextPc i s.core.pc))
          | (t, none) => .next (t.hold i .memory)
        | v => .next (s.blocked i v)
      else settle i s checks
        (x.spans.foldl (fun t sp =>
            t.send s.self (rowOp va sp) (sp.va va) (some sp.page) (sp.pa va) (.row q (nextRow rows) sp.off) (isAcquire od))
          ((s1.joinHomes x.slots).reserveRow q x.spans.length p.fmt p.geo p.lslot))

/-! ### Atomics and CAS (R113-R115) -/

/-- The checks of an access that reads and writes at the home: alignment, no window, translation for both, no
collective page, its formats (R103, R106, R113, R322). -/
def rmwSteps (s : State) (va : Word) (size : Nat) (fmts : List Nat) : List Verdict × List Span :=
  if inWindow va then ([aligned va size, addrTrap Code.protect va], [])
  else
    let x := s.spans va .both size useAll
    ([aligned va size, x.1, spansPermitted va useAll x.2] ++
      onPages x.2 (fun p => if p.coll = 0 then .pass else addrTrap Code.protect va) ++
      onPages x.2 (fun p => plainFormat p fmts va), x.2)

/-- The formats an atomic access may use (R113). -/
def rmwFormats (size : Nat) : List Nat := if size = 4 then [0, 3] else [0]

/-- An atomic of major 0x28: function code and size (R114). -/
def execAtomic (i : Instr) (fn size : Nat) (d a b : BitVec 5) (x y : Bool) (od : Option Ord) (s : State) : Out :=
  let va := s.g a.toNat
  let srcs : List Source := [([gLoc a.toNat], x), ([gLoc b.toNat], y)]
  let r := rmwSteps s va size (rmwFormats size)
  let dest : Dest := if d = 0 then .none else .reg d.toNat
  settleReplay i s (memChecks s [] srcs [gLoc d.toNat] [aligned va size] [])
    (memChecks s [] srcs [gLoc d.toNat] r.1 [writeWait s od, pagesOpen s true r.2 oneEach])
    dest size s
    ((r.2.foldl (fun t sp =>
        t.send s.self (.atomic fn size (s.g b.toNat)) va (some sp.page) (sp.pa va) dest (isAcquire od)) s).emptyDest dest)

/-- AADD (R114). -/
def execAadd (d a b : BitVec 5) (x y : Bool) (od : Option Ord) (s : State) : Out :=
  execAtomic (.aadd d a b x y od) 0 8 d a b x y od s
/-- AAND (R114). -/
def execAand (d a b : BitVec 5) (x y : Bool) (od : Option Ord) (s : State) : Out :=
  execAtomic (.aand d a b x y od) 1 8 d a b x y od s
/-- AOR (R114). -/
def execAor (d a b : BitVec 5) (x y : Bool) (od : Option Ord) (s : State) : Out :=
  execAtomic (.aor d a b x y od) 2 8 d a b x y od s
/-- AXOR (R114). -/
def execAxor (d a b : BitVec 5) (x y : Bool) (od : Option Ord) (s : State) : Out :=
  execAtomic (.axor d a b x y od) 3 8 d a b x y od s
/-- AMIN (R114). -/
def execAmin (d a b : BitVec 5) (x y : Bool) (od : Option Ord) (s : State) : Out :=
  execAtomic (.amin d a b x y od) 4 8 d a b x y od s
/-- AMAX (R114). -/
def execAmax (d a b : BitVec 5) (x y : Bool) (od : Option Ord) (s : State) : Out :=
  execAtomic (.amax d a b x y od) 5 8 d a b x y od s
/-- AMINU (R114). -/
def execAminu (d a b : BitVec 5) (x y : Bool) (od : Option Ord) (s : State) : Out :=
  execAtomic (.aminu d a b x y od) 6 8 d a b x y od s
/-- AMAXU (R114). -/
def execAmaxu (d a b : BitVec 5) (x y : Bool) (od : Option Ord) (s : State) : Out :=
  execAtomic (.amaxu d a b x y od) 7 8 d a b x y od s
/-- ASWAP (R114). -/
def execAswap (d a b : BitVec 5) (x y : Bool) (od : Option Ord) (s : State) : Out :=
  execAtomic (.aswap d a b x y od) 8 8 d a b x y od s
/-- AADD.W (R114). -/
def execAaddW (d a b : BitVec 5) (x y : Bool) (od : Option Ord) (s : State) : Out :=
  execAtomic (.aaddW d a b x y od) 0 4 d a b x y od s
/-- AAND.W (R114). -/
def execAandW (d a b : BitVec 5) (x y : Bool) (od : Option Ord) (s : State) : Out :=
  execAtomic (.aandW d a b x y od) 1 4 d a b x y od s
/-- AOR.W (R114). -/
def execAorW (d a b : BitVec 5) (x y : Bool) (od : Option Ord) (s : State) : Out :=
  execAtomic (.aorW d a b x y od) 2 4 d a b x y od s
/-- AXOR.W (R114). -/
def execAxorW (d a b : BitVec 5) (x y : Bool) (od : Option Ord) (s : State) : Out :=
  execAtomic (.axorW d a b x y od) 3 4 d a b x y od s
/-- AMIN.W (R114). -/
def execAminW (d a b : BitVec 5) (x y : Bool) (od : Option Ord) (s : State) : Out :=
  execAtomic (.aminW d a b x y od) 4 4 d a b x y od s
/-- AMAX.W (R114). -/
def execAmaxW (d a b : BitVec 5) (x y : Bool) (od : Option Ord) (s : State) : Out :=
  execAtomic (.amaxW d a b x y od) 5 4 d a b x y od s
/-- AMINU.W (R114). -/
def execAminuW (d a b : BitVec 5) (x y : Bool) (od : Option Ord) (s : State) : Out :=
  execAtomic (.aminuW d a b x y od) 6 4 d a b x y od s
/-- AMAXU.W (R114). -/
def execAmaxuW (d a b : BitVec 5) (x y : Bool) (od : Option Ord) (s : State) : Out :=
  execAtomic (.amaxuW d a b x y od) 7 4 d a b x y od s
/-- ASWAP.W (R114). -/
def execAswapW (d a b : BitVec 5) (x y : Bool) (od : Option Ord) (s : State) : Out :=
  execAtomic (.aswapW d a b x y od) 8 4 d a b x y od s
/-- AFADD.W (R114). -/
def execAfaddW (d a b : BitVec 5) (x y : Bool) (od : Option Ord) (s : State) : Out :=
  execAtomic (.afaddW d a b x y od) 9 4 d a b x y od s

/-- CAS and CAS.W: g[rd] is a third source that waits while empty (R115). The acquire of either outcome holds later
accesses until the value has landed (R259). -/
def execCompare (i : Instr) (size : Nat) (d a b : BitVec 5) (x y : Bool) (od : Option Ord) (s : State) : Out :=
  let va := s.g a.toNat
  let srcs : List Source := [([gLoc a.toNat], x), ([gLoc b.toNat], y), ([gLoc d.toNat], false)]
  let r := rmwSteps s va size (rmwFormats size)
  let dest : Dest := if d = 0 then .none else .reg d.toNat
  let acq := isAcquire od || (od.map fun o => o.ford == 1).getD false
  settleReplay i s (memChecks s [] srcs [gLoc d.toNat] [aligned va size] [])
    (memChecks s [] srcs [gLoc d.toNat] r.1 [writeWait s od, pagesOpen s true r.2 oneEach])
    dest size s
    ((r.2.foldl (fun t sp =>
        t.send s.self (.cas size (s.g d.toNat) (s.g b.toNat)) va (some sp.page) (sp.pa va) dest acq) s).emptyDest dest)

/-- CAS (R115). -/
def execCas (d a b : BitVec 5) (x y : Bool) (od : Option Ord) (s : State) : Out :=
  execCompare (.cas d a b x y od) 8 d a b x y od s
/-- CAS.W (R115). -/
def execCasW (d a b : BitVec 5) (x y : Bool) (od : Option Ord) (s : State) : Out :=
  execCompare (.casW d a b x y od) 4 d a b x y od s

/-! ### Vats (R116-R119) -/

/-- R117: bits 5:1 of the address operand are zero. -/
def vatOperand (v : Word) : Verdict := if Word.bits v 1 5 = 0 then .pass else trapWith Code.vat

/-- The vat operation of the head unit is answered, refused or over. -/
def State.vatOver (s : State) : State := s.setCore { s.core with vat := .none }

/-- Under replay a vat instruction takes its results from the capture records (R377). -/
def execVatReplay (i : Instr) (dsts : List Nat) (s : State) : Out :=
  let r := dsts.foldl (fun (acc : State × Bool) d =>
    if acc.2 then
      match acc.1.replay (gLoc d) 8 with
      | (t, some bs) => (t.result 1 d (BitVec.ofNat 64 (numOfBytes bs)), true)
      | (t, none) => (t, false)
    else acc) (s, true)
  if r.2 then settle i s [] r.1
  else .next ((({ s with inp := r.1.inp } : State).setCsr 0x0C3 (r.1.readCsr 0x0C3)).hold i .memory)

/-- A vat instruction (R117, R118): its first clk sends the operation, it then waits at the head, and it completes with
the reply. `finish` writes the results. -/
def execVat (i : Instr) (op : VatOp) (a : BitVec 5) (x : Bool) (val : Word) (srcs : List Source) (dsts : List Nat)
    (od : Option Ord) (finish : VatReply → State → State) (s : State) : Out :=
  let addr := s.g a.toNat
  let va := addr &&& ~~~ (63 : Word)
  let all : List Source := ([gLoc a.toNat], x) :: srcs
  let dst := dsts.map gLoc
  match s.core.vat with
  | .done r => settle i s [] ((finish r s).vatOver)
  | .bad c => .next (s.vatOver.blocked i (if c = Code.machine then addrTrap c va else trapWith c))
  | .sent _ => .next (s.hold i .memory)
  | .parked _ => .next (s.hold i .cueWait)
  | .none =>
    let r := rmwSteps s va 8 [0]
    match firstOf (legal i :: (if s.replaying then memChecks s [] all dst [] [vatOperand addr]
        else memChecks s [] all dst r.1 [vatOperand addr, writeWait s od, pagesOpen s true r.2 oneEach])) with
    | .pass =>
      if s.replaying then execVatReplay i dsts s
      else
        let sent := r.2.foldl (fun t sp =>
          t.send s.self (.vat op (addr.getLsbD 0) val) va (some sp.page) (sp.pa va) .vat (isAcquire od)) s
        .next ((sent.setCore { sent.core with vat := .sent s.sys.nextId }).hold i .memory)
    | v => .next (s.blocked i v)

/-- A result of a vat operation lands with latency 1 and is captured (R104, R376). -/
def State.vatResult (s : State) (r : Nat) (v : Word) : State :=
  (s.result 1 r v).capture s.self (gLoc r) (bytesOfNum 8 v.toNat)


/-- VPUSH (R117). -/
def execVpush (d a b : BitVec 5) (x y : Bool) (od : Option Ord) (s : State) : Out :=
  execVat (.vpush d a b x y od) .push a x (s.g b.toNat) [([gLoc b.toNat], y)] [d.toNat] od
    (fun r t => t.vatResult d.toNat r.status) s

/-- VPOP (R117). -/
def execVpop (d a : BitVec 5) (x : Bool) (od : Option Ord) (s : State) : Out :=
  execVat (.vpop d a x od) .pop a x 0 [] [d.toNat] od (fun r t => t.vatResult d.toNat r.val) s

/-- VPOPNB (R117): rb is a destination; where it names the same register as rd, the status is written last. -/
def execVpopnb (d a b : BitVec 5) (x : Bool) (od : Option Ord) (s : State) : Out :=
  execVat (.vpopnb d a b x od) .popNb a x 0 [] [d.toNat, b.toNat] od
    (fun r t => (t.vatResult d.toNat r.val).vatResult b.toNat r.status) s

/-! ### Route counters (R120) -/

/-- R120: the hub named is present, on a part with route units. -/
def hubChecks (s : State) (h : Word) : Verdict :=
  if decide (24 ≤ h.toNat) && decide (h.toNat < 28) && s.diePresent h.toNat then .pass else trapWith Code.absent

/-- The base of a hub's interface SRAM, at which its route unit is homed (R252, R312). -/
def hubBase (h : Nat) : Nat := 0xF000000000000 + (h - 24) * 0x800000

/-- A route-counter operation on the hub named by g[ra] (R120). The number is tested once g[ra] is full, after EMPTYREAD
(DESIGN CHOICE, log 23). -/
def execRoute (i : Instr) (op : ReqOp) (d a : BitVec 5) (srcs : List Source) (od : Option Ord) (s : State) : Out :=
  let h := s.g a.toNat
  let dest : Dest := if d = 0 then .none else .reg d.toNat
  let pre := [require s.hasRoute Code.absent]
  let order := if op.writes then writeWait s od else releaseWait s od
  settleReplay i s (memChecks s pre srcs [gLoc d.toNat] [hubChecks s h] [])
    (memChecks s pre srcs [gLoc d.toNat] [hubChecks s h] [order, trafficOpen s op.writes])
    dest 8 s ((s.send s.self op 0 none (hubBase h.toNat) dest (isAcquire od)).emptyDest dest)

/-- RCSNAP (R120). -/
def execRcsnap (d a : BitVec 5) (x : Bool) (od : Option Ord) (s : State) : Out :=
  execRoute (.rcsnap d a x od) (.rcsnap (s.g a.toNat).toNat) d a [([gLoc a.toNat], x)] od s

/-- RCREAD (R120). -/
def execRcread (d a b : BitVec 5) (x y : Bool) (od : Option Ord) (s : State) : Out :=
  execRoute (.rcread d a b x y od) (.rcread (s.g a.toNat).toNat (s.g b.toNat)) d a
    [([gLoc a.toNat], x), ([gLoc b.toNat], y)] od s

end Sys2Proof.Machine
end

