-- ==== Sys2Proof/Machine/Sync.lean ====
section
/-!
DEFINITION. Tiles, rings and allocators (R121-R123), the cue board (R124), fences, barriers, LEND and LATLD
(R125-R129): majors 0x2E-0x31.
-/

namespace Sys2Proof.Machine

/-! ### The tile table (R121, R231) -/

/-- Descriptor of a handle (R121). -/
def State.tile (s : State) (h : Nat) : Word := Sparse.get s.cell.tiles h

def tileOff (d : Word) : Nat := Word.bits d 0 24
def tileLen (d : Word) : Nat := Word.bits d 24 24
def tileStore (d : Word) : Nat := Word.bits d 48 2

/-- STATE: 0 empty, 1 filling, 2 ready, 3 draining. -/
def tileState (d : Word) : Nat := Word.bits d 50 2

/-- A handle's state written. -/
def Cell.setTileState (c : Cell) (h v : Nat) : Cell :=
  { c with tiles := Sparse.set c.tiles h (Word.setBits (Sparse.get c.tiles h) 50 2 v) }

/-- Drops the pending readiness of a tile that a TSETRDY set (R233). -/
def Cell.dropReady (c : Cell) (h : Nat) : Cell :=
  { c with ready := c.ready.filter fun r => r.ring || r.tile != h }

/-- Makes a tile's readiness pending, in place of one already pending (R233). -/
def State.pendReady (s : State) (h : Nat) (ring : Bool) : State :=
  s.setCell { s.cell with ready := (s.cell.ready.filter fun r => r.tile != h) ++
    [{ tile := h, ring := ring, enq := s.cell.enqNo, at' := s.clk + 1 }] }

/-- TILE on a handle operand with bits above 7:0 (R121). -/
def handleOk (v : Word) : Verdict := require (Word.bits v 8 56 == 0) Code.tile

/-- TILE where a condition fails. -/
def tileCheck (ok : Bool) : Verdict := require ok Code.tile

/-- The handle operand's number. -/
def handle (v : Word) : Nat := Word.bits v 0 8

/-- TNEW (R121): a rebinding drops a pending TSETRDY (R233). -/
def execTnew (a b : BitVec 5) (x y : Bool) (s : State) : Out :=
  let d := s.g a.toNat
  let h := handle (s.g b.toNat)
  let st := tileState (s.tile h)
  settle (.tnew a b x y) s
    (scalarChecks s [(a.toNat, x), (b.toNat, y)] [] ++
      [handleOk (s.g b.toNat),
       tileCheck (tileStore d < 3 && 0 < tileLen d && tileOff d % 64 = 0 && tileLen d % 64 = 0 &&
        tileOff d + tileLen d ≤ storeSize (tileStore d) && st ≠ 1 && st ≠ 3 && Word.bits d 50 14 = 0)])
    (s.setCell { (s.cell.dropReady h) with tiles := Sparse.set s.cell.tiles h d })

/-- TFREE (R121, R233). -/
def execTfree (a : BitVec 5) (x : Bool) (s : State) : Out :=
  let h := handle (s.g a.toNat)
  let d := s.tile h
  settle (.tfree a x) s
    (scalarChecks s [(a.toNat, x)] [] ++
      [handleOk (s.g a.toNat), tileCheck (tileLen d ≠ 0 && tileState d ≠ 1 && tileState d ≠ 3)])
    (s.setCell ((s.cell.dropReady h).setTileState h 0))

/-- TSTATE (R121), whose row of the table names no trap: a handle whose LEN is 0 is read as it stands (DESIGN CHOICE,
log 23). -/
def execTstate (d a : BitVec 5) (x : Bool) (s : State) : Out :=
  settle (.tstate d a x) s (scalarChecks s [(a.toNat, x)] [d.toNat] ++ [handleOk (s.g a.toNat)])
    (s.result 1 d.toNat (s.tile (handle (s.g a.toNat))))

/-- TSETRDY (R121, R233). -/
def execTsetrdy (a : BitVec 5) (x : Bool) (s : State) : Out :=
  let h := handle (s.g a.toNat)
  settle (.tsetrdy a x) s
    (scalarChecks s [(a.toNat, x)] [] ++
      [handleOk (s.g a.toNat), tileCheck (tileLen (s.tile h) ≠ 0 && tileState (s.tile h) ≠ 3)])
    (s.pendReady h false)

/-- TWAIT (R121). -/
def execTwait (a b : BitVec 5) (x y : Bool) (s : State) : Out :=
  let d := s.tile (handle (s.g a.toNat))
  settle (.twait a b x y) s
    (scalarChecks s [(a.toNat, x), (b.toNat, y)] [] ++
      [handleOk (s.g a.toNat), tileCheck (tileLen d ≠ 0),
       await (tileState d == Word.bits (s.g b.toNat) 0 2) .tile]) s

/-! ### Rings (R122, R234) -/

def State.ring (s : State) (n : Nat) : Ring :=
  s.cell.rings[n]?.getD { set := false, base := 0, count := 0, head := 0, tail := 0, pclaim := 0, cclaim := 0 }

def State.setRing (s : State) (n : Nat) (r : Ring) : State :=
  s.setCell { s.cell with rings := s.cell.rings.setIfInBounds n r }

/-- RING where a condition fails. -/
def ringCheck (ok : Bool) : Verdict := require ok Code.ring

/-- Handles at HEAD and TAIL. -/
def Ring.atHead (r : Ring) : Nat := r.base + r.head
def Ring.atTail (r : Ring) : Nat := r.base + r.tail

/-- RGSET (R122). -/
def execRgset (n b : BitVec 5) (y : Bool) (s : State) : Out :=
  let v := s.g b.toNat
  let r := s.ring n.toNat
  let base := Word.bits v 0 8
  let count := Word.bits v 8 8
  settle (.rgset n b y) s
    (scalarChecks s [(b.toNat, y)] [] ++
      [ringCheck (count ≠ 0 && base + count ≤ 256 && Word.bits v 16 48 = 0 && r.pclaim = 0 && r.cclaim = 0)])
    (s.setRing n.toNat { set := true, base := base, count := count, head := 0, tail := 0, pclaim := 0, cclaim := 0 })

/-- A wait on the state of a ring's tile (R122): 2 at HEAD, 0 at TAIL. -/
def ringWait (s : State) (h st : Nat) : Verdict := await (tileState (s.tile h) == st) .ringWait

/-- RWFILL (R122). -/
def execRwfill (d n : BitVec 5) (s : State) : Out :=
  let r := s.ring n.toNat
  settle (.rwfill d n) s (scalarChecks s [] [d.toNat] ++ [ringCheck r.set, ringWait s r.atHead 2])
    (s.result 1 d.toNat (BitVec.ofNat 64 r.atHead))

/-- RWFREE (R122). -/
def execRwfree (d n : BitVec 5) (s : State) : Out :=
  let r := s.ring n.toNat
  settle (.rwfree d n) s (scalarChecks s [] [d.toNat] ++ [ringCheck r.set, ringWait s r.atTail 0])
    (s.result 1 d.toNat (BitVec.ofNat 64 r.atTail))

/-- A claim at one side of a ring: the tile's state and the pointers move (R122). -/
def State.claim (s : State) (n : Nat) (producer : Bool) : State :=
  let r := s.ring n
  if producer then
    (s.setCell (s.cell.setTileState r.atTail 1)).setRing n
      { r with tail := (r.tail + 1) % r.count, pclaim := r.pclaim + 1 }
  else
    (s.setCell ((s.cell.dropReady r.atHead).setTileState r.atHead 3)).setRing n
      { r with head := (r.head + 1) % r.count, cclaim := r.cclaim + 1 }

/-- RCLAIM (R122). -/
def execRclaim (d n p : BitVec 5) (s : State) : Out :=
  let r := s.ring n.toNat
  let producer := p == 1
  let h := if producer then r.atTail else r.atHead
  settle (.rclaim d n p) s
    (scalarChecks s [] [d.toNat] ++ [ringCheck r.set, ringWait s h (if producer then 0 else 2)])
    ((s.claim n.toNat producer).result 1 d.toNat (BitVec.ofNat 64 h))

/-- RRELEASE (R122, R233): the producer's readiness is deferred. -/
def execRrelease (n p : BitVec 5) (s : State) : Out :=
  let r := s.ring n.toNat
  let producer := p == 1
  settle (.rrelease n p) s [ringCheck (if producer then r.pclaim ≠ 0 else r.cclaim ≠ 0)]
    (if producer then
      (s.pendReady (r.base + (r.tail + r.count * r.pclaim - r.pclaim) % r.count) true).setRing n.toNat
        { r with pclaim := r.pclaim - 1 }
     else
      let h := r.base + (r.head + r.count * r.cclaim - r.cclaim) % r.count
      (s.setCell (s.cell.setTileState h 0)).setRing n.toNat { r with cclaim := r.cclaim - 1 })

/-! ### Allocators (R123, R236) -/

def State.alloc (s : State) (st : Nat) : Alloc := s.cell.allocs[st]?.getD (Alloc.reset st)

def State.setAlloc (s : State) (st : Nat) (a : Alloc) : State :=
  s.setCell { s.cell with allocs := s.cell.allocs.setIfInBounds st a }

/-- A request size rounded up to a multiple of 64 (R123). -/
def round64 (n : Nat) : Nat := (n + 63) / 64 * 64

/-- EXHAUST with its frame fields (R123, R206). -/
def exhaust (st size : Nat) (a : Alloc) : Verdict :=
  .trap { code := Code.exhaust
          info0 := BitVec.ofNat 64 (st + 2 ^ 8 * a.rlive + 2 ^ 32 * min size 0xFFFFFFFF)
          info1 := BitVec.ofNat 64 (a.bump + 2 ^ 24 * a.rbase)
          info2 := BitVec.ofNat 64 (a.rhead + 2 ^ 24 * a.rtail) }

/-- EXHAUST where a condition fails. -/
def allocCheck (ok : Bool) (st size : Nat) (a : Alloc) : Verdict := if ok then .pass else exhaust st size a

/-- ABUMP (R123). -/
def execAbump (d p b : BitVec 5) (y : Bool) (s : State) : Out :=
  let al := s.alloc p.toNat
  let n := round64 (s.g b.toNat).toNat
  settle (.abump d p b y) s
    (scalarChecks s [(b.toNat, y)] [d.toNat] ++ [allocCheck (al.bump + n ≤ al.rbase) p.toNat n al])
    ((s.setAlloc p.toNat { al with bump := al.bump + n }).result 1 d.toNat (BitVec.ofNat 64 al.bump))

/-- AMARK (R123). -/
def execAmark (d p : BitVec 5) (s : State) : Out :=
  settle (.amark d p) s (scalarChecks s [] [d.toNat]) (s.result 1 d.toNat (BitVec.ofNat 64 (s.alloc p.toNat).bump))

/-- ARELMARK (R123). -/
def execArelmark (p b : BitVec 5) (y : Bool) (s : State) : Out :=
  let al := s.alloc p.toNat
  let v := (s.g b.toNat).toNat
  settle (.arelmark p b y) s
    (scalarChecks s [(b.toNat, y)] [] ++ [allocCheck (v ≤ al.bump && v % 64 = 0) p.toNat 0 al])
    (s.setAlloc p.toNat { al with bump := v })

/-- ARING's offset and the bytes wasted below the store's end (R123). -/
def Alloc.place (a : Alloc) (size n : Nat) : Nat × Nat :=
  if a.rhead + n > size then (a.rbase, size - a.rhead) else (a.rhead, 0)

/-- ARING (R123): a size of 0 returns the current offset and changes nothing. -/
def execAring (d p b : BitVec 5) (y : Bool) (s : State) : Out :=
  let al := s.alloc p.toNat
  let size := storeSize p.toNat
  let n := round64 (s.g b.toNat).toNat
  let w := al.place size n
  let c := size - al.rbase
  let head := if w.1 + n = size then al.rbase else w.1 + n
  if n = 0 then
    settle (.aring d p b y) s (scalarChecks s [(b.toNat, y)] [d.toNat])
      (s.result 1 d.toNat (BitVec.ofNat 64 al.rhead))
  else
    settle (.aring d p b y) s
      (scalarChecks s [(b.toNat, y)] [d.toNat] ++
        [allocCheck (n ≤ c && al.rlive + w.2 + n ≤ c) p.toNat n al])
      ((s.setAlloc p.toNat { al with rlive := al.rlive + w.2 + n, rhead := head }).result 1 d.toNat
        (BitVec.ofNat 64 w.1))

/-- AFREE (R123). -/
def execAfree (p b : BitVec 5) (y : Bool) (s : State) : Out :=
  let al := s.alloc p.toNat
  let size := storeSize p.toNat
  let x := (s.g b.toNat).toNat
  let c := size - al.rbase
  let d := if x = al.rhead then al.rlive else (((x : Int) - al.rtail) % (c : Int)).toNat
  settle (.afree p b y) s
    (scalarChecks s [(b.toNat, y)] [] ++
      [allocCheck (al.rbase ≤ x && x < size && x % 64 = 0 && d ≤ al.rlive) p.toNat x al])
    (s.setAlloc p.toNat { al with rtail := x, rlive := al.rlive - d })

/-- ASTATE (R123). -/
def execAstate (d p w : BitVec 5) (s : State) : Out :=
  let al := s.alloc p.toNat
  let v := match w.toNat with
    | 0 => al.bump
    | 1 => al.rbase
    | 2 => al.rhead
    | 3 => al.rtail
    | _ => al.rlive
  settle (.astate d p w) s (scalarChecks s [] [d.toNat]) (s.result 1 d.toNat (BitVec.ofNat 64 v))

/-! ### The cue board (R42, R124, R214-R216) -/

/-- q[n]. -/
def State.cue (s : State) (n : Nat) : Lane := s.core.q[n]?.getD 0

/-- The counter as terms and engines read it in this clk, before a QADD of this clk (R216). -/
def State.cueSeen (s : State) (n : Nat) : Lane :=
  match s.core.qOld with
  | some (m, v) => if m = n then v else s.cue n
  | none => s.cue n

/-- An increment by an agent (R42, R214). -/
def State.bump (s : State) (n : Nat) (v : Lane) (agent : Nat) : State :=
  let s1 := (s.setCore { s.core with q := s.core.q.setIfInBounds n (s.cue n + v) }).count 28 1
  s1.setCell { s1.cell with bumps := (n, agent, s.clk) :: s1.cell.bumps.filter fun b =>
    b.1 != n || b.2.2 == s.clk || some b == s1.cell.bumps.find? fun x => x.1 == n && x.2.2 != s.clk }

/-- The counter has reached a value: the difference modulo 2^32 is below 2^31 (R124). -/
def reached (q v : Lane) : Bool := !(q - v).msb

/-- Clk of the last increment of a counter that this clk sees, and its agent: those of this clk are not seen yet (R216,
R220). -/
def State.lastBump (s : State) (n : Nat) : Nat × Nat :=
  ((s.cell.bumps.find? fun b => b.1 == n && decide (b.2.2 < s.clk)).map fun b => (b.2.2, b.2.1)).getD (0, 0)

/-- Agent of that increment (R220). -/
def State.bumper (s : State) (n : Nat) : Nat := (s.lastBump n).2

/-- A wait-graph record (R220, R366). -/
def State.waitRecord (s : State) (who : Who) (n agent : Nat) (term : Option Nat) (clk : Nat) : State :=
  if s.trace 2 && decide (0 < clk) then
    let t := match term with
      | some t => 2 ^ 10 * t + 2 ^ 14
      | none => 0
    s.emit 2 who (BitVec.ofNat 64 (n + 2 ^ 6 * agent + t)) (BitVec.ofNat 64 clk)
  else s

/-- Writes of earlier units to register space and the stores that have not been performed (R124). -/
def State.localWritesDone (s : State) : Bool :=
  s.core.inflight.isEmpty && s.core.posted.isEmpty && s.coreReplies.all (fun r => r.dest == .none) &&
    s.coreReqs.all (fun r => r.dest == .none || !r.op.reads)

/-- QADD (R124): a release in cell scope. -/
def execQadd (a : BitVec 5) (n : BitVec 6) (s : State) : Out :=
  let t := s.bump n.toNat (Word.half (s.g a.toNat) 0) 0
  settle (.qadd a n) s
    (scalarChecks s [(a.toNat, false)] [] ++ [await s.localWritesDone .orderWait])
    (t.setCore { t.core with qOld := some (n.toNat, s.cue n.toNat) })

/-- QREAD (R124). -/
def execQread (d : BitVec 5) (n : BitVec 6) (s : State) : Out :=
  settle (.qread d n) s (scalarChecks s [] [d.toNat]) (s.result 1 d.toNat ((s.cue n.toNat).zeroExtend 64))

/-- QWAIT (R124, R220): a wait is logged to the wait graph. -/
def execQwait (a : BitVec 5) (n : BitVec 6) (s : State) : Out :=
  settle (.qwait a n) s
    (scalarChecks s [(a.toNat, false)] [] ++
      [await (reached (s.cue n.toNat) (Word.half (s.g a.toNat) 0)) .cueWait])
    (s.waitRecord s.self n.toNat (s.bumper n.toNat) none s.core.waited)

/-- Word p of term t (R215): predicates 0-6 and the control word 7. -/
def State.term (s : State) (t p : Nat) : Word := Sparse.get s.cell.terms (8 * t + p)

/-- A definition with no bit set in a field marked zero (R215). -/
def termOk (ws : List Word) : Bool :=
  (ws.take 7).all (fun w => Word.bits w 41 23 == 0) && Word.bits (ws[7]?.getD 0) 15 49 == 0

/-- QTERM (R124, R215, R219). -/
def execQterm (a : BitVec 5) (t : BitVec 4) (s : State) : Out :=
  let off := s.g a.toNat
  let ws := wordsOfBytes 8 (s.coreView.storeBytes 0 off.toNat 64)
  let old := (List.range 8).map (s.term t.toNat)
  settle (.qterm a t) s
    (memChecks s [] [([gLoc a.toNat], false)] [] [aligned off 64, storeCheck 0 off 64]
      (coreRead s 0 off.toNat 64 ++ [require (termOk ws) Code.illegal]))
    (((s.setCell { s.cell with terms := Sparse.setRun s.cell.terms (8 * t.toNat) ws }).setCore
      { s.core with termOld := some (t.toNat, old) }).askPort 0 [] none)

/-! ### Fences and barriers (R126, R127, R259) -/

/-- Acquire of a fence or a barrier: later accesses wait for every earlier global load (R259). -/
def State.acquireAll (s : State) : State :=
  let mark := fun (r : Req) => if r.queue = 15 && r.op.reads then { r with acq := true } else r
  { s with
    sys := { s.sys with
      reqs := s.sys.reqs.map mark
      replies := s.sys.replies.map fun r => if r.queue = 15 then { r with acq := true } else r }
    fab := { s.fab with out := s.fab.out.map mark } }

/-- The acquire side of an order. -/
def State.acquireSide (s : State) (od : Option Ord) : State := if isAcquire od then s.acquireAll else s

/-- The accesses that a waiting FENCE waits for are those made before its first clk (R126). -/
def State.noteFence (s : State) : State :=
  if s.core.fenceId.isNone then s.setCore { s.core with fenceId := some s.sys.nextId } else s

/-- A release fence, for which later writes wait; fences that have what they wait for are over (R259). -/
def State.addFence (s : State) (scope : Nat) : State :=
  let live := s.core.relFences.filter fun f => !s.releasedAt f.scope f.clk f.id
  s.setCore { s.core with relFences := live ++ [{ scope := scope, clk := s.clk, id := s.sys.nextId }] }

/-- FENCE (R126, R259): with order 0 it waits itself; an acquire fence holds later accesses, and a release fence later
writes. -/
def execFence (od : Option Ord) (s : State) : Out :=
  if ordOrder od = 0 then
    let t := s.noteFence
    settle (.fence od) t [await (t.allDone t.clk (t.core.fenceId.getD 0)) .orderWait] t
  else
    let t := s.acquireSide od
    settle (.fence od) s [] (if isRelease od then t.addFence (ordScope od) else t)

def State.bar (s : State) (n : Nat) : Barrier := s.cell.bars[n]?.getD { gen := 0, arrived := 0 }

/-- Every rank of the troupe has arrived or ended (R127). -/
def State.barFull (s : State) (b : Barrier) : Bool :=
  (List.range s.cell.troupeSize).all fun r => b.arrived.getLsbD r || s.cell.endedRanks.getLsbD r

/-- The arrival of a rank at an instance; the last one completes the generation (R127). -/
def State.arrive (s : State) (n rank : Nat) : State :=
  let b := { s.bar n with arrived := (s.bar n).arrived ||| ((1 : Word) <<< rank) }
  let b1 := if s.barFull b then { gen := b.gen + 1, arrived := 0 } else b
  s.setCell { s.cell with bars := s.cell.bars.setIfInBounds n b1 }

/-- A cell's END counts as its arrival: generations that others wait in may complete (R127). -/
def State.endRank (s : State) (rank : Nat) : State :=
  let s1 := s.setCell { s.cell with endedRanks := s.cell.endedRanks ||| ((1 : Word) <<< rank) }
  s1.setCell { s1.cell with bars := s1.cell.bars.map fun b =>
    if b.arrived ≠ 0 && s1.barFull b then { gen := b.gen + 1, arrived := 0 } else b }

/-- The cell has already arrived in the current generation. -/
def State.arrivedHere (s : State) (n : Nat) : Bool := (s.bar n).arrived.getLsbD s.cell.rank

/-- BARARR (R127). -/
def execBararr (d n : BitVec 5) (od : Option Ord) (s : State) : Out :=
  settle (.bararr d n od) s
    (scalarChecks s [] [d.toNat] ++ [await (!s.arrivedHere n.toNat) .barrier, releaseWait s od])
    (((s.arrive n.toNat s.cell.rank).result 1 d.toNat (BitVec.ofNat 64 (s.bar n.toNat).gen)).acquireSide od)

/-- BARWAIT (R127). -/
def execBarwait (n b : BitVec 5) (y : Bool) (od : Option Ord) (s : State) : Out :=
  settle (.barwait n b y od) s
    (scalarChecks s [(b.toNat, y)] [] ++
      [releaseWait s od, await (decide ((s.g b.toNat).toNat < (s.bar n.toNat).gen)) .barrier])
    (s.acquireSide od)

/-- BARSYNC (R127): it arrives, then waits for that generation; once it has arrived it does not arrive again. -/
def execBarsync (n : BitVec 5) (od : Option Ord) (s : State) : Out :=
  let i : Instr := .barsync n od
  let mine := match s.core.barsync with
    | some (pc, k, g) => if pc = s.core.pc && k = n.toNat then some g else none
    | none => none
  match mine with
  | some g => settle i s [await (decide (g < (s.bar n.toNat).gen)) .barrier] (s.acquireSide od)
  | none =>
    match firstOf [legal i, await (!s.arrivedHere n.toNat) .barrier, releaseWait s od] with
    | .pass =>
      let g := (s.bar n.toNat).gen
      let s1 := s.arrive n.toNat s.cell.rank
      if g < (s1.bar n.toNat).gen then settle i s [] (s1.acquireSide od)
      else .next ((s1.setCore { s1.core with barsync := some (s.core.pc, n.toNat, g) }).hold i .barrier)
    | v => .next (s.blocked i v)

/-! ### LEND (R49, R128) -/

/-- Banks of a range of register space. -/
def banksOf (off len : Nat) : List Nat := (List.range 12).filter fun b =>
  decide (off < 16384 * (b + 1)) && decide (16384 * b < off + len)

/-- Banks toward which a started matrix entry is a result in flight (R49, R171, R173): its accumulators, the source of a
bypass, and the operand-tile words of a drain, whose offset its start recorded. -/
def Entry.banks (e : Entry) : List Nat :=
  let bypass := if e.start.byp.isEmpty then [] else banksOf e.start.bypAt 8192
  match e.op with
  | .mpass _ _ _ _ _ => banksOf e.start.acc 8192 ++ bypass
  | .mpassseg _ _ _ _ _ => banksOf e.start.acc 8192 ++ bypass
  | .mpassgrp _ _ _ => banksOf e.start.acc (8192 * (e.vals[3]?.getD 0).toNat)
  | .mzero => banksOf e.start.acc 8192
  | .mdrain c d _ =>
    (if c then banksOf e.start.acc 8192 else []) ++
    (if d then banksOf (e.start.desc[0]?.getD 0).toNat 4096 else [])
  | _ => []

/-- A vector destination lies in the bank. -/
def Dest.inBank (b : Nat) : Dest → Bool
  | .vec off _ => (banksOf off 256).contains b
  | _ => false

/-- Started entries of every queue. -/
def State.running (s : State) : List Entry := (s.cell.queues.toList.map Queue.run).flatten

/-- A result is in flight toward the bank (R49). -/
def State.bankBusy (s : State) (b : Nat) : Bool :=
  (s.core.inflight ++ s.core.reinject).any (fun l =>
    match l.target with
    | .vec off _ _ => (banksOf off 256).contains b
    | .reg _ _ => false) ||
  (s.sys.reqs ++ s.fab.out).any (fun r => r.dest.inBank b) || s.sys.replies.any (fun r => r.dest.inBank b) ||
  s.running.any (fun e => (Entry.banks e).contains b)

/-- LEND (R49, R128). -/
def execLend (k p : BitVec 5) (s : State) : Out :=
  let bank := k.toNat
  if s.matrixBank bank == (p == 1) then settle (.lend k p) s [] s
  else
    settle (.lend k p) s [require (!s.bankBusy bank) Code.lend]
      (s.setCsr 0x013 (Word.setBits (s.readCsr 0x013) bank 1 (p.toNat % 2)))

/-! ### LATLD (R29, R129) -/

/-- The table slot is read by an operand of a pass with source fields a and b: through PASS for a tile or an operand
queue, through a record otherwise; before the records are read, any slot may be (R29, R166). -/
def Entry.readsSlot (e : Entry) (a b slot : Nat) : Bool :=
  let pass := e.vals[0]?.getD 0
  let named := fun (src lo : Nat) => (src == 0 || src == 2) && Word.bits pass lo 4 == 11 && Word.bits pass 36 2 == slot
  named a 24 || named b 28 || ((a == 1 || b == 1) && !e.start.ready) ||
    (e.start.recA.toList ++ e.start.recB).any fun r => r.fmt == 11 && r.lslot == slot

/-- A started matrix entry reads the table slot (R29). -/
def Entry.usesSlot (e : Entry) (slot : Nat) : Bool :=
  match e.op with
  | .mpass _ _ _ b a => e.readsSlot a.toNat b.toNat slot
  | .mpassseg _ _ _ b a => e.readsSlot a.toNat b.toNat slot
  | .mpassgrp _ b a => e.readsSlot a.toNat b.toNat slot
  | _ => false

/-- A vector load under way that decodes with a table slot; it reads the slot as it stood when it issued (R29). -/
def Req.decodes (r : Req) (slot : Nat) : Bool :=
  match r.op with
  | .bload bs => bs.any fun b => b.2.fmt == 11 && b.2.lslot == slot
  | _ => false

/-- A part of a table put among those that have arrived, by offset. -/
def insertPart (p : Nat × List Byte) : List (Nat × List Byte) → List (Nat × List Byte)
  | [] => [p]
  | q :: r => if p.1 ≤ q.1 then p :: q :: r else q :: insertPart p r

/-- The head unit's table load is over. -/
def State.tableOver (s : State) : State := s.setCore { s.core with latWait := none }

/-- A table load sent: one read for each page, or one of the window (R129, R321). -/
def State.askTable (s : State) (va : Word) (slot : Nat) (sps : List Span) : State :=
  let t := if inWindow va then s.send s.self (.load 1024) va none (windowPa va) (.table 0) false
    else sps.foldl (fun t sp => t.send s.self (.load sp.len) (sp.va va) (some sp.page) (sp.pa va) (.table sp.off) false) s
  t.setCore { t.core with
    latWait := some { slot := slot, need := if inWindow va then 1 else sps.length, got := [], bad := [] } }

/-- LATLD (R129): its first clk sends the reads, it then waits at the head, charged to MEMORY, until every part has arrived
and no vector load still decodes with the slot (R29); the table is then replaced as a whole. -/
def execLatld (a p : BitVec 5) (x : Bool) (s : State) : Out :=
  let i : Instr := .latld a p x
  let va := s.g a.toNat
  match s.core.latWait with
  | some w =>
    if w.got.length < w.need then .next (s.hold i .memory)
    else match w.bad with
      | b :: _ => .next (s.tableOver.blocked i (addrTrap Code.machine b))
      | [] =>
        if s.ownReqs.any (fun r => r.decodes w.slot) then .next (s.hold i .memory)
        else settle i s []
          (s.tableOver.setCell { s.cell with
            lat2 := Sparse.setRun s.cell.lat2 (256 * w.slot) (lanesOfBytes 256 (w.got.map Prod.snd).flatten) })
  | none =>
    let sps := s.spans va .read 1024 useAll
    match firstOf (legal i :: memChecks s [require s.hasLat2 Code.absent] [([gLoc a.toNat], x)] []
      (aligned va 64 :: (if inWindow va then windowChecks s va false [(0, 1024)] else
        [sps.1, spansPermitted va useAll sps.2] ++
        onPages sps.2 (fun q => if q.fmt = 0 && q.coll != 3 then .pass else addrTrap Code.format va)))
      [await (!s.running.any fun e => Entry.usesSlot e p.toNat) .orderWait,
        pagesOpen s false (if inWindow va then [] else sps.2) oneEach]) with
    | .pass => .next ((s.askTable va p.toNat (if inWindow va then [] else sps.2)).hold i .memory)
    | v => .next (s.blocked i v)

end Sys2Proof.Machine
end

