-- ==== Sys2Proof/Machine/Queue.lean ====
section
/-!
DEFINITION. The engine queues (R151-R160): forming entries, issuing words, starting, faulting, discarding; ENQW, ENQG,
ENQM (R69), END (R91), the stack and shape words (R162, R163) and the control words (R185-R189).
-/

namespace Sys2Proof.Machine

/-! ### Queues and words (R70, R151-R153) -/

def State.queue (s : State) (q : Nat) : Queue := s.cell.queues[q]?.getD Queue.reset

def State.setQueue (s : State) (q : Nat) (v : Queue) : State :=
  s.setCell { s.cell with queues := s.cell.queues.setIfInBounds q v }

/-- Capacity in words (R151). -/
def capacity (q : Nat) : Nat := if q ≤ 8 then 256 else 128

/-- A launch or control word (R70). -/
def isTerminal (w : BitVec 16) : Bool := decide (0xC000 ≤ w.toNat)

/-- A CCOPY or CGATHER word with CHAIN (R176). -/
def isChaining (q : Nat) (w : BitVec 16) : Bool :=
  decide (1 ≤ q) && decide (q ≤ 8) && (w.toNat / 256 == 0xC0 || w.toNat / 256 == 0xC1) && w.getLsbD 5

/-- Words up to and including the first terminal word, if there is one. -/
def entryLen : List EWord → Option Nat
  | [] => none
  | w :: ws => if isTerminal w.w then some 1 else (entryLen ws).map (· + 1)

/-- Terminal words in a list. -/
def terminals (ws : List EWord) : Nat := (ws.filter fun w => isTerminal w.w).length

/-- The head entry may issue: its terminal word is in the queue, and that of its chained entry (R152, R176). -/
def headComplete (q : Nat) (ws : List EWord) : Bool :=
  match entryLen ws with
  | none => false
  | some n =>
    match ws[n - 1]? with
    | some w => !isChaining q w.w || (entryLen (ws.drop n)).isSome
    | none => false

/-- Sequence number of the head entry (R153). -/
def Queue.headSeq (v : Queue) : Nat := (v.nextSeq + 2 ^ 32 - terminals v.words) % 2 ^ 32

/-- The shape register a ZPUSH word names, if it names one (R163). -/
def zpushReg (w : BitVec 16) : Option Nat :=
  if w.toNat / 256 = 0xA9 ∧ w.toNat % 256 < 16 then some (w.toNat % 256) else none

/-- The pending-reader counts changed for the ZPUSH words of a list (R41). -/
def State.readers (s : State) (up : Bool) : List EWord → State
  | [] => s
  | w :: ws =>
    let s1 := match zpushReg w.w with
      | some z => s.setZpend z (if up then s.zpend z + 1 else s.zpend z - 1)
      | none => s
    State.readers s1 up ws

/-- Words of the tail entry: those after the last terminal word. -/
def tailLen (n : Nat) : List EWord → Nat
  | [] => n
  | w :: ws => tailLen (if isTerminal w.w then 0 else n + 1) ws

/-- No entry that the words extend or complete holds more than 64 words (R152); `n` words stand before them. -/
def tailOk (n : Nat) : List EWord → Bool
  | [] => true
  | w :: ws => decide (n < 64) && tailOk (if isTerminal w.w then 0 else n + 1) ws

/-- Number of words that the engines may issue or have issued and not finished: the tail that END discards begins after
them (R152, R176). -/
def completeWords (q : Nat) (fuel : Nat) (ws : List EWord) : Nat :=
  match fuel with
  | 0 => 0
  | k + 1 =>
    match entryLen ws with
    | none => 0
    | some n =>
      match ws[n - 1]? with
      | none => 0
      | some w =>
        if isChaining q w.w then
          match entryLen (ws.drop n) with
          | none => 0
          | some m => n + m + completeWords q k (ws.drop (n + m))
        else n + completeWords q k (ws.drop n)

/-! ### ENQ (R69) and END (R91) -/

/-- The words of an ENQ unit as they are placed. -/
def State.eWords (s : State) (ws : List (BitVec 16)) : List EWord :=
  ws.map fun w => { w := w, pc := s.core.pc, enq := s.cell.enqNo }

/-- Words appended to a queue: sequence numbers and pending readers rise (R69, R153). -/
def State.enqueue (s : State) (q : Nat) (ws : List EWord) : State :=
  let v := s.queue q
  let s1 := (s.readers true ws).setQueue q
    { v with words := v.words ++ ws, nextSeq := (v.nextSeq + terminals ws) % 2 ^ 32 }
  s1.setCell { s1.cell with enqNo := s1.cell.enqNo + 1 }

/-- The STACK check and the wait for room (R69, R152). -/
def enqChecks (s : State) (q : Nat) (ws : List EWord) : List Verdict :=
  let v := s.queue q
  [require (tailOk (tailLen 0 v.words) ws) Code.stack,
   await (decide (v.words.length + ws.length ≤ capacity q)) .queueFull]

/-- ENQW (R69). -/
def execEnqw (q : BitVec 5) (w : BitVec 16) (s : State) : Out :=
  let ws := s.eWords [w]
  settle (.enqw q w) s (acquireWait s :: enqChecks s q.toNat ws) (s.enqueue q.toNat ws)

/-- ENQG (R69). -/
def execEnqg (q : BitVec 5) (n : BitVec 2) (a : BitVec 5) (s : State) : Out :=
  let ws := s.eWords ((List.range (n.toNat + 1)).map fun i => BitVec.ofNat 16 (Word.bits (s.g a.toNat) (16 * i) 16))
  settle (.enqg q n a) s (scalarChecks s [(a.toNat, false)] [] ++ acquireWait s :: enqChecks s q.toNat ws)
    (s.enqueue q.toNat ws)

/-- ENQM (R69). -/
def execEnqm (q n : BitVec 5) (p : BitVec 2) (a : BitVec 5) (s : State) : Out :=
  let off := s.g a.toNat
  let len := 2 * (n.toNat + 1)
  let bs := s.coreView.storeBytes p.toNat off.toNat len
  let ws := s.eWords ((List.range (n.toNat + 1)).map fun i => BitVec.ofNat 16 (numOfBytes ((bs.drop (2 * i)).take 2)))
  settle (.enqm q n p a) s
    (scalarChecks s [(a.toNat, false)] [] ++ [acquireWait s, aligned off 2, storeCheck p.toNat off len] ++
      coreRead s p.toNat off.toNat len ++ enqChecks s q.toNat ws)
    ((s.askPort p.toNat [] none).enqueue q.toNat ws)

/-- The incomplete tail of a queue dropped; the numbers of the terminal words dropped are given back (R152, R176). -/
def State.dropTail (s : State) (q : Nat) : State :=
  let v := s.queue q
  let rest := if v.inChain then
      match entryLen v.words with
      | some n => n + completeWords q 256 (v.words.drop n)
      | none => 0
    else completeWords q 256 v.words
  let lost := v.words.drop rest
  (s.readers false lost).setQueue q
    { v with words := v.words.take rest, nextSeq := (v.nextSeq + 2 ^ 32 - terminals lost) % 2 ^ 32 }

/-- A control word (R185). -/
def Instr.isControl : Instr → Bool
  | .controlNop | .fenceq | .gate _ | .qgate _ | .signal _ | .mark | .capstart _ | .capstop _ => true
  | _ => false

/-- A started control-word entry that waits (R335). -/
def Entry.waits (e : Entry) : Bool := Instr.isControl e.op && e.fin.isNone

/-- Armed entries disarmed: one that is firing completes its firing first (R158, R182). -/
def disarmed (es : List Entry) : List Entry :=
  (es.filter fun e => e.fin.isNone).map fun e => { e with disarm := true }

/-- The frames of a handler discarded (R91): FSTAT.VALID and HELD clear, the latch records zero, no barrier recorded. Outside
a handler there is none to discard, and the frame registers keep what the last trap left. -/
def State.discardFrames (s : State) : State :=
  if Word.bits (s.readCsr 0x040) 0 2 = 0 then s.setCore { s.core with frameBar := [] }
  else
    let t := s.setCsr 0x040 (Word.setBits (s.readCsr 0x040) 0 2 0)
    (t.setCell { t.cell with fx := [] }).setCore { t.core with frameBar := [] }

/-- What END does when it retires (R91, R127, R152, R221): tails are dropped, armed entries that are not firing are
disarmed, the cell counts as arrived at every barrier, and saved frames are discarded. -/
def State.endCell (s : State) : State :=
  let s1 := (List.range 13).foldl State.dropTail s
  let s2 := s1.setCell { s1.cell with queues := s1.cell.queues.map fun v => { v with armed := disarmed v.armed } }
  let s3 := (s2.endRank s2.cell.rank).discardFrames
  s3.setCore { s3.core with status := .ended }

/-- The result goes to register space or to a g register. -/
def Dest.inRegs : Dest → Bool
  | .reg _ | .vec _ _ => true
  | _ => false

/-- END (R91): it waits until every result of the core toward register space and the g registers has landed. -/
def execEndI (s : State) : Out :=
  settle .endI s
    [await s.core.inflight.isEmpty .scoreboard,
     await (s.coreReplies.all (fun r => !r.dest.inRegs) && s.coreReqs.all (fun r => !r.dest.inRegs)) .memory]
    s.endCell

/-! ### Charging and faulting (R157, R158, R190, R222) -/

/-- Slot of a queue: 2 M, 3 C, 4 X. -/
def slotOf (q : Nat) : Nat := if q = 0 then 2 else if q ≤ 8 then 3 else 4

/-- A charge of an engine slot in this clk (R190). -/
def State.chargeEng (s : State) (slot enq : Nat) (c : Cause) (pc : Word) : State :=
  { s with acct := { s.acct with eng := s.acct.eng ++ [(slot, enq, c, pc)] } }

/-- A launch word of the matrix engine. -/
def Instr.isMatrix : Instr → Bool
  | .mpass .. | .mpassseg .. | .mpassgrp .. | .mdrain .. | .mzero => true
  | _ => false

/-- Slot that a started entry is charged to (R176). -/
def Entry.slot (e : Entry) : Nat := if Instr.isMatrix e.op then 2 else slotOf e.queue

def State.chargeEntry (s : State) (e : Entry) (c : Cause) : State := s.chargeEng (Entry.slot e) e.enq c e.pc

/-- Value n an entry popped. -/
def Entry.val (e : Entry) (n : Nat) : Word := e.vals[n]?.getD 0

/-- Bytes of a row of a CGATHER at the destination (R177). -/
def gatherOut (e : Entry) : Nat :=
  match e.op with
  | .cgather _ m => (if m.toNat = 1 then 4 else 1) * Word.bits (e.val 3) 0 24
  | _ => 1

/-- Offset of the scale bytes in the packed-block layout of n elements (R175). -/
def packedScales (fmt geo n : Nat) : Nat := (n / blockElems geo * blockBytes fmt geo + 63) / 64 * 64

/-- Of a stream of n bytes to be written at a byte d, of which x are known: how many can be written in whole aligned words
(R107). -/
def wordEnd (d x n : Nat) : Nat := if n ≤ x then n else x - (d + x) % 4

/-- Elements of a CCOPY of formatted pages that have been performed, whole blocks of a narrow format (R159). -/
def Entry.copied (e : Entry) (m : Nat) : Nat :=
  let a := (if m = 2 then e.start.dattr else e.start.sattr).getD (0, 0, 0)
  if m = 0 || !isNarrow a.1 then e.done
  else
    let el := blockElems a.2.1
    let n := (e.val 2).toNat
    let bb := blockBytes a.1 a.2.1
    let b := e.done / el
    match m, e.start.dst with
    | 3, .store _ off =>
      el * min (wordEnd off (bb * b) (bb * (n / el)) / bb) (wordEnd (off + packedScales a.1 a.2.1 n) b (n / el))
    | _, _ => el * b

/-- QPROG of an entry (R158, R159, R287). -/
def Entry.prog (e : Entry) : Word :=
  match e.op with
  | .mpass .. | .mpassseg .. | .mpassgrp .. => BitVec.ofNat 64 (e.done % 2 ^ 20 + 2 ^ 20 * (e.group % 16))
  | .mdrain .. | .mzero => BitVec.ofNat 64 (2 ^ 24 * (e.done % 32))
  | .xcoll _ => BitVec.ofNat 64 (e.done % 2 ^ 48 + 2 ^ 48 * e.group)
  | .ccopy _ _ _ m => BitVec.ofNat 64 (e.copied m.toNat % 2 ^ 48)
  | .cgather _ _ => BitVec.ofNat 64 (e.done / max 1 (gatherOut e))
  | _ => BitVec.ofNat 64 (e.done % 2 ^ 48)

/-- A tile moves from a state to another; in any other state it stays as it is (R231). -/
def Cell.moveTile (c : Cell) (h from' to' : Nat) : Cell :=
  if tileState (Sparse.get c.tiles h) = from' then c.setTileState h to' else c

/-- Tiles an entry holds released: filling ones become empty, draining ones ready (R158). -/
def Cell.releaseTiles (c : Cell) (e : Entry) : Cell :=
  e.drain.foldl (fun c h => c.moveTile h 3 2) (e.fill.foldl (fun c h => c.moveTile h 1 0) c)

/-- Tiles an entry holds at its completion: filling ones become ready, draining ones empty (R164). -/
def Cell.completeTiles (c : Cell) (e : Entry) : Cell :=
  e.drain.foldl (fun c h => c.moveTile h 3 0) (e.fill.foldl (fun c h => c.moveTile h 1 2) c)

/-- CIDX of a collective descriptor (R284). -/
def descCidx (d : List Word) : Nat := Word.bits (d[7]?.getD 0) 32 12

/-- Epoch of an XCOLL entry's firing (R286). -/
def Entry.epoch (e : Entry) : Nat := (Word.bits (e.start.desc[2]?.getD 0) 48 8 + e.firing) % 256

/-- Bytes that the chunk bitmaps of a posting take in the wings (R280). -/
def State.bitmapBytes (s : State) (p : Posting) : Nat := (tileLen (s.tile p.tile) / 64 * p.ranks.length + 7) / 8

/-- A posting taken from the table; its epoch and bitmaps are kept (R276, R282). -/
def State.retire (s : State) (p : Posting) : Coll :=
  { s.coll with
    postings := s.coll.postings.filter fun x => x.cidx != p.cidx
    last := { cidx := p.cidx, epoch := p.epoch, bitmap := p.bitmap, ranks := p.ranks, bytes := s.bitmapBytes p } ::
      s.coll.last.filter fun x => x.cidx != p.cidx }

/-- A posting withdrawn by a discard: its tile becomes empty (R158). -/
def State.withdraw (s : State) (cidx epoch : Nat) : State :=
  match s.coll.postings.find? fun p => p.cidx == cidx && p.epoch == epoch with
  | none => s
  | some p =>
    let s1 := s.setCell (s.cell.moveTile p.tile 1 0)
    { s1 with coll := s1.retire p }

/-! ### Operands of a pass (R165-R167, R245), and what a discarded entry holds -/

/-- The argument fields of a pass. -/
structure PassArg where
  a     : Nat
  b     : Nat
  zero  : Bool
  freeA : Bool
  freeB : Bool
  seg   : Bool
  grp   : Bool
  deriving DecidableEq, Repr

def passArg : Instr → PassArg
  | .mpass g f z b a => { a := a.toNat, b := b.toNat, zero := z, freeA := f, freeB := g, seg := false, grp := false }
  | .mpassseg g f z b a => { a := a.toNat, b := b.toNat, zero := z, freeA := f, freeB := g, seg := true, grp := false }
  | .mpassgrp z b a => { a := a.toNat, b := b.toNat, zero := z, freeA := false, freeB := false, seg := false, grp := true }
  | _ => { a := 0, b := 0, zero := false, freeA := false, freeB := false, seg := false, grp := false }

/-- Fields of PASS (R166). -/
def passC (v : Word) : Nat := Word.bits v 0 4
def passK (v : Word) : Nat := Word.bits v 4 20

/-- Format, geometry, table slot of an operand named by PASS; a bypass operand is BF16 (R168). -/
def passFmt (v : Word) (isB : Bool) (src : Nat) : Nat × Nat × Nat :=
  if isB then (Word.bits v 28 4, Word.bits v 34 2, Word.bits v 36 2)
  else if src = 3 then (1, 0, 0)
  else (Word.bits v 24 4, Word.bits v 32 2, Word.bits v 36 2)

/-- Rows of a group of an operand queue, and the K positions it covers (R245). -/
def groupShape (isB : Bool) (f : Nat × Nat × Nat) : Nat × Nat :=
  if f.1 = 1 then (if isB then (32, 16) else (16, 64))
  else (if isB then (blockElems f.2.1, blockElems f.2.1) else (16, 128))

/-- Format, geometry and slot of an operand of a started pass; a record gives its own (R166). -/
def Entry.operandFmt (e : Entry) (isB : Bool) : Nat × Nat × Nat :=
  let p := passArg e.op
  let src := if isB then p.b else p.a
  let own := if isB then e.start.recB[e.group]? else e.start.recA
  if src = 1 then
    match own with
    | some x => (x.fmt, x.geo, x.lslot)
    | none => (0, 0, 0)
  else passFmt (Entry.val e 0) isB src

/-- Every part of the row has landed. -/
def OqRow.landed (r : OqRow) : Bool := decide (r.parts = 0)

/-- The rows of an operand queue that a started pass holds: those of the group in progress (R160, R246). -/
def Cell.popHeld (c : Cell) (e : Entry) (isB : Bool) : Cell :=
  let p := passArg e.op
  let g := groupShape isB (e.operandFmt isB)
  let oq := (Entry.val e (if isB then 2 else 1)).toNat
  let rows := c.oq[oq]?.getD []
  let held := decide (e.done % g.2 ≠ 0) || (decide (g.1 ≤ rows.length) && (rows.take g.1).all OqRow.landed)
  if (if isB then p.b else p.a) = 2 && e.start.ready && e.fin.isNone && decide (passK (Entry.val e 0) ≠ 0) && held then
    { c with oq := c.oq.setIfInBounds oq (rows.drop g.1) }
  else c

/-- The held rows of a discarded entry popped (R246). -/
def Cell.popRows (c : Cell) (e : Entry) : Cell :=
  match e.op with
  | .mpass .. | .mpassseg .. | .mpassgrp .. => (c.popHeld e false).popHeld e true
  | _ => c

/-- What a discarded entry held (R158, R160). -/
def State.release (s : State) (e : Entry) : State :=
  let s1 := s.setCell ((s.cell.releaseTiles e).popRows e)
  if e.posted then s1.withdraw (descCidx e.start.desc) (Entry.epoch e) else s1

/-- Every entry of a queue discarded, tail included, and its armed entries disarmed; numbering continues (R158). An
armed firing in progress completes first: it stays. -/
def State.resetQueue (s : State) (q : Nat) : State :=
  let v := s.queue q
  let bad := fun (e : Entry) => match v.fault with
    | some f => f.armed && f.seq == e.seq
    | none => false
  let gone := v.run ++ v.chainEntry.toList ++ (s.cell.chained.filter fun e => e.queue == q) ++ v.armed.filter bad
  let s1 := gone.foldl State.release (s.readers false v.words)
  let s2 := s1.setQueue q
    { (s1.queue q) with words := [], stack := [], chain := [], inChain := false, chainEntry := none, run := [],
                        armed := disarmed (v.armed.filter fun e => !bad e), fault := none, stopped := false, issued := 0, waited := 0, gateWait := 0 }
  s2.setCell { s2.cell with chained := s2.cell.chained.filter fun e => e.queue != q }

/-- The answer is to a read of an engine entry with a queue and number. -/
def Reply.answersEntry (r : Reply) (q seq : Nat) : Bool :=
  r.queue == q && r.seq == seq && (match r.dest with
    | .entry _ _ => true
    | _ => false)

/-- Answers, read clocks and missed translations of an entry forgotten: a restarted entry reads afresh (R160). -/
def State.forgetReads (s : State) (q seq : Nat) : State :=
  { s with sys := { s.sys with
    replies := s.sys.replies.filter fun r => !r.answersEntry q seq
    readClks := s.sys.readClks.filter fun r => !(r.1 == q && r.2.1 == seq)
    missed := s.sys.missed.filter fun r => !(r.1 == q && r.2.1 == seq) } }

/-! ### DISCARD (R158, R176) -/

/-- A copy with CHAIN (R176). -/
def Entry.chains (e : Entry) : Bool :=
  match e.op with
  | .ccopy _ c _ _ => c
  | .cgather c _ => c
  | _ => false

/-- The copy whose chained entry is dropped completes without one (R176). -/
def Entry.unchain (e : Entry) : Entry :=
  match e.op with
  | .ccopy f _ r m => { e with op := .ccopy f false r m }
  | .cgather _ m => { e with op := .cgather false m }
  | _ => e

/-- Words of the head entry, with those of the entry chained to it (R176). -/
def headWords (q : Nat) (ws : List EWord) : Nat :=
  match entryLen ws with
  | none => 0
  | some n =>
    match ws[n - 1]? with
    | some w => if isChaining q w.w then n + (entryLen (ws.drop n)).getD 0 else n
    | none => n

/-- n words dropped from the head of a queue; pending readers are released (R41). -/
def State.dropWords (s : State) (q n : Nat) : State :=
  let v := s.queue q
  let s1 := s.readers false (v.words.take n)
  s1.setQueue q { (s1.queue q) with words := v.words.drop n }

/-- DISCARD of the entry at fault in a queue: at a word not yet issued, on the chained stack, handed over, armed, or
started (R158, R176). -/
def State.discardEntry (s : State) (q : Nat) (atWord : Bool) (seq : Nat) : State :=
  let v := s.queue q
  if atWord then
    let n := if v.inChain then (entryLen v.words).getD 0 else headWords q v.words
    let s1 := s.dropWords q n
    s1.setQueue q { (s1.queue q) with
      stack := [], chain := [], issued := 0, inChain := false, waited := 0, gateWait := 0
      run := if v.inChain then v.run.map Entry.unchain else v.run }
  else
    let gone := (v.run ++ v.armed ++ s.cell.chained.filter fun e => e.queue == q).filter fun e => e.seq == seq
    let s1 := gone.foldl State.release s
    let copy := gone.any Entry.chains
    let s2 := if copy && v.inChain then s1.dropWords q ((entryLen v.words).getD 0) else s1
    let s3 := s2.setQueue q { (s2.queue q) with
      run := v.run.filter fun e => e.seq != seq
      armed := v.armed.filter fun e => e.seq != seq
      chain := if copy then [] else v.chain
      inChain := v.inChain && !copy
      chainEntry := if copy then none else v.chainEntry }
    s3.setCell { s3.cell with chained := s3.cell.chained.filter fun e => !(e.queue == q && e.seq == seq) }

/-- END has retired (R91), also where the cell has been stopped since. -/
def State.isEnded (s : State) : Bool := s.core.status == .ended || s.cell.endedRanks.getLsbD s.cell.rank

/-- A double trap has stopped the cell (R202), also where it has been stopped again since. -/
def State.isDoubled (s : State) : Bool := s.core.status == .doubled || s.cell.endStatus == 2

/-- A fault of a queue recorded (R157): ENGINE is pended. After END the stage manager records its identity, cause and
progress and resets the queue; after a double trap it records them and the entry is discarded (R222). -/
def State.faultQueue (s0 : State) (q : Nat) (f : QFault) : State :=
  let s := s0.forgetReads q f.seq
  let told : State := { s with mgr := { s.mgr with reports := s.mgr.reports ++ [(f.cause, some (q, f))] } }
  if s.isEnded then
    let s1 := told.setCell { s.cell with endStatus := max s.cell.endStatus 1, endCause := f.cause }
    (s1.setQueue q { (s1.queue q) with fault := some f }).resetQueue q
  else if s.isDoubled then told.discardEntry q f.atWord f.seq
  else (s.setQueue q { (s.queue q) with fault := some f }).setCore { s.core with engPend := s.core.engPend ++ [q] }

/-- A started entry faults with its progress (R156, R157). -/
def State.faultEntry (s : State) (e : Entry) (cause : Nat) (addr : Word) : State :=
  s.faultQueue e.queue
    { cause := cause, addr := addr, seq := e.seq, pc := e.pc, prog := Entry.prog e, firing := e.firing, armed := e.armed,
      atWord := false }

/-- The entry of a queue with a sequence number faults, if it is still started (R385, R329). -/
def State.faultSeq (s : State) (q seq cause : Nat) (addr : Word) : State :=
  match ((s.queue q).run ++ (s.queue q).armed).find? fun e => e.seq == seq with
  | some e => s.faultEntry e cause addr
  | none => s

/-! ### Issuing words (R70, R71, R154, R155, R162) -/

/-- The word at the head of the active queue. -/
def State.headWord (s : State) : Option EWord := (s.queue s.actq).words.head?

/-- Terminal word of the head entry: the one that names its PC (R153). -/
def State.headTerminal (s : State) : Option EWord :=
  (s.queue s.actq).words.find? fun w => isTerminal w.w

/-- A fault of the head entry at a word or at its terminal word, with progress 0 (R156). -/
def State.wordFault (s : State) (cause : Nat) (addr : Word) : State :=
  let v := s.queue s.actq
  let pc := (s.headTerminal.map EWord.pc).getD 0
  s.faultQueue s.actq
    { cause := cause, addr := addr, seq := Queue.headSeq v, pc := pc, prog := 0, firing := 0, armed := false, atWord := true }

/-- The head word has issued: it leaves the queue, and a ZPUSH lowers its register's count (R41, R151). The engine's
parameter stack serves its entry (R155). -/
def State.takeWord (s : State) : State :=
  let v := s.queue s.actq
  let s1 := s.readers false (v.words.take 1)
  let s2 := if v.inChain then s1
    else s1.setCell { s1.cell with evals := s1.cell.evals.setIfInBounds (slotOf s.actq - 2) s.actq }
  s2.setQueue s.actq { (s2.queue s.actq) with words := v.words.drop 1, issued := v.issued + 1, waited := 0 }

/-- The stack the head entry is evaluated on, top first: a chained entry has its own (R155, R176). -/
def State.estack (s : State) : List Word :=
  let v := s.queue s.actq
  if v.inChain then v.chain else v.stack

def State.setStack (s : State) (st : List Word) : State :=
  let v := s.queue s.actq
  s.setQueue s.actq (if v.inChain then { v with chain := st } else { v with stack := st })

/-- The charge of a word of the head entry. -/
def State.chargeWord (s : State) (c : Cause) : State :=
  match s.headTerminal with
  | some w => s.chargeEng (slotOf s.actq) w.enq c w.pc
  | none => s

/-- A chained entry of the queue has not started: no word of the entry behind it issues (R154, R176). -/
def State.chainPending (s : State) (q : Nat) : Bool :=
  !(s.queue q).inChain && ((s.queue q).chainEntry.isSome || s.cell.chained.any fun e => e.queue == q)

/-- What holds back every word of the entry at the head: a control word in front that has not completed, so that a shape
register pushed behind a gate is read after it (R185, R244, log 23), or a chained entry that has not started (R154, R176). -/
def State.wordHeld (s : State) (q : Nat) : Option Cause :=
  if (s.queue q).inChain then none
  else if (s.queue q).run.any (fun e => Instr.isControl e.op) then some .orderWait
  else if s.chainPending q then some .memory
  else none

/-- A literal, extension or stack word: STACK where it needs more values than there are or leaves more than eight,
then ILLEGAL for its argument (R71, R156). -/
def stackWord (need : Nat) (argOk : Bool) (f : List Word → List Word) (s : State) : Out :=
  let st := s.estack
  let st1 := f st
  match s.wordHeld s.actq with
  | some c => .next (s.chargeWord c)
  | none =>
    if st.length < need || decide (8 < st1.length) then .next (s.wordFault Code.stack 0)
    else if !argOk then .next (s.wordFault Code.illegal 0)
    else .next (((s.chargeWord .issued).setStack st1).takeWord)

/-- LIT (R70). -/
def execLit (v : BitVec 15) (s : State) : Out := stackWord 0 true (fun st => v.zeroExtend 64 :: st) s

/-- EXT (R70). -/
def execExt (v : BitVec 13) (s : State) : Out :=
  stackWord 1 true (fun st => match st with
    | a :: r => (a <<< 13 ||| v.zeroExtend 64) :: r
    | [] => []) s

/-- DUP (R162). -/
def execDup (s : State) : Out := stackWord 1 true (fun st => match st with
  | a :: r => a :: a :: r
  | [] => []) s

/-- DROP (R162). -/
def execDrop (s : State) : Out := stackWord 1 true (fun st => st.drop 1) s

/-- SWAP (R162). -/
def execSwap (s : State) : Out := stackWord 2 true (fun st => match st with
  | a :: b :: r => b :: a :: r
  | r => r) s

/-- OVER (R162). -/
def execOverI (s : State) : Out := stackWord 2 true (fun st => match st with
  | a :: b :: r => b :: a :: b :: r
  | r => r) s

/-- A word that replaces next and top by one value. -/
def binaryWord (f : Word → Word → Word) (s : State) : Out :=
  stackWord 2 true (fun st => match st with
    | top :: next :: r => f next top :: r
    | r => r) s

/-- EADD (R162). -/
def execEadd (s : State) : Out := binaryWord (· + ·) s
/-- ESUB (R162). -/
def execEsub (s : State) : Out := binaryWord (· - ·) s
/-- EMUL (R162). -/
def execEmul (s : State) : Out := binaryWord (· * ·) s
/-- EOR (R162). -/
def execEor (s : State) : Out := binaryWord (· ||| ·) s

/-- ESHL (R162): arguments 64-255 are illegal. -/
def execEshl (n : BitVec 8) (s : State) : Out :=
  stackWord 1 (n.toNat < 64) (fun st => match st with
    | a :: r => (a <<< n.toNat) :: r
    | [] => []) s

/-- ZPUSH (R162, R163): arguments 16-255 are illegal; the value is that of the clk's start (R94). -/
def execZpush (z : BitVec 8) (s : State) : Out :=
  stackWord 0 (z.toNat < 16) (fun st => (s.zForEngine z.toNat).zeroExtend 64 :: st) s

/-! ### Starting entries (R154, R156, R164, R173, R176, R217) -/

/-- What a launch or control word finds at its issue: it starts, waits or faults. -/
inductive Begin where
  | go (s : State) (e : Entry)
  | wait (s : State) (c : Cause)
  | fault (cause : Nat) (addr : Word)
  deriving Repr

/-- Nothing read at a start. -/
def Start.none : Start :=
  { src := .none, dst := .none, sattr := .none, dattr := .none, got := [], ready := false, acc := 0, recA := .none, recB := [], seg := .none, desc := [], list := [], byp := [], bypAt := 0, table := [] }

/-- The entry of a terminal word, with the values it pops in push order. -/
def State.newEntry (s : State) (i : Instr) : Entry :=
  let v := s.queue s.actq
  let w := s.headTerminal
  { queue := s.actq, seq := Queue.headSeq v, pc := (w.map EWord.pc).getD 0, enq := (w.map EWord.enq).getD 0,
    lead := if v.inChain then ((v.run.getLast?).map Entry.enq).getD 0 else (w.map EWord.enq).getD 0, begun := s.clk, op := i,
    vals := s.estack.reverse, done := 0, next := 0, group := 0, firing := 0, fill := [], drain := [], fin := none,
    chained := v.inChain, posted := false, armed := false, trig := false, disarm := false, start := Start.none, waited := 0 }

/-- Bit t of CUETRUE: the latest evaluation of term t (R218). -/
def State.termTrue (s : State) (t : Nat) : Bool := (s.readCsr 0x150).getLsbD t

/-- Word p of term t under the definition in force in this clk (R219). -/
def State.termSeen (s : State) (t p : Nat) : Word :=
  match s.core.termOld with
  | some (u, ws) => if u = t then ws[p]?.getD 0 else s.term t p
  | none => s.term t p

/-- A standing gate holds the queue (R217). -/
def State.gated (s : State) (q : Nat) : Bool :=
  (List.range 16).any fun t =>
    let c := s.termSeen t 7
    c.getLsbD 14 && c.getLsbD q && !s.termTrue t

/-- The matrix engine runs a matrix entry, or holds a faulted one (R173). -/
def State.matrixBusy (s : State) : Bool := s.running.any fun e => Instr.isMatrix e.op

/-- A matrix entry has faulted at a word, in MQ or on a chained stack: it keeps the engine (R173). -/
def State.matrixFaulted (s : State) : Bool :=
  (List.range 9).any fun q =>
    let v := s.queue q
    match v.fault with
    | some f => f.atWord && (v.inChain || (q == 0 && (match v.words.find? fun w => isTerminal w.w with
        | some w => decide (w.w.toNat < 0xE000)
        | none => false)))
    | none => false

/-- Entries may start: the context runs or has ended and the queue is not stopped (R202, R335, R372). -/
def State.mayStart (s : State) (q : Nat) : Bool :=
  (s.core.status == .running || s.core.status == .ended) && !(s.queue q).stopped && (s.queue q).fault.isNone

/-- Started entries of an engine: CQ0-CQ7 or XQ0-XQ3. -/
def State.startedOn (s : State) (q : Nat) : Nat :=
  (s.running.filter fun e => slotOf e.queue == slotOf q && !Instr.isMatrix e.op).length

/-- What holds a terminal word back before it is looked at: what holds back every word of its entry, on MQ an entry that the matrix engine runs or has been handed (R151, R173), a standing gate (R217),
the limits of R151 and R180. -/
def State.startHeld (s : State) : Option Cause :=
  let q := s.actq
  let v := s.queue q
  if v.inChain then none
  else if (s.wordHeld q).isSome then s.wordHeld q
  else if q = 0 && (!v.run.isEmpty || s.matrixBusy || !s.cell.chained.isEmpty || s.matrixFaulted) then some .memory
  else if s.gated q then some .cueWait
  else if q ≠ 0 && decide ((if q ≤ 8 then 256 else 64) ≤ s.startedOn q) then some .memory
  else none

/-- The entry has started: its words have left the queue, its values the stack (R154, R155). -/
def State.started (s : State) (e : Entry) : State :=
  let s1 := s.takeWord
  let v := s1.queue s.actq
  s1.setQueue s.actq { v with stack := [], issued := 0, run := v.run ++ [e], inChain := e.chains }

/-- The evaluated chained entry is kept until its copy has been written (R176). -/
def State.keepChained (s : State) (e : Entry) : State :=
  let s1 := s.takeWord
  s1.setQueue s.actq { (s1.queue s.actq) with chain := [], issued := 0, inChain := false, chainEntry := some e }

/-- The identity of an entry in a record (R364). -/
def Entry.who (e : Entry) : Who := { queue := e.queue, seq := e.seq, pc := e.pc }

/-- Predicates of a group of a term (R215). -/
def State.groupPreds (s : State) (t g : Nat) : List Nat :=
  (List.range 7).filter fun p => (s.termSeen t p).getLsbD 40 && decide (Word.bits (s.termSeen t p) 38 2 = g)

def State.predHolds (s : State) (t p : Nat) : Bool :=
  reached (s.cueSeen (Word.bits (s.termSeen t p) 32 6)) (Word.half (s.termSeen t p) 0)

/-- A group is true: it has a valid predicate, and all of them hold (R216). -/
def State.groupTrue (s : State) (t g : Nat) : Bool :=
  !(s.groupPreds t g).isEmpty && (s.groupPreds t g).all (s.predHolds t)


/-- Counter and agent that ended a wait of some clk on a term: those of the predicate, of the group that became true,
whose counter was incremented last; after a QTERM with no increment, predicate 0's and agent 0 (R220). -/
def State.termEnd (s : State) (t clk : Nat) : Nat × Nat :=
  let g := ((List.range 4).find? (s.groupTrue t)).getD 0
  let ctr := fun p => Word.bits (s.termSeen t p) 32 6
  let best := (s.groupPreds t g).foldl (fun (b : Option Nat) p => match b with
    | none => some p
    | some q => if (s.lastBump (ctr q)).1 < (s.lastBump (ctr p)).1 then some p else b) none
  match best with
  | some p =>
    if s.clk ≤ (s.lastBump (ctr p)).1 + clk + 1 then (ctr p, (s.lastBump (ctr p)).2)
    else (ctr (((s.groupPreds t g).head?).getD 0), 0)
  | none => (ctr 0, 0)

/-- The wait-graph record of a wait on a term (R220). -/
def State.termRecord (s : State) (who : Who) (t clk : Nat) : State :=
  let x := s.termEnd t clk
  s.waitRecord who x.1 x.2 (some t) clk

/-- The record of a standing gate's wait, once the head entry is let go: the term whose counter was incremented last
(R217, R220). -/
def State.gateRecord (s : State) (who : Who) : State :=
  let v := s.queue s.actq
  let terms := (List.range 16).filter fun t => (s.termSeen t 7).getLsbD 14 && (s.termSeen t 7).getLsbD s.actq
  let last := terms.foldl (fun (b : Option Nat) t => match b with
    | none => some t
    | some u => if (s.lastBump (s.termEnd u v.gateWait).1).1 < (s.lastBump (s.termEnd t v.gateWait).1).1 then some t else b) none
  match last with
  | some t =>
    if v.gateWait = 0 then s
    else let s1 := s.termRecord who t v.gateWait; s1.setQueue s.actq { (s1.queue s.actq) with gateWait := 0 }
  | none => s

/-- The terminal word waits, and with it its entry, whose values it keeps (R155). -/
def State.wordWaits (s : State) (c : Cause) : State :=
  let v := s.queue s.actq
  let s1 := s.chargeWord c
  s1.setQueue s.actq { (s1.queue s.actq) with
    waited := v.waited + 1, gateWait := if c = .cueWait then v.gateWait + 1 else v.gateWait }

/-- The wait at a standing gate is over once its terms are true: it is recorded, whatever the entry does next (R217,
R220). -/
def State.pastGate (s : State) (i : Instr) : State :=
  if (s.queue s.actq).inChain || s.gated s.actq then s else s.gateRecord (s.newEntry i).who

/-- A terminal word past what holds it back: word checks, then its start (R155, R156). `argOk` is false for an argument
the word may not hold; on the chained stack only matrix words are legal (R176). -/
def terminalStart (i : Instr) (pops : Nat) (argOk : Bool) (start : State → Entry → Begin) (s : State) : State :=
  let v := s.queue s.actq
  if s.estack.length ≠ pops then s.wordFault Code.stack 0
  else if !argOk || (v.inChain && !Instr.isMatrix i) then s.wordFault Code.illegal 0
  else
    let e := s.newEntry i
    if v.inChain then (s.chargeWord .issued).keepChained e
    else match start s e with
      | .go s1 e1 => (s1.chargeWord .issued).started e1
      | .wait t c => t.wordWaits c
      | .fault c a => (if c = Code.machine then s.countErrors (s.gcell / 64) 0 1 else s).wordFault c a

/-- A terminal word. -/
def terminalWord (i : Instr) (pops : Nat) (argOk : Bool) (start : State → Entry → Begin) (s : State) : Out :=
  let t := s.pastGate i
  match t.startHeld with
  | some c => .next (t.wordWaits c)
  | none => .next (terminalStart i pops argOk start t)

/-! ### Control words (R185-R189) -/

/-- A control-word entry that completes as soon as it is the oldest of its queue. -/
def beginDone (s : State) (e : Entry) : Begin := .go s { e with fin := some s.clk }

/-- A control-word entry that waits for its condition. -/
def beginWaiting (s : State) (e : Entry) : Begin := .go s e

/-- NOP of the engines (R185). -/
def execControlNop (s : State) : Out := terminalWord .controlNop 0 true beginDone s

/-- FENCEQ (R186): MASK bits 63:13 are zero. -/
def execFenceq (s : State) : Out :=
  terminalWord .fenceq 1 true
    (fun s e => if Word.bits (Entry.val e 0) 13 51 = 0 then beginWaiting s e else .fault Code.illegal 0) s

/-- GATE (R188). -/
def execGate (t : BitVec 4) (s : State) : Out := terminalWord (.gate t) 0 true beginWaiting s

/-- QGATE (R188): THRESH bits 63:32 are zero. -/
def execQgate (n : BitVec 6) (s : State) : Out :=
  terminalWord (.qgate n) 1 true
    (fun s e => if Word.bits (Entry.val e 0) 32 32 = 0 then beginWaiting s e else .fault Code.illegal 0) s

/-- SIGNAL (R187). -/
def execSignal (n : BitVec 6) (s : State) : Out := terminalWord (.signal n) 0 true beginWaiting s

/-- MARK (R185, R366). -/
def execMark (s : State) : Out :=
  terminalWord .mark 1 true
    (fun s e => beginDone (s.emit 1 (Entry.who e) (Entry.val e 0) s.acct.elapsed) e) s

/-- CAPSTART (R189). -/
def execCapstart (c : BitVec 3) (s : State) : Out := terminalWord (.capstart c) 0 true beginWaiting s

/-- CAPSTOP (R189). -/
def execCapstop (c : BitVec 3) (s : State) : Out := terminalWord (.capstop c) 0 true beginWaiting s

/-! ### Entries' accesses -/

/-- No access of an entry is on its way: its writes have been performed and acknowledged (R154, R359). -/
def State.entryIdle (s : State) (q seq : Nat) : Bool :=
  (s.sys.reqs ++ s.fab.out).all (fun r => !(r.mine && r.queue == q && r.seq == seq)) &&
  s.sys.replies.all (fun r => !(r.queue == q && r.seq == seq)) &&
  s.sys.acks.all (fun a => !(a.1 == q && a.2 == seq)) &&
  s.coll.outHeld.all (fun r => !(r.queue == q && r.seq == seq))

/-- A started entry replaced by its new value. -/
def State.putEntry (s : State) (e : Entry) : State :=
  let v := s.queue e.queue
  let upd := fun (f : Entry) => if f.seq = e.seq then e else f
  s.setQueue e.queue (if e.armed then { v with armed := v.armed.map upd } else { v with run := v.run.map upd })

/-- Evaluated entries of a queue that have not completed, the oldest first. -/
def State.uncompleted (s : State) (q : Nat) : List Entry :=
  (s.cell.chained.filter fun e => e.queue == q) ++ (s.queue q).run ++ (s.queue q).chainEntry.toList

/-- Every entry of a queue whose terminal word was placed before ENQ number n has completed, chained ones included
(R186). -/
def State.doneBefore (s : State) (q n : Nat) : Bool :=
  (s.uncompleted q).all (fun e => decide (n ≤ e.enq)) &&
    (s.queue q).words.all (fun w => !isTerminal w.w || decide (n ≤ w.enq))

end Sys2Proof.Machine
end

