-- ==== Sys2Proof/Machine/Engines.lean ====
section
/-!
DEFINITION. What the three engines share: value checks (R156), tiles named by launch words (R164), places (R174), the
engines' own reads and writes (R226-R230, R251, R273), waiting, advancing and faulting (R157, R190).
-/

namespace Sys2Proof.Machine

/-! ### Value checks (R156) -/

/-- A check of an entry: the cause and the address where it fails. -/
abbrev Check := Option (Nat × Word)

def needs (ok : Bool) (code : Nat) : Check := if ok then none else some (code, 0)

/-- A check whose failure names an address. -/
def needsAt (ok : Bool) (code : Nat) (va : Word) : Check := if ok then none else some (code, va)

/-- The first check that fails. -/
def firstBad : List Check → Check
  | [] => none
  | none :: cs => firstBad cs
  | some c :: _ => some c

/-- A start that goes on once its checks pass. -/
def begins (cs : List Check) (k : Begin) : Begin :=
  match firstBad cs with
  | some c => .fault c.1 c.2
  | none => k


/-! ### Tiles (R164, R231-R233) -/

/-- What an entry does with a tile it names. -/
inductive Role where
  | whole | accum | read | readFree
  deriving DecidableEq, Repr

/-- The state a start waits for. -/
def Role.waits : Role → Nat
  | .whole => 0
  | _ => 2

def State.tilesReady (s : State) (hs : List (Nat × Role)) : Bool :=
  hs.all fun h => tileState (s.tile h.1) == h.2.waits

/-- Takes the tiles at a start. A tile taken draining drops a pending TSETRDY (R233). -/
def State.takeTiles (s : State) (e : Entry) : List (Nat × Role) → State × Entry
  | [] => (s, e)
  | (h, r) :: hs =>
    match r with
    | .read => State.takeTiles s e hs
    | .readFree => State.takeTiles (s.setCell ((s.cell.dropReady h).setTileState h 3)) { e with drain := e.drain ++ [h] } hs
    | _ => State.takeTiles (s.setCell (s.cell.setTileState h 1)) { e with fill := e.fill ++ [h] } hs

/-- A start that waits for its tiles, charged to TILE, and takes them. -/
def startWith (s : State) (e : Entry) (hs : List (Nat × Role)) (k : State → Entry → Begin) : Begin :=
  if s.tilesReady hs then
    let x := s.takeTiles e hs
    k x.1 x.2
  else .wait s .tile

/-- A handle operand: bits above 7:0 zero, and a region bound (R156). -/
def State.handleFine (s : State) (v : Word) : Bool :=
  decide (Word.bits v 8 56 = 0) && decide (tileLen (s.tile (handle v)) ≠ 0)

/-! ### Places (R174) -/

def placeKind (v : Word) : Nat := Word.bits v 62 2

/-- The value is a well-formed place. -/
def placeOk (v : Word) : Bool :=
  match placeKind v with
  | 0 => decide (Word.bits v 56 6 = 0)
  | 1 => decide (Word.bits v 56 2 < 3) && decide (Word.bits v 58 4 = 0) && decide (Word.bits v 24 32 = 0)
  | 2 => decide (Word.bits v 48 14 = 0) && decide (Word.bits v 8 16 = 0)
  | _ => false

/-- Handle of a tile place. -/
def placeTile (v : Word) : Nat := Word.bits v 0 8

/-- The place resolved to an address, or to a store and an offset. -/
def State.place (s : State) (v : Word) : Place :=
  match placeKind v with
  | 0 => .glob (canon (Word.bits v 0 56))
  | 1 => .store (Word.bits v 56 2) (Word.bits v 0 24)
  | _ => let d := s.tile (placeTile v); .store (tileStore d) (tileOff d + Word.bits v 24 24)

/-- The tile an entry names by a place, with its role. -/
def placeHold (v : Word) (r : Role) : List (Nat × Role) := if placeKind v = 2 then [(placeTile v, r)] else []

/-- TILE: a tile place that is unbound, or too small for n bytes. -/
def State.placeFits (s : State) (v : Word) (n : Nat) : Check :=
  needs (placeKind v ≠ 2 ||
    (decide (tileLen (s.tile (placeTile v)) ≠ 0) && decide (Word.bits v 24 24 + n ≤ tileLen (s.tile (placeTile v))))) Code.tile

/-- PROTECT: an access beyond a store, or of a store the engine may not use (R174, R227). -/
def placeBounds (p : Place) (n : Nat) (stores : List Nat) : Check :=
  match p with
  | .store st off => needs (stores.contains st && decide (off + n ≤ storeSize st)) Code.protect
  | _ => none

/-- Bytes of misalignment of a place. -/
def placeMod (p : Place) (n : Nat) : Nat :=
  match p with
  | .store _ off => off % n
  | .glob va => va.toNat % n
  | .none => 0

/-! ### Reads and writes of engines -/

/-- Energy of an access to memory, by kind (R346). -/
def State.countMem (s : State) (pa n : Nat) : State :=
  s.count (if pa < 0x1000000000000 then 15 else if pa < 0x2000000000000 then 16 else 17) (per64 n)

/-- The clock that a walk for an entry was asked with, if it has missed the translation (R255, R324). -/
def State.missedAt (s : State) (e : Entry) (va : Word) : Option (List Nat) :=
  (s.sys.missed.find? fun m =>
    m.1 == e.queue && m.2.1 == e.seq && decide (Word.bits m.2.2.1 16 40 = Word.bits va 16 40)).map fun m => m.2.2.2

/-- The page of an engine's access: a touch of the window is a PROTECT fault; a translation that is missing is walked for,
and waited for, once the homes can answer the walk's reads (R321, R324, R326). -/
def State.enginePage (s : State) (e : Entry) (va : Word) (acc : Access) : State × Got Page :=
  if inWindow va then (s, .fault Code.protect va)
  else
    let found : State × Got Page := match (s.count 21 1).reach va acc s.system with
      | (t, .ok p) => (t, .ok p)
      | (t, .error c) => (t, .fault c va)
    if !canonical va || (s.cachedFor va acc).isSome then found
    else match s.missedAt e va with
      | none =>
        ({ s with sys := { s.sys with missed := (e.queue, e.seq, va, s.vcOf s.die) :: s.sys.missed } }, .wait .translation)
      | some c => if s.readOpen c then found else (s, .wait .translation)

/-- Bytes from an address to the end of its page. -/
def Page.room (p : Page) (va : Word) : Nat := p.base + p.size - va56 va

/-- Where the answer to an entry's read of another module goes: start reads are numbered, those already answered counted
(R269). -/
def Entry.readDest (e : Entry) (va : Word) : Dest := .entry e.start.got.length va.toNat

/-- The answer to a read that an entry sent to another module, if it has come. -/
def State.entryReply (s : State) (e : Entry) (va : Word) : Option Reply :=
  s.sys.replies.find? fun r => r.queue == e.queue && r.seq == e.seq && r.dest == e.readDest va

/-- Such a read is on its way. -/
def State.entryAsked (s : State) (e : Entry) (va : Word) : Bool :=
  (s.sys.reqs ++ s.fab.out).any fun r => r.mine && r.queue == e.queue && r.seq == e.seq && r.dest == e.readDest va

/-- Answers that the entry has used are dropped. -/
def State.dropReplies (s : State) (e : Entry) : State :=
  { s with sys := { s.sys with replies := s.sys.replies.filter fun r => !r.answersEntry e.queue e.seq } }

/-- The clock of the entry's reads: that of the clk in which it first asked for them (R255, R261). -/
def State.readClkOf (s : State) (e : Entry) : List Nat :=
  ((s.sys.readClks.find? fun r => r.1 == e.queue && r.2.1 == e.seq).map fun r => r.2.2).getD (s.vcOf s.die)

/-- Reads of an entry may be answered by the homes of this module (R256, R258, R261). -/
def State.homesReady (s : State) (e : Entry) : Bool := s.holds (s.readClkOf e) none && !s.trafficHeld false

/-- The entry waits for its reads: their clock is kept (R255, R261). -/
def State.noteReads (s : State) (e : Entry) : State :=
  if s.sys.readClks.any fun r => r.1 == e.queue && r.2.1 == e.seq then s
  else { s with sys := { s.sys with readClks := (e.queue, e.seq, s.vcOf s.die) :: s.sys.readClks } }

/-- The clock of reads that have been answered is forgotten. -/
def State.readsDone (s : State) (e : Entry) : State :=
  { s with sys := { s.sys with readClks := s.sys.readClks.filter fun r => !(r.1 == e.queue && r.2.1 == e.seq) } }


/-- n bytes of one page, from the home of the page once it holds the entry's clock, with a join of the home's (R255, R256,
R261), or asked of another module; nothing at the address is refused as R329 refuses it (log 23). -/
def State.readPage (s : State) (e : Entry) (va : Word) (p : Page) (n : Nat) : State × Got (List Byte) :=
  let pa := p.pa (va56 va)
  if (s.remote (some p)).isSome then
    match s.entryReply e va with
    | some r => if r.bad then (s, .fault Code.machine va) else (s, .ok ((r.row.map OqRow.bytes).getD []))
    | none =>
      if s.entryAsked e va || s.trafficHeld false || !s.farRoom p false 1 then (s, .wait .memory)
      else (s.send (Entry.who e) (.load n) va (some p) pa (e.readDest va) false, .wait .memory)
  else if !s.homesReady e then (s.noteReads e, .wait .memory)
  else if !s.presentPa pa || !s.presentPa (pa + n - 1) then (s, .fault Code.fabric va)
  else match s.readLines [(pa, n)] with
    | (t, true) => (t, .fault Code.machine va)
    | (t, false) => ((t.joinHomes [pa]).countMem pa n, .ok (t.bytes pa n))

/-- n bytes at an address, on at most two pages, each of which passes a test of its attributes. -/
def State.fetch (s : State) (e : Entry) (va : Word) (n : Nat) (ok : Page → Bool) : State × Got (List Byte) :=
  match s.enginePage e va .read with
  | (t, .ok p) =>
    if !ok p then (t, .fault Code.format va)
    else
      let m := min n (p.room va)
      match t.readPage e va p m with
      | (u, .ok bs) =>
        if n ≤ m then (u, .ok bs)
        else
          let a := va + BitVec.ofNat 64 m
          match u.enginePage e a .read with
          | (v, .ok q) =>
            if !ok q then (v, .fault Code.format a)
            else match v.readPage e a q (n - m) with
              | (w, .ok cs) => (w, .ok (bs ++ cs))
              | r => r
          | (v, .wait c) => (v, .wait c)
          | (v, .fault c a) => (v, .fault c a)
      | r => r
  | (t, .wait c) => (t, .wait c)
  | (t, .fault c a) => (t, .fault c a)

/-- A page whose bytes engines read as bytes; a reserved collective operation is a FORMAT fault (R175, R274). -/
def Page.plain (p : Page) : Bool := decide (p.fmt < 4) && p.coll != 3

/-- Reads several things, in order; the first that faults or waits decides, and what stands behind one that waits is asked
for as well, but for one that faults. -/
def gather {ι β : Type} (f : State → ι → State × Got β) : State → List ι → State × Got (List β)
  | s, [] => (s, .ok [])
  | s, i :: is =>
    match f s i with
    | (t, .ok b) =>
      match gather f t is with
      | (u, .ok bs) => (u, .ok (b :: bs))
      | r => r
    | (t, .wait c) =>
      match gather f t is with
      | (_, .fault _ _) => (t, .wait c)
      | (u, _) => (u, .wait c)
    | (t, .fault c a) => (t, .fault c a)

/-- A place in a store as a fault names it: R174's form, so that store and offset are both named (R230). -/
def storeName (st off : Nat) : Word := BitVec.ofNat 64 (2 ^ 62 + 2 ^ 56 * st + off)

/-- n bytes of a store: an uncorrectable word faults the entry, a correctable one is corrected and delays it (R230). -/
def State.readStore (s : State) (st off n : Nat) : State × Got (List Byte) :=
  let errs := s.storeErrors st off n
  match errs.find? fun e => decide (1 < e.2.toNat) with
  | some e => (s.countErrors (s.gcell / 64) 0 1, .fault Code.machine (storeName st (4 * (e.1 % 2 ^ 24))))
  | none =>
    if errs.isEmpty then (s.count (9 + st) (per64 n), .ok (s.storeBytes st off n))
    else
      (((s.setCell { s.cell with storeErr := s.cell.storeErr.filter fun e => !errs.contains e }).count 27 errs.length).countErrors
        (s.gcell / 64) errs.length 0, .wait .memory)

/-- Contributions of consecutive words from a tile offset on, one for each 64-byte range (R275). -/
def splitChunks : Nat → Nat → List Lane → List (Nat × List Lane)
  | 0, _, _ => []
  | fuel + 1, off, ws =>
    if ws.isEmpty then []
    else
      let n := 16 - off % 64 / 4
      (off, ws.take n) :: splitChunks fuel (off + 4 * n) (ws.drop n)

/-- Bytes written to one page: a write, or contributions on a collective page (R273, R275). -/
def State.writePage (s : State) (e : Entry) (va : Word) (p : Page) (bs : List Byte) : State :=
  if p.coll = 0 then s.sendStore (Entry.who e) va p bs
  else
    let c := s.contrib p (va56 va) []
    (splitChunks bs.length c.off (lanesOfBytes (bs.length / 4) bs)).foldl (fun t w =>
      t.sendContrib (Entry.who e) (va + BitVec.ofNat 64 (w.1 - c.off)) p
        { c with off := w.1, words := w.2, chunk := true }) s

/-- Requests that a write of n bytes to a page makes: one for each 64-byte range of the tile on a collective page (R275). -/
def State.writeRequests (s : State) (va : Word) (p : Page) (n : Nat) : Nat :=
  if p.coll = 0 then 1
  else
    let d := (s.contrib p (va56 va) []).off
    (d + n + 63) / 64 - d / 64

/-- The checks of a page that an entry writes bytes to (R175, R273): formats allowed, and on a collective page whole
words. -/
def writeFine (p : Page) (fmts : List Nat) (va : Word) (n : Nat) : Check :=
  firstBad [needsAt (fmts.contains p.fmt && p.coll != 3 && (p.coll == 0 || p.fmt == 0 || p.fmt == 3)) Code.format va,
            needsAt (p.coll == 0 || (decide (va.toNat % 4 = 0) && decide (n % 4 = 0))) Code.align va]

/-! ### Advancing (R157, R190, R224) -/

/-- A queue's started entries advance: it is neither faulted nor stopped, and the context is on its cell. -/
def State.mayAdvance (s : State) (q : Nat) : Bool :=
  (match s.core.status with
    | .absent => false
    | .away => false
    | .completed => false
    | _ => true) && !(s.queue q).stopped && (s.queue q).fault.isNone

/-- The oldest started entry of a queue. -/
def State.headEntry (s : State) (q : Nat) : Option Entry := (s.queue q).run.head?

/-- The entry waits in this clk. -/
def State.stalls (s : State) (e : Entry) (c : Cause) : State :=
  (s.putEntry { e with waited := e.waited + 1 }).chargeEntry e c

/-- The entry has advanced in this clk. -/
def State.advances (s : State) (e : Entry) : State :=
  ((s.readsDone e).putEntry { e with waited := 0 }).chargeEntry e .issued

/-- Writes to some stores that the control core asked for before the ENQ of an entry have not been granted: the entry's
own accesses come after them (R154). -/
def State.coreAhead (s : State) (e : Entry) (sts : List Nat) : Bool :=
  s.core.posted.any fun p => sts.contains p.st && !p.parts.isEmpty && decide (p.enq ≤ e.enq)

/-- The entry faults with the progress it holds. -/
def State.breaks (s : State) (e : Entry) (code : Nat) (addr : Word) : State :=
  (s.putEntry e).faultEntry e code addr

/-- The entry's work is done at a clk. -/
def Entry.finish (e : Entry) (clk : Nat) : Entry := { e with fin := some clk }

/-- Writes sent by the entry have all been performed: its progress reaches them (R159). -/
def State.settled (s : State) (e : Entry) : Bool := s.entryIdle e.queue e.seq

end Sys2Proof.Machine
end

