-- ==== Sys2Proof/Machine/Matrix.lean ====
section
/-!
DEFINITION. The matrix engine: MPASS, MPASSSEG, MPASSGRP, MDRAIN, MZERO (R165-R173), operands in tiles, layout records
and operand queues (R239-R246), segment masks (R247-R248), the chunk of R37 and R238, and chained entries (R176).
-/

namespace Sys2Proof.Machine

/-! ### Arguments and values (R165, R166, R169, R170) -/

/-- The argument holds no reserved value (R165, R170). -/
def PassArg.legal (p : PassArg) : Bool :=
  decide (p.b ≠ 3) && (!p.freeA || decide (p.a = 0)) && (!p.freeB || decide (p.b = 0)) &&
  (!p.grp || ((p.a == 1 || p.a == 2) && p.b == 1))

/-- A format the array takes: BF16, or a narrow one with a geometry (R16, R22, R36). -/
def passFmtOk (f : Nat × Nat × Nat) : Bool := f.1 == 1 || (isNarrow f.1 && f.2.1 != 3)

/-- A pairing R36 allows. -/
def pairsWith (fa fb : Nat) : Bool := (isNarrow fa && isNarrow fb) || (fa == 1 && fb == 1)

/-- Blocks along K (R239). -/
def blocksAlong (geo k : Nat) : Nat := (k + blockElems geo - 1) / blockElems geo

/-- Offset of the scale bytes of a tile operand of R lines (R239). -/
def scaleBase (f : Nat × Nat × Nat) (k lines : Nat) : Nat :=
  (blocksAlong f.2.1 k * blockBytes f.1 f.2.1 * lines + 63) / 64 * 64

/-- Footprint of a tile operand (R239). -/
def tileFoot (f : Nat × Nat × Nat) (k lines : Nat) : Nat :=
  if f.1 = 1 then 2 * k * lines else scaleBase f k lines + blocksAlong f.2.1 k * lines

/-- Blocks of an entry: G of an MPASSGRP, one otherwise. -/
def Entry.blocks (e : Entry) : Nat := if (passArg e.op).grp then (Entry.val e 3).toNat else 1

/-- TILE for a tile operand: unbound, in the wrong store, too small (R227, R240). -/
def State.operandTile (s : State) (v : Word) (store : Nat) (f : Nat × Nat × Nat) (k lines : Nat) : Check :=
  let d := s.tile (handle v)
  needs (s.handleFine v && decide (tileStore d = store) && (!passFmtOk f || decide (tileFoot f k lines ≤ tileLen d)))
    Code.tile

/-- LEND: 8 KiB accumulators from a name on lie in banks bound to the matrix slot (R48, R165). -/
def State.accBound (s : State) (c n : Nat) : Check :=
  needs ((List.range n).all fun i => s.matrixBank (bankOf (s.cOff (c + i) / 4))) Code.lend

/-- The value checks of a pass, in the order of R156. -/
def State.passChecks (s : State) (e : Entry) : List Check :=
  let p := passArg e.op
  let v := Entry.val e 0
  let va := Entry.val e 1
  let vb := Entry.val e 2
  let vx := Entry.val e 3
  let k := passK v
  let fa := passFmt v false p.a
  let fb := passFmt v true p.b
  let named := fun (src : Nat) => src == 0 || src == 2
  [needs (Word.bits v 38 26 = 0 && (p.a ≠ 2 || decide (va.toNat ≤ 3)) && (p.b ≠ 2 || decide (vb.toNat ≤ 3)) &&
      (!p.seg || decide (Word.bits vx 56 8 = 0)) && !(!p.grp && p.a == 2 && p.b == 2 && va == vb)) Code.illegal,
   needs (s.hasLat2 || !((named p.a && fa.1 == 11) || (named p.b && fb.1 == 11))) Code.absent,
   needs ((p.a ≠ 3 || (decide (va.toNat ≤ 15) && decide (k ≤ 128))) &&
      (!p.grp || (decide (1 ≤ vx.toNat) && decide (vx.toNat ≤ 16) && decide (passC v + vx.toNat ≤ 16)))) Code.shape,
   needs ((p.a ≠ 1 || decide (va.toNat % 64 = 0)) && (p.grp || p.b ≠ 1 || decide (vb.toNat % 64 = 0)) &&
      (!p.seg || decide (vx.toNat % 64 = 0)) && (!p.grp || decide (vb.toNat % 8 = 0))) Code.align,
   if p.a = 0 then s.operandTile va 1 fa k 16 else none,
   if p.b = 0 then s.operandTile vb 0 fb k 128 else none,
   needs ((p.a == 1 || passFmtOk fa) && (p.b == 1 || passFmtOk fb) &&
      (p.a == 1 || p.b == 1 || pairsWith fa.1 fb.1)) Code.format]

/-- Words of register space read by the engine: an uncorrectable word faults the entry; correctable ones are corrected, and
the engine reads them again a clk later (R53, R385). Empty words are read as they stand: R51 speaks of instructions
(log 23). -/
def State.readWords (s : State) (w n : Nat) : State × Got (List Lane) :=
  let errs := s.cell.rspErr.filter fun e => decide (w ≤ e.1) && decide (e.1 < w + n)
  match errs.find? fun e => decide (1 < e.2.toNat) with
  | some e => (s, .fault Code.machine (BitVec.ofNat 64 (4 * e.1)))
  | none => if errs.isEmpty then (s, .ok (Sparse.getRun s.cell.rsp w n)) else (s.correct (errs.map Prod.fst), .wait .scoreboard)

/-- Words of register space that an entry is to write hold an empty one: its start waits (R52). -/
def State.anyEmpty (s : State) (w n : Nat) : Bool :=
  s.cell.rspEmpty.any fun e => decide (w ≤ e.1) && decide (e.1 < w + n)

/-- The table slot that a LATLD is loading is read by the entry: it waits under R29 (R190). -/
def State.tableLoading (s : State) (e : Entry) : Bool :=
  match s.core.latWait with
  | some l => Entry.usesSlot e l.slot
  | none => false

/-! ### Start reads (R241-R243, R247, R269) -/

/-- A start in progress: the state, the entry, and the number of the next start read. -/
structure Rd where
  s : State
  e : Entry
  i : Nat

/-- A start read: one already answered is not made again (R160, R243). -/
def Rd.read (r : Rd) (va : Word) (n : Nat) : Rd × Got (List Byte) :=
  match r.e.start.got[r.i]? with
  | some bs => ({ r with i := r.i + 1 }, .ok bs)
  | none =>
    match r.s.fetch r.e va n Page.plain with
    | (t, .ok bs) =>
      ({ s := t.readsDone r.e, e := { r.e with start := { r.e.start with got := r.e.start.got ++ [bs] } }, i := r.i + 1 }, .ok bs)
    | (t, .wait c) => ({ r with s := t }, .wait c)
    | (t, .fault c a) => ({ r with s := t }, .fault c a)

/-- The next part of a start. -/
def Rd.next {α β : Type} (x : Rd × Got α) (f : Rd → α → Rd × Got β) : Rd × Got β :=
  match x with
  | (r, .ok a) => f r a
  | (r, .wait c) => (r, .wait c)
  | (r, .fault c a) => (r, .fault c a)

/-- A start that goes on once checks of what was read pass. -/
def Rd.check {β : Type} (r : Rd) (cs : List Check) (k : Rd × Got β) : Rd × Got β :=
  match firstBad cs with
  | some c => (r, .fault c.1 c.2)
  | none => k

/-- An address given in bits 55:0 of a value. -/
def globAddr (v : Word) : Word := canon (Word.bits v 0 56)

/-- One use of the layout record at an address: the record, its checks, its extent word (R241-R243, R269). -/
def Rd.record (r : Rd) (addr : Word) (limit : Nat) (other : Option Nat) : Rd × Got LRec :=
  Rd.next (r.read addr 64) fun r bs =>
    let ws := wordsOfBytes 8 bs
    let w := fun i => ws[i]?.getD 0
    let nind := (w 2).getLsbD 32
    let fmt := Word.bits (w 0) 56 4
    let geo := Word.bits (w 0) 60 2
    let n := Word.bits (w 2) 0 32
    let out : Nat → LRec := fun n =>
      { used := true, base := Word.bits (w 0) 0 56, fmt := fmt, geo := geo, lslot := Word.bits (w 0) 62 2,
        stride := Word.bits (w 1) 0 48, lines := n }
    r.check
      [needs (Word.bits (w 1) 48 16 = 0 && Word.bits (w 2) 33 31 = 0 && Word.bits (w 3) 56 8 = 0 &&
          (ws.drop 4).all (· == 0) && (nind || w 3 == 0)) Code.illegal,
       needs (fmt ≠ 11 || r.s.hasLat2) Code.absent,
       needs (nind || decide (n ≤ limit)) Code.shape,
       needs (!nind || decide (Word.bits (w 3) 0 2 = 0)) Code.align,
       needs (passFmtOk (fmt, geo, 0) && (match other with
          | some f => pairsWith f fmt
          | none => true)) Code.format]
      (if nind then
        Rd.next (r.read (globAddr (w 3)) 4) fun r bs =>
          let m := numOfBytes bs
          r.check [needs (decide (m ≤ limit)) Code.shape] (r, .ok (out m))
       else (r, .ok (out n)))

/-- The records of an MPASSGRP table; an entry of 0 names none (R170). -/
def Rd.records (fa : Option Nat) : Rd → List Word → Rd × Got (List LRec)
  | r, [] => (r, .ok [])
  | r, w :: ws =>
    if w = 0 then
      Rd.next (Rd.records fa r ws) fun r l =>
        (r, .ok ({ used := false, base := 0, fmt := 0, geo := 0, lslot := 0, stride := 0, lines := 0 } :: l))
    else Rd.next (r.record w 128 fa) fun r x => Rd.next (Rd.records fa r ws) fun r l => (r, .ok (x :: l))

/-- 32-bit words of bytes. -/
def words32 (bs : List Byte) : List Nat := (lanesOfBytes (bs.length / 4) bs).map fun l => l.toNat

/-- The vector never decreases (R247). -/
def ascending : List Nat → Bool
  | a :: b :: r => decide (a ≤ b) && ascending (b :: r)
  | _ => true

/-- Segment of a position, plus one; 0 for none (R248). -/
def segOf (off : List Nat) (x : Nat) : Nat :=
  let n := (off.filter (· ≤ x)).length
  if n = off.length then 0 else n

/-- FILL, and the segments of rows and columns, from a segment descriptor (R247, R248). -/
def Rd.segments (r : Rd) (addr : Word) : Rd × Got (Nat × List Nat × List Nat × Bool × Nat × Nat) :=
  Rd.next (r.read (globAddr addr) 64) fun r bs =>
    let ws := wordsOfBytes 8 bs
    let w := fun i => ws[i]?.getD 0
    let nrow := Word.bits (w 0) 32 5
    let ncol := Word.bits (w 0) 40 8
    let row0 := Word.bits (w 3) 0 32
    let col0 := Word.bits (w 3) 32 32
    r.check
      [needs (Word.bits (w 0) 37 3 = 0 && Word.bits (w 0) 49 15 = 0 && Word.bits (w 1) 56 8 = 0 &&
          Word.bits (w 2) 56 8 = 0 && (ws.drop 4).all (· == 0)) Code.illegal,
       needs (decide (2 ≤ nrow) && decide (nrow ≤ 17) && decide (2 ≤ ncol) && decide (ncol ≤ 129)) Code.shape,
       needs (Word.bits (w 1) 0 2 = 0 && Word.bits (w 2) 0 2 = 0) Code.align]
      (Rd.next (r.read (globAddr (w 1)) (4 * nrow)) fun r rb =>
        r.check [needs (ascending (words32 rb)) Code.shape]
          (Rd.next (r.read (globAddr (w 2)) (4 * ncol)) fun r cb =>
            r.check [needs (ascending (words32 cb)) Code.shape]
              (r, .ok (Word.bits (w 0) 0 32,
                (List.range 16).map (fun i => segOf (words32 rb) ((row0 + i) % 2 ^ 32)),
                (List.range 128).map (fun j => segOf (words32 cb) ((col0 + j) % 2 ^ 32)),
                (w 0).getLsbD 48, row0, col0))))

/-- Accumulator (i, j) is masked (R248). -/
def maskedAt (seg : Option (List Nat × List Nat × Bool × Nat × Nat)) (i j : Nat) : Bool :=
  match seg with
  | none => false
  | some (rs, cs, causal, row0, col0) =>
    let a := rs[i]?.getD 0
    let b := cs[j]?.getD 0
    a == 0 || b == 0 || a != b || (causal && decide ((row0 + i) % 2 ^ 32 < (col0 + j) % 2 ^ 32))

/-- 2,048 words of an accumulator at a byte offset. -/
def State.accLanes (s : State) (off : Nat) : List Lane := Sparse.getRun s.cell.rsp (off / 4) 2048

/-- ZERO and FILL at a start, on every block that runs (R165, R170, R248). -/
def State.clearAccs (s : State) (e : Entry) (zero : Bool) (fill : Nat) : State :=
  let seg := e.start.seg
  if !zero && seg.isNone then s else
  (List.range e.blocks).foldl (fun t g =>
    if ((e.start.recB[g]?).map LRec.used).getD true then
      let off := e.start.acc + 8192 * g
      t.setCell (t.cell.putWords (off / 4) ((t.accLanes off).zipIdx.map fun w =>
        if maskedAt seg (w.2 / 128) (w.2 % 128) then BitVec.ofNat 32 fill else if zero then 0 else w.1))
    else t) s

/-- The first block from g on that does anything: a skipped block is passed over at once unless rows of an operand
queue must be popped for it (R170). -/
def Entry.nextBlock (e : Entry) (fuel g : Nat) : Nat :=
  match fuel with
  | 0 => g
  | n + 1 =>
    if decide (g < e.blocks) && (passArg e.op).a == 1 && !(((e.start.recB[g]?).map LRec.used).getD true)
    then e.nextBlock n (g + 1) else g

/-- A start whose reads have all been answered: ZERO, FILL, and completion at once with K = 0 (R165, R238, R269). -/
def State.passReady (s : State) (e : Entry) (fill : Nat) : State × Entry :=
  let e1 : Entry := { e with start := { e.start with ready := true, got := [] } }
  let g := e1.nextBlock 17 0
  let idle := decide (passK (Entry.val e 0) = 0) || decide (e.blocks ≤ g)
  (s.clearAccs e1 (passArg e.op).zero fill,
   { e1 with group := if idle then 0 else g, fin := if idle then some s.clk else none })

/-- The start reads in the order of R269. -/
def Rd.setup (r : Rd) : Rd × Got Nat :=
  let p := passArg r.e.op
  let v := Entry.val r.e 0
  let fa : Option Nat := if p.a = 1 then none else some (passFmt v false p.a).1
  let fb : Option Nat := if p.b = 1 then none else some (passFmt v true p.b).1
  let keepA : Rd → LRec → Rd := fun r x => { r with e := { r.e with start := { r.e.start with recA := some x } } }
  let keepB : Rd → List LRec → Rd := fun r l => { r with e := { r.e with start := { r.e.start with recB := l } } }
  let first : Rd × Got Nat :=
    if p.a = 1 then
      Rd.next (r.record (globAddr (Entry.val r.e 1)) (16 * r.e.blocks) fb) fun r x => (keepA r x, .ok x.fmt)
    else (r, .ok (fa.getD 0))
  Rd.next first fun r f =>
    let second : Rd × Got Unit :=
      if p.grp then
        Rd.next (r.read (Entry.val r.e 2) (8 * r.e.blocks)) fun r bs =>
          let ws := wordsOfBytes r.e.blocks bs
          r.check [needs (ws.all fun w => decide (w.toNat % 64 = 0)) Code.align]
            (Rd.next (Rd.records (some f) r ws) fun r l => (keepB r l, .ok ()))
      else if p.b = 1 then
        Rd.next (r.record (globAddr (Entry.val r.e 2)) 128 (some f)) fun r x => (keepB r [x], .ok ())
      else (r, .ok ())
    Rd.next second fun r _ =>
      if p.seg then
        Rd.next (r.segments (Entry.val r.e 3)) fun r x =>
          ({ r with e := { r.e with start := { r.e.start with seg := some x.2 } } }, .ok x.1)
      else (r, .ok 0)

/-! ### Starting (R164-R173) -/

/-- The bypass source of a pass as it stands (R168). -/
def State.readBypass (s : State) (e : Entry) : State × Got (List Lane) :=
  if (passArg e.op).a = 3 then s.readWords (s.cOff (Entry.val e 1).toNat / 4) 2048 else (s, .ok [])

/-- Start of a pass: checks, tiles, the banks it writes (R48, R164), the waits of R29 and R52, the bypass source; the table
slots are taken as they stand (R29). Entries that read nothing are ready at once. -/
def beginPass (s : State) (e : Entry) : Begin :=
  let p := passArg e.op
  let v := Entry.val e 0
  let va := Entry.val e 1
  let vb := Entry.val e 2
  let holds := if passK v = 0 then [] else
    (if p.a = 0 then [(handle va, if p.freeA then Role.readFree else .read)] else []) ++
    (if p.b = 0 then [(handle vb, if p.freeB then Role.readFree else .read)] else [])
  begins (s.passChecks e)
    (startWith s e holds fun t e1 => begins [t.accBound (passC v) e.blocks] (
      if s.tableLoading e then .wait s .orderWait
      else if s.anyEmpty (s.cOff (passC v) / 4) (2048 * e.blocks) then .wait s .emptyWait
      else match s.readBypass e with
      | (_, .fault c a) => .fault c a
      | (u, .wait c) => .wait u c
      | (_, .ok byp) =>
        let e2 : Entry := { e1 with start := { e1.start with
          acc := s.cOff (passC v), desc := [s.tile (handle va), s.tile (handle vb)]
          byp := byp, bypAt := s.cOff va.toNat, table := s.cell.lat2 } }
        if p.a = 1 || p.b = 1 || p.seg then .go t e2
        else
          let x := t.passReady e2 0
          .go x.1 x.2))

/-- Start of a drain (R171). -/
def beginDrain (c d : Bool) (m : Nat) (s : State) (e : Entry) : Begin :=
  let cn := (Entry.val e 0).toNat
  let dest := Entry.val e 1
  let desc := s.tile (handle dest)
  let at' := s.tOff dest.toNat
  begins
    [needs (decide (cn ≤ 15) && (!d || decide (dest.toNat ≤ 14))) Code.shape,
     needs (d || (s.handleFine dest && decide (tileStore desc = 2) &&
      decide ((if m = 1 then 4096 else 8192) ≤ tileLen desc))) Code.tile]
    (startWith s e (if d then [] else [(handle dest, if m = 2 then Role.accum else .whole)]) fun t e1 => begins
      [needs (!d || (t.matrixBank (bankOf (at' / 4)) && t.matrixBank (bankOf ((at' + 4095) / 4)))) Code.lend,
       if c then t.accBound cn 1 else none] (
      if (d && s.anyEmpty (at' / 4) 1024) || (c && s.anyEmpty (s.cOff cn / 4) 2048) then .wait s .emptyWait else
      let e2 : Entry := { e1 with start := { e1.start with
        acc := s.cOff cn, desc := [if d then BitVec.ofNat 64 at' else desc], ready := true } }
      let t1 := if d then
          t.setCell { t.cell with rspEmpty := Sparse.setRun t.cell.rspEmpty (at' / 4) (List.replicate 1024 1) } else t
      .go t1 e2))

/-- Start of MZERO (R172). -/
def beginZero (s : State) (e : Entry) : Begin :=
  let cn := (Entry.val e 0).toNat
  begins [needs (decide (cn ≤ 15)) Code.shape, s.accBound cn 1]
    (if s.anyEmpty (s.cOff cn / 4) 2048 then .wait s .emptyWait else
    .go (s.setCell (s.cell.putWords (s.cOff cn / 4) (List.replicate 2048 0)))
      { e with fin := some s.clk, start := { e.start with acc := s.cOff cn, ready := true } })

/-- MPASS (R165). -/
def execMpass (g f z : Bool) (b a : BitVec 2) (s : State) : Out :=
  terminalWord (.mpass g f z b a) 3 (passArg (.mpass g f z b a)).legal beginPass s

/-- MPASSSEG (R169). -/
def execMpassseg (g f z : Bool) (b a : BitVec 2) (s : State) : Out :=
  terminalWord (.mpassseg g f z b a) 4 (passArg (.mpassseg g f z b a)).legal beginPass s

/-- MPASSGRP (R170). -/
def execMpassgrp (z : Bool) (b a : BitVec 2) (s : State) : Out :=
  terminalWord (.mpassgrp z b a) 4 (passArg (.mpassgrp z b a)).legal beginPass s

/-- MDRAIN (R171). -/
def execMdrain (c d : Bool) (m : BitVec 2) (s : State) : Out :=
  terminalWord (.mdrain c d m) 2 (decide (m.toNat ≠ 3) && (!d || decide (m.toNat = 1))) (beginDrain c d m.toNat) s

/-- MZERO (R172). -/
def execMzero (s : State) : Out := terminalWord .mzero 1 true beginZero s

/-! ### A chained entry (R173, R176) -/

/-- The start of a matrix launch word's entry. -/
def beginMatrix (s : State) (e : Entry) : Begin :=
  match e.op with
  | .mdrain c d m => beginDrain c d m.toNat s e
  | .mzero => beginZero s e
  | _ => beginPass s e


/-- CHAINED_ENTRY_START (R173, R176): the oldest handed-over entry starts when the engine is free; its fault is the
copy queue's. -/
def execChainedEntryStart (s : State) : Out :=
  match s.cell.chained with
  | [] => .next s
  | e :: es =>
    if s.matrixBusy || s.matrixFaulted || !s.mayAdvance e.queue || !(e.trig || s.mayStart e.queue) then .next s
    else match beginMatrix s e with
      | .go t e1 =>
        let u := (t.setCell { t.cell with chained := es }).chargeEntry e .issued
        .next (u.setQueue e.queue { (u.queue e.queue) with run := (u.queue e.queue).run ++ [{ e1 with begun := s.clk }] })
      | .wait t c => .next ((t.setCell { t.cell with chained := { e with waited := e.waited + 1 } :: es }).chargeEntry e c)
      | .fault c a =>
        .next ((if c = Code.machine then s.countErrors s.die 0 1 else s).faultQueue e.queue
          { cause := c, addr := a, seq := e.seq, pc := e.pc, prog := 0, firing := 0, armed := false, atWord := false })

/-! ### Operands of a chunk (R37, R239-R246) -/

/-- One line of a chunk: NaN block, scale byte, element values. -/
structure Line where
  nan   : Bool
  scale : Nat
  vals  : List FVal
  deriving Repr

/-- A line not present: every element is +0.0 (R242). -/
def Line.zero (nv : Nat) : Line := { nan := false, scale := 127, vals := List.replicate nv (.fin false 0 0) }

/-- A BF16 line from its bytes. -/
def Line.bf16 (nv : Nat) (bs : List Byte) : Line :=
  { nan := false, scale := 127, vals := (unpackCodes 16 nv bs).map (Fmt.bf16.decode false) }

/-- A narrow line from its element codes (of LAT2, one index). -/
def Line.narrow (row : Nat → Nat) (fmt scale nv : Nat) (codes : List Nat) : Line :=
  { nan := decide (scale = 255), scale := scale, vals := (tableVals row fmt codes).take nv }

/-- Codes of the eight elements of a narrow chunk, from their bytes. -/
def chunkCodes (fmt : Nat) (bs : List Byte) : List Nat :=
  if fmt = 11 then unpackCodes 16 1 bs else unpackCodes (fmtWidth fmt) 8 bs

/-- Where the chunk at K position k begins inside its block (R23). -/
def chunkAt (fmt geo k : Nat) : Nat := k % blockElems geo * fmtWidth fmt / 8

/-- Bytes of the first n elements of a narrow chunk; positions at or beyond K are never read (R239). -/
def chunkLen (fmt n : Nat) : Nat := if fmt = 11 then 2 else (n * fmtWidth fmt + 7) / 8

/-- Row r of a LAT2 slot as it stood when the entry started (R29). -/
def Entry.tableRow (e : Entry) (slot r : Nat) : Nat := (Sparse.get e.start.table (256 * slot + r)).toNat

/-- A line of a tile operand (R239). -/
def tileLine (e : Entry) (f : Nat × Nat × Nat) (desc : Word) (k lines k0 nv : Nat) (s : State) (r : Nat) :
    State × Got Line :=
  let st := tileStore desc
  let off := tileOff desc
  if f.1 = 1 then
    match s.readStore st (off + 2 * k * r + 2 * k0) (2 * nv) with
    | (t, .ok bs) => (t, .ok (Line.bf16 nv bs))
    | (t, .wait c) => (t, .wait c)
    | (t, .fault c a) => (t, .fault c a)
  else
    let nb := blocksAlong f.2.1 k
    let b := k0 / blockElems f.2.1
    let bb := blockBytes f.1 f.2.1
    match s.readStore st (off + nb * bb * r + bb * b + chunkAt f.1 f.2.1 k0) (chunkLen f.1 nv) with
    | (t, .ok bs) =>
      match t.readStore st (off + scaleBase f k lines + nb * r + b) 1 with
      | (u, .ok sc) => (u, .ok (Line.narrow (e.tableRow f.2.2) f.1 (numOfBytes sc) nv (chunkCodes f.1 bs)))
      | (u, .wait c) => (u, .wait c)
      | (u, .fault c a) => (u, .fault c a)
    | (t, .wait c) => (t, .wait c)
    | (t, .fault c a) => (t, .fault c a)

/-- The scale byte of a block: its slot is read at its own home, and must be well formed (R25, R317). -/
def State.readScale (s : State) (va : Word) (b : Block) : State × Got Nat :=
  match s.readLines [(b.slot, 96)] with
  | (t, true) => (t, .fault Code.machine va)
  | (t, false) => match t.scaleOf b with
    | some sc => (t.joinHomes [b.slot], .ok sc)
    | none => (t, .fault Code.format va)

/-- Part of a block of a narrow page read by an engine: n bytes from an offset on, and its scale byte (R25, R35, R242). -/
def State.readBlock (s : State) (e : Entry) (va : Word) (f : Nat × Nat × Nat) (off n : Nat) :
    State × Got (List Byte × Nat) :=
  match s.enginePage e va .read with
  | (t, .ok p) =>
    let bb := blockBytes f.1 f.2.1
    if !((p.fmt, p.geo, p.lslot) == f) || decide ((va56 va - p.base) % bb ≠ 0) || decide (p.room va < bb)
    then (t, .fault Code.format va)
    else match t.readPage e (va + BitVec.ofNat 64 off) p n with
      | (u, .ok bs) => match u.readScale va (p.block ((va56 va - p.base) / bb)) with
        | (w, .ok sc) => (w, .ok (bs, sc))
        | (w, .wait c) => (w, .wait c)
        | (w, .fault c a) => (w, .fault c a)
      | (u, .wait c) => (u, .wait c)
      | (u, .fault c a) => (u, .fault c a)
  | (t, .wait c) => (t, .wait c)
  | (t, .fault c a) => (t, .fault c a)

/-- A line of a layout record (R242). -/
def recordLine (e : Entry) (x : LRec) (k0 nv : Nat) (s : State) (r : Nat) : State × Got Line :=
  if x.lines ≤ r then (s, .ok (Line.zero nv))
  else if x.fmt = 1 then
    match s.fetch e (canon (x.base + x.stride * r + 2 * k0)) (2 * nv) (fun p => p.fmt == 1 && p.coll != 3) with
    | (t, .ok bs) => (t, .ok (Line.bf16 nv bs))
    | (t, .wait c) => (t, .wait c)
    | (t, .fault c a) => (t, .fault c a)
  else
    match s.readBlock e (canon (x.base + x.stride * r + blockBytes x.fmt x.geo * (k0 / blockElems x.geo)))
        (x.fmt, x.geo, x.lslot) (chunkAt x.fmt x.geo k0) (chunkLen x.fmt nv) with
    | (t, .ok b) => (t, .ok (Line.narrow (e.tableRow x.lslot) x.fmt b.2 nv (chunkCodes x.fmt b.1)))
    | (t, .wait c) => (t, .wait c)
    | (t, .fault c a) => (t, .fault c a)

/-- A row fits the pass (R246). -/
def rowFits (f : Nat × Nat × Nat) (r : OqRow) : Bool :=
  if f.1 = 1 then decide (r.fmt ≤ 1) else (r.fmt, r.geo, r.lslot) == f

/-- The line of a chunk held in a group's rows (R245). -/
def rowLine (e : Entry) (isB : Bool) (f : Nat × Nat × Nat) (rows : List OqRow) (k0 nv r : Nat) : Line :=
  let w := (groupShape isB f).2
  let per := 128 / w
  let row := if isB then (if f.1 = 1 then r / 4 else r / per) else r
  let pos := (if isB then (if f.1 = 1 then 16 * (r % 4) else w * (r % per)) else 0) + k0 % w
  match rows[row]? with
  | none => Line.zero nv
  | some x =>
    if f.1 = 1 then Line.bf16 nv ((x.bytes.drop (2 * pos)).take (2 * nv))
    else
      let codes := if f.1 = 11 then (x.codes.drop (pos / 8)).take 1 else (x.codes.drop pos).take 8
      Line.narrow (e.tableRow f.2.2) f.1 (x.scales[pos]?.getD 127) nv codes

/-- Lines of an operand queue: a chunk waits until its group is reserved and landed (R167, R245, R246). -/
def queueLines (s : State) (e : Entry) (isB : Bool) (f : Nat × Nat × Nat) (oq k0 nv n : Nat) : Got (List Line) :=
  let g := groupShape isB f
  let rows := (s.cell.oq[oq]?.getD []).take g.1
  if decide (rows.length < g.1) || !rows.all OqRow.landed then .wait .emptyWait
  else if decide (k0 % g.2 = 0) && !rows.all (rowFits f) then .fault Code.format 0
  else .ok ((List.range n).map (rowLine e isB f rows k0 nv))

/-- Row i of a bypass operand (R168). -/
def bypassLine (byp : List Lane) (k0 nv i : Nat) : Line :=
  { nan := false, scale := 127
    vals := (List.range nv).map fun n =>
      Fmt.bf16.decode false (Fmt.bf16.encode 0 false (ofFp32 (laneOf byp (128 * i + k0 + n)))) }

/-- The lines of one operand for the chunk at k0 (R167). -/
def State.operandLines (s : State) (e : Entry) (isB : Bool) (k0 nv : Nat) : State × Got (List Line) :=
  let p := passArg e.op
  let v := Entry.val e (if isB then 2 else 1)
  let n := if isB then 128 else 16
  let f := e.operandFmt isB
  let first := if isB then 0 else 16 * e.group
  match (if isB then p.b else p.a) with
  | 0 =>
    gather (tileLine e f (e.start.desc[if isB then 1 else 0]?.getD 0) (passK (Entry.val e 0)) n k0 nv) s (List.range n)
  | 1 =>
    match (if isB then e.start.recB[e.group]? else e.start.recA) with
    | some x => gather (recordLine e x k0 nv) s ((List.range n).map (first + ·))
    | none => (s, .ok (List.replicate n (Line.zero nv)))
  | 2 => (s, queueLines s e isB f v.toNat k0 nv n)
  | _ => (s, .ok ((List.range n).map (bypassLine e.start.byp k0 nv)))

/-! ### The chunk (R37, R238) -/

/-- The scaled chunk sum of a row and a column, exact (R37). -/
def chunkSum (x y : Line) : FVal :=
  if x.nan || y.nan then .nan
  else ((x.vals.zip y.vals).foldl (fun (acc : FVal) p => acc.add false (p.1.mul p.2)) (FVal.fin false 0 0)).scale
    ((x.scale : Int) - 127 + ((y.scale : Int) - 127))

/-- AddRoundRNE32 (R37). -/
def accAdd (a : Lane) (v : FVal) : Lane := BitVec.ofNat 32 (Fmt.fp32.encode 0 false ((ofFp32 a).add false v))

/-- The accumulators after a chunk; masked ones keep their value (R37, R248). -/
def chunkApply (seg : Option (List Nat × List Nat × Bool × Nat × Nat)) (acc : List Lane) (rows cols : List Line) :
    List Lane :=
  acc.zipIdx.map fun w =>
    let i := w.2 / 128
    let j := w.2 % 128
    if maskedAt seg i j then w.1
    else accAdd w.1 (chunkSum (rows[i]?.getD (Line.zero 0)) (cols[j]?.getD (Line.zero 0)))

/-- Rows of an operand queue popped once the last chunk within their group has been applied (R245). -/
def State.popGroup (s : State) (e : Entry) (isB : Bool) (next : Nat) : State :=
  let p := passArg e.op
  let g := groupShape isB (e.operandFmt isB)
  let oq := (Entry.val e (if isB then 2 else 1)).toNat
  if (if isB then p.b else p.a) = 2 ∧ (next % g.2 = 0 ∨ passK (Entry.val e 0) ≤ next) then
    s.setCell { s.cell with oq := s.cell.oq.setIfInBounds oq ((s.cell.oq[oq]?.getD []).drop g.1) }
  else s

/-- The entry after work up to K position `next` of its block: the next block, or the end six clk later (R170, R238,
R249). -/
def Entry.moveOn (e : Entry) (next clk : Nat) : Entry :=
  if next < passK (Entry.val e 0) then { e with done := next }
  else
    let g := e.nextBlock 17 (e.group + 1)
    if g < e.blocks then { e with done := 0, group := g }
    else { e with done := next, fin := some (clk + 6) }

/-- Energy of a chunk (R346). -/
def State.countChunk (s : State) (fa fb : Nat) : State :=
  (s.count (if fa = 1 then 6 else 5) 1).count 7 (if fa = 11 || fb = 11 then 1 else 0)

/-- Stores whose ports a chunk asks for: those of its tile operands (R226, R228). -/
def Entry.chunkPorts (e : Entry) : List Nat :=
  (if (passArg e.op).a = 0 then [1] else []) ++ (if (passArg e.op).b = 0 then [0] else [])

/-- One chunk of a ready pass. -/
def State.passChunk (s : State) (e : Entry) : State :=
  let p := passArg e.op
  let fa := e.operandFmt false
  let k := passK (Entry.val e 0)
  let c := if fa.1 = 1 then 4 else 8
  let nv := min c (k - e.done)
  if p.grp && !(((e.start.recB[e.group]?).map LRec.used).getD true) then
    match queueLines s e false fa (Entry.val e 1).toNat e.done 1 1 with
    | .ok _ =>
      let next := min k (e.done + (groupShape false fa).2)
      (s.popGroup e false next).advances (e.moveOn next s.clk)
    | .wait w => s.stalls e w
    | .fault w a => s.breaks e w a
  else if s.coreAhead e e.chunkPorts then s.stalls e .memory
  else
    match s.operandLines e false e.done nv with
    | (t, .ok rows) =>
      match t.operandLines e true e.done nv with
      | (u, .ok cols) =>
        let off := e.start.acc + 8192 * e.group
        match u.readWords (off / 4) 2048 with
        | (u, .fault w a) => (u.countErrors s.die 0 1).breaks e w a
        | (u, .wait w) => u.stalls e w
        | (u, .ok acc) =>
          if !e.chunkPorts.all (s.portOpen 0) then (s.refusePorts 0 e.chunkPorts).stalls e .memory else
          let new := chunkApply e.start.seg acc rows cols
          let next := e.done + c
          let u0 := u.takePorts e.chunkPorts
          let u1 := (u0.setCell (u0.cell.putWords (off / 4) new)).countChunk fa.1 (e.operandFmt true).1
          (((u1.popGroup e false next).popGroup e true next).dropReplies e).advances (e.moveOn next s.clk)
      | (u, .wait w) => u.stalls e w
      | (u, .fault w a) => u.breaks e w a
    | (t, .wait w) => t.stalls e w
    | (t, .fault w a) => t.breaks e w a

/-- Tiles that the entry took draining are given back: it ends without a side effect (R8). -/
def State.untake (s : State) (e : Entry) : State × Entry :=
  (s.setCell (s.cell.releaseTiles e), { e with drain := [], fill := [] })

/-- The start reads of a started pass (R269). A record that needs an absent unit leaves no trace but the fault (R8). -/
def State.passReads (s : State) (e : Entry) : State :=
  match Rd.setup { s := s, e := e, i := 0 } with
  | (r, .ok fill) =>
    let x := (r.s.dropReplies r.e).passReady r.e fill
    x.1.advances x.2
  | (r, .wait w) => r.s.stalls r.e w
  | (r, .fault w a) =>
    let x := if w = Code.absent then r.s.untake r.e else (r.s, r.e)
    x.1.breaks x.2 w a

/-- BF16 bytes of a lane, rounded RNE (R171). -/
def bf16Bytes (v : Lane) : List Byte := bytesOfNum 2 (Fmt.bf16.encode 0 false (ofFp32 v))

/-- One row of a drain (R171); after the last one CLEAR and the end of the entry's work. -/
def State.drainRow (s : State) (e : Entry) (c d : Bool) (m : Nat) : State :=
  let i := e.done
  let desc := e.start.desc[0]?.getD 0
  let off := tileOff desc
  let wrote : State × Got Unit :=
    match s.readWords (e.start.acc / 4 + 128 * i) 128 with
    | (t, .fault w a) => (t.countErrors s.die 0 1, .fault w a)
    | (t, .wait w) => (t, .wait w)
    | (s, .ok row) =>
      if !d && s.coreAhead e [2] then (s, .wait .memory)
      else if !d && !s.portOpen 0 2 then (s.refusePorts 0 [2], .wait .memory)
      else if d then
        let ws := lanesOfBytes 64 (row.map bf16Bytes).flatten
        let at' := (desc.toNat + 128 * i) / 4
        (s.setCell ((s.cell.putWords at' (ws.take 32)).putWords (at' + 512) (ws.drop 32)), .ok ())
      else if m = 0 then (s.storeWrite 2 (off + 512 * i) (row.map fun w => bytesOfNum 4 w.toNat).flatten, .ok ())
      else if m = 1 then (s.storeWrite 2 (off + 256 * i) (row.map bf16Bytes).flatten, .ok ())
      else match s.readStore 2 (off + 512 * i) 512 with
        | (t, .ok bs) =>
          (t.storeWrite 2 (off + 512 * i)
            (((lanesOfBytes 128 bs).zip row).map fun w => bytesOfNum 4 (accAdd w.1 (ofFp32 w.2)).toNat).flatten, .ok ())
        | (t, .wait w) => (t, .wait w)
        | (t, .fault w a) => (t, .fault w a)
  match wrote with
  | (t, .ok _) =>
    let t1 := (t.takePorts (if d then [] else [2])).count 8 1
    if i = 15 then
      let t2 := if c then t1.setCell (t1.cell.putWords (e.start.acc / 4) (List.replicate 2048 0)) else t1
      t2.advances { e with done := 16, fin := some s.clk }
    else t1.advances { e with done := i + 1 }
  | (t, .wait w) => t.stalls e w
  | (t, .fault w a) => t.breaks e w a

/-- MATRIX_CHUNK (R238): the started matrix entry of the active queue makes its start reads, applies one chunk, writes
one row of a drain, or runs out its last clk. -/
def execMatrixChunk (s : State) : Out :=
  match s.headEntry s.actq with
  | none => .next s
  | some e =>
    if !s.mayAdvance s.actq || !Instr.isMatrix e.op then .next s
    else if e.fin.isSome then .next (s.chargeEntry e .issued)
    else match e.op with
      | .mdrain c d m => .next (s.drainRow e c d m.toNat)
      | .mzero => .next s
      | _ => .next (if e.start.ready then s.passChunk e else s.passReads e)

end Sys2Proof.Machine
end

