-- ==== Sys2Proof/Machine/Copy.lean ====
section
/-!
DEFINITION. The copy engine: CCOPY in its four modes, CGATHER, CFILL, CHINT (R174-R180), and the turn of up to 4 KiB
that a started copy moves (R224).
-/

namespace Sys2Proof.Machine

/-! ### Sides of a copy -/

/-- Format, geometry and table slot of a page, as far as they bear on a footprint (R175). -/
def Page.attr (p : Page) : Nat × Nat × Nat := if p.fmt < 4 then (p.fmt, 0, 0) else (p.fmt, p.geo, p.lslot)

/-- Address of a position of a place; 0 for a store. An address that is not canonical stays so (R311). -/
def Place.addr (p : Place) (pos : Nat) : Word :=
  match p with
  | .glob va => if canonical va then canon (va.toNat + pos) else va + BitVec.ofNat 64 pos
  | _ => 0

/-- The byte at a position of a place, by which words and tile ranges are told. -/
def Place.byteAt (p : Place) (pos : Nat) : Nat :=
  match p with
  | .store _ off => off + pos
  | _ => (p.addr pos).toNat

/-- The page of a side at a position; none for a store. -/
def State.side (s : State) (e : Entry) (p : Place) (pos : Nat) (acc : Access) : State × Got (Option Page) :=
  match p with
  | .glob _ =>
    match s.enginePage e (p.addr pos) acc with
    | (t, .ok q) => (t, .ok (some q))
    | (t, .wait c) => (t, .wait c)
    | (t, .fault c a) => (t, .fault c a)
  | _ => (s, .ok none)

/-- The page of a side has an allowed format, and that of the footprint so far where there is one (R175); no access uses a
page with a reserved collective operation (R274). -/
def sideFine (q : Option Page) (fmts : List Nat) (attr : Option (Nat × Nat × Nat)) (va : Word) : Check :=
  match q with
  | none => none
  | some p => needsAt (fmts.contains p.fmt && p.coll != 3 && (match attr with
      | some a => p.attr == a
      | none => true)) Code.format va

/-- An FP32 side on a page of format 0 or 3 is aligned to 4 bytes (R175). -/
def fp32Fine (q : Option Page) (va : Word) : Check :=
  match q with
  | none => none
  | some p => needsAt (!([0, 3].contains p.fmt) || decide (va.toNat % 4 = 0)) Code.align va

/-- A footprint on a collective page starts and ends on multiples of 4 bytes (R273); `last` is what is left of it there. -/
def collFine (q : Option Page) (va : Word) (last : Nat) : Check :=
  match q with
  | none => none
  | some p => needsAt (p.coll = 0 || (decide (va.toNat % 4 = 0) && decide (last % 4 = 0))) Code.align va

/-- The footprint's format once a page of it is known. -/
def keepAttr (old : Option (Nat × Nat × Nat)) (q : Option Page) : Option (Nat × Nat × Nat) :=
  match old with
  | some a => some a
  | none => q.map Page.attr

/-- Bytes from a position to the end of its page; plenty for a store. -/
def sideRoom (q : Option Page) (va : Word) : Nat :=
  match q with
  | some p => p.room va
  | none => 2 ^ 24

/-- Bytes that a piece may not part at the destination: an aligned word, and on a collective page an aligned 64-byte range,
which is one chunk (R10, R107, R229, R275). -/
def grain (q : Option Page) : Nat := if (q.map Page.coll).getD 0 = 0 then 4 else 64

/-- Length of a piece that begins at destination byte d: at most m bytes unless that would part a grain of u bytes; the last
of `rest` bytes may. -/
def cutAt (d m rest u : Nat) : Nat :=
  if m = rest then m else
  let n := m - (d + m) % u
  if n = 0 then min (u - d % u) rest else n

/-- n bytes read from a place. -/
def State.readFrom (s : State) (e : Entry) (p : Place) (pos n : Nat) (ok : Page → Bool) : State × Got (List Byte) :=
  match p with
  | .store st off => s.readStore st (off + pos) n
  | .glob _ => s.fetch e (p.addr pos) n ok
  | .none => (s, .ok [])

/-- Bytes written to a global address on at most two pages, both checked first (R175, R273). -/
def State.push (s : State) (e : Entry) (va : Word) (bs : List Byte) (fmts : List Nat) : State × Got Unit :=
  if s.trafficHeld true then (s, .wait .memory)
  else match s.enginePage e va .write with
    | (t, .ok p) =>
      let m := min bs.length (p.room va)
      match writeFine p fmts va m with
      | some c => (t, .fault c.1 c.2)
      | none =>
        if !t.farRoom p true (t.writeRequests va p m) then (t, .wait .memory)
        else if bs.length ≤ m then (t.writePage e va p bs, .ok ())
        else
          let a := canon (va.toNat + m)
          match t.enginePage e a .write with
          | (u, .ok q) =>
            match writeFine q fmts a (bs.length - m) with
            | some c => (u, .fault c.1 c.2)
            | none =>
              if !u.farRoom q true (u.writeRequests a q (bs.length - m)) then (u, .wait .memory)
              else ((u.writePage e va p (bs.take m)).writePage e a q (bs.drop m), .ok ())
          | (u, .wait c) => (u, .wait c)
          | (u, .fault c a) => (u, .fault c a)
    | (t, .wait c) => (t, .wait c)
    | (t, .fault c a) => (t, .fault c a)

/-- Bytes written at a position of a place. -/
def State.writeTo (s : State) (e : Entry) (p : Place) (pos : Nat) (bs : List Byte) (fmts : List Nat) :
    State × Got Unit :=
  match p with
  | .store st off => (s.storeWrite st (off + pos) bs, .ok ())
  | .glob _ => s.push e (p.addr pos) bs fmts
  | .none => (s, .ok ())

/-- Stores of two places, each once. -/
def placeStores (src dst : Place) : List Nat :=
  match src, dst with
  | .store a _, .store b _ => if a = b then [a] else [a, b]
  | .store a _, _ => [a]
  | _, .store b _ => [b]
  | _, _ => []

/-- Bytes that the ports of two places carry in one clk (R226); a turn of 4 KiB between other places. -/
def portCap (src dst : Place) : Nat :=
  match src, dst with
  | .store a _, .store b _ => if a = b then portWidth a / 2 else min (portWidth a) (portWidth b)
  | .store a _, _ => portWidth a
  | _, .store b _ => portWidth b
  | _, _ => 4096

/-- The requester that an entry's engine is at a port (R228). -/
def Entry.requester (e : Entry) : Nat := if slotOf e.queue = 4 then 4 else 3

/-- Goes on with the ports of two places granted in this clk, or is refused and waits; writes of the control core from before
the entry's ENQ come first (R154, R228). -/
def State.withPorts (s : State) (e : Entry) (src dst : Place) (k : State → State) : State :=
  let sts := placeStores src dst
  if s.coreAhead e sts then s.stalls e .memory
  else if sts.all (s.portOpen e.requester) then k (s.takePorts sts)
  else (s.refusePorts e.requester sts).stalls e .memory

/-- The place is a store: what is written there has been performed at once. -/
def Place.isStore : Place → Bool
  | .store _ _ => true
  | _ => false

/-- The entry after n more units: their writes are performed at once in a store, and on their way otherwise (R159). -/
def State.moved (s : State) (e : Entry) (n total bytes event : Nat) : State :=
  let next := e.next + n
  let here := e.start.dst.isStore
  let s1 := (s.dropReplies e).count event (per64 bytes)
  s1.advances { e with
    next := next, done := if here then next else e.done
    fin := if here && decide (total ≤ next) then some s.clk else e.fin }

/-- What a turn does first: earlier writes of the entry must have been performed; then the entry ends, or moves on. -/
def State.turn (s : State) (e : Entry) (total : Nat) (move : State → Entry → State) : State :=
  if e.fin.isSome then s.stalls e .memory
  else if e.next ≠ e.done && !s.settled e then s.stalls e .memory
  else
    let e1 : Entry := { e with done := e.next }
    if total ≤ e1.done then s.advances (e1.finish s.clk) else move s e1

/-- Continues with what was found, or waits, or faults. -/
def State.got {α : Type} (e : Entry) (x : State × Got α) (k : State → α → State) : State :=
  match x with
  | (t, .ok a) => k t a
  | (t, .wait c) => t.stalls e c
  | (t, .fault c a) => t.breaks e c a

/-- Continues once checks pass. -/
def State.checked (s : State) (e : Entry) (cs : List Check) (k : State) : State :=
  match firstBad cs with
  | some c => s.breaks e c.1 c.2
  | none => k

/-- Formats whose pages hold plain bytes. -/
def plainFmts : List Nat := [0, 1, 2, 3]

/-- A piece of bytes moved from a place to a place: at most `most` bytes, cut at the ends of pages and, for a transfer, at
64-byte ranges of the destination; a CCOPY keeps to one format on each side (R175, R181, R273). -/
def State.moveBytes (s : State) (e : Entry) (total most event : Nat) (copy : Bool) : State :=
  let k := e.next
  let src := e.start.src
  let dst := e.start.dst
  State.got e (s.side e src k .read) fun t sp =>
    State.got e (t.side e dst k .write) fun u dp =>
      let da := dst.addr k
      let d := dst.byteAt k
      let rest := min (total - k) (sideRoom dp da)
      let lim := if copy then min most (portCap src dst) else 64 - d % 64
      let n := cutAt d (min (min lim rest) (sideRoom sp (src.addr k))) rest (grain dp)
      let e1 : Entry := if copy then { e with start := { e.start with
        sattr := keepAttr e.start.sattr sp, dattr := keepAttr e.start.dattr dp } } else e
      u.checked e1
        [sideFine sp plainFmts e.start.sattr (src.addr k), sideFine dp plainFmts e.start.dattr da, collFine dp da rest]
        (State.got e1 (u.readFrom e1 src k n fun q => q.plain && (!copy || e1.start.sattr == some q.attr)) fun v bs =>
          v.withPorts e1 src dst fun w => State.got e1 (w.writeTo e1 dst k bs plainFmts) fun x _ => x.moved e1 n total n event)

/-! ### CCOPY (R175) -/

/-- The argument fields of CCOPY. -/
structure CopyArg where
  mode : Nat
  rm   : Nat
  free : Bool
  deriving DecidableEq, Repr

def copyArg : Instr → CopyArg
  | .ccopy f _ r m => { mode := m.toNat, rm := r.toNat, free := f }
  | .cgather _ m => { mode := m.toNat, rm := 0, free := false }
  | _ => { mode := 0, rm := 0, free := false }

/-- Formats of the formatted side, by mode (R30, R175). -/
def modeFmts : Nat → List Nat
  | 1 => [1, 2, 3, 4, 5, 6, 7, 8, 9, 10, 11]
  | 2 => [1, 2, 4, 5, 6, 7, 8, 9, 10]
  | 3 => [4, 5, 6, 7, 8, 9, 10, 11]
  | _ => plainFmts

/-- Bytes of n elements of a page's format. -/
def elemsBytes (a : Nat × Nat × Nat) (n : Nat) : Nat :=
  if isNarrow a.1 then n / blockElems a.2.1 * blockBytes a.1 a.2.1 else n * fmtWidth a.1 / 8

/-- Checks of a copy of n elements in mode 1, 2 or 3 against the format of its formatted side, where that is known:
ABSENT, ALIGN, which BLOCKS has not, and FORMAT (R175). -/
def State.formatChecks (s : State) (mode : Nat) (at' : Word) (attr : Option (Nat × Nat × Nat)) (n : Nat) : List Check :=
  match attr with
  | none => []
  | some a =>
    [needs (a.1 ≠ 11 || mode == 2 || s.hasLat2) Code.absent,
     needsAt (mode == 3 ||
      (!((a.1 == 1 || a.1 == 2) && at'.toNat % 2 != 0) && !(a.1 == 3 && at'.toNat % 4 != 0))) Code.align at',
     needsAt ((modeFmts mode).contains a.1 &&
      (!isNarrow a.1 || (a.2.1 != 3 && decide (n % blockElems a.2.1 = 0)))) Code.format at']

/-- Bytes a copy reads and writes at its plain places, by mode. -/
def copyFoot (mode : Nat) (attr : Option (Nat × Nat × Nat)) (n : Nat) : Nat × Nat :=
  match mode with
  | 0 => (n, n)
  | 1 => (0, 4 * n)
  | 2 => (4 * n, 0)
  | _ => match attr with
    | some a => if isNarrow a.1 && a.2.1 != 3 then (0, packedScales a.1 a.2.1 n + n / blockElems a.2.1) else (0, 0)
    | none => (0, 0)

/-- The FP32 side of a CCOPY: its destination in DECODE, its source in ENCODE. -/
def State.fp32Side (s : State) (e : Entry) : Option Place :=
  match (copyArg e.op).mode with
  | 1 => some (s.place (Entry.val e 0))
  | 2 => some (s.place (Entry.val e 1))
  | _ => none

/-- The value checks of CCOPY, with the formats of its formatted side and of the page of its FP32 side as far as they are
known (R156, R174, R175). -/
def State.copyChecks (s : State) (e : Entry) (attr fp32 : Option (Nat × Nat × Nat)) : List Check :=
  let p := copyArg e.op
  let d := Entry.val e 0
  let v := Entry.val e 1
  let n := (Entry.val e 2).toNat
  let foot := copyFoot p.mode attr n
  let fmts := s.formatChecks p.mode (if p.mode = 2 then (s.place d).addr 0 else (s.place v).addr 0) attr n
  let plain := (fp32.map fun a => [0, 3].contains a.1).getD false
  [needs (placeOk d && placeOk v && (!p.free || placeKind v == 2)) Code.illegal] ++ fmts.take 1 ++
  [needs (decide (n < 2 ^ 40)) Code.shape,
   needs (match s.fp32Side e with
    | some (.glob va) => !plain || decide (va.toNat % 4 = 0)
    | some pl => decide (placeMod pl 4 = 0)
    | none => true) Code.align] ++ (fmts.drop 1).take 1 ++
  [s.placeFits v foot.1, s.placeFits d foot.2,
   needs (match p.mode with
    | 0 => true
    | 1 => placeKind v == 0
    | 2 => placeKind d == 0
    | _ => placeKind v == 0 && placeKind d != 0) Code.format] ++ fmts.drop 2 ++
  [needsAt (fp32.isNone || plain) Code.format (((s.fp32Side e).map fun pl => pl.addr 0).getD 0),
   placeBounds (s.place v) foot.1 [0, 1, 2], placeBounds (s.place d) foot.2 [0, 1, 2]]

/-- The page that an address's translation names, whatever its permissions. -/
def State.pageNamed (s : State) (va : Word) : Option Page :=
  match s.cached va with
  | some p => some p
  | none => match s.walkFrom s.asid (va56 va) s.root levels with
    | .leaf _ p => some p
    | .fault _ => none

/-- The format of the page of a place at its start, where it is global and translated: FORMAT is checked in front of the
access and its permission (R156, R175). -/
def State.pageAttr (s : State) (e : Entry) (p : Place) (acc : Access) : State × Got (Option (Nat × Nat × Nat)) :=
  match p with
  | .glob va =>
    match s.enginePage e va acc with
    | (t, .ok p) => (t, .ok (some p.attr))
    | (t, .wait c) => (t, .wait c)
    | (_, .fault c _) => (s, .ok (if c = Code.protect && !inWindow va then (s.pageNamed va).map Page.attr else none))
  | _ => (s, .ok none)

/-- The formats a CCOPY finds at its start: of its formatted side, and of a global FP32 side. -/
def State.copyFormats (s : State) (e : Entry) :
    State × Got (Option (Nat × Nat × Nat) × Option (Nat × Nat × Nat)) :=
  let mode := (copyArg e.op).mode
  let d := s.place (Entry.val e 0)
  let v := s.place (Entry.val e 1)
  let n := (Entry.val e 2).toNat
  if mode = 0 || n = 0 || decide (2 ^ 40 ≤ n) then (s, .ok (none, none))
  else
    let side := if mode = 2 then s.pageAttr e d .write else s.pageAttr e v .read
    match side with
    | (t, .ok a) =>
      let other := match mode with
        | 1 => t.pageAttr e d .write
        | 2 => t.pageAttr e v .read
        | _ => (t, .ok none)
      (match other with
        | (u, .ok b) => (u, .ok (a, b))
        | (u, .wait c) => (u, .wait c)
        | (u, .fault c x) => (u, .fault c x))
    | (t, .wait c) => (t, .wait c)
    | (t, .fault c x) => (t, .fault c x)

/-- Start of a CCOPY; one that decodes takes the table slots as they stand (R29). -/
def beginCopy (s : State) (e : Entry) : Begin :=
  let p := copyArg e.op
  let d := Entry.val e 0
  let v := Entry.val e 1
  let n := (Entry.val e 2).toNat
  let holds := placeHold v (if p.free then .readFree else .read) ++ placeHold d .whole
  match s.copyFormats e with
  | (t, .wait c) => .wait t c
  | (_, .fault c a) => .fault c a
  | (t, .ok look) =>
    begins (s.copyChecks e look.1 look.2)
      (startWith t e holds fun t e1 =>
        .go t { e1 with
          fin := if n = 0 then some s.clk else none
          start := { e1.start with
            src := s.place v, dst := s.place d, ready := true, table := if p.mode = 1 then s.cell.lat2 else []
            sattr := if p.mode = 2 then look.2 else look.1, dattr := if p.mode = 2 then look.1 else look.2 } })

/-- CCOPY (R175). -/
def execCcopy (f c : Bool) (r : BitVec 3) (m : BitVec 2) (s : State) : Out :=
  terminalWord (.ccopy f c r m) 3 (decide (r.toNat ≤ 4) && (decide (m.toNat = 2) || decide (r.toNat = 0))) beginCopy s

/-! ### Formatted pieces -/

/-- n whole blocks of narrow pages of a format read by an engine from an address on: the bytes, block by block, with their
scale bytes (R24, R25). -/
def State.readBlocks (s : State) (e : Entry) (va : Word) (a : Nat × Nat × Nat) : Nat → State × Got (List (List Byte × Nat))
  | 0 => (s, .ok [])
  | n + 1 =>
    let bb := blockBytes a.1 a.2.1
    match s.readBlock e va a 0 bb with
    | (t, .ok b) =>
      match State.readBlocks t e (canon (va.toNat + bb)) a n with
      | (u, .ok bs) => (u, .ok (b :: bs))
      | r => r
    | (t, .wait c) => (t, .wait c)
    | (t, .fault c a) => (t, .fault c a)

/-- Elements of a format that go together: a block, or one. -/
def elemUnit (a : Nat × Nat × Nat) : Nat := if isNarrow a.1 then blockElems a.2.1 else 1

/-- FP32 bytes of decoded blocks, LAT2 rows as they stood at the start (R29, R34). -/
def decodedBytes (e : Entry) (a : Nat × Nat × Nat) (bs : List (List Byte × Nat)) : List Byte :=
  (bs.map fun b => ((tableVals (e.tableRow a.2.2) a.1 (blockCodes a.1 a.2.1 b.1)).map fun v =>
    bytesOfNum 4 (toFp32 (scaled b.2 v)).toNat).flatten).flatten

/-- n elements of a format from the k-th on, of those that begin at a byte of a place, decoded to FP32 bytes; every page they
lie on has that format (R34, R175). -/
def State.decodeRange (s : State) (e : Entry) (src : Place) (pos : Nat) (a : Nat × Nat × Nat) (k n : Nat) :
    State × Got (List Byte) :=
  if isNarrow a.1 then
    let el := blockElems a.2.1
    let first := k / el * el
    match s.readBlocks e (src.addr (pos + elemsBytes a first)) a ((k - first + n + el - 1) / el) with
    | (t, .ok bs) => (t, .ok (((decodedBytes e a bs).drop (4 * (k - first))).take (4 * n)))
    | (t, .wait c) => (t, .wait c)
    | (t, .fault c x) => (t, .fault c x)
  else
    match s.fetch e (src.addr (pos + elemsBytes a k)) (elemsBytes a n) (fun p => p.attr == a && p.coll != 3) with
    | (t, .ok bs) =>
      if a.1 = 3 then (t, .ok bs)
      else (t, .ok ((unpackCodes 16 n bs).map fun c => bytesOfNum 4 (toFp32 (wideElem a.1 c)).toNat).flatten)
    | (t, .wait c) => (t, .wait c)
    | (t, .fault c x) => (t, .fault c x)

/-- Checks when the formatted side's page is first seen during the run (R156, R175). -/
def State.lateChecks (s : State) (e : Entry) (old : Option (Nat × Nat × Nat)) (p : Page) (va : Word) : List Check :=
  let m := (copyArg e.op).mode
  if old.isNone then s.copyChecks e (some p.attr) none else [sideFine (some p) (modeFmts m) old va]

/-- Elements of a page's format from an address to the page's end, of a narrow format those of whole blocks. -/
def pageElems (p : Page) (va : Word) : Nat :=
  if isNarrow p.fmt then p.room va / blockBytes p.fmt p.geo * blockElems p.geo else p.room va / (fmtWidth p.fmt / 8)

/-- Of m blocks of a page from an address on, those in front of the first whose scale byte cannot be read in this module's
memory (R25, R159). -/
def State.leadBlocks (s : State) (p : Page) (va : Word) (m : Nat) : Nat :=
  if (s.remote (some p)).isSome then m
  else ((List.range m).takeWhile fun j =>
    (s.scaleOf (p.block ((va56 va - p.base) / blockBytes p.fmt p.geo + j))).isSome).length

/-- Of n elements of a page from an address on, those that one piece reads: what lies behind the page's end, or behind a
block whose scale byte cannot be read, is left to the next piece (R159). -/
def State.soundElems (s : State) (p : Page) (va : Word) (n : Nat) : Nat :=
  let m := min n (pageElems p va)
  if isNarrow p.fmt then blockElems p.geo * s.leadBlocks p va (m / blockElems p.geo) else m

/-- A piece of a DECODE copy: at most 1,024 elements of one source page, of a narrow format whole blocks but on a collective
page (R159, R175). -/
def State.decodeTurn (s : State) (e : Entry) (total : Nat) : State :=
  let k := e.next
  let src := e.start.src
  let dst := e.start.dst
  let va := src.addr (elemsBytes (e.start.sattr.getD (0, 0, 0)) (k / elemUnit (e.start.sattr.getD (0, 0, 0)) *
    elemUnit (e.start.sattr.getD (0, 0, 0))))
  State.got e (s.enginePage e va .read) fun t p =>
    let e1 : Entry := { e with start := { e.start with sattr := keepAttr e.start.sattr (some p) } }
    t.checked e (t.lateChecks e e.start.sattr p va)
      (State.got e1 (t.side e dst (4 * k) .write) fun u dp =>
        let a := e1.start.sattr.getD (0, 0, 0)
        let da := dst.addr (4 * k)
        let rest := min (total - k) (sideRoom dp da / 4)
        let most := min (min 1024 rest) (portCap .none dst / 4)
        let n := if grain dp = 4 then
            min (total - k) (max (elemUnit a) (u.soundElems p va most / elemUnit a * elemUnit a))
          else cutAt (dst.byteAt (4 * k)) (4 * most) (4 * rest) 64 / 4
        let e2 : Entry := { e1 with start := { e1.start with dattr := keepAttr e.start.dattr dp } }
        u.checked e1 [fp32Fine dp da, sideFine dp [0, 3] e.start.dattr da]
          (State.got e1 (u.decodeRange e1 src 0 a k n) fun v bs =>
            v.withPorts e1 .none dst fun v =>
              State.got e1 (v.writeTo e1 dst (4 * k) bs [0, 3]) fun w _ => w.moved e2 n total (4 * n) 23))

/-- The code of an FP32 lane in a 16-bit format (R34). -/
def wideCode (fmt mode : Nat) (l : Lane) : Nat :=
  if fmt = 1 then Fmt.bf16.encode mode false (ofFp32 l) else Fmt.fp16.encode mode false (ofFp32 l)

/-- The scale streams of blocks are read at their homes, and can be rewritten (R25, R317). -/
def State.slotsFine (s : State) (bs : List Block) (va : Word) : State × Check :=
  match s.readLines (bs.map fun b => (b.slot, 96)) with
  | (t, true) => (t, some (Code.machine, va))
  | (t, false) =>
    (t.joinHomes (bs.map Block.slot), firstBad (bs.map fun b =>
      needsAt (decodeSlot (t.bytes b.slot 96) b.group).isSome Code.format va))

/-- Lanes encoded into the blocks of a page by their home as one write (R26, R35). -/
def State.encodePiece (s : State) (e : Entry) (va : Word) (p : Page) (ls : List Lane) : State × Got Unit :=
  let bb := blockBytes p.fmt p.geo
  let first := (va56 va - p.base) / bb
  let blocks := (List.range (ls.length / blockElems p.geo)).map fun j => p.block (first + j)
  if decide ((va56 va - p.base) % bb ≠ 0) || decide (p.room va < bb) then (s, .fault Code.format va)
  else if !s.homesReady e then (s.noteReads e, .wait .memory)
  else match s.slotsFine blocks va with
    | (t, some c) => (t, .fault c.1 c.2)
    | (t, none) =>
      (t.send (Entry.who e) (.encode blocks ls (copyArg e.op).rm) va (some p) (p.pa (va56 va)) .none false, .ok ())

/-- Elements of a piece that is encoded into a page from an address on: at most 1,024, whole blocks of one group of a narrow
format, whole words of another; never fewer than one unit, so that a tail of the page is found out (R10, R23, R25). -/
def pieceElems (p : Page) (va : Word) (cap rest : Nat) : Nat :=
  if isNarrow p.fmt then
    let el := blockElems p.geo
    let group := 64 - (va56 va - p.base) / blockBytes p.fmt p.geo % 64
    max el (min (min (min 1024 cap) rest) (min group (p.room va / blockBytes p.fmt p.geo) * el) / el * el)
  else
    let w := fmtWidth p.fmt / 8
    let left := min (w * rest) (p.room va)
    max 1 (cutAt va.toNat (min (w * min 1024 cap) left) left 4 / w)

/-- A piece of an ENCODE copy (R175). -/
def State.encodeTurn (s : State) (e : Entry) (total : Nat) : State :=
  let k := e.next
  let src := e.start.src
  let dst := e.start.dst
  let va := dst.addr (elemsBytes (e.start.dattr.getD (0, 0, 0)) k)
  State.got e (s.enginePage e va .write) fun t p =>
    let e1 : Entry := { e with start := { e.start with dattr := keepAttr e.start.dattr (some p) } }
    t.checked e (t.lateChecks e e.start.dattr p va)
      (let sa := src.addr (4 * k)
       State.got e1 (t.side e src (4 * k) .read) fun u sp =>
        let n := pieceElems p va (min (portCap src .none) (sideRoom sp sa) / 4) (total - k)
        u.checked e1 [fp32Fine sp sa, sideFine sp [0, 3] e.start.sattr sa]
          (let e2 : Entry := { e1 with start := { e1.start with sattr := keepAttr e.start.sattr sp } }
           State.got e2 (u.readFrom e2 src (4 * k) (4 * n) fun q => q.plain && e2.start.sattr == some q.attr) fun v bs =>
            let ls := lanesOfBytes n bs
            v.withPorts e2 src .none fun v => State.got e2
              (if v.trafficHeld true then (v, .wait .memory)
               else if isNarrow p.fmt then v.encodePiece e2 va p ls
               else v.push e2 va (ls.map fun l => bytesOfNum 2 (wideCode p.fmt (copyArg e.op).rm l)).flatten [1, 2])
              fun w _ => w.moved e2 n total (4 * n) 23))

/-- Bytes of a stream from one of its written lengths to the next: `data` holds the stream from byte `from'` on. -/
def streamPart (d n from' : Nat) (x y : Nat) (data : List Byte) : Nat × List Byte :=
  let a := if x = 0 then 0 else wordEnd d x n
  (a, (data.drop (a - from')).take (wordEnd d y n - a))

/-- A piece of a BLOCKS copy: element bytes and scale bytes of the packed-block layout (R175). Up to three blocks in front
are read again, for the words that the piece before could not write whole (R107). -/
def State.blocksTurn (s : State) (e : Entry) (total : Nat) : State :=
  let k := e.next
  let src := e.start.src
  let dst := e.start.dst
  let va := src.addr (elemsBytes (e.start.sattr.getD (0, 0, 0)) k)
  State.got e (s.enginePage e va .read) fun t p =>
    let e1 : Entry := { e with start := { e.start with sattr := keepAttr e.start.sattr (some p) } }
    t.checked e (t.lateChecks e e.start.sattr p va)
      (let a := e1.start.sattr.getD (0, 0, 0)
       let el := blockElems a.2.1
       let bb := blockBytes a.1 a.2.1
       let all := total / el
       let base := packedScales a.1 a.2.1 total
       let b := k / el
       let m := max 1 (t.soundElems p va (min (min 1024 (total - k)) (portCap .none dst / 2)) / el)
       let b0 := b - 3
       State.got e1 (t.readBlocks e1 (src.addr (elemsBytes a (el * b0))) a (b + m - b0)) fun u bs =>
        let w1 := streamPart (dst.byteAt 0) (bb * all) (bb * b0) (bb * b) (bb * (b + m)) (bs.map Prod.fst).flatten
        let w2 := streamPart (dst.byteAt base) all b0 b (b + m) (bs.map fun b => BitVec.ofNat 8 b.2)
        u.withPorts e1 .none dst fun u => State.got e1 (u.writeTo e1 dst w1.1 w1.2 []) fun v _ =>
          State.got e1 (v.writeTo e1 dst (base + w2.1) w2.2 []) fun w _ => w.moved e1 (el * m) total (el * m) 23)

/-! ### CGATHER (R177) -/

def gatherLen (e : Entry) : Nat := Word.bits (Entry.val e 3) 0 24
def gatherRows (e : Entry) : Nat := Word.bits (Entry.val e 3) 24 24

/-- The value checks of CGATHER; the format rules are those of CCOPY for one row. -/
def State.gatherChecks (s : State) (e : Entry) (attr fp32 : Option (Nat × Nat × Nat)) : List Check :=
  let m := (copyArg e.op).mode
  let d := Entry.val e 0
  let base := Entry.val e 1
  let foot := gatherOut e * gatherRows e
  let fmts := if m = 1 then s.formatChecks 1 base attr (gatherLen e) else []
  let plain := (fp32.map fun a => [0, 3].contains a.1).getD false
  [needs (placeOk d && Word.bits (Entry.val e 3) 48 16 == 0) Code.illegal] ++ fmts.take 1 ++
  [needs (decide ((Entry.val e 2).toNat % 4 = 0) && (m ≠ 1 || (match s.place d with
    | .glob va => !plain || decide (va.toNat % 4 = 0)
    | pl => decide (placeMod pl 4 = 0)))) Code.align] ++
  (fmts.drop 1).take 1 ++ [s.placeFits d foot] ++ fmts.drop 2 ++
  [needsAt (m ≠ 1 || fp32.isNone || plain) Code.format ((s.place d).addr 0), placeBounds (s.place d) foot [0, 1, 2]]

/-- The formats that a DECODE gather finds at its start: of the page of BASE, and of a global destination. -/
def State.gatherFormats (s : State) (e : Entry) : State × Got (Option (Nat × Nat × Nat) × Option (Nat × Nat × Nat)) :=
  if (copyArg e.op).mode = 0 || decide (gatherLen e = 0) || decide (gatherRows e = 0) then (s, .ok (none, none))
  else match s.pageAttr e (.glob (Entry.val e 1)) .read with
    | (t, .ok a) => (match t.pageAttr e (s.place (Entry.val e 0)) .write with
      | (u, .ok b) => (u, .ok (a, b))
      | (u, .wait c) => (u, .wait c)
      | (u, .fault c x) => (u, .fault c x))
    | (t, .wait c) => (t, .wait c)
    | (t, .fault c x) => (t, .fault c x)

/-- Start of a CGATHER. -/
def beginGather (s : State) (e : Entry) : Begin :=
  let d := Entry.val e 0
  let idle := decide (gatherLen e = 0) || decide (gatherRows e = 0)
  match s.gatherFormats e with
  | (t, .wait c) => .wait t c
  | (_, .fault c a) => .fault c a
  | (t, .ok look) =>
    begins (s.gatherChecks e look.1 look.2)
      (startWith t e (placeHold d .whole) fun t e1 =>
        .go t { e1 with
          fin := if idle then some s.clk else none
          start := { e1.start with
            src := .glob (Entry.val e 1), dst := s.place d, ready := true
            table := if (copyArg e.op).mode = 1 then s.cell.lat2 else [], sattr := look.1 } })

/-- CGATHER (R177). -/
def execCgather (c : Bool) (m : BitVec 2) (s : State) : Out :=
  terminalWord (.cgather c m) 4 (decide (m.toNat ≤ 1)) beginGather s

/-- n bytes of row i at the destination, from a byte of it on: zeros for a padding row, and otherwise read as CCOPY reads one
row, whose format does not change within it. -/
def State.gatherPart (s : State) (e : Entry) (i pos n : Nat) : State × Got (List Byte) :=
  match s.fetch e ((Place.glob (Entry.val e 2)).addr (4 * i)) 4 Page.plain with
  | (t, .ok ib) =>
    let idx := numOfBytes ib
    let src := e.start.src
    if idx = 0xFFFFFFFF then (t, .ok (List.replicate n 0))
    else if (copyArg e.op).mode = 1 then
      let a := e.start.sattr.getD (0, 0, 0)
      t.decodeRange e src (idx * elemsBytes a (gatherLen e)) a (pos / 4) (n / 4)
    else match t.enginePage e (src.addr (idx * gatherLen e)) .read with
      | (u, .ok p) =>
        u.fetch e (src.addr (idx * gatherLen e + pos)) n fun q => q.plain && q.attr == p.attr
      | (u, .wait c) => (u, .wait c)
      | (u, .fault c a) => (u, .fault c a)
  | (t, .wait c) => (t, .wait c)
  | (t, .fault c a) => (t, .fault c a)

/-- n bytes of the destination from a byte of it on, row after row. -/
def State.gatherBytes (s : State) (e : Entry) : Nat → Nat → Nat → State × Got (List Byte)
  | 0, _, _ => (s, .ok [])
  | fuel + 1, k, n =>
    let out := gatherOut e
    let m := min n (out - k % out)
    if n = 0 then (s, .ok [])
    else match s.gatherPart e (k / out) (k % out) m with
      | (t, .ok bs) =>
        match State.gatherBytes t e fuel (k + m) (n - m) with
        | (u, .ok cs) => (u, .ok (bs ++ cs))
        | r => r
      | r => r

/-- A piece of a CGATHER: a row, or a part of one or more, as the destination's words and chunks allow (R177, R229, R275). -/
def State.gatherTurn (s : State) (e : Entry) (total : Nat) : State :=
  let k := e.next
  let m := (copyArg e.op).mode
  let dst := e.start.dst
  let fmts := if m = 1 then [0, 3] else plainFmts
  State.got e (s.side e dst k .write) fun t dp =>
    let da := dst.addr k
    let rest := min (total - k) (sideRoom dp da)
    let most := min (min (portCap .none dst) rest) (gatherOut e - k % gatherOut e)
    let n := cutAt (dst.byteAt k) most rest (grain dp)
    t.checked e ((if m = 1 then [fp32Fine dp da] else []) ++ [sideFine dp fmts none da, collFine dp da rest])
      (State.got e (if m = 1 && e.start.sattr.isNone then t.side e e.start.src 0 .read else (t, .ok none)) fun u bp =>
        let e1 : Entry := { e with start := { e.start with sattr := keepAttr e.start.sattr bp } }
        u.checked e (if bp.isSome then u.gatherChecks e e1.start.sattr none else [])
          (State.got e1 (u.gatherBytes e1 n k n) fun v bs =>
            v.withPorts e1 .none dst fun w => State.got e1 (w.writeTo e1 dst k bs fmts) fun x _ => x.moved e1 n total n 23))

/-! ### CFILL and CHINT (R178, R179) -/

/-- Start of a CFILL (R178). -/
def beginFill (s : State) (e : Entry) : Begin :=
  let d := Entry.val e 0
  let n := (Entry.val e 1).toNat
  begins [needs (placeOk d) Code.illegal, s.placeFits d n, placeBounds (s.place d) n [0, 1, 2]]
    (startWith s e (placeHold d .whole) fun t e1 =>
      .go t { e1 with
        fin := if n = 0 then some s.clk else none
        start := { e1.start with dst := s.place d, ready := true } })

/-- CFILL (R178). -/
def execCfill (s : State) : Out := terminalWord .cfill 3 true beginFill s

/-- A piece of a CFILL: byte b receives byte b mod 8 of PATTERN (R178). -/
def State.fillTurn (s : State) (e : Entry) (total : Nat) : State :=
  let k := e.next
  let dst := e.start.dst
  State.got e (s.side e dst k .write) fun t dp =>
    let da := dst.addr k
    let rest := min (total - k) (sideRoom dp da)
    let n := cutAt (dst.byteAt k) (min (portCap .none dst) rest) rest (grain dp)
    let bs := (List.range n).map fun i => BitVec.ofNat 8 (Word.bits (Entry.val e 2) (8 * ((k + i) % 8)) 8)
    t.checked e [sideFine dp plainFmts none da, collFine dp da rest]
      (t.withPorts e .none dst fun t => State.got e (t.writeTo e dst k bs plainFmts) fun u _ => u.moved e n total n 23)

/-- CHINT (R179): the entry completes when it starts, and changes nothing. -/
def execChint (s : State) : Out := terminalWord .chint 2 true beginDone s

/-! ### The turn (R224) -/

def Instr.isCopy : Instr → Bool
  | .ccopy .. | .cgather .. | .cfill => true
  | _ => false

/-- Started copies of the cell whose work goes on, of the clk before this one and earlier. -/
def State.copies (s : State) : List Entry :=
  s.running.filter fun e => Instr.isCopy e.op && e.fin.isNone && decide (e.begun < s.clk) && s.mayAdvance e.queue

/-- Start order: by clk, then by ENQ number (R224, R232). -/
def startsBefore (a b : Nat × Nat) : Bool := decide (a.1 < b.1) || (decide (a.1 = b.1) && decide (a.2 < b.2))

/-- An entry's place in start order. -/
def Entry.turnKey (e : Entry) : Nat × Nat := (e.begun, e.enq)

/-- The first of some entries in start order. -/
def firstStarted (es : List Entry) : Option Entry :=
  es.foldl (fun (b : Option Entry) e => match b with
    | none => some e
    | some x => if startsBefore e.turnKey x.turnKey then some e else b) none

/-- The copy whose turn it is: the next in start order after the last one served (R224). -/
def State.nextCopy (s : State) : Option Entry :=
  (firstStarted (s.copies.filter fun e => startsBefore s.cell.copyTurn e.turnKey)).orElse fun _ => firstStarted s.copies

/-- COPY_TURN (R224): the started copies are served in turn, in start order, each moving up to 4 KiB. One that is not the
oldest of its queue moves nothing in its turn: its writes may not be seen before those of the entry in front (R154). A copy
whose turn it is not waits, charged to MEMORY (R190, log 23). -/
def execCopyTurn (s : State) : Out :=
  match s.nextCopy with
  | none => .next s
  | some e =>
    let others := s.copies.filter fun x => x.turnKey != e.turnKey
    let s0 := others.foldl (fun (t : State) x => t.chargeEntry x .memory) (s.setCell { s.cell with copyTurn := e.turnKey })
    if (s0.headEntry e.queue).map Entry.seq ≠ some e.seq then .next (s0.stalls e .memory)
    else match e.op with
      | .ccopy _ _ _ m =>
        let n := (Entry.val e 2).toNat
        .next (s0.turn e n fun t e1 =>
          match m.toNat with
          | 0 => t.moveBytes e1 n 4096 23 true
          | 1 => t.decodeTurn e1 n
          | 2 => t.encodeTurn e1 n
          | _ => t.blocksTurn e1 n)
      | .cgather _ _ =>
        let n := gatherOut e * gatherRows e
        .next (s0.turn e n fun t e1 => t.gatherTurn e1 n)
      | .cfill => .next (s0.turn e (Entry.val e 1).toNat fun t e1 => t.fillTurn e1 (Entry.val e 1).toNat)
      | _ => .next s0

end Sys2Proof.Machine
end

