-- ==== Sys2Proof/Machine/Transfer.lean ====
section
/-!
DEFINITION. The transfer engine: XWRITE, XREAD, XCOLL, XRLINV (R181, R182, R184, R284-R287), one chunk at a time
(R224); postings, reception and the wings (R276-R283).
-/

namespace Sys2Proof.Machine

/-! ### XWRITE, XREAD, XRLINV (R181, R184) -/

/-- Start of an XWRITE: its source may not lie in the weight store (R227). -/
def beginXwrite (free : Bool) (s : State) (e : Entry) : Begin :=
  let v := Entry.val e 1
  let n := (Entry.val e 2).toNat
  begins [needs (placeOk v) Code.illegal, needs (decide (n < 2 ^ 40)) Code.shape,
          s.placeFits v n, placeBounds (s.place v) n [1, 2]]
    (startWith s e (placeHold v (if free then .readFree else .read)) fun t e1 =>
      .go t { e1 with
        fin := if n = 0 then some s.clk else none
        start := { e1.start with src := s.place v, dst := .glob (Entry.val e 0), ready := true } })

/-- XWRITE (R181). -/
def execXwrite (f : Bool) (s : State) : Out := terminalWord (.xwrite f) 3 true (beginXwrite f) s

/-- Start of an XREAD; a tile it fills is written whole. -/
def beginXread (s : State) (e : Entry) : Begin :=
  let d := Entry.val e 0
  let n := (Entry.val e 2).toNat
  begins [needs (placeOk d) Code.illegal, needs (decide (n < 2 ^ 40)) Code.shape, s.placeFits d n,
          placeBounds (s.place d) n [0, 1, 2]]
    (startWith s e (placeHold d .whole) fun t e1 =>
      .go t { e1 with
        fin := if n = 0 then some s.clk else none
        start := { e1.start with src := .glob (Entry.val e 1), dst := s.place d, ready := true } })

/-- XREAD (R181). -/
def execXread (s : State) : Out := terminalWord .xread 3 true beginXread s

/-- XRLINV (R184): the entry has no work; the cached copy of the rank list is dropped as it completes. -/
def execXrlinv (s : State) : Out :=
  terminalWord .xrlinv 1 true (fun s e =>
    begins [needs (decide ((Entry.val e 0).toNat % 8 = 0)) Code.align] (.go s { e with fin := some s.clk })) s

/-- What the completion of an XRLINV does: an entry that starts a firing from now on reads the list afresh (R184). -/
def State.forgetList (s : State) (e : Entry) : State :=
  match e.op with
  | .xrlinv => s.setCell { s.cell with rankCache := s.cell.rankCache.filter fun r => r.1 != (Entry.val e 0).toNat }
  | _ => s

/-! ### The collective descriptor (R284-R286) -/

/-- Word i of an entry's descriptor. -/
def Entry.descWord (e : Entry) (i : Nat) : Word := e.start.desc[i]?.getD 0

def Entry.sends (e : Entry) : Bool := (e.descWord 0).getLsbD 60
def Entry.receives (e : Entry) : Bool := (e.descWord 0).getLsbD 61
def Entry.peers (e : Entry) : Nat := if e.sends then Word.bits (e.descWord 2) 0 16 else 0

/-- The address the firing sends from (R286). -/
def Entry.sendBase (e : Entry) : Nat := Word.bits (e.descWord 0) 0 56 + e.firing * Word.bits (e.descWord 6) 0 48

/-- The receive tile of the firing (R286). -/
def Entry.recvTile (e : Entry) : Nat := (Word.bits (e.descWord 2) 32 8 + e.firing * Word.bits (e.descWord 2) 40 8) % 256

/-- Bytes for peer p (R286). -/
def Entry.peerBytes (e : Entry) (p : Nat) : Nat :=
  if Word.bits (e.descWord 4) 0 56 = 0 then Word.bits (e.descWord 3) 0 32 else (laneOf e.start.byp p).toNat

/-- PrefixBytes (R286). -/
def Entry.prefixBytes (e : Entry) (p : Nat) : Nat := ((List.range p).map e.peerBytes).foldl (· + ·) 0

/-- Checks of a descriptor as read (R284): ILLEGAL, SHAPE, ALIGN. -/
def descChecks (ws : List Word) : List Check :=
  let w := fun i => ws[i]?.getD 0
  let op := Word.bits (w 0) 56 2
  let n := Word.bits (w 2) 0 16
  [needs ((w 0).getLsbD 63 == false && Word.bits (w 1) 56 8 == 0 && Word.bits (w 2) 60 4 == 0 &&
      Word.bits (w 4) 56 8 == 0 && Word.bits (w 5) 56 8 == 0 && Word.bits (w 6) 48 16 == 0 && Word.bits (w 7) 51 13 == 0 &&
      (!(w 0).getLsbD 60 || op == 1 || op == 2) && ((w 0).getLsbD 61 || !(w 7).getLsbD 50)) Code.illegal,
   needs (decide (n ≠ 0) && decide (Word.bits (w 2) 16 16 < n) &&
      (Word.bits (w 4) 0 56 ≠ 0 || decide (Word.bits (w 3) 0 32 % 4 = 0))) Code.shape,
   needs (decide (Word.bits (w 1) 0 3 = 0) && decide (Word.bits (w 4) 0 2 = 0) && decide (Word.bits (w 5) 0 2 = 0))
     Code.align]

/-- Checks of the entries of a rank list (R285). -/
def rankChecks (ws : List Word) : List Check :=
  [needs (ws.all fun w => Word.bits w 22 2 == 0 && Word.bits w 48 16 == 0) Code.illegal,
   needs (ws.all fun w => decide (Word.bits w 11 11 ≤ 1535) && decide (Word.bits w 24 24 % 4 = 0)) Code.shape]

/-- A long start read, in pieces of at most 4 KiB. -/
def Rd.readLong (r : Rd) (va : Word) (n : Nat) : Nat → Rd × Got (List Byte)
  | 0 => (r, .ok [])
  | fuel + 1 =>
    if n ≤ 4096 then r.read va n
    else Rd.next (r.read va 4096) fun r bs =>
      Rd.next (Rd.readLong r (canon (va.toNat + 4096)) (n - 4096) fuel) fun r cs => (r, .ok (bs ++ cs))

/-- The rank list of the firing is known: the start reads that gave it are over, those before them stay numbered as they
are. -/
def Rd.keepList (r : Rd) (i : Nat) (ws : List Word) : Rd × Got (List Word) :=
  ({ s := r.s.dropReplies r.e, e := { r.e with start := { r.e.start with list := ws, got := r.e.start.got.take i } }, i := i },
    .ok ws)

/-- The rank list: that of the firing once known, else cached, or read and cached (R182, R184). -/
def Rd.rankList (r : Rd) (va : Word) (n : Nat) : Rd × Got (List Word) :=
  if !r.e.start.list.isEmpty then (r, .ok r.e.start.list)
  else match r.s.cell.rankCache.find? fun c => c.1 == va.toNat && decide (n ≤ c.2.length) with
  | some c => r.keepList r.i (c.2.take n)
  | none =>
    Rd.next (r.readLong va (8 * n) 200) fun q bs =>
      let ws := wordsOfBytes n bs
      Rd.keepList { q with s := q.s.setCell { q.s.cell with
        rankCache := (va.toNat, ws) :: q.s.cell.rankCache.filter fun c => c.1 != va.toNat } } r.i ws

/-- The reads of a firing: descriptor, rank list, counts, expected words (R286). -/
def Rd.firing (r : Rd) : Rd × Got Unit :=
  Rd.next (r.read (Entry.val r.e 0) 64) fun r bs =>
    let ws := wordsOfBytes 8 bs
    let w := fun i => ws[i]?.getD 0
    let n := Word.bits (w 2) 0 16
    r.check (descChecks ws)
      (Rd.next (r.rankList (globAddr (w 1)) n) fun r ranks =>
        r.check (rankChecks ranks)
          (let counts : Rd × Got (List Lane) :=
            if Word.bits (w 4) 0 56 = 0 then (r, .ok [])
            else Rd.next (r.readLong (globAddr (w 4)) (4 * n) 200) fun r cb => (r, .ok (lanesOfBytes n cb))
           Rd.next counts fun r cs =>
            r.check [needs (cs.all fun c => decide (c.toNat % 4 = 0)) Code.shape]
              (let expect : Rd × Got Nat :=
                if Word.bits (w 5) 0 56 = 0 || !(w 0).getLsbD 61 then (r, .ok (Word.bits (w 3) 32 32))
                else Rd.next (r.read (globAddr (w 5)) 4) fun r eb => (r, .ok (numOfBytes eb))
               Rd.next expect fun r x =>
                ({ r with e := { r.e with start := { r.e.start with
                    desc := ws, list := ranks, byp := cs, acc := x, ready := true, got := [] } } }, .ok ()))))

/-! ### Reception (R276-R283) -/

/-- One more in a counter of R283. -/
def State.raise (s : State) (csr n : Nat) : State := s.setCsr csr (s.readCsr csr + BitVec.ofNat 64 n)

/-- Rank of a source: its first position in the list (R279, R285). -/
def rankOf (ranks : List Word) (dev cell : Nat) : Option Nat :=
  ranks.findIdx? fun w => Word.bits w 0 11 == dev && Word.bits w 11 11 == cell

/-- Ranks below one: first positions of sources (R279). -/
def lowerRanks (ranks : List Word) (i : Nat) : List Nat :=
  (List.range i).filter fun j =>
    let w := ranks[j]?.getD 0
    rankOf ranks (Word.bits w 0 11) (Word.bits w 11 11) == some j

/-- A deferred MACHINE is recorded (R386). -/
def State.deferMachine (s : State) (addr : Word) (kind store dest : Nat) : State :=
  s.setCore { s.core with machines := s.core.machines ++
    [{ addr := addr, info := BitVec.ofNat 64 (kind + 8 + 16 * store + 64 * dest) }] }

/-- One word applied at the result-store bank: an accumulate that reads a bad word is not applied (R278, R385). -/
def State.applyWord (s : State) (tile : Word) (w : Nat) (add : Bool) (v : Lane) : State :=
  let off := tileOff tile + 4 * w
  let bad := (s.storeErrors 2 off 4).any fun e => decide (1 < e.2.toNat)
  if add && bad then (s.deferMachine (BitVec.ofNat 64 off) 2 2 0x7FFFF).countErrors (s.gcell / 64) 0 1
  else if add then
    let old := BitVec.ofNat 32 (numOfBytes (s.storeBytes 2 off 4))
    (s.setCell (s.cell.putStore 2 off (bytesOfNum 4 (accAdd old (ofFp32 v)).toNat))).count 12 1
  else s.storeWrite 2 off (bytesOfNum 4 v.toNat)

/-- Held words of a tile word applied as their turn comes (R279). -/
def State.drainHeld (s : State) (p : Posting) (w : Nat) : Nat → State × Posting
  | 0 => (s, p)
  | fuel + 1 =>
    match p.held.find? fun h => h.2.1 == w && (lowerRanks p.ranks h.1).all fun j => p.applied.contains (j, w) with
    | none => (s, p)
    | some h =>
      State.drainHeld (s.applyWord (s.tile p.tile) w true h.2.2)
        { p with held := p.held.filter (· != h), applied := (h.1, w) :: p.applied, got := p.got + 1 } w fuel

/-- One word of a contribution at its posting (R278, R279): in ordered mode an ADD word is held until its turn, and a PUT word
is applied at once and counts as its source's word. -/
def State.takeContribWord (s : State) (p : Posting) (rank w : Nat) (add : Bool) (v : Lane) : State × Posting :=
  if !p.ordered then (s.applyWord (s.tile p.tile) w add v, { p with got := p.got + 1 })
  else if add then s.drainHeld { p with held := p.held ++ [(rank, w, v)] } w (p.held.length + 1)
  else
    (s.applyWord (s.tile p.tile) w false v).drainHeld
      { p with applied := (rank, w) :: p.applied, got := p.got + 1 } w p.held.length

/-- The words of a contribution in order. -/
def State.takeWords (s : State) (p : Posting) (rank : Nat) (add : Bool) : List (Lane × Nat) → State × Posting
  | [] => (s, p)
  | (v, w) :: ws =>
    let x := s.takeContribWord p rank w add v
    State.takeWords x.1 x.2 rank add ws

/-- The posting replaced, or, with its count met, withdrawn with its tile ready and its increment due in the next clk
(R276, R277); the die joins the clocks counted (R257). A tile that is ready or draining by then stays so (R231). -/
def State.putPosting (s : State) (p : Posting) : State :=
  if p.expect ≤ p.got then
    let s1 := (s.setCell ((s.cell.moveTile p.tile 0 2).moveTile p.tile 1 2)).joinVc s.die p.clock
    let c := s1.retire p
    { s1 with coll := { c with cues := c.cues ++ p.rq.toList } }
  else { s with coll := { s.coll with postings := s.coll.postings.map fun x => if x.cidx = p.cidx then p else x } }

/-- A contribution applied at a posting (R278): a source not listed and words beyond the tile are refused. The tile's clocks
take its stamp (R257). -/
def State.applyContrib (s : State) (p : Posting) (c : Contrib) : State :=
  match rankOf p.ranks c.dev c.cell with
  | none => s.raise 0x172 c.words.length
  | some r =>
    let ws := c.words.zipIdx.map fun x => (x.1, c.off / 4 + x.2)
    let fits := ws.filter fun x => decide (4 * x.2 + 4 ≤ tileLen (s.tile p.tile))
    let x := (if fits.length = ws.length then s else s.raise 0x172 (ws.length - fits.length)).takeWords p r c.add fits
    x.1.putPosting { x.2 with
      bitmap := if c.chunk then (r, c.off / 64) :: x.2.bitmap else x.2.bitmap
      clock := if fits.isEmpty then x.2.clock else maxClock x.2.clock c.clock }

/-- Bytes a parked contribution takes in the wings (R280). -/
def Contrib.parkSize (c : Contrib) : Nat := (4 * c.words.length + 63) / 64 * 64 + 64

/-- Bytes the held words of a posting take: those of one source in one 64-byte range as one chunk (R280). -/
def Posting.heldSize (p : Posting) : Nat := 128 * ((p.held.map fun h => (h.1, h.2.1 / 16)).eraseDups).length

/-- Bytes the wings hold for this cell: parked contributions, held words, and the bitmaps of standing and withdrawn postings
(R280, R282). -/
def State.wingsUsed (s : State) : Nat :=
  (s.coll.parked.map Contrib.parkSize).foldl (· + ·) 0 +
  (s.coll.postings.map fun p => p.heldSize + s.bitmapBytes p).foldl (· + ·) 0 + (s.coll.last.map Withdrawn.bytes).foldl (· + ·) 0

/-- The wings have room for a contribution (R280). -/
def State.wingsRoom (s : State) (c : Contrib) : Bool := decide (s.wingsUsed + c.parkSize ≤ 0x400000)

/-- A chunk already counted: its identity is set in the bitmaps of the posting of its round (R282). -/
def dupIn (c : Contrib) (epoch : Nat) (bitmap : List (Nat × Nat)) (ranks : List Word) : Bool :=
  c.chunk && (c.epoch.isNone || c.epoch == some epoch) &&
    (match rankOf ranks c.dev c.cell with
      | some r => bitmap.contains (r, c.off / 64)
      | none => false)

/-- What reception does with a contribution (R280, R282). -/
inductive Fate where
  | apply (p : Posting)
  | park
  | duplicate
  | stale
  deriving Repr

def State.fate (s : State) (c : Contrib) : Fate :=
  let far := fun (epoch reference : Nat) => (epoch + 256 - reference) % 256
  let stands := if s.core.status = .away then none else s.coll.postings.find? fun p => p.cidx == c.cidx
  match stands with
  | some p =>
    if dupIn c p.epoch p.bitmap p.ranks then .duplicate
    else match c.epoch with
      | none => .apply p
      | some x => if far x p.epoch = 0 then .apply p else if far x p.epoch ≤ 127 then .park else .stale
  | none =>
    if s.core.status = .away then .park
    else match s.coll.last.find? fun l => l.cidx == c.cidx with
      | none => .park
      | some l =>
        if dupIn c l.epoch l.bitmap l.ranks then .duplicate
        else match c.epoch with
          | none => .park
          | some x => if far x ((l.epoch + 1) % 256) ≤ 127 then .park else .stale

/-- A contribution that is in the wings, or for which they have room: its fate (R280). -/
def State.accept (s : State) (c : Contrib) : State :=
  match s.fate c with
  | .duplicate => s.raise 0x170 1
  | .stale => s.raise 0x171 1
  | .apply p => s.applyContrib p c
  | .park => { s with coll := { s.coll with parked := s.coll.parked ++ [c] } }

/-- The contribution takes room in the wings: it is parked, or its words can be held (R280). -/
def State.needsRoom (s : State) (c : Contrib) : Bool :=
  match s.fate c with
  | .park => true
  | .apply p => p.ordered && c.add
  | _ => false

/-- A contribution at its receiving cell; none where the wings are full (R280). -/
def State.receive (s : State) (c : Contrib) : Option State :=
  if s.needsRoom c && !s.wingsRoom c then none else some (s.accept c)

/-- Parked contributions received again, oldest first; nothing is dropped (R280). -/
def State.receiveAll (s : State) (cs : List Contrib) : State := cs.foldl State.accept s

/-- A posting stands that the contribution matches. -/
def State.appliesNow (s : State) (c : Contrib) : Bool :=
  match s.fate c with
  | .apply _ => true
  | _ => false

/-- A drain writes the result store in this clk. -/
def State.drainsNow (s : State) : Bool :=
  s.running.any fun e => decide (e.begun < s.clk) && e.fin.isNone && s.mayAdvance e.queue && !s.coreAhead e [2] && (match e.op with
    | .mdrain _ d _ => !d
    | _ => false)

/-- The accumulate-on-write port is granted the result store in this clk: a drain goes before it (R228). -/
def State.accOpen (s : State) : Bool := s.portOpen 1 2 && !(s.drainsNow && s.portOpen 0 2)

/-- It is refused, and the clk counts (R228). -/
def State.refuseAcc (s : State) : State :=
  s.setStorePort 2 { s.storePort 2 with lost := (s.storePort 2).lost ||| 2 }

/-- A contribution comes to the bank: refused the port it waits; `k` goes on with the state after its reception, or with none
where the wings are full (R228, R280). -/
def State.arrives (s : State) (c : Contrib) (k : Option State → State) : State :=
  if s.appliesNow c && !s.accOpen then s.refuseAcc
  else k ((if s.appliesNow c then s.takePorts [2] else s).receive c)

/-- RECEPTION_CUE_INCREMENT (R277): increments due from tiles that became ready; none while halted or away. -/
def execReceptionCueIncrement (s : State) : Out :=
  if s.core.status = .halted || s.core.status = .away then .next s
  else .next { (s.coll.cues.foldl (fun t n => t.bump n 1 14) s) with coll := { s.coll with cues := [] } }

/-- BACK_PRESSURE_RELEASE (R280): the oldest held contribution of this cell is sent once the wings have room. -/
def execBackPressureRelease (s : State) : Out :=
  match s.coll.outHeld with
  | [] => .next s
  | r :: rs =>
    let open' := match r.op with
      | .contrib c => s.wingsRoom c
      | _ => true
    if open' then
      let t := s.marksWrite r.die
      .next { t with
        coll := { t.coll with outHeld := rs }
        sys := { t.sys with reqs := t.sys.reqs ++ [{ r with stamp := s.stampOf r.die r.op, rclk := s.vcOf r.die }] } }
    else .next s

/-! ### XCOLL (R182, R284-R287) -/

/-- XCOLL (R182): the descriptor's alignment is checked, and a re-arming launch waits for room in the armed set. -/
def execXcoll (r : Bool) (s : State) : Out :=
  terminalWord (.xcoll r) 1 true (fun s e =>
    let v := s.queue s.actq
    let rearm := v.run.filter fun x => match x.op with
      | .xcoll b => b
      | _ => false
    begins [needs (decide ((Entry.val e 0).toNat % 64 = 0)) Code.align]
      (if r && decide (4 ≤ v.armed.length + rearm.length) then .wait s .orderWait else .go s e)) s

/-- The transfer entry that moves: the head of a queue, or armed entry j of it, coded as q + 16 (j + 1). -/
def State.xferEntry (s : State) : Option Entry :=
  let v := s.queue (s.actq % 16)
  if s.actq < 16 then v.run.head? else v.armed[s.actq / 16 - 1]?

/-- A firing's reads (R286). -/
def State.firingReads (s : State) (e : Entry) : State :=
  match Rd.firing { s := s, e := e, i := 0 } with
  | (r, .ok _) => (r.s.dropReplies r.e).advances r.e
  | (r, .wait c) => r.s.stalls r.e c
  | (r, .fault c a) => r.s.breaks r.e c a

/-- XCOLL_FIRING (R182, R286): an armed entry fires on a transition of its term; the bases advance by their strides,
and the descriptor is read afresh. -/
def execXcollFiring (s : State) : Out :=
  match s.xferEntry with
  | none => .next s
  | some e =>
    if !s.mayStart e.queue || !e.armed || e.fin.isNone || !e.trig then .next s
    else
      let e1 : Entry := { e with
        firing := e.firing + 1, trig := false, fin := none, posted := false, group := 0, done := 0, next := 0,
        start := { e.start with ready := false, list := [], got := [] } }
      .next (s.firingReads e1)

/-- The posting of a firing (R276): one step. -/
def State.post (s : State) (e : Entry) : State :=
  let h := e.recvTile
  let d := s.tile h
  let cidx := descCidx e.start.desc
  let p : Posting :=
    { cidx := cidx, tile := h, expect := e.start.acc, got := 0, epoch := Entry.epoch e,
      ordered := (e.descWord 0).getLsbD 58, rq := if (e.descWord 7).getLsbD 50 then some (Word.bits (e.descWord 7) 44 6) else none,
      bitmap := [], ranks := e.start.list, applied := [], held := [], clock := [] }
  let c1 := s.cell.setTileState h 1
  let c2 := if (e.descWord 0).getLsbD 62 then c1.putStore 2 (tileOff d) (List.replicate (tileLen d) 0) else c1
  let mine := s.coll.parked.filter fun c => c.cidx == cidx
  let s1 : State := { (s.setCell c2) with coll := { s.coll with
    postings := s.coll.postings ++ [p], last := s.coll.last.filter fun l => l.cidx != cidx
    parked := s.coll.parked.filter fun c => c.cidx != cidx } }
  if p.expect = 0 then (s1.putPosting p).receiveAll mine else s1.receiveAll mine

/-- The posting writes the result store: its tile is cleared, or parked contributions wait for it (R228). -/
def State.postWrites (s : State) (e : Entry) : Bool :=
  (e.descWord 0).getLsbD 62 || s.coll.parked.any fun c => c.cidx == descCidx e.start.desc

/-- POSTING (R276): it waits for a table entry and its CIDX, then for its tile to be empty. What it writes takes the
accumulate-on-write port (R228). -/
def execPosting (s : State) : Out :=
  match s.xferEntry with
  | none => .next s
  | some e =>
    let d := s.tile e.recvTile
    if !s.mayAdvance e.queue || !e.start.ready || !e.receives || e.posted then .next s
    else match firstBad [needs (decide (tileStore d = 2) && decide (tileLen d ≠ 0)) Code.tile,
                         needs (decide (4 * e.start.acc ≤ tileLen d)) Code.shape] with
      | some c => .next (s.breaks e c.1 c.2)
      | none =>
        if decide (16 ≤ s.coll.postings.length) || s.coll.postings.any (fun p => p.cidx == descCidx e.start.desc)
        then .next (s.stalls e .orderWait)
        else if tileState d ≠ 0 then .next (s.stalls e .tile)
        else if s.postWrites e && !s.accOpen then .next (s.refuseAcc.stalls e .memory)
        else .next (((if s.postWrites e then s.takePorts [2] else s).post e).advances { e with posted := true })

/-- A firing has ended: a started entry's work is done; an armed entry waits for its term again, or disarms. -/
def State.firingDone (s : State) (e : Entry) : State :=
  let n := Word.bits (e.descWord 7) 0 32
  if e.armed && (e.disarm || (decide (n ≠ 0) && decide (n ≤ e.firing + 1))) then
    (s.setQueue e.queue { (s.queue e.queue) with armed := (s.queue e.queue).armed.filter fun x => x.seq != e.seq }).chargeEntry
      e .issued
  else s.advances (e.finish s.clk)

/-- The first peer from the i-th on that is sent anything (R286). -/
def Entry.nextPeer (e : Entry) (fuel i : Nat) : Nat :=
  match fuel with
  | 0 => i
  | n + 1 =>
    let np := Word.bits (e.descWord 2) 0 16
    if decide (i < e.peers) && decide (e.peerBytes ((Word.bits (e.descWord 2) 16 16 + i) % np) = 0)
    then e.nextPeer n (i + 1) else i

/-- One chunk of the peer being served, tagged with the firing's epoch (R275, R285-R287). -/
def State.sendChunk (s : State) (e : Entry) : State :=
  let np := Word.bits (e.descWord 2) 0 16
  let p := (Word.bits (e.descWord 2) 16 16 + e.group) % np
  let entry := e.start.list[p]?.getD 0
  let base := if (e.descWord 0).getLsbD 59 then 0 else e.prefixBytes p
  let off := Word.bits entry 24 24 + e.next
  let va := canon (e.sendBase + base + e.next)
  let n := min (64 - off % 64) (e.peerBytes p - e.next)
  if s.trafficHeld true then s.stalls e .memory
  else
    State.got e (s.enginePage e va .read) fun t pg =>
      State.got e (t.fetch e va n Page.plain) fun u bs =>
        let dev := Word.bits entry 0 11
        let c : Contrib :=
          { cidx := descCidx e.start.desc, dev := s.devid, cell := s.gcell, off := off
            words := lanesOfBytes (n / 4) bs, chunk := true, epoch := some (Entry.epoch e)
            add := decide (Word.bits (e.descWord 0) 56 2 = 2), tdev := dev, tcell := Word.bits entry 11 11, clock := [] }
        let q : Page := { pg with
          w0 := Word.setBits pg.w0 54 2 (if dev = s.devid then 0 else 1), w1 := BitVec.ofNat 64 dev }
        if !u.farRoom q true 1 then u.stalls e .memory
        else
          let v := u.sendContrib (Entry.who e) va q c
          ((v.dropReplies e).count 24 (per64 n)).advances { e with next := e.next + n }

/-- A turn of an XCOLL: reads, then chunk after chunk, each performed before the next is counted (R286, R287). -/
def State.collTurn (s : State) (e : Entry) : State :=
  if e.fin.isSome then s
  else if !e.start.ready then s.firingReads e
  else if e.receives && !e.posted then s
  else if e.next ≠ e.done && !s.settled e then s.stalls e .memory
  else
    let np := Word.bits (e.descWord 2) 0 16
    let e1 : Entry := { e with done := e.next }
    let here := decide (e1.group < e1.peers) &&
      decide (e1.done < e1.peerBytes ((Word.bits (e.descWord 2) 16 16 + e1.group) % np))
    let e2 := if here then e1 else
      let i := e1.nextPeer (e1.peers + 1) (if e1.done = 0 then e1.group else e1.group + 1)
      { e1 with group := i, done := 0, next := 0 }
    if e2.group < e2.peers then s.sendChunk e2 else s.firingDone e2

/-- TRANSFER_CHUNK (R224): a transfer queue or an armed firing moves one chunk. -/
def execTransferChunk (s : State) : Out :=
  let s0 := s.setCell { s.cell with xferTurn := s.actq }
  match s0.xferEntry with
  | none => .next s0
  | some e =>
    if !s0.mayAdvance e.queue then .next s0
    else match e.op with
      | .xwrite _ =>
        let n := (Entry.val e 2).toNat
        .next (s0.turn e n fun t e1 => t.moveBytes e1 n 64 24 false)
      | .xread =>
        let n := (Entry.val e 2).toNat
        .next (s0.turn e n fun t e1 => t.moveBytes e1 n 64 24 false)
      | .xcoll _ => .next (s0.collTurn e)
      | _ => .next s0

end Sys2Proof.Machine
end

