-- ==== Sys2Proof/Machine/Route.lean ====
section
/-!
DEFINITION. The route unit: XROUTE and the scoring of a token row (R183, R289-R293).
-/

namespace Sys2Proof.Machine

/-! ### The route descriptor (R289) -/

def Entry.routeDst (e : Entry) : Word := globAddr (e.descWord 0)
def Entry.routeOut (e : Entry) : Nat := Word.bits (e.descWord 1) 0 56
def Entry.routeWout (e : Entry) : Nat := Word.bits (e.descWord 2) 0 56
def Entry.routeGoff (e : Entry) : Nat := Word.bits (e.descWord 4) 0 23
def Entry.routeHub (e : Entry) : Nat := Word.bits (e.descWord 4) 24 5
def Entry.routeD (e : Entry) : Nat := Word.bits (e.descWord 5) 0 16
def Entry.routeE (e : Entry) : Nat := Word.bits (e.descWord 5) 16 9
def Entry.routeK (e : Entry) : Nat := Word.bits (e.descWord 5) 25 4
def Entry.routeFb (e : Entry) : Nat := Word.bits (e.descWord 5) 32 8
def Entry.routeTok0 (e : Entry) : Nat := Word.bits (e.descWord 6) 0 32
def Entry.routeNtok (e : Entry) : Nat := Word.bits (e.descWord 6) 32 32
def Entry.routeRows (e : Entry) : Nat := (Entry.val e 2).toNat

/-- Checks of a descriptor as read: ILLEGAL, ABSENT, SHAPE, ALIGN, then the source place (R289). -/
def State.routeChecks (s : State) (e : Entry) : List Check :=
  let w := e.descWord
  let d := e.routeD
  let x := e.routeE
  let bytes := 2 * d * e.routeRows
  [needs ((List.range 4).all (fun i => Word.bits (w i) 56 8 == 0) && Word.bits (w 4) 23 1 == 0 &&
      Word.bits (w 4) 29 35 == 0 && Word.bits (w 5) 29 3 == 0 && Word.bits (w 5) 40 24 == 0 && w 7 == 0) Code.illegal,
   needs (!(decide (24 ≤ e.routeHub) && decide (e.routeHub ≤ 27)) || s.diePresent e.routeHub) Code.absent,
   needs (decide (24 ≤ e.routeHub) && decide (e.routeHub ≤ 27) && decide (1 ≤ d) && decide (d ≤ 16384) &&
      decide (1 ≤ x) && decide (x ≤ 256) && decide (1 ≤ e.routeK) && decide (e.routeK ≤ 8) && decide (e.routeK ≤ x) &&
      decide (e.routeFb < x) && decide (1 ≤ e.routeNtok) && decide (e.routeNtok ≤ 65536) &&
      decide (e.routeTok0 + e.routeRows ≤ e.routeNtok) && decide (e.routeGoff + 2 * d * x ≤ 0x800000)) Code.shape,
   needs (decide (e.routeOut % 8 = 0) && decide (e.routeWout % 8 = 0) && decide (Word.bits (w 3) 0 2 = 0) &&
      decide (e.routeGoff % 64 = 0)) Code.align,
   s.placeFits (Entry.val e 1) bytes, placeBounds e.start.src bytes [1, 2]]

/-- XROUTE (R183): its descriptor is read once it has started. -/
def execXroute (s : State) : Out :=
  terminalWord .xroute 3 true (fun s e =>
    let v := Entry.val e 1
    begins [needs (placeOk v) Code.illegal, needs s.hasRoute Code.absent,
            needs (decide ((Entry.val e 0).toNat % 64 = 0)) Code.align, s.placeFits v 0]
      (startWith s e (placeHold v .read) fun t e1 =>
        .go t { e1 with start := { e1.start with src := s.place v } })) s

/-- The value is finite. -/
def finiteLane (l : Lane) : Bool :=
  match ofFp32 l with
  | .fin _ _ _ => true
  | _ => false

/-- The reads of a started XROUTE: its descriptor, and the biases once, which must be finite (R289). A bad bias word ends no
entry: it is met again as each row is scored (R381, R385). -/
def Rd.route (r : Rd) : Rd × Got Unit :=
  Rd.next (r.read (Entry.val r.e 0) 64) fun r bs =>
    let r1 : Rd := { r with e := { r.e with start := { r.e.start with desc := wordsOfBytes 8 bs } } }
    let done : Rd → Rd × Got Unit := fun r => ({ r with e := { r.e with start := { r.e.start with ready := true, got := [] } } }, .ok ())
    r1.check (r1.s.routeChecks r1.e)
      (match r1.read (globAddr (r1.e.descWord 3)) (4 * r1.e.routeE) with
        | (r, .ok cb) => r.check [needs ((lanesOfBytes r.e.routeE cb).all finiteLane) Code.shape] (done r)
        | (r, .wait c) => (r, .wait c)
        | (r, .fault c a) => if c = Code.machine then done r else (r, .fault c a))

/-! ### Scoring (R290) -/

/-- The logit of an expert as FP32 bits: the exact sum of products, rounded once (R290). -/
def logit (xs gs : List FVal) : Nat :=
  Fmt.fp32.encode 0 false ((xs.zip gs).foldl (fun (acc : FVal) p => acc.add false (p.1.mul p.2)) (FVal.fin false 0 0))

/-- RoundRNE32 of the sum of a logit and a bias. -/
def score (l : Nat) (b : Lane) : Nat :=
  Fmt.fp32.encode 0 false ((Fmt.fp32.decode false l).add false (ofFp32 b))

/-- An expert is eligible unless its logit is a NaN or -infinity. -/
def eligible (l : Nat) : Bool :=
  match Fmt.fp32.decode false l with
  | .nan => false
  | .inf neg => !neg
  | .fin _ _ _ => true

/-- The expert with the highest score, the lowest number among equals. -/
def bestOf (scores : List (Nat × FVal)) : Option (Nat × FVal) :=
  scores.foldl (fun best x => match best with
    | none => some x
    | some y => if y.2.lt x.2 then some x else some y) none

/-- The first k experts in descending score. -/
def pickBest : Nat → List (Nat × FVal) → List Nat
  | 0, _ => []
  | k + 1, xs =>
    match bestOf xs with
    | none => []
    | some x => x.1 :: pickBest k (xs.filter fun y => y.1 != x.1)

/-- Bounds of ln 2 in units of 2^-p, from the first p terms of its series. -/
def ln2Bounds (p : Nat) : Nat × Nat :=
  let lo := ((List.range p).map fun k => 2 ^ p / ((k + 1) * 2 ^ (k + 1))).foldl (· + ·) 0
  (lo, lo + p + 2)

/-- Bounds of exp d in units of 2^-p, for d below 2^10; below -p the upper bound is one unit. -/
def expUnits (n p : Nat) (d : FVal) : Nat × Nat :=
  match d with
  | .fin neg m e =>
    if m = 0 then (2 ^ p, 2 ^ p)
    else if neg && decide ((Nat.log2 p : Int) + 1 ≤ ilog m e) then (0, 1)
    else
      let q := n + 64
      let l := ln2Bounds q
      let lo := 2 ^ (2 * q) / l.2
      let hi := 2 ^ (2 * q) / l.1 + 1
      let a := exp2Bounds n neg (m * (if neg then hi else lo)) (e - q)
      let b := exp2Bounds n neg (m * (if neg then lo else hi)) (e - q)
      let down := fun (x : Nat) (k : Int) => if 0 ≤ k then x * 2 ^ k.toNat else x / 2 ^ (-k).toNat
      (down a.1 (a.2.2 + p), down b.2.1 (b.2.2 + p) + 1)
  | _ => (0, 0)

/-- The softmax weight of a logit among the selected ones, rounded once, trying longer fractions in turn: the
reciprocal of the sum of exp (l_j - l). A difference of 2^9 or more gives a weight below every FP32 value. Where the logits
differ the weight is irrational, so that a long enough fraction tells it from every boundary (log 9). -/
def softWeight (l : FVal) (ls : List FVal) : List Nat → Option Nat
  | [] => none
  | n :: ns =>
    let ds := ls.map fun x => x.add false l.neg
    if ds.any (fun d => match d with
      | .fin neg m e => !neg && decide (m ≠ 0) && decide (9 ≤ ilog m e)
      | _ => false) then some 0
    else
      let p := n
      let b := (ds.map (expUnits n p)).foldl (fun (acc : Nat × Nat) x => (acc.1 + x.1, acc.2 + x.2)) (0, 0)
      let k := n + 200
      match agree Fmt.fp32 false (.fin false (2 ^ (p + k) / b.2) (-(k : Int)))
          (.fin false (2 ^ (p + k) / b.1 + 1) (-(k : Int))) with
      | some c => some c
      | none => softWeight l ls ns

/-- The weights of the selected experts, in selection order (R290). -/
def routeWeights (ls : List FVal) : List Lane :=
  let top := (ls.filter fun l => l == .inf false).length
  if top ≠ 0 then
    let w := BitVec.ofNat 32 (Fmt.fp32.encode 0 false (FVal.rcp (.fin false top 0)))
    ls.map fun l => if l == .inf false then w else 0
  else ls.zipIdx.map fun l =>
    match softWeight l.1 ls precisions with
    | some c => BitVec.ofNat 32 c
    | none => Config.freeLane (Fmt.fp32.encode 0 false l.1)

/-- What scoring a row gives: experts in selection order, their weights, the route-fault bit, the fallback bit. -/
structure Scored where
  experts  : List Nat
  weights  : List Lane
  fault    : Bool
  fallback : Bool
  deriving DecidableEq, Repr

/-- Selection and weights from logits and biases (R290). -/
def scoreRow (k fb : Nat) (logits : List Nat) (biases : List Lane) : Scored :=
  let fault := logits.any fun l => Fmt.fp32.decode false l == .nan
  let cand := (logits.zipIdx.filter fun l => eligible l.1).map fun l =>
    (l.2, Fmt.fp32.decode false (score l.1 (laneOf biases l.2)))
  let sel := pickBest k cand
  if sel.isEmpty then
    { experts := [fb], weights := [BitVec.ofNat 32 (Fmt.fp32.encode 0 false (.fin false 1 0))], fault := fault, fallback := true }
  else
    { experts := sel, weights := routeWeights (sel.map fun x => Fmt.fp32.decode false (logits[x]?.getD 0)),
      fault := fault, fallback := false }

/-! ### A row (R289, R291, R292) -/

/-- The hub unit of an entry, and its index. -/
def State.hub (s : State) (i : Nat) : Hub := s.hubs[i]?.getD { live := [], snap := [], seen := [] }

/-- Live counters of a job raised by one each (R292). -/
def raiseLive (live : Sparse 64) (key : Nat) (entries : List Nat) : Sparse 64 :=
  entries.foldl (fun m x => Sparse.set m (512 * key + x) (Sparse.get m (512 * key + x) + 1)) live

def State.setHub (s : State) (i : Nat) (h : Hub) : State := { s with hubs := s.hubs.setIfInBounds i h }

/-- Values of BF16 bytes. -/
def bf16Vals (n : Nat) (bs : List Byte) : List FVal := (unpackCodes 16 n bs).map (Fmt.bf16.decode false)

/-- The outputs of a row as (virtual address, update): bitmap bits, then weight slots (R291). -/
def Entry.routeOutputs (e : Entry) (i : Nat) (r : Scored) : List (Nat × Option Nat × Word) :=
  let t := e.routeTok0 + i
  let w := (e.routeNtok + 63) / 64
  (r.experts.map fun x => (e.routeOut + 8 * (x * w + t / 64), some (t % 64), (0 : Word))) ++
  (List.range e.routeK).map fun j =>
    let v : Nat := match r.experts[j]? with
      | some x => (laneOf r.weights j).toNat + 2 ^ 32 * x
      | none => 2 ^ 32 * 0xFFFF
    (e.routeWout + 8 * (e.routeK * t + j), none,
      BitVec.ofNat 64 (v + (if j = 0 then 2 ^ 48 * bit r.fault + 2 ^ 49 * bit r.fallback else 0)))

/-- The pages of a row's outputs, each translated before anything is sent. -/
def outPage (e : Entry) (s : State) (o : Nat × Option Nat × Word) : State × Got (Page × (Nat × Option Nat × Word)) :=
  let va := canon o.1
  match s.enginePage e va (if o.2.1.isSome then .both else .write) with
  | (t, .ok p) => if p.plain && p.coll == 0 then (t, .ok (p, o)) else (t, .fault Code.format va)
  | (t, .wait c) => (t, .wait c)
  | (t, .fault c a) => (t, .fault c a)

/-- An output sent as a write of the hub die (R257, R291). -/
def State.sendOutput (s : State) (e : Entry) (hub : Nat) (x : Page × (Nat × Option Nat × Word)) : State :=
  let va := canon x.2.1
  let pa := x.1.pa (va56 va)
  let op : ReqOp := match x.2.2.1 with
    | some b => .route [(pa, b)] []
    | none => .route [] (bytesAt pa 8 x.2.2.2.toNat)
  s.sendAs hub (Entry.who e) op va (some x.1) pa .none false

/-- The biases as a row is scored; none where a word of them is bad (R381, R385). -/
def State.rowBiases (s : State) (e : Entry) : State × Got (Option (List Lane)) :=
  match s.fetch e (globAddr (e.descWord 3)) (4 * e.routeE) Page.plain with
  | (t, .ok bs) => (t, .ok (some (lanesOfBytes e.routeE bs)))
  | (t, .wait c) => (t, .wait c)
  | (t, .fault c a) => if c = Code.machine then (t, .ok none) else (t, .fault c a)

/-- Logits and biases of a row: the gate table is read in the hub's interface SRAM; NaN throughout where it or the biases are
bad (R290, R381, R385). -/
def State.rowLogits (s : State) (e : Entry) (xs : List FVal) : State × Got (List Nat × List Lane) :=
  let d := e.routeD
  let base := 0xF000000000000 + (e.routeHub - 24) * 0x800000 + e.routeGoff
  match s.rowBiases e with
  | (t, .ok b) =>
    if !t.homesReady e then (t.noteReads e, .wait .memory)
    else
      let x := t.readLines [(base, 2 * d * e.routeE)]
      let u := x.1.joinHomes [base]
      if x.2 || b.isNone then (u, .ok (List.replicate e.routeE Fmt.fp32.nanCode, b.getD []))
      else (u, .ok ((List.range e.routeE).map (fun x => logit xs (bf16Vals d (u.bytes (base + 2 * (x * d)) (2 * d)))), b.getD []))
  | (t, .wait c) => (t, .wait c)
  | (t, .fault c a) => (t, .fault c a)

/-- A row scored: its destination and outputs sent, counters and seen-set updated (R289-R292). -/
def State.routeRow (s : State) (e : Entry) : State :=
  let i := e.next
  let d := e.routeD
  let t := e.routeTok0 + i
  let hi := e.routeHub - 24
  let h := s.hub hi
  let key := s.jobKey
  let e1 : Entry := { e with next := i + 1 }
  if h.seen.contains (key, s.gcell, t) then
    (s.setHub hi { h with live := raiseLive h.live key [258] }).advances e1
  else
    State.got e (s.readFrom e e.start.src (2 * d * i) (2 * d) Page.plain) fun u bs =>
      State.got e (u.rowLogits e (bf16Vals d bs)) fun u ls =>
        let r := scoreRow e.routeK e.routeFb ls.1 ls.2
        State.got e (gather (outPage e) u (e.routeOutputs i r)) fun v outs =>
          v.withPorts e e.start.src .none fun v =>
            State.got e (if outs.all fun o => v.farRoom o.1 true (outs.length + 2)
              then v.push e (canon (e.routeDst.toNat + 2 * d * i)) bs plainFmts else (v, .wait .memory)) fun w _ =>
              let sent := outs.foldl (fun x o => x.sendOutput e e.routeHub o) w
              let live := raiseLive h.live key
                (r.experts ++ (if r.fallback then [256] else []) ++ (if r.fault then [257] else []))
              ((sent.dropReplies e).count 25 1).setHub hi { h with live := live, seen := (key, s.gcell, t) :: h.seen }
                |>.advances e1

/-- ROUTE_ROW_SCORED (R290): the started XROUTE of the active queue makes its reads, or sends its next row once the
outputs of the rows before it have been applied (R293). -/
def execRouteRowScored (s : State) : Out :=
  let s0 := s.setCell { s.cell with xferTurn := s.actq }
  match s0.xferEntry with
  | none => .next s0
  | some e =>
    match e.op with
    | .xroute =>
      if !s0.mayAdvance e.queue then .next s0
      else if !e.start.ready then
        match Rd.route { s := s0, e := e, i := 0 } with
        | (r, .ok _) => .next ((r.s.dropReplies r.e).advances r.e)
        | (r, .wait c) => .next (r.s.stalls r.e c)
        | (r, .fault c a) => .next (r.s.breaks r.e c a)
      else .next (s0.turn e e.routeRows fun t e1 => t.routeRow e1)
    | _ => .next s0

end Sys2Proof.Machine
end

