-- ==== Sys2Proof/Machine/Progress.lean ====
section
/-!
DEFINITION. Completion of entries (R154, R164), SIGNAL, FENCEQ, GATE, QGATE and the capture words (R186-R189, R348),
deferred readiness (R233), and the evaluation of the cue terms (R216-R219).
-/

namespace Sys2Proof.Machine

/-! ### ENTRY_COMPLETION (R154, R164, R176, R182) -/

/-- The entry asks to be armed at its completion (R182). -/
def Entry.rearms (e : Entry) : Bool :=
  match e.op with
  | .xcoll r => r && !e.disarm && decide (Word.bits (e.descWord 7) 0 32 ≠ 1)
  | _ => false

/-- The head entry may complete: its work is done, its accesses have been performed, and the entry chained to it has been
evaluated. -/
def State.completes (s : State) (e : Entry) : Bool :=
  (match e.fin with
    | some c => decide (c ≤ s.clk)
    | none => false) && s.entryIdle e.queue e.seq && (!e.chains || (s.queue e.queue).chainEntry.isSome)

/-- ENTRY_COMPLETION (R154): the head of the active queue completes once its work is done and its writes have been
performed; its tiles change, a chained entry is handed over, a cached rank list is dropped, and a re-arming collective is
armed, unless END has retired (R184, R221). -/
def execEntryCompletion (s : State) : Out :=
  match s.headEntry s.actq with
  | none => .next s
  | some e =>
    if !s.mayAdvance s.actq then .next s
    else if !s.completes e then
      .next (if Instr.isMatrix e.op then s else s.chargeEntry e .memory)
    else
      let s1 := (s.setCell (s.cell.completeTiles e)).forgetList e
      let v := s1.queue s.actq
      let armed := if e.rearms && !s.isEnded then v.armed ++ [{ e with armed := true, fill := [], drain := [] }] else v.armed
      let s2 := s1.setQueue s.actq
        { v with run := v.run.drop 1, armed := armed, chainEntry := if e.chains then none else v.chainEntry }
      .next (if e.chains then s2.setCell { s2.cell with chained := s2.cell.chained ++ v.chainEntry.toList } else s2)

/-! ### Control entries (R186-R189) -/

/-- The entry's condition holds: its work ends in this clk. -/
def State.ends (s : State) (e : Entry) : State := s.advances (e.finish s.clk)

/-- The waiting control entry of a queue: nothing behind it has started (R185). -/
def State.waiting (s : State) (q : Nat) : Option Entry := (s.queue q).run.getLast?.filter Entry.waits

/-- Every earlier entry of its queue has completed, chained ones included, and so has been performed (R154, R176). -/
def State.oldest (s : State) (e : Entry) : Bool := (s.headEntry e.queue).map Entry.seq == some e.seq

/-- An entry ends once it is the oldest of its queue and a condition holds; until then it waits, charged to ORDERWAIT. -/
def State.endsInTurn (s : State) (e : Entry) (ok : Bool) (effect : State → State) : State :=
  if s.oldest e && ok then (effect s).ends e else s.stalls e .orderWait

/-- SIGNAL_COMPLETION (R187): once every earlier entry of the queue has completed, 1 is added to the counter. -/
def execSignalCompletion (s : State) : Out :=
  match s.waiting s.actq with
  | none => .next s
  | some e =>
    match e.op with
    | .signal n => .next (if s.mayStart s.actq then s.endsInTurn e true fun s => s.bump n.toNat 1 (s.actq + 1) else s)
    | _ => .next s

/-- The values of a capture set (R348). -/
def State.capValues (s : State) : List Word :=
  (List.range 100).map (Sparse.get s.acct.cnt) ++ [s.acct.elapsed, s.energyTotal 32, Sparse.get s.acct.cnt 18]

def State.capSet (s : State) (i : Nat) : CapSet := s.acct.caps[i]?.getD { st := 0, base := [], vals := [] }

def State.setCap (s : State) (i : Nat) (c : CapSet) : State :=
  { s with acct := { s.acct with caps := s.acct.caps.setIfInBounds i c } }

/-- CAPSTART's effect: the set runs, from a base (R348). -/
def State.capStart (s : State) (i : Nat) : State :=
  s.setCap i { st := 1, base := Sparse.setRun [] 0 s.capValues, vals := [] }

/-- The live values of a set: differences from its base, and the elapsed count at the base (R348). -/
def State.capLive (s : State) (c : CapSet) : Sparse 64 :=
  Sparse.setRun [] 0 ((s.capValues.zipIdx.map fun x => x.1 - Sparse.get c.base x.2) ++ [Sparse.get c.base 100])

/-- CAPSTOP's effect: a running set is frozen (R348). -/
def State.capStop (s : State) (i : Nat) : State :=
  let c := s.capSet i
  if c.st = 1 then s.setCap i { c with st := 2, vals := s.capLive c } else s

/-- CONTROL_ENTRY_COMPLETION (R185): a waiting FENCEQ, GATE, QGATE, CAPSTART or CAPSTOP of the active queue ends when its
condition holds, a GATE or QGATE also while earlier entries of its queue run, after which it completes in its turn (R188);
waits on terms and counters are recorded (R220). -/
def execControlEntryCompletion (s : State) : Out :=
  match s.waiting s.actq with
  | none => .next s
  | some e =>
    if !s.mayStart s.actq then .next s
    else match e.op with
      | .fenceq =>
        let mask := Entry.val e 0
        .next (s.endsInTurn e ((List.range 13).all fun q => !mask.getLsbD q || q == s.actq || s.doneBefore q e.enq) id)
      | .gate t =>
        if s.termTrue t.toNat then .next ((s.termRecord e.who t.toNat e.waited).ends e)
        else .next (s.stalls e .cueWait)
      | .qgate n =>
        if reached (s.cueSeen n.toNat) (Word.half (Entry.val e 0) 0)
        then .next ((s.waitRecord e.who n.toNat (s.bumper n.toNat) none e.waited).ends e)
        else .next (s.stalls e .cueWait)
      | .capstart c => .next (s.endsInTurn e true fun s => s.capStart c.toNat)
      | .capstop c => .next (s.endsInTurn e true fun s => s.capStop c.toNat)
      | _ => .next s

/-! ### DEFERRED_READINESS (R233) -/

/-- ENQ numbers by which a release counts the entries in a queue's words that may yet write a store: of matrix words only a
drain to the result store does, and a chained entry counts with its copy, whose number `lead` is (R233). -/
def pendingWriters (q store : Nat) : Option Nat → List EWord → List Nat
  | _, [] => []
  | lead, w :: ws =>
    if isTerminal w.w then
      let op := w.w.toNat / 256
      let writes :=
        if q = 0 || lead.isSome then op == 0xC3 && !w.w.getLsbD 2 && store == 2
        else if q ≤ 8 then op == 0xC0 || op == 0xC1 || op == 0xC2
        else op == 0xC1
      (if writes then [lead.getD w.enq] else []) ++
        pendingWriters q store (if lead.isNone && isChaining q w.w then some w.enq else none) ws
    else pendingWriters q store lead ws

/-- A started or evaluated entry has still to write the store. -/
def Entry.writesStore (e : Entry) (store : Nat) : Bool :=
  e.fin.isNone && (match e.op with
    | .mdrain _ d _ => !d && store == 2
    | _ => match e.start.dst with
      | .store st _ => st == store
      | _ => false)

/-- Every write before a release has been performed: of the control core's earlier units, and of the entries placed before
it (R233). -/
def State.releaseDone (s : State) (r : Ready) : Bool :=
  let store := tileStore (s.tile r.tile)
  s.core.posted.all (fun p => p.st != store || p.parts.isEmpty || decide (r.at' ≤ p.clk)) &&
  (List.range 13).all fun q =>
    let v := s.queue q
    let lead := if v.inChain then v.run.getLast?.map Entry.enq else none
    (pendingWriters q store lead v.words).all (fun n => decide (r.enq ≤ n)) &&
    (s.uncompleted q).all fun e => decide (r.enq ≤ e.lead) || !e.writesStore store

/-- The readiness may take effect in this clk. -/
def State.readyNow (s : State) (r : Ready) : Bool := decide (r.at' ≤ s.clk) && s.releaseDone r

/-- DEFERRED_READINESS (R233): the oldest pending readiness whose writes have been performed takes effect. -/
def execDeferredReadiness (s : State) : Out :=
  match s.cell.ready.find? s.readyNow with
  | none => .next s
  | some r =>
    let c := { s.cell with ready := s.cell.ready.filter fun x => x.tile != r.tile }
    .next (s.setCell (if tileState (s.tile r.tile) = 3 then c else c.setTileState r.tile 2))

/-! ### CUE_TERM_EVALUATION (R216-R219) -/

/-- The evaluation of a term in this clk (R216). -/
def State.evalTerm (s : State) (t : Nat) : Bool :=
  (s.termSeen t 7).getLsbD 14 && (List.range 4).any (s.groupTrue t)

/-- Bits of the terms that satisfy a test. -/
def termBits (f : Nat → Bool) : Word :=
  BitVec.ofNat 64 ((List.range 16).foldl (fun n t => n + (if f t then 2 ^ t else 0)) 0)

/-- A collective entry's trigger takes a transition; one that arrives during a firing is kept, at most once (R182). -/
def Entry.trigger (e : Entry) (moved : Word) : Entry :=
  match e.op with
  | .xcoll true => if moved.getLsbD (Word.bits (e.descWord 2) 56 4) && !e.start.desc.isEmpty then { e with trig := true } else e
  | _ => e

/-- CUE_TERM_EVALUATION (R216): every term is evaluated; a transition with IRQ pends CUE and sets its bit in CUEIRQ, and
triggers armed collectives. -/
def execCueTermEvaluation (s : State) : Out :=
  let new := termBits s.evalTerm
  let moved := new &&& ~~~(s.readCsr 0x150)
  let irq := moved &&& termBits fun t => (s.termSeen t 7).getLsbD 13
  let s1 := (s.setCsr 0x150 new).setCsr 0x151 (s.readCsr 0x151 ||| irq)
  let s2 := if irq = 0 then s1 else s1.pend 1
  let takes := s.core.status == .running || s.core.status == .ended
  .next (if moved = 0 || !takes then s2 else s2.setCell { s2.cell with queues := s2.cell.queues.map fun v =>
    { v with run := v.run.map fun e => e.trigger moved, armed := v.armed.map fun e => e.trigger moved } })

end Sys2Proof.Machine
end

