-- ==== Sys2Proof/Machine/Account.lean ====
section
/-!
DEFINITION. Slot accounts and account records (R190, R195-R198, R341-R343), the energy totals (R345-R347) and the
account reads ACCRD and ENRGRD (R102) with their capture and replay (R376, R377).
-/

namespace Sys2Proof.Machine

/-! ### Islands (R398-R400) -/

/-- N of an island (R399). -/
def State.ratio (s : State) (island : Nat) : Nat := 16 - (Sparse.get s.pwr.slow island).toNat

/-- The island ticks in a clk (R399). -/
def State.ticksAt (s : State) (island clk : Nat) : Bool := decide (clk * s.ratio island % 16 < s.ratio island)

/-- The control-and-network and the array-and-stores islands of the cell's die tick in this clk (R398, R400). -/
def State.ctlTicks (s : State) : Bool := s.ticksAt (2 * s.die + 1) s.clk
def State.arrTicks (s : State) : Bool := s.ticksAt (2 * s.die) s.clk

/-! ### Account records (R343) -/

/-- The codes of R196. -/
def Cause.code : Cause → Nat
  | .issued => 0
  | .squashed => 1
  | .fetch => 2
  | .delay => 3
  | .scoreboard => 4
  | .emptyWait => 5
  | .tile => 6
  | .ringWait => 7
  | .cueWait => 8
  | .orderWait => 9
  | .queueFull => 10
  | .queueEmpty => 11
  | .translation => 12
  | .memory => 13
  | .barrier => 14
  | .trap => 15
  | .power => 16
  | .debug => 17
  | .notResident => 18
  | .notDemanded => 19

/-- The account record of a run: slot, cause code, PC, clk (R343). -/
def State.accountRecord (s : State) (slot cause : Nat) (pc : Word) (n : Nat) : State :=
  s.record [BitVec.ofNat 64 (Word.bits pc 0 56 + 2 ^ 56 * slot + 2 ^ 59 * cause),
            BitVec.ofNat 64 (n % 2 ^ 48 + 2 ^ 48 * s.gcell)] false

/-- The open run of a slot is written (R343). -/
def State.closeRun (s : State) (slot : Nat) : State :=
  match s.acct.runs.find? fun r => r.1 == slot with
  | none => s
  | some (_, c, pc, n) =>
    let s1 : State := { s with acct := { s.acct with runs := s.acct.runs.filter fun r => r.1 != slot } }
    s1.accountRecord slot c pc n

/-- Every open run is written: at the clearing of REC, at departure, at completion (R343). -/
def State.closeRuns (s : State) : State := (List.range 5).foldl State.closeRun s

/-- The run of a slot goes on, or a new one begins; it ends when its count reaches 2^48 - 1 (R343). -/
def State.extendRun (s : State) (slot cause : Nat) (pc : Word) (n : Nat) : State :=
  let s1 := match s.acct.runs.find? fun r => r.1 == slot with
    | some (_, c, p, m) => if c = cause ∧ p = pc ∧ m + n < 2 ^ 48 then s else s.closeRun slot
    | none => s
  let m := ((s1.acct.runs.find? fun r => r.1 == slot).map fun r => r.2.2.2).getD 0
  let t : State := { s1 with acct := { s1.acct with
    runs := (slot, cause, pc, m + n) :: s1.acct.runs.filter fun r => r.1 != slot } }
  if 2 ^ 48 - 1 ≤ m + n then t.closeRun slot else t

/-- ACCCTL.REC (R344). -/
def State.recording (s : State) : Bool := (s.readCsr 0x080).getLsbD 0

/-- n clk of a slot charged to a cause at a PC (R195, R341). -/
def State.chargeSlot (s : State) (slot : Nat) (c : Cause) (pc : Word) (n : Nat) : State :=
  let i := 20 * slot + c.code
  let s1 : State := { s with acct := { s.acct with cnt := Sparse.set s.acct.cnt i (Sparse.get s.acct.cnt i + BitVec.ofNat 64 n) } }
  if s1.recording then s1.extendRun slot c.code pc n else s1

/-! ### Charges of a clk (R190, R195-R198, R342) -/

/-- The causes that charge S and V alike (R195). -/
def Cause.both : Cause → Bool
  | .notResident | .debug | .power | .trap => true
  | _ => false

/-- A charge of the head unit's slot and the other one (R195). -/
def State.chargeUnit (s : State) (v : Bool) (c : Cause) (pc : Word) (n : Nat) : State :=
  let other := if c.both then c else .notDemanded
  (s.chargeSlot 0 (if v then other else c) pc n).chargeSlot 1 (if v then c else other) pc n

/-- The charge of S and V in this clk, if they are charged (R195, R198, R342): END's own clk is the last. -/
def State.unitCharge (s : State) : Option (Bool × Cause × Word) :=
  if s.cell.endedRanks.getLsbD s.cell.rank then
    (if s.core.charge = .issued then some (s.core.chargeV, .issued, s.core.chargePc) else none)
  else match s.core.status with
  | .running => if s.ctlTicks then some (s.core.chargeV, s.core.charge, s.core.chargePc) else some (false, .power, s.core.pc)
  | .halted => some (false, .debug, s.core.pc)
  | .doubled => some (false, if s.ctlTicks then .trap else .power, s.core.pc)
  | .preempted => some (false, if s.mgr.heldHalted then .debug else if s.ctlTicks then .trap else .power, s.core.pc)
  | _ => none

/-- Charges made in this clk for a slot, faulted queues among them (R190). -/
def State.engCharges (s : State) (slot : Nat) : List (Nat × Cause × Word) :=
  (s.acct.eng.filter fun c => c.1 == slot).map Prod.snd ++
  ((List.range 13).filterMap fun q =>
    match (s.queue q).fault with
    | some f =>
      let e := ((s.queue q).run ++ (s.queue q).armed ++ s.cell.chained).find? fun e => e.queue == q && e.seq == f.seq
      let sl := (e.map Entry.slot).getD (slotOf q)
      let enq := (e.map Entry.enq).getD ((((s.queue q).words.head?).map EWord.enq).getD 0)
      if sl = slot then some (enq, Cause.trap, f.pc) else none
    | none => none)

/-- The charge of the oldest entry among some, with its ENQ number. -/
def leastCharge (l : List (Nat × Cause × Word)) : Option (Nat × Cause × Word) :=
  l.foldl (fun (b : Option (Nat × Cause × Word)) c => match b with
    | none => some c
    | some d => if c.1 < d.1 then some c else b) none

/-- The charge of an engine slot in this clk (R190): slot C is charged to the oldest active entry across the copy queues, M
and X to an issue or an advance first; of the charges of one entry an issue or an advance comes first. -/
def State.engPick (s : State) (slot : Nat) : Option (Nat × Cause × Word) :=
  let cs := s.engCharges slot
  let issues := cs.filter fun c => c.2.1 == .issued
  if slot = 3 then leastCharge (issues ++ cs |>.filter fun c => some c.1 == (leastCharge cs).map Prod.fst)
  else (leastCharge issues).orElse fun _ => leastCharge cs

/-- The same; an idle slot is charged to QUEUEEMPTY. -/
def State.engCharge (s : State) (slot : Nat) : Cause × Word :=
  ((s.engPick slot).map Prod.snd).getD (.queueEmpty, s.core.pc)

/-- A started entry is charged to the slot; a waiting control word of a stopped cell is unstarted again (R335). -/
def State.slotBusy (s : State) (slot : Nat) : Bool :=
  s.running.any fun e => e.slot == slot && !(s.queue e.queue).stopped && !(Instr.isControl e.op && e.fin.isNone)

/-- PC of the head entry of a slot's queues, or the core's (R342). -/
def State.slotPc (s : State) (slot : Nat) : Word :=
  let qs := (List.range 13).filter fun q => slotOf q == slot
  let pcs := (qs.map fun q =>
    ((s.queue q).run.map Entry.pc) ++ ((s.queue q).words.filter fun w => isTerminal w.w).map EWord.pc).flatten
  pcs.head?.getD s.core.pc

/-- The charges of M, C and X in this clk (R190, R195, R342, R372). -/
def State.engineCharge (s : State) (slot : Nat) : Option (Cause × Word) :=
  match s.core.status with
  | .absent => none
  | .away => none
  | .completed => none
  | .halted =>
    if !s.slotBusy slot then some (.debug, s.core.pc) else if !(if slot = 4 then s.ctlTicks else s.arrTicks)
    then some (.power, s.core.pc) else some (s.engCharge slot)
  | .preempted =>
    if !s.slotBusy slot then some (.trap, s.slotPc slot) else if !(if slot = 4 then s.ctlTicks else s.arrTicks)
    then some (.power, s.core.pc) else some (s.engCharge slot)
  | _ => if !(if slot = 4 then s.ctlTicks else s.arrTicks) then some (.power, s.core.pc) else some (s.engCharge slot)

/-- Late charges entered in the accounts (R197). -/
def State.flushLate (s : State) : State :=
  let s1 : State := { s with acct := { s.acct with late := [] } }
  s.acct.late.foldl (fun t c => t.chargeUnit c.1 c.2.1 c.2.2.1 c.2.2.2) s1

/-- An interrupt abandons the unit: its fetch clk become SQUASHED (R197). -/
def State.squashLate (s : State) : State :=
  { s with acct := { s.acct with late := s.acct.late.map fun c =>
      (c.1, if c.2.1 = .fetch then .squashed else c.2.1, c.2.2.1, c.2.2.2) } }

/-- S and V at the end of a clk: charges from a fetch clk on wait until the unit has issued or is abandoned (R197). -/
def State.accountUnit (s : State) : State :=
  match s.unitCharge with
  | none => s.flushLate
  | some (v, c, pc) =>
    if c = .fetch || (!s.acct.late.isEmpty && c != .issued && !(c.both && c != .power)) then
      { s with acct := { s.acct with late := s.acct.late ++ [(v, c, pc, 1)] } }
    else s.flushLate.chargeUnit v c pc 1

/-- The engine slots at the end of a clk. -/
def State.accountEngines (s : State) : State :=
  [2, 3, 4].foldl (fun t slot => match s.engineCharge slot with
    | some (c, pc) => t.chargeSlot slot c pc 1
    | none => t) s

/-- The context is on its cell and has not completed: its accounts and its energy run (R341, R347). -/
def State.resident (s : State) : Bool :=
  match s.core.status with
  | .absent => false
  | .away => false
  | .completed => false
  | _ => true

/-! ### Energy (R345-R347) -/

/-- EWT: the weight of an event (R345). -/
def State.weight (s : State) (e : Nat) : Nat := Word.bits (s.readCsr (0x1A0 + e / 4)) (16 * (e % 4)) 16

/-- Totals of a clk: each event's weight times its occurrences, the resident clk among them (R347). -/
def State.accountEnergy (s : State) : State :=
  let total := fun (en : Sparse 64) (e : Nat) =>
    let n := if e = 30 then 1 else (Sparse.get s.acct.occur e).toNat
    Sparse.set en e (Sparse.get en e + BitVec.ofNat 64 (s.weight e * n))
  { s with acct := { s.acct with energy := (List.range 31).foldl total s.acct.energy, occur := [] } }

/-- The accounts at the end of a clk (R341, R347). -/
def State.accountClk (s : State) : State :=
  let s1 := if s.resident then
      let t := s.accountUnit.accountEngines.accountEnergy
      { t with acct := { t.acct with elapsed := t.acct.elapsed + 1 } }
    else s
  { s1 with acct := { s1.acct with eng := [], occur := [] } }

/-! ### ACCRD and ENRGRD (R102) -/

/-- A value read from a counter of the cell lands with latency 1 and is captured (R376); under replay it comes from the
next CAPTURE record (R377). -/
def settleCounter (i : Instr) (s : State) (checks : List Verdict) (d : Nat) (v : Word) (base : State) : Out :=
  if s.replaying then
    match firstOf (legal i :: checks) with
    | .pass =>
      match s.replay (gLoc d) 8 with
      | (t, some bs) =>
        let moved : State := { base with csr := Sparse.set base.csr 0x0C3 (t.readCsr 0x0C3) }
        .next ((moved.result 1 d (BitVec.ofNat 64 (numOfBytes bs))).goto i (nextPc i s.core.pc))
      | (t, none) => .next (t.hold i .memory)
    | v => .next (s.blocked i v)
  else settle i s checks ((base.result 1 d v).capture s.self (gLoc d) (bytesOfNum 8 v.toNat))

/-- ACCRD (R102). -/
def execAccrd (d a : BitVec 5) (x : Bool) (s : State) : Out :=
  settleCounter (.accrd d a x) s (scalarChecks s [(a.toNat, x)] [d.toNat]) d.toNat (s.account (s.g a.toNat).toNat) s

/-- ENRGRD (R102). -/
def execEnrgrd (d a : BitVec 5) (x : Bool) (s : State) : Out :=
  settleCounter (.enrgrd d a x) s (scalarChecks s [(a.toNat, x)] [d.toNat]) d.toNat (s.energyTotal (s.g a.toNat).toNat) s

end Sys2Proof.Machine
end

