-- ==== Sys2Proof/Machine/Csr.lean ====
section
/-!
DEFINITION. Control and status registers: their numbers, permissions and fields (R56, R100), what a read returns and
what a write does (R49, R97, R158, R204, R205, R218, R325, R344, R365-R371, R387-R390, R402), major 0x19, and the steps
in which the stage manager's own accesses take effect.
-/

namespace Sys2Proof.Machine

/-! ### The register map (R56) -/

/-- Rows of the map: first and last number, step between numbers, readable and writable at user level, writable bits at
system level. -/
def csrMap : List (Nat × Nat × Nat × Bool × Bool × Word) :=
  [(0x000, 0x000, 1, true, false, 0), (0x001, 0x001, 1, true, true, 0x1F), (0x010, 0x010, 1, true, true, 0x3FF),
   (0x011, 0x011, 1, true, true, 0x7F), (0x012, 0x012, 1, true, true, 0x1F), (0x013, 0x013, 1, true, false, 0xFFF),
   (0x014, 0x014, 1, true, false, 0)] ++
  [(0x040, 0x040, 1, false, false, 0xFF), (0x041, 0x041, 1, false, false, 0xFFFFFFFFFFFFFF),
   (0x042, 0x042, 1, false, false, 0xFFFF), (0x043, 0x046, 1, false, false, BitVec.allOnes 64),
   (0x047, 0x047, 1, true, false, 0), (0x048, 0x048, 1, false, false, 7),
   (0x049, 0x050, 1, false, false, BitVec.allOnes 64), (0x051, 0x051, 1, false, false, 0x1FF),
   (0x052, 0x052, 1, false, false, BitVec.allOnes 64)] ++
  [(0x080, 0x080, 1, true, true, 1), (0x081, 0x081, 1, true, false, 0), (0x082, 0x082, 1, true, true, 0x7F07),
   (0x083, 0x083, 1, true, false, 0), (0x084, 0x084, 1, true, true, 0xFF)] ++
  [(0x0C0, 0x0C0, 1, true, true, 0x3F), (0x0C1, 0x0C1, 1, true, true, 0xFFFFFFFFFFFFC0),
   (0x0C2, 0x0C2, 1, true, true, 0xFFFFFFFFC0), (0x0C3, 0x0C3, 1, true, true, 0xFFFFFFFFF0),
   (0x0C4, 0x0C4, 1, true, true, BitVec.allOnes 64), (0x0C5, 0x0C5, 1, true, true, 0xFFFFFFFF),
   (0x0C8, 0x0CB, 1, true, true, 0xFFFFFFFFFFFFFD), (0x0D0, 0x0D6, 2, true, true, 0xFFFFFFFFFFFFF0),
   (0x0D1, 0x0D7, 2, true, true, 0x1FFFF), (0x0E0, 0x0E3, 1, true, false, 0),
   (0x0E4, 0x0E4, 1, true, true, BitVec.allOnes 64)] ++
  [(0x100, 0x100, 1, false, false, 0xF01), (0x101, 0x101, 1, false, false, 0xFFFFFFFFFFFFFD),
   (0x102, 0x102, 1, false, false, BitVec.allOnes 64), (0x103, 0x103, 1, false, false, 0),
   (0x104, 0x104, 1, false, false, 3), (0x105, 0x106, 1, false, false, 0xFFFFFFFFFFFF),
   (0x120, 0x12C, 1, false, false, 0), (0x130, 0x13C, 1, false, false, 3), (0x140, 0x14C, 1, false, false, 0),
   (0x150, 0x150, 1, false, false, 0), (0x151, 0x151, 1, false, false, 0xFFFF)] ++
  [(0x160, 0x162, 1, false, false, BitVec.allOnes 64), (0x170, 0x172, 1, false, false, BitVec.allOnes 64),
   (0x180, 0x181, 1, false, false, 0), (0x190, 0x190, 1, false, false, 0x7FFFFFFFFFFFFFF),
   (0x191, 0x192, 1, false, false, 0), (0x1A0, 0x1A7, 1, false, false, 0), (0x1B0, 0x1B0, 1, false, false, 0),
   (0x1C0, 0x1C0, 1, false, false, 0), (0x1C1, 0x1C1, 1, false, false, 0x1F), (0x1C2, 0x1C5, 1, false, false, 0),
   (0x1C6, 0x1C6, 1, false, false, BitVec.allOnes 64), (0x1C7, 0x1C7, 1, false, false, 0),
   (0x1D0, 0x1D2, 1, false, false, 0)]

/-- An assigned number: readable and writable at user level, writable bits at system level. -/
def csrRow (n : Nat) : Option (Bool × Bool × Word) :=
  (csrMap.find? fun r => decide (r.1 ≤ n) && decide (n ≤ r.2.1) && decide ((n - r.1) % r.2.2.1 = 0)).map
    fun r => r.2.2.2

/-! ### Reads -/

/-- The cell is stopped: a control entry that waits counts as unstarted, its word as one to be issued again (R202, R335). -/
def State.unstarts (s : State) : Bool :=
  match s.core.status with
  | .running => false
  | .ended => false
  | _ => true

/-- Words of a queue that have not issued, and those to be issued again (R151, R158, R335). A word that has faulted has
issued. -/
def State.fill (s : State) (q : Nat) : Nat :=
  let v := s.queue q
  v.words.length - (v.fault.map fun f => bit f.atWord).getD 0 + (if s.unstarts then (v.run.filter Entry.waits).length else 0)

/-- QSTAT.STATE, ARMED, CAUSE, FILL and HSEQ of a queue (R158): its head entry is the oldest that has not completed, a chained
one that has been handed over included. -/
def State.qstat (s : State) (q : Nat) : Word :=
  let v := s.queue q
  let idle := (s.uncompleted q).isEmpty && !headComplete q v.words
  let state := if v.fault.isSome then 2 else if v.stopped then 3 else if idle then 0 else 1
  let armed := (v.fault.map fun f => bit f.armed).getD 0
  let cause := (v.fault.map QFault.cause).getD 0
  let seq := match v.fault with
    | some f => f.seq
    | none => match (s.uncompleted q).head? with
      | some e => e.seq
      | none => Queue.headSeq v
  BitVec.ofNat 64 (state + 4 * armed + 2 ^ 8 * cause + 2 ^ 16 * s.fill q + 2 ^ 32 * seq)

/-- QPROG of a queue (R158): of the faulted entry, or of the head entry. -/
def State.qprog (s : State) (q : Nat) : Word :=
  match (s.queue q).fault with
  | some f => f.prog
  | none => ((s.uncompleted q).head?.map Entry.prog).getD 0

/-- CAPSTAT (R344). -/
def State.capstat (s : State) : Word :=
  BitVec.ofNat 64 ((List.range 8).foldl (fun n i => n + 2 ^ (2 * i) * (s.capSet i).st) 0)

/-- CAPSEL's fields (R344). -/
def State.capSel (s : State) : Nat := Word.bits (s.readCsr 0x082) 0 3
def State.capIndex (s : State) : Nat := Word.bits (s.readCsr 0x082) 8 7

/-- CAPDATA: value INDEX of set SET, live while the set runs (R344, R348). Value 102 is the difference of slot S's
NOTRESIDENT count, 103 the elapsed count at the base. -/
def State.capData (s : State) : Word :=
  let c := s.capSet s.capSel
  Sparse.get (if c.st = 1 then s.capLive c else c.vals) s.capIndex

/-- Watch reports: status and head report (R371). -/
def State.warstat (s : State) : Word := BitVec.ofNat 64 (s.dbg.war.length + 2 ^ 16 * s.dbg.warLost)

/-- WARINFO of a report whose skid is known (R371). -/
def Report.info (r : Report) (skid : Nat) : Word :=
  BitVec.ofNat 64 (r.mask.toNat + 2 ^ 16 * r.kind + 2 ^ 18 * r.queue + 2 ^ 22 * r.src + 2 ^ 33 * r.scell +
    2 ^ 44 * min 255 skid)

/-- The die IDSEL names (R387). -/
def State.idsel (s : State) : Nat := Word.bits (s.readCsr 0x1C1) 0 5

/-- PWRSTAT (R402): ratios, and whether the cap or a thermal limit holds an island of the die. -/
def State.pwrstat (s : State) : Word :=
  let a := 2 * s.die
  let c := 2 * s.die + 1
  BitVec.ofNat 64 (s.ratio a + 2 ^ 5 * s.ratio c + 2 ^ 10 * bit (s.pwr.capped.contains a || s.pwr.capped.contains c) +
    2 ^ 11 * bit (s.pwr.hot.any fun h => h.1 == a || h.1 == c))

/-- Hottest junction of the cell's die (R402). -/
def State.dieTemp (s : State) : Nat :=
  max (Sparse.get s.pwr.temps (2 * s.die)).toNat (Sparse.get s.pwr.temps (2 * s.die + 1)).toNat

/-- PWRNOW (R402). -/
def State.pwrnow (s : State) : Word :=
  BitVec.ofNat 64 (Word.bits (s.readCsr 0x1D2) 0 16 + 2 ^ 16 * min 255 s.dieTemp)

/-- The value a read of a CSR returns (R100). -/
def State.csrRead (s : State) (n : Nat) : Word :=
  if n = 0x052 then s.frameWord (Word.bits (s.readCsr 0x051) 0 9)
  else if n = 0x081 then s.capstat
  else if n = 0x1D2 then s.pwrnow
  else if n = 0x083 then s.capData
  else if n = 0x0E0 then s.warstat
  else if n = 0x0E1 then (s.dbg.war.head?.map Report.addr).getD 0
  else if n = 0x0E2 then (s.dbg.war.head?.map fun r => r.info r.at').getD 0
  else if n = 0x0E3 then (s.dbg.war.head?.map Report.id).getD 0
  else if n = 0x100 then
    s.readCsr 0x100 ||| 0x3000 ||| (if s.inp.halt then 0x100000 else 0) ||| (if s.inp.preempt then 0x200000 else 0)
  else if 0x120 ≤ n ∧ n ≤ 0x12C then s.qstat (n - 0x120)
  else if 0x140 ≤ n ∧ n ≤ 0x14C then s.qprog (n - 0x140)
  else if n = 0x084 ∨ n = 0x0E4 ∨ (0x130 ≤ n ∧ n ≤ 0x13C) ∨ n = 0x190 then 0
  else if n = 0x1C2 then mapOf s.mgr.cellmap s.idsel
  else if n = 0x1C3 then mapOf s.mgr.chanmap s.idsel
  else if n = 0x1C4 then mapOf s.mgr.portmap s.idsel
  else if n = 0x1C6 then mapOf s.mgr.errcnt s.idsel
  else if n = 0x1C7 then mapOf s.mgr.cxlsize s.idsel
  else if n = 0x1D0 then s.pwrstat
  else s.readCsr n

/-- What an access does beside its read and write: FXDATA raises FXSEL, a read of CAPDATA raises INDEX (R204, R344). -/
def State.advance (s : State) (n : Nat) : State :=
  if n = 0x052 then s.setCsr 0x051 (BitVec.ofNat 64 ((Word.bits (s.readCsr 0x051) 0 9 + 1) % 512))
  else if n = 0x083 then
    s.setCsr 0x082 (Word.setBits (s.readCsr 0x082) 8 7 (s.capIndex + 1))
  else s

/-! ### Writes -/

/-- Field rules of a plain register: reserved fields stay zero, read-only ones keep their value (R12, R55, R205, R387). -/
def fieldsOf (n : Nat) (mask old v : Word) : Word :=
  let w := (old &&& ~~~mask) ||| (v &&& mask)
  if n = 0x001 ∧ 4 < Word.bits w 0 3 then Word.setBits w 0 3 0
  else if n = 0x040 ∧ 12 < Word.bits w 4 4 then Word.setBits w 4 4 12
  else if n = 0x1C1 ∧ 27 < Word.bits w 0 5 then Word.setBits w 0 5 0
  else w

/-- A value the register rejects with ILLEGAL (R44, R325, R365). -/
def csrRejects (n : Nat) (v : Word) : Bool :=
  if n = 0x010 then decide (704 < Word.bits v 0 10)
  else if n = 0x011 then decide (80 < Word.bits v 0 7)
  else if n = 0x012 then decide (8 < Word.bits v 0 5)
  else if n = 0x0C0 then v.getLsbD 3 && v.getLsbD 4
  else if n = 0x190 then decide (Word.bits v 56 2 = 3)
  else false

/-- A read-modify-write that drops runs when REC is cleared (R343). -/
def State.writeAccctl (s : State) (v : Word) : State :=
  let s1 := if s.recording && !v.getLsbD 0 then s.closeRuns else s
  s1.setCsr 0x080 (v &&& 1)

/-- TRCTL: FAULT is cleared by a 1 (R365). -/
def State.writeTrctl (s : State) (v : Word) : State :=
  s.setCsr 0x0C0 ((v &&& 0x1F) ||| (s.readCsr 0x0C0 &&& 0x20 &&& ~~~v))

/-- CUEIRQ: bits written with 1 are cleared (R218). -/
def State.writeCueirq (s : State) (v : Word) : State := s.setCsr 0x151 (s.readCsr 0x151 &&& ~~~v)

/-- TMRCNT: the count is replaced at the end of the clk (R97). -/
def State.writeTmrcnt (s : State) (v : Word) : State :=
  (s.setCsr 0x105 (v &&& 0xFFFFFFFFFFFF)).setCore { s.core with tmrSet := true }

/-- A word of the latch records (R204, R205): reserved fields of a header word stay zero; words from 408 on ignore it. -/
def State.writeFrameWord (s : State) (v : Word) : State :=
  let w := Word.bits (s.readCsr 0x051) 0 9
  let keep : Word := if w % 34 = 0 then 0x3FFFF00000F07 else BitVec.allOnes 64
  if w < 408 then s.setCell { s.cell with fx := Sparse.set s.cell.fx w (v &&& keep) } else s

/-- CAPCLR (R344, R348): the sets named become idle, every value 0. -/
def State.clearCaps (s : State) (v : Word) : State :=
  (List.range 8).foldl (fun t i => if v.getLsbD i then t.setCap i { st := 0, base := [], vals := [] } else t) s

/-- WARPOP (R371): the head report leaves; LOST is cleared when none is left. WATCHASYNC is pending while a
report is left. -/
def State.popReport (s : State) : State :=
  let r := s.dbg.war.drop 1
  let s1 : State := { s with dbg := { s.dbg with war := r, warLost := if r.isEmpty then 0 else s.dbg.warLost } }
  if r.isEmpty then s1.unpend 3 else s1.pend 3

/-- Banks whose binding a value changes (R49). -/
def State.boundChanges (s : State) (v : Word) : List Nat :=
  (List.range 12).filter fun b => s.matrixBank b != v.getLsbD b

/-- The write of BANKBIND is refused: a bank it changes has a result in flight (R49). -/
def State.bindBusy (s : State) (v : Word) : Bool := (s.boundChanges v).any s.bankBusy

def State.writeBankbind (s : State) (v : Word) : State := s.setCsr 0x013 (v &&& 0xFFF)

/-! ### QCMD (R158, R160) -/

/-- An entry restarts from its progress: work beyond it is done again, and what its start read is kept (R160). -/
def Entry.restart (e : Entry) : Entry := { e with next := e.done }

/-- RESUME: the faulted entry goes on from its progress and the queue runs. -/
def State.resumeQueue (s : State) (q : Nat) : State :=
  let v := s.queue q
  (s.setQueue q { v with run := v.run.map Entry.restart, armed := v.armed.map Entry.restart, fault := none, stopped := false }).setCore
    { s.core with engPend := s.core.engPend.filter (· != q) }

/-- DISCARD: the faulted entry is dropped and the next may start; of a stopped queue, the head entry. -/
def State.discardQueue (s : State) (q : Nat) : State :=
  let v := s.queue q
  let s1 := match v.fault with
    | some f => s.discardEntry q f.atWord f.seq
    | none => match v.run.head? with
      | some e => s.discardEntry q false e.seq
      | none => s
  (s1.setQueue q { (s1.queue q) with fault := none, stopped := false }).setCore
    { s1.core with engPend := s1.core.engPend.filter (· != q) }

/-- RESET, and of an XQ at any time its armed entries are disarmed. -/
def State.resetCmd (s : State) (q : Nat) : State :=
  let v := s.queue q
  if v.fault.isSome || v.stopped then
    let s1 := s.resetQueue q
    s1.setCore { s1.core with engPend := s1.core.engPend.filter (· != q) }
  else if 9 ≤ q then s.setQueue q { v with armed := disarmed v.armed }
  else s

/-- A write of QCMD (R158): a queue that is neither faulted nor stopped takes only the disarming of RESET. -/
def State.queueCommand (s : State) (q : Nat) (v : Word) : State :=
  let c := Word.bits v 0 2
  let halted := (s.queue q).fault.isSome || (s.queue q).stopped
  if c = 3 then s.resetCmd q
  else if !halted then s
  else if c = 1 then s.resumeQueue q
  else if c = 2 then s.discardQueue q
  else s

/-! ### XINV (R325) -/

/-- A cached page that XINV names. -/
def xinvNames (v : Word) (p : Page) : Bool :=
  let a := decide (p.asid = Word.bits v 0 16)
  match Word.bits v 56 2 with
  | 0 => a && decide (p.base / 2 ^ 16 ≤ Word.bits v 16 40) && decide (Word.bits v 16 40 < (p.base + p.size) / 2 ^ 16)
  | 1 => a
  | _ => true

/-- The caches of the cell and of its die, which lie in every scope, drop the translations named, and with SCOPE = 1 so do
those of the other dies, the ingress's among them. A walk that could yield one restarts: walks read the tables when they are
made. -/
def State.invalidate (s : State) (v : Word) : State :=
  let keep := fun (l : List Page) => l.filter fun p => !xinvNames v p
  { s with
    sys := { s.sys with ctlb := keep s.sys.ctlb, tlb := keep s.sys.tlb }
    fab := { s.fab with icache := if v.getLsbD 58 then keep s.fab.icache else s.fab.icache } }

/-! ### Watchpoint changes (R369, R379) -/

/-- The watchpoint of a WPA or WPC number. -/
def wpIndex (n : Nat) : Nat := (n - 0x0D0) / 2

/-- A write of WPA or WPC that arms, disarms or changes an armed watchpoint goes to the home and is waited for. -/
def State.wpMoves (s : State) (n : Nat) (v : Word) : Bool :=
  decide (0x0D0 ≤ n) && decide (n ≤ 0x0D7) &&
    (if n % 2 = 1 then
      (v.getLsbD 16 || s.wpArmed (wpIndex n)) && (v &&& 0x1FFFF) != s.readCsr n
     else s.wpArmed (wpIndex n) && (v &&& 0xFFFFFFFFFFFFF0) != s.readCsr n)

/-- Range and mask of the watchpoint as the write leaves it. -/
def State.wpNew (s : State) (n : Nat) (v : Word) : Nat × BitVec 16 × Bool :=
  let i := wpIndex n
  if n % 2 = 1 then (s.wpAddr i, BitVec.ofNat 16 (Word.bits v 0 16), v.getLsbD 16)
  else (Word.bits v 4 52 * 16, s.wpMask i, s.wpArmed i)

/-- The write leaves the watchpoint armed: its address is translated as a read. -/
def State.wpTranslates (s : State) (n : Nat) (v : Word) : Bool := s.wpMoves n v && (s.wpNew n v).2.2

/-- The watchpoints armed at homes after the change (R369). -/
def State.wpArm (s : State) (n : Nat) (v : Word) : State :=
  let i := wpIndex n
  let x := s.wpNew n v
  let others := s.dbg.armed.filter fun w => w.1 != i
  let va := canon x.1
  let now := match s.cached va with
    | some p => if x.2.2 && (s.remote (some p)).isNone then [(i, p.pa (va56 va), va, x.2.1)] else []
    | none => []
  { s with dbg := { s.dbg with armed := now ++ others } }

/-! ### The write of a register -/

/-- A permitted write of a value that the register accepts. -/
def State.csrWrite (s : State) (n : Nat) (mask v : Word) : State :=
  if n = 0x013 then s.writeBankbind v
  else if n = 0x052 then s.writeFrameWord v
  else if n = 0x080 then s.writeAccctl v
  else if n = 0x084 then s.clearCaps v
  else if n = 0x0C0 then s.writeTrctl v
  else if n = 0x0E4 then s.popReport
  else if n = 0x105 then s.writeTmrcnt v
  else if 0x130 ≤ n ∧ n ≤ 0x13C then s.queueCommand (n - 0x130) v
  else if n = 0x151 then s.writeCueirq v
  else if n = 0x190 then s.invalidate v
  else if n = 0x1C6 then { s with mgr := { s.mgr with errcnt := s.mgr.errcnt.setIfInBounds s.idsel v } }
  else if mask = 0 then s
  else s.setCsr n (fieldsOf n mask (s.readCsr n) v)

/-! ### Major 0x19 (R100) -/

/-- R56, R204: an unassigned number traps with ILLEGAL, a system register at user level with PRIVILEGE. -/
def csrAccess (s : State) (n : Nat) : List Verdict :=
  match csrRow n with
  | none => [trapWith Code.illegal]
  | some r => [require (s.system || r.1) Code.privilege]

/-- The write is permitted at the current level (R56). -/
def State.csrPermits (s : State) (n : Nat) : Bool :=
  match csrRow n with
  | none => false
  | some r => s.system || r.2.1

def csrMask (n : Nat) : Word := ((csrRow n).map fun r => r.2.2).getD 0

/-- What a permitted write checks: the value, the banks of BANKBIND, the translation of a watchpoint, and the wait for
its home (R49, R369, R379). -/
def csrWriteChecks (s : State) (n : Nat) (v : Word) : List Verdict :=
  let va := canon (s.wpNew n v).1
  [require (!csrRejects n v) Code.illegal, require (!(decide (n = 0x013) && s.bindBusy v)) Code.lend] ++
  (if s.wpTranslates n v then
    let x := s.spans va .read 16 useAll
    [x.1, spansPermitted va useAll x.2]
   else [])

/-- The registers whose values are captured (R376). -/
def csrCaptured (n : Nat) : Bool := decide (n = 0x180) || decide (n = 0x083)

/-- The read of a form of R100 lands; a captured register's value is recorded. -/
def State.csrResult (s : State) (n d : Nat) (v : Word) : State :=
  if csrCaptured n then (s.result 1 d v).capture s.self (gLoc d) (bytesOfNum 8 v.toNat) else s.result 1 d v

/-- CSRR (R100). -/
def execCsrr (d : BitVec 5) (c : BitVec 12) (s : State) : Out :=
  let i : Instr := .csrr d c
  let n := c.toNat
  let checks := csrAccess s n ++ scalarChecks s [] [d.toNat]
  if csrCaptured n then settleCounter i s checks d.toNat (s.csrRead n) (s.advance n)
  else settle i s checks ((s.advance n).csrResult n d.toNat (s.csrRead n))

/-- A form of R100 that writes: `f` gives the new value from the old one and g[ra]. -/
def execCsrOp (i : Instr) (f : Word → Word → Word) (d a : BitVec 5) (c : BitVec 12) (s : State) : Out :=
  let n := c.toNat
  let old := s.csrRead n
  let v := f old (s.g a.toNat)
  let base := csrAccess s n ++ scalarChecks s [(a.toNat, false)] [d.toNat]
  if !s.csrPermits n then settle i s base ((s.advance n).csrResult n d.toNat old)
  else
    let checks := base ++ csrWriteChecks s n v
    let done := ((s.csrWrite n (csrMask n) v).advance n).csrResult n d.toNat old
    if s.wpMoves n v then
      match firstOf (legal i :: checks) with
      | .pass =>
        if s.core.wpSent = some (n, v, true) then
          settle i s [] (done.setCore { done.core with wpSent := none })
        else .next ((s.setCore { s.core with wpSent := some (n, v, false) }).hold i .orderWait)
      | x => .next (s.blocked i x)
    else settle i s checks done

/-- CSRW (R100). -/
def execCsrw (d a : BitVec 5) (c : BitVec 12) (s : State) : Out := execCsrOp (.csrw d a c) (fun _ v => v) d a c s
/-- CSRS (R100). -/
def execCsrs (d a : BitVec 5) (c : BitVec 12) (s : State) : Out := execCsrOp (.csrs d a c) (fun o v => o ||| v) d a c s
/-- CSRC (R100). -/
def execCsrc (d a : BitVec 5) (c : BitVec 12) (s : State) : Out := execCsrOp (.csrc d a c) (fun o v => o &&& ~~~v) d a c s
/-- CSRX (R100). -/
def execCsrx (d a : BitVec 5) (c : BitVec 12) (s : State) : Out := execCsrOp (.csrx d a c) (fun o v => o ^^^ v) d a c s

/-! ### Steps of register accesses made from outside the core (log 19)

`inp.csr` holds an access of the stage manager or a debugger: a number and a value. -/

/-- The access waiting, if its number passes a test. -/
def State.outside (s : State) (p : Nat → Bool) : Option (Nat × Word) :=
  match s.inp.csr with
  | some a => if p a.1 then some a else none
  | none => none

def State.outsideDone (s : State) : State := { s with inp := { s.inp with csr := none } }

/-- An access from outside takes effect. -/
def outsideStep (p : Nat → Bool) (f : Nat → Word → State → State) (s : State) : Out :=
  match s.outside p with
  | some (n, v) => .next (f n v s).outsideDone
  | none => .next s

/-- TMRCNT_WRITE (R97). -/
def execTmrcntWrite (s : State) : Out := outsideStep (fun n => n == 0x105) (fun _ v t => t.writeTmrcnt v) s

/-- BANKBIND_WRITE (R49): left wholly unchanged where a bank it changes has a result in flight. -/
def execBankbindWrite (s : State) : Out :=
  outsideStep (fun n => n == 0x013) (fun _ v t => if t.bindBusy v then t else t.writeBankbind v) s

/-- FXDATA (R204): a write of word FXSEL, with FXSEL raised by 1. -/
def execFxdata (s : State) : Out :=
  outsideStep (fun n => n == 0x052) (fun n v t => (t.writeFrameWord v).advance n) s

/-- CAPDATA (R344): a read raises INDEX. -/
def execCapdata (s : State) : Out := outsideStep (fun n => n == 0x083) (fun n _ t => t.advance n) s

/-- CAPCLR (R344). -/
def execCapclr (s : State) : Out := outsideStep (fun n => n == 0x084) (fun _ v t => t.clearCaps v) s

/-- CUEIRQ_CLEAR (R218). -/
def execCueirqClear (s : State) : Out := outsideStep (fun n => n == 0x151) (fun _ v t => t.writeCueirq v) s

/-- A QCMD access with a given command. -/
def qcmdStep (cmd : Nat) (s : State) : Out :=
  match s.inp.csr with
  | some (n, v) =>
    if 0x130 ≤ n ∧ n ≤ 0x13C ∧ Word.bits v 0 2 = cmd then .next (s.queueCommand (n - 0x130) v).outsideDone else .next s
  | none => .next s

/-- QCMD_RESUME (R158). -/
def execQcmdResume (s : State) : Out := qcmdStep 1 s
/-- QCMD_DISCARD (R158). -/
def execQcmdDiscard (s : State) : Out := qcmdStep 2 s
/-- QCMD_RESET (R158). -/
def execQcmdReset (s : State) : Out := qcmdStep 3 s

/-- An XINV access with a given operation. -/
def xinvStep (op : Nat) (s : State) : Out :=
  match s.inp.csr with
  | some (n, v) => if n = 0x190 ∧ Word.bits v 56 2 = op then .next (s.invalidate v).outsideDone else .next s
  | none => .next s

/-- XINV_PAGE (R325). -/
def execXinvPage (s : State) : Out := xinvStep 0 s
/-- XINV_ASID (R325). -/
def execXinvAsid (s : State) : Out := xinvStep 1 s
/-- XINV_ALL (R325). -/
def execXinvAll (s : State) : Out := xinvStep 2 s

/-- WATCHPOINT_CHANGE (R379): the home takes a change that the core has sent; the CSRW may then retire. -/
def execWatchpointChange (s : State) : Out :=
  match s.core.wpSent with
  | some (n, v, false) => .next ((s.wpArm n v).setCore { s.core with wpSent := some (n, v, true) })
  | _ => .next s

/-- WARPOP (R371). -/
def execWarpop (s : State) : Out := outsideStep (fun n => n == 0x0E4) (fun _ _ t => t.popReport) s

/-- The fields that the stage manager writes of registers that are read-only to cells: JOBKEY, TICKPER, EWT, PWRCAP (R302,
R327, R345, R402). No other such register takes a write (R7, R12). -/
def managerMask (n : Nat) : Word :=
  if n = 0x103 then 0xFFFF
  else if n = 0x181 then 0xFFFFFFFFFF
  else if 0x1A0 ≤ n ∧ n ≤ 0x1A7 then BitVec.allOnes 64
  else if n = 0x1D1 then 0xFFFF
  else 0

/-- The value lies in the register's range (R302, R402). -/
def managerTakes (n : Nat) (v : Word) : Bool :=
  let x := (v &&& managerMask n).toNat
  managerMask n != 0 && (n ≠ 0x181 || decide (2000 ≤ x)) && (n ≠ 0x1D1 || (decide (6000 ≤ x) && decide (x ≤ 18000)))

/-- The stage manager's write of a register: PAIRCTL of a pairing point p is numbered 0x1000 + p (R263); of a register that
is read-only to cells its own fields are written, others follow their field rules (R12, R345, R387), and a changed watchpoint
is armed at its home (R369). TICKPER's effect waits for the next edge (R302). -/
def State.managerWrite (s : State) (n : Nat) (v : Word) : State :=
  if 0x1000 ≤ n then
    let p := n - 0x1000
    { s with sys := { s.sys with
      pairctl := Sparse.set s.sys.pairctl p (BitVec.ofNat 8 (Word.bits v 0 8))
      pairset := if s.sys.pairset.contains p then s.sys.pairset else p :: s.sys.pairset } }
  else if csrMask n = 0 then (if managerTakes n v then s.setCsr n (v &&& managerMask n) else s)
  else if csrRejects n v then s
  else (if s.wpMoves n v then s.wpArm n v else s).csrWrite n (csrMask n) v

/-- REGISTER_WRITE (R100): a register with no behaviour of its own. -/
def execRegisterWrite (s : State) : Out :=
  outsideStep (fun n => decide (0x1000 ≤ n) || ((csrRow n).isSome &&
    !([0x013, 0x052, 0x083, 0x084, 0x0E4, 0x105, 0x151, 0x190].contains n) && !(decide (0x130 ≤ n) && decide (n ≤ 0x13C))))
    (fun n v t => t.managerWrite n v) s

end Sys2Proof.Machine
end

