-- ==== Sys2Proof/Machine/Ports.lean ====
section
/-!
DEFINITION. The fabric's routing tables, membership tables and ports (R328, R352-R354, R356), and the replies that leave
through them (R354, R359).
-/

namespace Sys2Proof.Machine

/-! ### Routing (R352-R354) -/

/-- NDEV (R352). -/
def State.ndev (s : State) : Nat := Word.bits (s.readCsr 0x1B0) 16 11

/-- Word w of a routing entry at reset: MINPORT is 63, which is none. The table holds what differs from it (R353). -/
def routeReset (w : Nat) : Word := if w = 0 then 63 else 0

/-- Fields of word w of a routing entry; its other bits are zero (R353). -/
def routeMask (w : Nat) : Word := if w = 0 then 0x7FF else if w = 3 then 0 else 0x07FF07FF07FF07FF

/-- Word w of the routing entry of a device (R353). -/
def State.route (s : State) (dev w : Nat) : Word := Sparse.get s.fab.routes (4 * dev + w) ^^^ routeReset w

/-- Words written to a routing table: word w of the entry of device i at key 4 i + w. -/
def putRoutes (m : Sparse 64) (l : List (Nat × Word)) : Sparse 64 :=
  l.foldl (fun (m : Sparse 64) e => Sparse.set m e.1 ((e.2 &&& routeMask (e.1 % 4)) ^^^ routeReset (e.1 % 4))) m

/-- A port carries traffic. -/
def State.portUp (s : State) (p : Nat) : Bool := ((s.fab.ports[p]?).map Port.up).getD false

/-- The first port of the minimal path to a device, where it is usable: MINPORT 63 is none. -/
def State.minPort (s : State) (dev : Nat) : Option Nat :=
  let p := Word.bits (s.route dev 0) 0 6
  if (s.route dev 0).getLsbD 10 && p ≠ 63 && s.portUp p then some p else none

/-- First ports toward the usable alternates of a device, in order (R354). -/
def State.alternates (s : State) (dev : Nat) : List Nat :=
  (List.range (min 8 (Word.bits (s.route dev 0) 6 4))).filterMap fun i =>
    s.minPort (Word.bits (s.route dev (1 + i / 4)) (16 * (i % 4)) 11)

/-- The minimal path to a device, or the first usable alternate (R354). -/
def State.hopTo (s : State) (dev : Nat) : Option Nat :=
  if !(s.route dev 0).getLsbD 10 then none else (s.minPort dev).orElse fun _ => (s.alternates dev).head?

/-! ### Membership (R328) -/

/-- A key is a member of a port's table, or of the ingress's, table 36; key 0 always is (R328). -/
def State.member (s : State) (table key : Nat) : Bool := decide (key = 0) || s.fab.members.contains (table, key)

/-- A packet is dropped for its key. -/
def State.dropKey (s : State) (table : Nat) : State :=
  { s with fab := { s.fab with keyDrop := Sparse.set s.fab.keyDrop table (Sparse.get s.fab.keyDrop table + 1) } }

/-! ### Flits in a port's queues (R356) -/

/-- Flits of a request: a header and its payload. -/
def ReqOp.flits (op : ReqOp) : Nat := 1 + (if op.writes then (op.size + 63) / 64 else 0)

/-- Flits of its reply: a header and its data. -/
def ReqOp.replyFlits (op : ReqOp) : Nat := 1 + (if op.reads then (op.size + 63) / 64 else 0)

def State.setPort (s : State) (i : Nat) (p : Port) : State :=
  { s with fab := { s.fab with ports := s.fab.ports.setIfInBounds i p } }

/-- Flits that wait at a port in a class. -/
def Port.waiting (p : Port) (cls : Nat) : Nat := ((p.queues[cls]?.getD []).map Flits.n).foldl (· + ·) 0

/-- Flits of a packet join the queue of their class at a port. -/
def State.enqueueFlits (s : State) (i : Nat) (f : Flits) : State :=
  let p := (s.fab.ports[i]?).getD Port.reset
  s.setPort i { p with queues := setAt p.queues f.cls ((p.queues[f.cls]?.getD []) ++ [f]) }

/-- A reply to another module, in the class of its request: WHY 0 is an answer, which the port on its way drops where its key
is no member; a refusal always leaves. Without a path nothing does (R328, R354, R359). -/
def State.replyTo (s : State) (dev key cls n why : Nat) (val : Word) : State :=
  match s.hopTo dev with
  | none => s
  | some p =>
    if why = 0 && !s.member p key then s.dropKey p
    else State.enqueueFlits { s with fab := { s.fab with back := s.fab.back ++ [(dev, why, val)] } } p
      { n := n, cls := cls, dev := dev, id := none, own := false }

end Sys2Proof.Machine
end

