-- ==== Sys2Proof/Machine/Home.lean ====
section
/-!
DEFINITION. What happens at the homes (R252-R258): writes applied and reads answered under the vector clocks,
frontiers, acknowledgements, answers landing at the cell (R50, R112, R385, R386), refusals (R329), watchpoints at homes
(R369-R371), formatted blocks (R35), atomics (R114, R115), route counters (R120), renormalisation (R395).
-/

namespace Sys2Proof.Machine

/-! ### Clocks held at a home (R256) -/

/-- The write has its stamp, which it takes at the end of its clk (R255). -/
def State.stamped (s : State) (r : Req) : Bool :=
  !r.op.writes || decide (r.stamp[r.die]?.getD 0 ≤ (s.vcOf r.die)[r.die]?.getD 0)

/-- The home holds what the request carries. -/
def State.clockHeld (s : State) (r : Req) : Bool :=
  s.stamped r && (!r.op.writes || s.holds r.stamp (some r.die)) && (!r.op.reads || s.holds r.rclk none)

/-! ### What a request touches (R254) -/

/-- Data bytes and scale slots of blocks. -/
def blockRanges (bs : List Block) : List (Nat × Nat) :=
  (bs.map fun b => [(b.pa, blockBytes b.fmt b.geo), (b.slot, 96)]).flatten

/-- Ranges of bytes that a request reads or writes. A contribution's range lies in its receiver's result store; route
counters lie at their hub. -/
def Req.ranges (r : Req) : List (Nat × Nat) :=
  match r.op with
  | .load n => [(r.pa, n)]
  | .vload fmt es => es.map fun e => (e.2, if fmt = 0 then 4 else fmtWidth fmt / 8)
  | .bload bs => blockRanges (bs.map Prod.snd)
  | .rowBytes n => [(r.pa, n)]
  | .rowBlocks bs => blockRanges bs
  | .store bs => bs.map fun b => (b.1, 1)
  | .encode bs _ _ => blockRanges bs
  | .atomic _ n _ => [(r.pa, n)]
  | .cas n _ _ => [(r.pa, n)]
  | .vat _ _ _ => [(r.pa, 64)]
  | .rcsnap h => [(2 ^ 53 + h, 1)]
  | .rcread h _ => [(2 ^ 53 + h, 1)]
  | .contrib c => [(2 ^ 54 + 2 ^ 24 * (4096 * c.tcell + c.cidx) + c.off, 4 * c.words.length)]
  | .route os bs => (os.map fun o => (o.1, 8)) ++ bs.map fun b => (b.1, 1)

/-- The homes of what a request touches: its own, and those of its blocks' scale slots (R252, R317). -/
def Req.homes (r : Req) : List Nat :=
  let slots : List Nat := match r.op with
    | .bload bs => bs.map fun b => b.2.slot
    | .rowBlocks bs => bs.map Block.slot
    | .encode bs _ _ => bs.map Block.slot
    | _ => []
  (r.home :: slots.map homeOf).eraseDups

/-- The answers of the homes of a request carry their M_h (R256). -/
def State.homesMax (s : State) (r : Req) : List Nat := r.homes.foldl (fun c h => maxClock c (s.maxOf h)) []

/-- The homes of a write raise their M_h (R256). -/
def State.raiseHomes (s : State) (r : Req) : State := r.homes.foldl (fun t h => t.raiseMax h r.stamp) s

/-- The ranges; a vat operation may touch any slot of its vat (R107, R116). -/
def State.reach? (s : State) (r : Req) : List (Nat × Nat) :=
  match r.op with
  | .vat _ _ _ => [(r.pa, 64 + 8 * min (2 ^ 32) (Memory.readLE s.mem (r.pa + 8) 8))]
  | _ => r.ranges

/-- Two requests touch a common byte. -/
def State.meets (s : State) (a b : Req) : Bool :=
  (s.reach? a).any fun x => (s.reach? b).any fun y => decide (x.1 < y.1 + y.2) && decide (y.1 < x.1 + x.2)

/-- Two requests of one cell of another module in one traffic class, which are performed in issue order (R262). -/
def Req.sameStream (a b : Req) : Bool :=
  match a.origin, b.origin with
  | .module d c, .module d' c' => d == d' && c == c' && a.cls == b.cls
  | _, _ => false

/-- A request waits behind an earlier one of its die to a common byte, where either writes, be it held at a pairing point:
accesses of one die to one address are performed in issue order (R107, R154, R256). -/
def State.behind (s : State) (r : Req) : Bool :=
  (s.sys.reqs ++ s.sys.held.map Held.req).any fun q =>
    decide (q.id < r.id) && (q.sameStream r || (q.die == r.die && (q.op.writes || r.op.writes) && s.meets q r))

/-- The first request of a kind that its home may perform now. -/
def State.firstDue (s : State) (kind : Req → Bool) : Option Req :=
  s.sys.reqs.find? fun r => kind r && s.clockHeld r && !s.behind r

/-- The notify window (R295, R312). -/
def inNotify (pa : Nat) : Bool := decide (0xF000100000000 ≤ pa) && decide (pa < 0xF000100002000)

def ReqOp.isVat : ReqOp → Bool
  | .vat _ _ _ => true
  | _ => false

/-- A store to the notify window. -/
def Req.notifies (r : Req) : Bool :=
  match r.op with
  | .store _ => inNotify r.pa
  | _ => false

/-- Such a store of another module (R300). -/
def Req.peerNotifies (r : Req) : Bool := r.notifies && (match r.origin with
  | .module _ _ => true
  | _ => false)

/-- The contribution that a request brings to the modelled cell. -/
def State.contribOf (s : State) (r : Req) : Option Contrib :=
  match r.op with
  | .contrib c => if c.tdev = s.devid ∧ c.tcell = s.gcell then some { c with clock := r.stamp } else none
  | _ => none

/-- Writes that WRITE_APPLIED_AT_HOME performs. -/
def State.writeKind (s : State) (r : Req) : Bool := r.op.writes && !r.op.isVat && !r.notifies && (s.contribOf r).isNone
def readKind (r : Req) : Bool := !r.op.writes

/-- A request leaves its home. -/
def State.dropReq (s : State) (id : Nat) : State :=
  { s with sys := { s.sys with reqs := s.sys.reqs.filter fun r => r.id != id } }

/-! ### Errors in memory (R383-R386, R390) -/

/-- Stacks and the cellar have one code per line (R383). -/
def lineCoded (pa : Nat) : Bool := decide (pa < 0x2000000000000)

/-- KIND of an address in MCINFO (R386). -/
def memKind (pa : Nat) : Nat := if pa < 0x1000000000000 then 3 else if pa < 0x2000000000000 then 4 else 5

/-- Bytes written at a home: a whole line replaces an uncorrectable one, a part of one is discarded (R384). True where
something was discarded. -/
def State.writeHome (s : State) (bs : List (Nat × Byte)) : State × Bool :=
  let x := s.readLines (bs.map fun b => (b.1, 1))
  let bad := (linesOf (bs.map fun b => (b.1, 1))).filter fun l => decide (1 < s.lineErr l)
  if bad.isEmpty then ({ x.1 with mem := x.1.mem.writeBytes bs }, false)
  else
    let whole := fun (l : Nat) => !lineCoded (64 * l) || (List.range 64).all fun i => bs.any fun b => b.1 == 64 * l + i
    let lost := bad.filter fun l => !whole l
    let kept := bs.filter fun b => !lost.contains (b.1 / 64)
    let s1 : State := { s with
      mem := s.mem.writeBytes kept
      mgr := { s.mgr with memErr := s.mgr.memErr.filter fun e =>
        !((bad.contains e.1 && !lost.contains e.1) ||
          ((linesOf (bs.map fun b => (b.1, 1))).contains e.1 && e.2 == 1)) } }
    (s1, !lost.isEmpty)

/-- The writer of a discarded write is reported with KIND 7 (R384, R386). -/
def State.reportLost (s : State) (r : Req) : State :=
  if r.mine then s.deferMachine r.va 7 0 0x7FFFF else s

/-! ### Refusals (R329) -/

/-- An answer, acknowledgement or refusal of a request that another module made: WHY 0 is done. -/
def State.sendBack (s : State) (r : Req) (why : Nat) (val : Word) : State :=
  match r.origin with
  | .module d _ => s.replyTo d r.key r.cls (if why = 0 then r.op.replyFlits else 1) why val
  | _ => s

/-- An access to memory at its home, counted for the cell that made it (R346, R347). -/
def State.countHome (s : State) (r : Req) (n : Nat) : State := if r.mine then s.countMem r.pa n else s

/-- Flits of a reply received (R346, R347). -/
def State.countReply (s : State) (r : Req) : State := if r.mine then s.count 20 r.op.replyFlits else s

/-- An answer, or bad data, for the stage manager (R318, log 12). -/
def State.mgrAnswer (s : State) (id : Nat) (bs : List Byte) (bad : Bool) : State :=
  { s with mgr := { s.mgr with far := s.mgr.far.map fun f => if f.id = id then { f with ans := some bs, bad := bad } else f } }

/-- A refusal ends an access of the cell: an entry faults, the core records it, and a table load is given up with its other
parts; one from another module is sent back, and one of the stage manager is reported to it. -/
def State.refuse (s : State) (r : Req) (why dev : Nat) : State :=
  if r.dest = .mgr then
    let t := s.mgrAnswer r.id [] true
    if r.op.writes then { t with mgr := { t.mgr with reports := t.mgr.reports ++ [(Code.fabric, none)] } } else t
  else if !r.mine then s.sendBack r why 0
  else if r.queue = 15 then
    let table := match r.dest with
      | .table _ => true
      | _ => false
    let other := fun (d : Dest) => match d with
      | .table _ => !table
      | _ => true
    { s with
      core := { s.core with
        refusals := s.core.refusals ++ [{ va := r.va, why := why, dev := dev }]
        vat := if r.dest = .vat then .none else s.core.vat
        far := s.core.far.filter fun f => f.id != r.id
        latWait := if table then none else s.core.latWait }
      sys := { s.sys with
        reqs := s.sys.reqs.filter fun q => other q.dest
        replies := s.sys.replies.filter fun q => other q.dest
        fullPass := s.sys.fullPass.filter (· != r.id) }
      fab := { s.fab with out := s.fab.out.filter fun q => other q.dest } }
  else s.faultSeq r.queue r.seq Code.fabric r.va

/-! ### Watchpoints at homes (R369-R371, R380) -/

/-- A write that its cell reports precisely, or one of its trace records, is not matched at the home (R367, R370). -/
def Req.precise (r : Req) : Bool :=
  r.origin == .own && r.queue == 15 && (match r.op with
    | .store _ | .encode _ _ _ => true
    | _ => false)

/-- KIND, SRC and SCELL of a report (R371). -/
def Origin.source : Origin → Nat × Nat × Nat
  | .own => (0, 0, 0)
  | .cell c => (1, c, 0)
  | .hub d => (1, d, 0)
  | .module d c => (2, d, c)

/-- WARSEQ of a write (R371, R380). -/
def Req.warSeq (r : Req) : Word :=
  match r.origin with
  | .hub _ => 0
  | _ => if r.queue = 15 then BitVec.ofNat 64 (Word.bits r.pc 0 56) else BitVec.ofNat 64 r.seq

/-- QUEUE of a report: 15 for a control core or a hub unit. -/
def Req.warQueue (r : Req) : Nat :=
  match r.origin with
  | .hub _ => 15
  | _ => r.queue

/-- Launch queues whose HEAD, TAIL or DONE lies in bytes that software writes, and that are enabled in memory as it stands
before the write: their behaviour is undefined from there on (R294). -/
def State.markQueues (s : State) (before : Memory) (ranges : List (Nat × Nat)) : State :=
  match s.mgr.qtable with
  | none => s
  | some t =>
    let hit := fun (r : Nat × Nat) =>
      if r.1 + r.2 ≤ t || t + 65536 ≤ r.1 then []
      else ((List.range ((r.2 + 63) / 64 + 1)).map fun j => (r.1 - t) / 64 + j).filter fun q =>
        decide (q < 1024) && decide (r.1 < t + 64 * q + 36) && decide (t + 64 * q + 24 < r.1 + r.2) &&
          decide (Memory.readLE before (t + 64 * q + 8) 8 / 2 ^ 11 % 2 = 1)
    let new := ((ranges.map hit).flatten).filter fun q => !s.lq.undef.contains q
    if new.isEmpty then s else { s with lq := { s.lq with undef := s.lq.undef ++ new.eraseDups } }

/-- Reports of a write of some bytes, one for each watchpoint it matches (R370). -/
def State.watched (s : State) (r : Req) (ranges : List (Nat × Nat)) : State :=
  if r.precise then s
  else
    let made := s.dbg.armed.filterMap fun w =>
      let m := writtenMask w.2.1 ranges &&& w.2.2.2
      if m = 0 then none
      else
        let src := r.origin.source
        some ({ addr := BitVec.ofNat 64 (Word.bits (w.2.2.1 + BitVec.ofNat 64 (lowest16 m)) 0 56), mask := m, kind := src.1,
                queue := r.warQueue, src := src.2.1, scell := src.2.2, id := r.warSeq, at' := s.clk } : Report)
    if made.isEmpty then s else { s with dbg := { s.dbg with coming := s.dbg.coming ++ made } }

/-- What a write of some bytes brings about beside the bytes: watch reports, and queues left undefined; `before` is memory as
it stood. -/
def State.touched (s : State) (before : Memory) (r : Req) (ranges : List (Nat × Nat)) : State :=
  (s.markQueues before ranges).watched r ranges

/-! ### Answers -/

/-- The answer to another cell or a hub unit of the module lands: its die joins the clock (R255). One to another module
carries no clock (R257). -/
def State.answerOther (s : State) (r : Req) (val : Word) (clock : List Nat) : State :=
  match r.origin with
  | .cell _ => s.joinVc r.die clock
  | .hub _ => s.joinVc r.die clock
  | _ => s.sendBack r 0 val

/-- The address, in the terms of its unit, of the first uncorrectable line of data that a request reads; where only a scale
slot is bad, the request's own address. No request's data cover more than 1 KiB. -/
def State.badAt (s : State) (r : Req) : Nat :=
  let data := fun (l : Nat) => decide (r.pa < 64 * l + 64) && decide (64 * l < r.pa + 1024)
  match (linesOf r.ranges).find? fun l => decide (1 < s.lineErr l) && data l with
  | some l => r.va.toNat + (max r.pa (64 * l) - r.pa)
  | none => r.va.toNat

/-- The answer to a request, with M_h (R256). -/
def State.answer (s : State) (r : Req) (size : Nat) (val : Word) (lanes : List Lane) (row : Option OqRow) (bad : Bool) :
    State :=
  if r.origin ≠ .own then s.answerOther r val (s.homesMax r) else
  let a : Reply :=
    { id := r.id, dest := r.dest, size := size, val := val, lanes := lanes, clock := s.homesMax r, bad := bad,
      addr := if bad then s.badAt r else r.va.toNat, queue := r.queue, seq := r.seq, acq := r.acq, row := row }
  { s with sys := { s.sys with replies := s.sys.replies ++ [a] } }

/-- The acknowledgement of a write (R328, R359). -/
def State.acknowledge (s : State) (r : Req) : State :=
  if r.mine then { s with sys := { s.sys with acks := s.sys.acks ++ [(r.queue, r.seq)] } } else s.sendBack r 0 0

/-! ### Operations at the home -/

/-- f of R114 on values of a size in bytes. -/
def atomicFn (fn size : Nat) (a b : Nat) : Nat :=
  let w := 8 * size
  let sgn := fun (x : Nat) => (Int.bmod x (2 ^ w))
  match fn with
  | 0 => (a + b) % 2 ^ w
  | 1 => a &&& b
  | 2 => a ||| b
  | 3 => a ^^^ b
  | 4 => if sgn b < sgn a then b else a
  | 5 => if sgn a < sgn b then b else a
  | 6 => min a b
  | 7 => max a b
  | 8 => b
  | _ => Fmt.fp32.encode 0 false ((Fmt.fp32.decode false a).add false (Fmt.fp32.decode false b))

/-- One narrow block written with its scale: codes and scale from its lanes, the group's slot encoded again (R26, R35).
A slot that cannot be decoded was refused before the write was sent; if it has been spoilt since, the block is left
(log 15). -/
def blockBytesOf (s : State) (b : Block) (ls : List Lane) (mode : Nat) : List (Nat × Byte) :=
  let x := encodeBlock b.fmt mode (ls.map ofFp32)
  match decodeSlot (s.bytes b.slot 96) b.group with
  | none => []
  | some scales =>
    let slot := encodeSlot (setAt scales b.blk x.1)
    let data := packCodes (fmtWidth b.fmt) x.2
    (data.zipIdx.map fun d => (b.pa + d.2, d.1)) ++ (slot.zipIdx.map fun d => (b.slot + d.2, d.1))

/-- Blocks written in order, each with its own lanes. -/
def State.encodeBlocks (s : State) (mode : Nat) : List Block → List Lane → State × Bool
  | [], _ => (s, false)
  | b :: bs, ls =>
    let n := blockElems b.geo
    let x := s.writeHome (blockBytesOf s b (ls.take n) mode)
    let y := State.encodeBlocks x.1 mode bs (ls.drop n)
    (y.1, x.2 || y.2)

/-- Hub index of a hub die. -/
def hubIndex (h : Nat) : Nat := h - 24

/-- RCSNAP at its hub (R120, R292): the job's live counters move to the snapshot, its seen-sets are cleared and the
sequence number rises. -/
def State.snapshot (s : State) (h key : Nat) : State × Word :=
  let hb := s.hub (hubIndex h)
  let mine := fun (e : Nat × Word) => e.1 / 512 == key
  let seq := Sparse.get hb.snap (512 * key + 259) + 1
  let snap := Sparse.set (hb.snap.filter fun e => !mine e) (512 * key + 259) seq
  let moved := (hb.live.filter mine).foldl (fun (m : Sparse 64) e => Sparse.set m e.1 e.2) snap
  (s.setHub (hubIndex h) { live := hb.live.filter fun e => !mine e, snap := moved, seen := hb.seen.filter fun x => x.1 != key },
   seq)

/-- Bytes of one word at a home, read and written by an atomic operation; nothing is written over an uncorrectable
line (R385). -/
def State.rmw (s : State) (r : Req) (n : Nat) (f : Nat → Option Nat) : State :=
  let x := s.readLines [(r.pa, n)]
  let old := Memory.readLE s.mem r.pa n
  if x.2 then x.1.answer r n 0 [] none true
  else match f old with
    | none => x.1.answer r n (BitVec.ofNat 64 old) [] none false
    | some v =>
      let y : State := { x.1 with mem := Memory.writeLE x.1.mem r.pa n v }
      ((y.raiseHomes r).touched s.mem r [(r.pa, n)]).answer r n (BitVec.ofNat 64 old) [] none false

/-- A write to the register-space window (R321): refused where it touches a bank bound to the matrix slot; otherwise its
words are written and set full. The unit of this cell that made it is answered. -/
def State.applyWindow (s : State) (r : Req) (bs : List (Nat × Byte)) : State :=
  match bs.find? fun b => s.bankBound ((b.1 - windowSpace) / 0x40000) (windowOff b.1 / 16384) with
  | some b =>
    if r.origin ≠ .own then s.sendBack r 6 0
    else s.setCore { s.core with win := .refused Code.protect (r.va + BitVec.ofNat 64 (b.1 - r.pa)) }
  | none =>
    let mine := bs.filter fun b => s.ownWindow b.1
    let words := (mine.filter fun b => b.1 % 4 = 0).map fun b =>
      (windowOff b.1 / 4, BitVec.ofNat 32 (numOfBytes ((List.range 4).map fun i =>
        (((mine.find? fun x => x.1 == b.1 + i).map Prod.snd).getD 0))))
    let s1 : State := { s with
      cell := words.foldl (fun (c : Cell) w => c.putWord w.1 w.2) s.cell
      mem := s.mem.writeBytes (bs.filter fun b => !s.ownWindow b.1) }
    let s2 := s1.raiseHomes r
    if r.origin ≠ .own then s2.sendBack r 0 0 else s2.setCore { s2.core with win := .done [] [] }

/-- A write performed at its home (R252, R256); the request has left the queue. -/
def State.applyWrite (s : State) (r : Req) : State :=
  match r.op with
  | .store bs =>
    if windowSpace ≤ r.pa then s.applyWindow r bs else
    let x := s.writeHome bs
    let s1 := ((x.1.raiseHomes r).touched s.mem r r.ranges).acknowledge r
    (if x.2 then s1.reportLost r else s1).countHome r bs.length
  | .encode bs ls mode =>
    let x := s.encodeBlocks mode bs ls
    let s1 := ((x.1.raiseHomes r).touched s.mem r r.ranges).acknowledge r
    (if x.2 then s1.reportLost r else s1).countHome r r.op.size
  | .atomic fn n b => (s.rmw r n fun a => some (atomicFn fn n a (b.toNat % 2 ^ (8 * n)))).countHome r n
  | .cas n e v =>
    (s.rmw r n fun a => if a = e.toNat % 2 ^ (8 * n) then some (v.toNat % 2 ^ (8 * n)) else none).countHome r n
  | .rcsnap h =>
    let x := s.snapshot h r.key
    (x.1.raiseHomes r).answer r 8 x.2 [] none false
  | .route os bs =>
    let set := fun (m : Memory) (o : Nat × Nat) => Memory.writeLE m o.1 8 (Memory.readLE m o.1 8 ||| 2 ^ o.2)
    let s1 : State := { s with mem := (os.foldl set s.mem).writeBytes bs }
    (((s1.raiseHomes r).touched s.mem r r.ranges).acknowledge r).countHome r 8
  | .contrib _ => (s.raiseHomes r).acknowledge r
  | _ => s

/-- Every byte a request touches lies in memory that exists (R312); contributions, counters and windows always do. -/
def State.reqPresent (s : State) (r : Req) : Bool :=
  decide (windowSpace ≤ r.pa) || match r.op with
  | .contrib _ => true
  | .rcsnap _ => true
  | .rcread _ _ => true
  | _ => s.presentPa r.pa && (r.ranges.map Prod.fst).all s.presentPa && r.ranges.all fun x => s.presentPa (x.1 + x.2 - 1)

/-- WRITE_APPLIED_AT_HOME (R256): the first write, atomic, CAS, RCSNAP or contribution to another cell whose home holds its
clock. -/
def execWriteAppliedAtHome (s : State) : Out :=
  match s.firstDue s.writeKind with
  | none => .next s
  | some r =>
    let s1 := s.dropReq r.id
    .next (if s.reqPresent r then s1.applyWrite r else s1.refuse r 7 s.devid)

/-- A contribution to the cell that its home may perform now; one of another module that the wings have no room for stays where
it is (R280). -/
def State.bringsNow (s : State) (r : Req) : Bool :=
  match s.contribOf r with
  | some c => r.origin == .own || !s.needsRoom c || s.wingsRoom c
  | none => false

/-- CONTRIBUTION_ARRIVAL (R280): the oldest contribution to the cell is applied, parked or discarded: of this cell or another
module as its home comes to perform it, else from another cell of the module. With the wings full one of this cell is held at
it, and with the port refused each stays where it is. -/
def execContributionArrival (s : State) : Out :=
  match s.firstDue s.bringsNow with
  | some r =>
    match s.contribOf r with
    | some c => .next (s.arrives c fun x =>
        match x with
        | some t => ((t.dropReq r.id).raiseHomes r).acknowledge r
        | none => { s.dropReq r.id with coll := { s.coll with outHeld := s.coll.outHeld ++ [r] } })
    | none => .next s
  | none =>
    match s.inp.inbox with
    | [] => .next s
    | c :: cs => .next (s.arrives c fun x =>
        match x with
        | some t => { t with inp := { t.inp with inbox := cs } }
        | none => s)

/-! ### Reads -/

/-- HEAD and TAIL of queue q, as its notify register reads (R295); the descriptor holds both in its word 3. -/
def State.notifyValue (s : State) (q : Nat) : Nat :=
  match s.mgr.qtable with
  | some t => Memory.readLE s.mem (t + 64 * q + 24) 8
  | none => 0

/-- Bytes at a home; those of the notify window come from the descriptors, those of the modelled cell's window from its
register space. -/
def State.homeBytes (s : State) (pa n : Nat) : List Byte :=
  if s.ownWindow pa then s.rspBytes (windowOff pa) n
  else if inNotify pa then
    (List.range n).map fun i =>
      let a := pa + i - 0xF000100000000
      BitVec.ofNat 8 (s.notifyValue (a / 8) / 2 ^ (8 * (a % 8)))
  else s.bytes pa n

/-- Lanes of a vector load from formats 0-3 (R109). -/
def State.loadLanes (s : State) (fmt : Nat) (es : List (Nat × Nat)) : List Lane :=
  (List.range 64).map fun l =>
    match es.find? fun e => e.1 == l with
    | none => 0
    | some e =>
      let n := if fmt = 0 then 4 else fmtWidth fmt / 8
      let c := numOfBytes (s.homeBytes e.2 n)
      if fmt = 1 ∨ fmt = 2 then toFp32 (wideElem fmt c) else BitVec.ofNat 32 c

/-- Lanes of a vector load from narrow blocks (R24, R109): each block's elements from its first lane on. -/
def State.blockLanes (s : State) (bs : List (Nat × Block)) : List Lane :=
  let parts := bs.map fun b => (b.1, s.decodeBlock b.2)
  (List.range 64).map fun l =>
    match parts.find? fun p => decide (p.1 ≤ l) && decide (l < p.1 + p.2.length) with
    | none => 0
    | some p => p.2[l - p.1]?.getD 0

/-- Bytes of a narrow row: data of its blocks, then their scale bytes (R112). -/
def State.rowData (s : State) (bs : List Block) : List Byte :=
  (bs.map fun b => s.bytes b.pa (blockBytes b.fmt b.geo)).flatten ++
  bs.map fun b => BitVec.ofNat 8 ((s.scaleOf b).getD 255)

/-- The row and the offset in it that a request fills. -/
def Dest.rowId : Dest → Nat × Nat
  | .row _ id off => (id, off)
  | _ => (0, 0)

/-- A read answered at its home (R256). -/
def State.answerRead (s : State) (r : Req) : State :=
  let x := s.readLines r.ranges
  let t := x.1.countHome r r.op.size
  match r.op with
  | .load n =>
    let bs := s.homeBytes r.pa n
    t.answer r n (BitVec.ofNat 64 (numOfBytes (bs.take 8))) [] (some (rawPart (0, 0) bs)) x.2
  | .vload fmt es => t.answer r 256 0 (s.loadLanes fmt es) none x.2
  | .bload bs => t.answer r 256 0 (s.blockLanes bs) none x.2
  | .rowBytes n => t.answer r n 0 [] (some (rawPart r.dest.rowId (s.homeBytes r.pa n))) x.2
  | .rowBlocks bs =>
    match bs.head? with
    | some b => t.answer r 128 0 [] (some (narrowPart r.dest.rowId b.fmt b.geo b.lslot bs.length (s.rowData bs))) x.2
    | none => t.answer r 128 0 [] none x.2
  | .rcread h i =>
    let v := if i.toNat < 260 then Sparse.get (s.hub (hubIndex h)).snap (512 * r.key + i.toNat) else 0
    t.answer r 8 v [] none false
  | _ => t

/-- READ_ANSWERED_AT_HOME (R256): the first read whose home holds its clock. -/
def execReadAnsweredAtHome (s : State) : Out :=
  match s.firstDue readKind with
  | none => .next s
  | some r =>
    let s1 := s.dropReq r.id
    .next (if s.reqPresent r then s1.answerRead r else s1.refuse r 7 s.devid)

/-! ### Frontiers (R256) -/

/-- Writes of a die that no home has applied: on their way, or held at a pairing point. -/
def State.unapplied (s : State) (d : Nat) : List Req :=
  (s.sys.reqs ++ s.sys.held.map Held.req).filter fun r => r.die == d && r.op.writes

/-- Greatest n such that every write the die stamped with component n or less has been applied. -/
def State.frontierOf (s : State) (d : Nat) : Nat :=
  (s.unapplied d).foldl (fun n r => min n (r.stamp[d]?.getD 0 - 1)) (Sparse.get s.sys.vc (33 * d)).toNat

/-- FRONTIER_SEND (R256): the die named by the event sends its frontier to every home. -/
def execFrontierSend (s : State) : Out :=
  .next { s with sys := { s.sys with front := Sparse.set s.sys.front s.actq (BitVec.ofNat 40 (s.frontierOf s.actq)) } }

/-! ### Answers landing at the cell (R50, R112, R385) -/

/-- An answer that LONG_LATENCY_RETURN lands. -/
def Reply.landable (r : Reply) : Bool :=
  match r.dest with
  | .entry _ _ => false
  | .row _ _ _ => false
  | .vat => false
  | _ => true

def Reply.isRow (r : Reply) : Bool :=
  match r.dest with
  | .row _ _ _ => true
  | _ => false

/-- Removes the first answer with an id and a destination. -/
def takeReply (p : Reply → Bool) : List Reply → List Reply
  | [] => []
  | r :: rs => if p r then rs else r :: takeReply p rs

/-- A request to another module is over. -/
def State.outDone (s : State) (id : Nat) : State :=
  { s with fab := { s.fab with
    out := s.fab.out.filter (fun x => x.id != id), routed := s.fab.routed.filter fun x => x.1 != id } }

/-- The port at which the reply to a request arrives, that of the minimal path (R354), or the ingress, where it lacks the key. -/
def State.replyDropped (s : State) (r : Reply) : Option Nat :=
  match s.fab.out.find? fun q => q.id == r.id with
  | none => none
  | some q =>
    match q.dev.bind s.hopTo with
    | some p => if !s.member p q.key then some p else if !s.member 36 q.key then some 36 else none
    | none => if !s.member 36 q.key then some 36 else none

/-- Replies whose key a table on their way in lacks are dropped, and counted there (R328). -/
def State.sift (s : State) : State :=
  s.inp.fabricIn.foldl (fun (t : State) r => match s.replyDropped r with
    | some p => { t.dropKey p with inp := { t.inp with fabricIn := takeReply (fun x => x.id == r.id) t.inp.fabricIn } }
    | none => t) s

/-- Answers from the fabric whose request stands enter the cell, or reach the stage manager; the request is over (R359). The
answer to a context that is over is dropped. -/
def State.fabricAnswer (s0 : State) (p : Reply → Bool) : State :=
  let s := s0.sift
  match s.inp.fabricIn.find? fun r => p r && s.fab.out.any (fun q => q.id == r.id && q.op.reads && !q.op.isVat) with
  | none => s
  | some r =>
    match s.fab.out.find? fun q => q.id == r.id with
    | none => s
    | some q =>
      let t : State := { (s.outDone r.id).countReply q with
        inp := { s.inp with fabricIn := takeReply (fun x => x.id == r.id) s.inp.fabricIn } }
      if q.dest = .mgr then t.mgrAnswer q.id ((r.row.map OqRow.bytes).getD []) r.bad
      else if q.origin ≠ .own then t
      else { t with sys := { t.sys with replies := t.sys.replies ++ [{ r with
        dest := q.dest, queue := q.queue, seq := q.seq, acq := q.acq, addr := q.va.toNat, clock := [] }] } }

/-- Another answer for the same vector is still to come. -/
def State.moreFor (s : State) (off : Nat) : Bool :=
  (s.sys.replies.any fun r => match r.dest with
    | .vec o _ => o == off
    | _ => false) ||
  (s.sys.reqs ++ s.fab.out).any fun r => match r.dest with
    | .vec o _ => o == off
    | _ => false

/-- A part of the head unit's table arrives, or an error in it (R129). -/
def State.tablePart (s : State) (off : Nat) (bs : List Byte) (bad : List Word) : State :=
  s.setCore { s.core with latWait := s.core.latWait.map fun w =>
    { w with got := insertPart (off, bs) w.got, bad := w.bad ++ bad } }

/-- Data written at its destination, set full, and captured (R50, R376). -/
def State.landReply (s : State) (r : Reply) : State :=
  match r.dest with
  | .reg n => (s.setCore (s.core.putG n r.val)).capture s.self r.dest.code (bytesOfNum r.size r.val.toNat)
  | .vec off lanes =>
    let t := s.putLanes off lanes r.lanes
    if t.moreFor off then t
    else t.capture s.self off ((t.lanesAt off).map fun l => bytesOfNum 4 l.toNat).flatten
  | .table off => s.tablePart off ((r.row.map OqRow.bytes).getD []) []
  | .far => s.farAnswer r.id ((r.row.map OqRow.bytes).getD []) false
  | .win => s.setCore { s.core with win := .done ((r.row.map OqRow.bytes).getD []) r.lanes }
  | .none => if 0 < r.size then s.capture s.self r.dest.code (bytesOfNum r.size r.val.toNat) else s
  | _ => s

/-- KIND of an uncorrectable answer (R386). -/
def State.replyKind (s : State) (r : Reply) : Nat :=
  match s.cached (BitVec.ofNat 64 r.addr) with
  | some p => memKind (p.pa (va56 (BitVec.ofNat 64 r.addr)))
  | none => 3

/-- LONG_LATENCY_RETURN (R50, R255, R385): the oldest answer lands; the die joins its clock. An uncorrectable one leaves
its destination empty and is recorded. -/
def execLongLatencyReturn (s : State) : Out :=
  let s0 := if s.sys.replies.any Reply.landable then s else s.fabricAnswer fun _ => true
  match s0.sys.replies.find? Reply.landable with
  | none => .next s0
  | some r =>
    let s1 : State := { s0 with sys := { s0.sys with replies := takeReply (fun x => x.landable) s0.sys.replies } }
    let s2 := s1.joinVc s1.die r.clock
    if r.bad then
      .next (match r.dest with
        | .table off => s2.tablePart off [] [BitVec.ofNat 64 r.addr]
        | .far => s2.farAnswer r.id [] true
        | _ => s2.deferMachine (BitVec.ofNat 64 r.addr) (s2.replyKind r) 0 r.dest.code)
    else .next (s2.landReply r)

/-- A part of a row that has arrived put before or after the part already there, by their offsets in the row. -/
def OqRow.join (x d : OqRow) : OqRow :=
  let first := decide (d.off ≤ x.off)
  { x with
    parts := x.parts - 1, off := min x.off d.off
    bytes := if first then d.bytes ++ x.bytes else x.bytes ++ d.bytes
    codes := if first then d.codes ++ x.codes else x.codes ++ d.codes
    scales := if first then d.scales ++ x.scales else x.scales ++ d.scales }

/-- What the capture record of a narrow row holds: its data, then its scale bytes (R112, R376). -/
def OqRow.image (x : OqRow) (geo : Nat) : List Byte :=
  x.bytes ++ if isNarrow x.fmt then
    (List.range (x.scales.length / blockElems geo)).map fun j => BitVec.ofNat 8 (x.scales[j * blockElems geo]?.getD 0)
  else []

/-- OPERAND_QUEUE_ROW_LANDS (R112): the oldest part of a row answered takes its place; the row has landed with its last
part. -/
def execOperandQueueRowLands (s : State) : Out :=
  let s0 := if s.sys.replies.any Reply.isRow then s else s.fabricAnswer fun _ => true
  match s0.sys.replies.find? Reply.isRow with
  | none => .next s0
  | some r =>
    let s1 : State := { s0 with sys := { s0.sys with replies := takeReply Reply.isRow s0.sys.replies } }
    let s2 := s1.joinVc s1.die r.clock
    match r.dest with
    | .row q id _ =>
      if r.bad then .next (s2.deferMachine (BitVec.ofNat 64 r.addr) (s2.replyKind r) 0 0x7FFFF)
      else
        let upd := fun (x : OqRow) => if x.id = id then (r.row.map x.join).getD { x with parts := x.parts - 1 } else x
        let rows := (s2.cell.oq[q]?.getD []).map upd
        let t := s2.setCell { s2.cell with oq := s2.cell.oq.setIfInBounds q rows }
        match rows.find? fun x => x.id == id && x.landed with
        | some x => .next ((t.count 13 1).capture t.self 0x7FFFF (x.image x.geo))
        | none => .next t
    | _ => .next s2

/-- WRITE_ACKNOWLEDGED (R359): an acknowledgement from a home of this module, or from another module, returns. -/
def execWriteAcknowledged (s : State) : Out :=
  match s.sys.acks with
  | _ :: as => .next { s with sys := { s.sys with acks := as } }
  | [] =>
    let t := s.sift
    match t.fab.out.find? fun q => !q.op.reads && t.inp.fabricIn.any fun r => r.id == q.id with
    | none => .next t
    | some q => .next { (t.outDone q.id).countReply q with
        inp := { t.inp with fabricIn := takeReply (fun x => x.id == q.id) t.inp.fabricIn } }

/-! ### Renormalisation (R258, R395) -/

/-- A component has reached 2^39. -/
def State.clocksHigh (s : State) : Bool := (s.sys.vc ++ s.sys.front ++ s.sys.maxv).any fun e => decide (2 ^ 39 ≤ e.2.toNat)

/-- Everything issued has been applied or answered; only parked pops remain. -/
def State.quiescent (s : State) : Bool := s.sys.reqs.isEmpty && s.sys.held.isEmpty

/-- CLOCK_RENORMALISATION (R395): the hold begins once a component is high; at a quiescent point every clock, frontier
and maximum, and the clock of each parked pop, becomes zero, and the hold ends. So do the stamps that answers, postings and
parked contributions hold, which no later clock could meet (DEDUCED, log 3). -/
def execClockRenormalisation (s : State) : Out :=
  if s.sys.hold && s.quiescent then
    .next { s with
      sys := { s.sys with
        vc := [], front := [], maxv := [], hold := false,
        parked := s.sys.parked.map fun r => { r with stamp := List.replicate 28 0 },
        replies := s.sys.replies.map fun r => { r with clock := [] }
        walks := s.sys.walks.map fun w => (w.1, w.2.1, [])
        missed := s.sys.missed.map fun w => (w.1, w.2.1, w.2.2.1, [])
        readClks := [] }
      core := { s.core with readClk := [] }
      coll := { s.coll with
        postings := s.coll.postings.map fun p => { p with clock := [] }
        parked := s.coll.parked.map fun c => { c with clock := [] } } }
  else if s.clocksHigh then .next { s with sys := { s.sys with hold := true } }
  else .next s

end Sys2Proof.Machine
end

