-- ==== Sys2Proof/Machine/Vat.lean ====
section
/-!
DEFINITION. Vats: pairing points (R263-R266), the operation at the home (R116-R118), replies and the counters of R267.
-/

namespace Sys2Proof.Machine

/-! ### The path of a vat operation (R263, R266) -/

/-- Source device and cell of an access (R264). -/
def State.sourceOf (s : State) (o : Origin) : Nat × Nat :=
  match o with
  | .own => (s.devid, s.gcell)
  | .cell c => (s.devid, c)
  | .hub d => (s.devid, d)
  | .module d c => (d, c)

/-- The path chosen for a request to another module: its first port, nine to a hub (R353, R354). -/
def State.portOf (s : State) (id : Nat) : Option Nat := (s.fab.routed.find? fun x => x.1 == id).map Prod.snd

/-- The pairing points on the way, in order (R263, R271). A point is the switch of a die, 0-27, or the module's router behind
a hub, 28 + hub index; those of other modules lie outside the model (log 1). An operation that leaves the module passes its
hub's switch and router once its path is chosen; one that has entered comes through them. -/
def State.vatPath (s : State) (r : Req) : List Nat :=
  match r.origin, r.dev with
  | .module _ _, _ => [28 + (r.die - 24), r.die, r.home].eraseDups
  | _, some _ => r.die :: (match s.portOf r.id with
    | some p => [24 + p / 9, 28 + p / 9]
    | none => [])
  | _, none => [r.die, r.home].eraseDups

/-- The next pairing point of an operation with PAIR = 1. -/
def State.nextPoint (s : State) (r : Req) : Option Nat :=
  match r.op with
  | .vat _ true _ => (s.vatPath r).find? fun p => !s.sys.passed.contains (r.id, p)
  | _ => none

/-- PAIRCTL.WIN of a point in fabric cycles: 16 until the stage manager writes it (R263). -/
def State.window (s : State) (p : Nat) : Nat := if s.sys.pairset.contains p then (Sparse.get s.sys.pairctl p).toNat else 16

/-- The vat operations under way: local ones, and those for other modules. -/
def State.vatReqs (s : State) : List Req := (s.sys.reqs ++ s.fab.out).filter fun r => r.op.isVat && s.stamped r


/-- The flits of a request whose path is chosen and that has passed every pairing point join the queue of its port (R354,
R356). -/
def State.queueFlits (s : State) (r : Req) : State :=
  match s.portOf r.id with
  | some i =>
    if (s.nextPoint r).isSome then s
    else s.enqueueFlits i { n := r.op.flits, cls := r.cls, dev := r.dev.getD 0, id := some r.id, own := r.mine }
  | none => s

/-- The operation leaves the list it is in. -/
def State.takeVat (s : State) (id : Nat) : State :=
  { s.dropReq id with fab := { s.fab with out := s.fab.out.filter fun r => r.id != id } }

/-- The operation goes on from a pairing point (R266). -/
def State.passOn (s : State) (r : Req) (p : Nat) : State :=
  let sys1 := { s.sys with passed := (r.id, p) :: s.sys.passed }
  if r.dev.isSome then State.queueFlits { s with sys := sys1, fab := { s.fab with out := s.fab.out ++ [r] } } r
  else { s with sys := { sys1 with reqs := s.sys.reqs ++ [r] } }

/-- A vat operation's answer on its way to its cell: `how` is 0 at the home, 1 by a pair, 2 a VAT trap, 3 bad data. -/
def State.vatAnswer (s : State) (r : Req) (val : Word) (status how : Nat) (clock : List Nat) : State :=
  let s1 : State := { s with
    sys := { s.sys with passed := s.sys.passed.filter fun x => x.1 != r.id }
    fab := { s.fab with routed := s.fab.routed.filter fun x => x.1 != r.id } }
  if r.origin ≠ .own then s1.answerOther r val clock else
  let a : Reply :=
    { id := r.id, dest := .vat, size := 8, val := val, lanes := [BitVec.ofNat 32 status, BitVec.ofNat 32 how], clock := clock,
      bad := false, addr := r.va.toNat, queue := 15, seq := 0, acq := false, row := none }
  { s1 with sys := { s1.sys with replies := s1.sys.replies ++ [a] } }

/-! ### Pairing (R264, R265) -/

def VatOp.isPush : VatOp → Bool
  | .push => true
  | _ => false

/-- Two operations match (R264). -/
def Req.matches (a b : Req) : Bool :=
  match a.op, b.op with
  | .vat x _ _, .vat y _ _ => x.isPush != y.isPush && a.dev == b.dev && a.pa == b.pa && a.key == b.key
  | _, _ => false

/-- The partner of an arriving operation: the earliest arrived, then the lowest source (R264). -/
def State.partner (s : State) (r : Req) (p : Nat) : Option Held :=
  let before := fun (a b : Held) =>
    decide (a.cycle < b.cycle) || (a.cycle == b.cycle &&
      (decide (a.sdev < b.sdev) || (a.sdev == b.sdev && decide (a.scell < b.scell))))
  (s.sys.held.filter fun h => h.point == p && h.req.matches r).foldl (fun (b : Option Held) h => match b with
    | none => some h
    | some x => if before h x then some h else b) none

/-- Value of a push. -/
def Req.pushed (r : Req) : Word :=
  match r.op with
  | .vat _ _ v => v
  | _ => 0

def Req.isPush (r : Req) : Bool :=
  match r.op with
  | .vat .push _ _ => true
  | _ => false

/-- A pair forms: both are answered and go no further; the pop's reply carries the push's stamp, unless they lie in
different modules (R265). -/
def State.pair (s : State) (a b : Req) : State :=
  let push := if a.isPush then a else b
  let pop := if a.isPush then b else a
  let far := match push.origin, pop.origin with
    | .module _ _, _ => true
    | _, .module _ _ => true
    | _, _ => false
  let own := bit (a.origin == .own) + bit (b.origin == .own)
  ((s.vatAnswer push 0 0 1 []).vatAnswer pop push.pushed 0 1 (if far then [] else push.stamp)).count 26 own

/-- An operation passes on unheld because the buffer is full; it is counted when its reply lands (R267). -/
def State.passFull (s : State) (r : Req) (p : Nat) : State :=
  let t := s.passOn r p
  if r.origin = .own then { t with sys := { t.sys with fullPass := t.sys.fullPass ++ [r.id] } } else t

/-- An operation is held at a point for its window (R264, R266). -/
def State.holdAt (s : State) (r : Req) (p : Nat) : State :=
  let src := s.sourceOf r.origin
  { s with sys := { s.sys with held := s.sys.held ++
    [{ point := p, req := r, cycle := s.clk / 2, until' := s.clk + 2 * s.window p, sdev := src.1, scell := src.2 }] } }

/-- An operation that arrives at a point whose window is open and that matches none held there (R264): it matches an opposite
one that arrives in the same cycle, is held where there is room, and passes on otherwise. -/
def State.unmatched (s : State) (r : Req) (p : Nat) : State :=
  if (s.sys.held.filter fun h => h.point == p).length < 64 then s.holdAt r p
  else match s.vatReqs.find? fun q => s.nextPoint q == some p && q.matches r with
    | some q => (s.takeVat q.id).pair r q
    | none => s.passFull r p

/-- VAT_ARRIVAL_AT_PAIRING_POINT (R264): the oldest operation before a pairing point is paired, held, or passed on; at a
point with WIN = 0 there is no pairing (R263). -/
def execVatArrivalAtPairingPoint (s : State) : Out :=
  match s.vatReqs.find? fun r => (s.nextPoint r).isSome with
  | none => .next s
  | some r =>
    match s.nextPoint r with
    | none => .next s
    | some p =>
      let s1 := s.takeVat r.id
      if s1.window p = 0 then .next (s1.passOn r p)
      else match s1.partner r p with
        | some h =>
          .next (State.pair { s1 with sys := { s1.sys with held := s1.sys.held.filter fun x => x.req.id != h.req.id } } r h.req)
        | none => .next (s1.unmatched r p)

/-- PAIRING_WINDOW_EXPIRY (R266): the first held operation whose window is over goes on. -/
def execPairingWindowExpiry (s : State) : Out :=
  match s.sys.held.find? fun h => decide (h.until' ≤ s.clk) with
  | none => .next s
  | some h =>
    let s1 : State := { s with sys := { s.sys with held := s.sys.held.filter fun x => x.req.id != h.req.id } }
    .next (s1.passOn h.req h.point)

/-! ### At the home (R116, R117) -/

/-- A vat's header. -/
structure VatHead where
  kind  : Nat
  cap   : Nat
  count : Nat
  pos   : Nat
  ok    : Bool
  deriving DecidableEq, Repr

/-- The header at an address, and whether it is well-formed (R116). -/
def State.vatHead (s : State) (pa : Nat) : VatHead :=
  let w := fun (i n : Nat) => Memory.readLE s.mem (pa + i) n
  { kind := w 0 1, cap := w 8 8, count := w 16 8, pos := w 24 8,
    ok := decide (w 0 1 ≤ 2) && decide (w 1 7 = 0) && decide (1 ≤ w 8 8) && decide (w 8 8 ≤ 2 ^ 32) &&
      decide (w 16 8 ≤ w 8 8) && (if w 0 1 = 2 then decide (w 24 8 < w 8 8) else decide (w 24 8 = 0)) &&
      decide (w 32 32 = 0) }

def State.writeWord (s : State) (pa v : Nat) : State := { s with mem := Memory.writeLE s.mem pa 8 v }

/-- An element taken, from a vat that holds one. -/
def State.vatPop (s : State) (pa : Nat) : State × Word :=
  let h := s.vatHead pa
  let slot := fun (i : Nat) => BitVec.ofNat 64 (Memory.readLE s.mem (pa + 64 + 8 * i) 8)
  if h.kind = 2 then
    ((s.writeWord (pa + 24) ((h.pos + 1) % h.cap)).writeWord (pa + 16) (h.count - 1), slot h.pos)
  else (s.writeWord (pa + 16) (h.count - 1), slot (h.count - 1))

/-- An element put, in a vat that has room; its slot, which lies behind the header in physical memory also where the vat runs
past its page (DESIGN CHOICE, log 23). -/
def State.vatPush (s : State) (pa : Nat) (v : Word) : State × Nat :=
  let h := s.vatHead pa
  let i := if h.kind = 2 then (h.pos + h.count) % h.cap else h.count
  ((s.writeWord (pa + 64 + 8 * i) v.toNat).writeWord (pa + 16) (h.count + 1), pa + 64 + 8 * i)

/-- The oldest parked pop of a vat takes an element directly after a push (R117, R266). -/
def State.serveParked (s : State) (pa home : Nat) : State :=
  match s.sys.parked.find? fun r => r.pa == pa with
  | none => s
  | some r =>
    let x := s.vatPop pa
    let s1 : State := { x.1 with
      sys := { x.1.sys with parked := x.1.sys.parked.filter fun q => q.id != r.id }
      core := { x.1.core with vat := if r.origin = .own then .sent r.id else x.1.core.vat } }
    (s1.touched s.mem r [(pa + 16, 16)]).vatAnswer r x.2 0 0 (s1.maxOf home)

/-- The operation performed (R117). -/
def State.vatHome (s : State) (r : Req) : State :=
  match r.op with
  | .vat op paired v =>
    let h := s.vatHead r.pa
    let x := s.readLines [(r.pa, 64)]
    let s0 := x.1.countHome r 8
    if x.2 then s0.vatAnswer r 0 0 3 []
    else if !h.ok || (paired && h.kind == 2) then s0.vatAnswer r 0 0 2 []
    else match op with
      | .push =>
        if h.count = h.cap then (s0.raiseMax r.home r.stamp).vatAnswer r 0 1 0 (maxClock (s.maxOf r.home) r.stamp)
        else
          let y := (s0.raiseMax r.home r.stamp).vatPush r.pa v
          let t := (y.1.touched s.mem r [(r.pa + 16, 8), (y.2, 8)]).vatAnswer r 0 0 0 (y.1.maxOf r.home)
          t.serveParked r.pa r.home
      | _ =>
        if h.count = 0 then
          if op = .pop then
            let t : State := { s0 with sys := { s0.sys with parked := s0.sys.parked ++ [r] } }
            if r.origin = .own then t.setCore { t.core with vat := .parked r.id } else t
          else (s0.raiseMax r.home r.stamp).vatAnswer r 0 1 0 (maxClock (s.maxOf r.home) r.stamp)
        else
          let y := (s0.raiseMax r.home r.stamp).vatPop r.pa
          (y.1.touched s.mem r [(r.pa + 16, 16)]).vatAnswer r y.2 0 0 (y.1.maxOf r.home)
  | _ => s

/-- VAT_HOME_OPERATION (R117, R266): the first vat operation past every pairing point whose home holds its clock. -/
def execVatHomeOperation (s : State) : Out :=
  match s.firstDue fun r => r.op.isVat && (s.nextPoint r).isNone with
  | none => .next s
  | some r =>
    let s1 := s.dropReq r.id
    .next (if s.presentPa r.pa then s1.vatHome r else s1.refuse r 7 s.devid)

/-! ### Replies (R118, R267) -/

def Reply.isVat (r : Reply) : Bool :=
  match r.dest with
  | .vat => true
  | _ => false

/-- The head unit's operation is answered: it is counted by how, and by the full buffers it passed; one that traps is not
completed (R267, R272). -/
def State.takeVatReply (s : State) (r : Reply) : State :=
  let how := (laneOf r.lanes 1).toNat
  let s0 := (s.joinVc s.die r.clock).raise 0x162 (s.sys.fullPass.filter (· == r.id)).length
  let s1 : State := if 2 ≤ how then s0 else s0.raise (if how = 1 then 0x160 else 0x161) 1
  let w : VatWait :=
    if how = 2 then .bad Code.vat else if how = 3 then .bad Code.machine
    else .done { val := r.val, status := (laneOf r.lanes 0).zeroExtend 64 }
  { s1 with
    core := { s1.core with vat := w }
    sys := { s1.sys with fullPass := s1.sys.fullPass.filter (· != r.id) } }

/-- VAT_REPLY (R118, R267): the reply returns. A reply that only says that a pop has parked at the home of another module
is coded 4. -/
def execVatReply (s : State) : Out :=
  match s.sys.replies.find? Reply.isVat with
  | some r =>
    .next (State.takeVatReply { s with sys := { s.sys with replies := takeReply Reply.isVat s.sys.replies } } r)
  | none =>
    let t := s.sift
    match t.inp.fabricIn.find? fun r => t.fab.out.any fun q => q.id == r.id && q.op.isVat && (t.nextPoint q).isNone with
    | none => .next t
    | some r =>
      let s1 : State := { t with inp := { t.inp with fabricIn := takeReply (fun x => x.id == r.id) t.inp.fabricIn } }
      match t.fab.out.find? fun q => q.id == r.id && q.origin == .own with
      | none => .next (if laneOf r.lanes 1 = 4 then s1 else s1.outDone r.id)
      | some q =>
        if laneOf r.lanes 1 = 4 then .next (s1.setCore { s1.core with vat := .parked r.id })
        else .next (((s1.outDone r.id).countReply q).takeVatReply { r with clock := [] })

/-- A parked pop withdrawn at its home before an interrupt or a stop takes the boundary; it takes no value (R118). -/
def State.withdrawPop (s : State) : State :=
  match s.core.vat with
  | .parked id =>
    let s1 := s.takeVat id
    let s2 : State := { s1 with sys := { s1.sys with
      parked := s1.sys.parked.filter fun r => r.id != id, fullPass := s1.sys.fullPass.filter (· != id) } }
    s2.setCore { s2.core with vat := .none }
  | _ => s

/-- The vat operation, window access or table load of the head unit lets a boundary be taken (R118, R129, R266, R321). -/
def State.boundaryOpen (s : State) : Bool :=
  (match s.core.vat with
    | .sent _ => false
    | .done _ => false
    | .bad _ => false
    | _ => true) && s.core.win == .none && s.core.latWait.isNone

end Sys2Proof.Machine
end

