-- ==== Sys2Proof/Machine/Debug.lean ====
section
/-!
DEFINITION. Marker and sample records (R101, R366), breakpoints (R368), watch reports entering their FIFO (R371), stopping
a cell at a boundary for a halt or a pre-emption (R334, R335, R372), stops (R374) and resuming (R375).
-/

namespace Sys2Proof.Machine

/-! ### Marks and samples (R101, R366) -/

/-- TMARK (R101): without tracing it has no effect. -/
def execTmark (a : BitVec 5) (x : Bool) (s : State) : Out :=
  settle (.tmark a x) s (scalarChecks s [(a.toNat, x)] []) (s.emit 1 s.self (s.g a.toNat) s.acct.elapsed)

/-- Started entries and head entries of the queues of a slot, as records name them (R364). -/
def State.slotNames (s : State) (slot : Nat) : List (Nat × Who) :=
  (s.running.filter fun e => e.slot == slot).map (fun e => (e.enq, e.who)) ++
  ((List.range 13).filter fun q => slotOf q == slot).filterMap fun q =>
    ((s.queue q).words.find? fun w => isTerminal w.w).map fun w =>
      (w.enq, { queue := q, seq := Queue.headSeq (s.queue q), pc := w.pc })

/-- Who is named by a sample of an engine slot: the entry charged, or the control core. -/
def State.sampleWho (s : State) (slot : Nat) : Who :=
  match s.engPick slot with
  | some (n, _, pc) => (((s.slotNames slot).find? fun x => x.1 == n && x.2.pc == pc).map Prod.snd).getD { s.self with pc := pc }
  | none => s.self

/-- SAMPLE records of S and V (R195, R366). -/
def State.sampleUnit (s : State) : State :=
  match s.unitCharge with
  | none => s
  | some (v, c, pc) =>
    let other := if c.both then c else .notDemanded
    let who : Who := { s.self with pc := pc }
    let one := fun (t : State) (slot : Nat) (x : Cause) =>
      t.emit 3 who (BitVec.ofNat 64 (slot + 8 * x.code)) s.acct.elapsed
    one (one s 0 (if v then other else c)) 1 (if v then c else other)

/-- SAMPLE (R366): one record for each of the five slots. -/
def execSample (s : State) : Out :=
  .next ([2, 3, 4].foldl (fun (t : State) slot => match s.engineCharge slot with
    | some (c, pc) => t.emit 3 { s.sampleWho slot with pc := pc } (BitVec.ofNat 64 (slot + 8 * c.code)) s.acct.elapsed
    | none => t) s.sampleUnit)

/-- A sample is due in this clk: every SMPPER clk. -/
def State.sampleDue (s : State) : Bool :=
  let p := Word.bits (s.readCsr 0x0C5) 0 32
  s.resident && s.trace 0 && p ≠ 0 && decide ((s.acct.elapsed.toNat + 1) % p = 0)

/-! ### Breakpoints (R368) -/

/-- An armed breakpoint matches the PC of the unit. -/
def State.breaks? (s : State) (pc : Word) : Bool :=
  (List.range 4).any fun i =>
    let b := s.readCsr (0x0C8 + i)
    b.getLsbD 0 && decide (Word.bits b 2 54 = Word.bits pc 2 54)

/-! ### Watch reports (R371) -/

/-- Reports may enter: the context is on its cell and not halted. -/
def State.takesReports (s : State) : Bool := s.resident && s.core.status != .halted

/-- WATCH_REPORT_ENTRY (R371): the oldest report enters the FIFO of eight or is dropped and counted; WATCHASYNC is
pended, and with tracing a WATCH record is written. -/
def execWatchReportEntry (s : State) : Out :=
  match s.dbg.coming with
  | [] => .next s
  | r :: rs =>
    if !s.takesReports then .next s
    else
      let s1 : State := { s with dbg := { s.dbg with coming := rs } }
      if 8 ≤ s.dbg.war.length then
        .next { s1 with dbg := { s1.dbg with warLost := min 0xFFFF (s.dbg.warLost + 1) } }
      else
        let skid := min 255 (s.clk - r.at')
        let r1 : Report := { r with at' := skid }
        let s2 := (State.pend { s1 with dbg := { s1.dbg with war := s.dbg.war ++ [r1] } } 3)
        .next (s2.emit 4 s2.self r.addr (r1.info skid))

/-! ### Stopping at a boundary (R200, R334, R335, R372) -/

/-- Latches kept in the pre-emption latch record: `visible` holds the count (R334). -/
def keptLatches (ls : List Latch) (b : Nat) : List Latch :=
  (savedLatches ls b).map fun l => { l with visible := l.visible - b, arrive := 0, port := none }

/-- A control entry that waits is unstarted: its wait begins anew when its word issues again (R335). -/
def Entry.unstart (e : Entry) : Entry := if e.waits then { e with waited := 0 } else e

/-- The cell stops before this clk: waiting units are abandoned, latches are kept, a parked pop is withdrawn, and no entry
starts from here on; chained entries handed over before run on, control entries that wait are unstarted. A waiting WFI is
passed, as R99 has it of a context that is resumed; R334 lists WFI among the units that are issued again (DEDUCED, log 23). -/
def State.stopCell (s : State) (st : Status) : State :=
  let s1 := s.withdrawPop.squashLate
  let ls := s1.core.pending s.clk
  let pc := if s.core.wfi then nextPc .wfi s.core.pc else s.core.pc
  { s1 with
    cell := { s1.cell with
      chained := s1.cell.chained.map fun e => { e with trig := true }
      queues := s1.cell.queues.map fun v => { v with run := v.run.map Entry.unstart } }
    core := { s1.core with
      pc := pc, status := st, preLatch := keptLatches ls s.clk,
      inflight := ls.filter (fun l => decide (l.visible ≤ s.clk)), reinject := [], fetchClk := 0, delayClk := 0,
      wfi := false, fenceId := none, readClk := [], far := [], walkFault := [], waited := 0 } }

/-- A stop request may be taken: the cell holds a context that is not already stopped (R92, R334, R372), and its vat
operation allows a boundary. -/
def State.mayStop (s : State) : Bool :=
  (s.core.status == .running || s.core.status == .ended || s.core.status == .doubled) && s.boundaryOpen

/-- DEBUGHALT (R372). -/
def execDebughalt (s : State) : Out :=
  if s.inp.halt && s.mayStop then
    let t := s.stopCell .halted
    .next { t with inp := { t.inp with halt := false }, mgr := { t.mgr with stop := [] } }
  else .next s

/-- A started entry of the queue still moves: an entry that is not a waiting control word, a handed-over chained entry, a
firing in progress (R335). -/
def State.queueMoves (s : State) (q : Nat) : Bool :=
  let v := s.queue q
  v.fault.isNone && !v.stopped &&
    (v.run.any (fun e => !e.waits) ||
     s.cell.chained.any (fun e => e.queue == q && e.trig) || v.armed.any fun e => e.fin.isNone)

/-- Queues of a stopped cell whose started entries have completed are stopped (R158, R335). -/
def State.stopQueues (s : State) : State :=
  let stop := fun (q : Fin 13) =>
    if s.queueMoves q.val then s.queue q.val
    else { s.queue q.val with stopped := (s.queue q.val).fault.isNone }
  if s.core.status == .halted || s.core.status == .preempted then s.setCell { s.cell with queues := Vector.ofFn stop }
  else s

/-- Answers to reads of an engine entry that no longer runs are dropped (R251, R337). -/
def State.dropDead (s : State) : State :=
  let lives := fun (r : Reply) => match r.dest with
    | .entry _ _ => s.mayAdvance r.queue && ((s.queue r.queue).run ++ (s.queue r.queue).armed).any fun e => e.seq == r.seq
    | _ => true
  if s.sys.replies.all lives then s else { s with sys := { s.sys with replies := s.sys.replies.filter lives } }

/-- Nothing of the context is on its way: started entries have completed or are stopped, loads have landed, writes have
been performed and acknowledged (R337, R374). -/
def State.allSettled (s : State) : Bool :=
  (List.range 13).all (fun q => !s.queueMoves q) && s.core.inflight.isEmpty && s.core.posted.isEmpty && s.sys.replies.isEmpty &&
  s.sys.acks.isEmpty && s.ownReqs.isEmpty && s.sys.held.all fun h => decide (h.req.origin ≠ .own)

/-! ### Stops (R374) -/

/-- Sequence number of the oldest uncompleted entry of a queue. -/
def State.oldestSeq (s : State) (q : Nat) : Nat :=
  match (s.uncompleted q).head? with
  | some e => e.seq
  | none => Queue.headSeq (s.queue q)

/-- The 47 words of a stop record. -/
def State.stopRecord (s : State) : List Word :=
  BitVec.ofNat 64 (Word.bits s.core.pc 0 56) ::
    ((List.range 13).map (fun q => BitVec.ofNat 64 (s.oldestSeq q)) ++ packLanes s.core.q.toList ++ [s.acct.elapsed])

/-- STOP (R374): a halted cell whose entries and writes are done yields its record, once. -/
def execStop (s : State) : Out :=
  if s.core.status == .halted && s.mgr.stop.isEmpty && s.allSettled then
    .next { s with mgr := { s.mgr with stop := s.stopRecord } }
  else .next s

/-! ### Resuming (R338, R375) -/

/-- The status of a cell that goes on. -/
def State.goesOn (s : State) : Status := if s.isEnded then .ended else if s.isDoubled then .doubled else .running

/-- The cell goes on at this clk: stopped queues run, stopped entries restart from their progress, and the latches kept
are re-injected (R160, R338). `skip`: the unit it goes on at is not matched by a breakpoint (R368). -/
def State.resumeCell (s : State) (skip : Bool) : State :=
  { s with
    cell := { s.cell with queues := s.cell.queues.map fun v =>
      { v with stopped := false, run := v.run.map Entry.restart, armed := v.armed.map Entry.restart, waited := 0 } }
    core := { s.core with
      status := s.goesOn, reinject := s.core.preLatch, reinjectAt := s.clk, preLatch := [], busy := 0, fetchClk := 2, delayClk := 0,
      skipBkpt := skip || s.core.skipBkpt, waited := 0 } }

end Sys2Proof.Machine
end

