-- ==== Sys2Proof/Machine/Entry.lean ====
section
/-!
DEFINITION. Results landing (R192, R193), fetching a unit (R65, R66, R89, R191), entering a trap recognised while fetching
and an interrupt or asynchronous trap at a boundary (R200-R202, R208), the timer (R97) and walks of page tables (R324).
-/

namespace Sys2Proof.Machine

/-! ### Results landing -/

/-- The data of a store load arrive after its nominal latency (R193). -/
def Latch.late (l : Latch) : Bool := decide (l.visible ≤ l.arrive)

/-- A latch removed from those in flight once landed. -/
def State.landWhere (s : State) (p : Latch → Bool) : State :=
  let t := s.landAll (s.core.inflight.filter p)
  t.setCore { t.core with inflight := t.core.inflight.filter fun l => !p l }

/-- While a trap waits to be entered, only results that belong before its resume point are written (R200). -/
def State.lands (s : State) (l : Latch) : Bool :=
  match s.core.entering with
  | some x => decide (l.visible ≤ x.b)
  | none => true

/-- The result is written at the end of this clk with its nominal or exposed latency. -/
def State.landsOnTime (s : State) (l : Latch) : Bool := s.lands l && !l.late && decide (l.visible ≤ s.clk + 1)

/-- RESULT_LANDS (R192, R203): results due by the next clk are written, in issue order (R135). -/
def execResultLands (s : State) : Out := .next (s.landWhere s.landsOnTime)

/-- The late data of the load arrive in this clk. -/
def State.landsLate (s : State) (l : Latch) : Bool :=
  s.lands l && l.late && l.port.isNone && decide (l.arrive ≤ s.clk)

/-- What is left of a target once a younger result has taken the words that both write. -/
def Target.minus : Target → Target → Target
  | .vec o ls d, .vec o' ls' _ => if o = o' then .vec o (ls &&& ~~~ ls') d else .vec o ls d
  | .reg r v, .reg r' _ => if r = r' then .vec 0 0 [] else .reg r v
  | t, _ => t

/-- Of results that land in one clk the one of the later-issued unit stands (R135): on-time results lose the words that
younger late loads write in the same clk. The list is in issue order. -/
def State.yieldToLate (s : State) : List Latch → List Latch
  | [] => []
  | l :: ls =>
    (if s.landsOnTime l then
      { l with target := (ls.filter s.landsLate).foldl (fun t y => t.minus y.target) l.target }
     else l) :: s.yieldToLate ls

/-- STORE_LOAD_DATA_ARRIVAL (R193): late data that arrive in this clk are written; data on time are held for
RESULT_LANDS, which follows and writes nothing over a younger load's data. -/
def execStoreLoadDataArrival (s : State) : Out :=
  let t := s.setCore { s.core with inflight := s.yieldToLate s.core.inflight }
  .next (t.landWhere t.landsLate)

/-! ### Fetch (R57, R65, R66, R311, R322, R326) -/

/-- A word of code: read, not yet translated, still to come from another module (R318), or a fetch fault. -/
inductive Fetch where
  | word (w : BitVec 32)
  | miss (va : Word)
  | away (va : Word) (p : Page)
  | fault (t : TrapInfo)
  deriving DecidableEq, Repr

def fetchTrap (code : Nat) (va : Word) : Fetch := .fault { code := code, addr := va }

/-- The instruction word at an address. -/
def State.fetchWord (s : State) (va : Word) : Fetch :=
  if va.toNat % 4 ≠ 0 then fetchTrap Code.align va
  else if inWindow va then fetchTrap Code.protect va
  else match s.xlate va .fetch with
    | .fault c => .fault { code := c, addr := va, mc := if c = Code.machine then 6 + 64 * 0x7FFFF else 0 }
    | .miss => .miss va
    | .hit p ok =>
      let pa := p.pa (va56 va)
      if !ok then fetchTrap Code.protect va
      else if (s.remote (some p)).isSome then
        match (s.farRead va p 4).2 with
        | .ok bs => .word (BitVec.ofNat 32 (numOfBytes bs))
        | .wait _ => .away va p
        | .fault c a => .fault { code := c, addr := a, mc := BitVec.ofNat 64 (memKind pa + 64 * 0x7FFFF) }
      else if s.badLine pa then .fault { code := Code.machine, addr := va, mc := BitVec.ofNat 64 (memKind pa + 64 * 0x7FFFF) }
      else .word (BitVec.ofNat 32 (Memory.readLE s.mem pa 4))

/-- The unit at an address, with how many words were fetched. -/
inductive FetchedUnit where
  | ok (i : Instr) (words : Nat)
  | illegal (words : Nat)
  | miss (va : Word)
  | away (va : Word) (p : Page)
  | fault (t : TrapInfo) (words : Nat)
  deriving DecidableEq, Repr

/-- Words fetched one after another until the unit is complete, malformed or cut short by a fault; `ws` holds the words
before `va`. -/
def State.fetchFrom (s : State) (ws : List (BitVec 32)) (va : Word) : Nat → FetchedUnit
  | 0 => .illegal ws.length
  | fuel + 1 =>
    match s.fetchWord va with
    | .miss a => .miss a
    | .away a p => .away a p
    | .fault t => .fault t (ws.length + 1)
    | .word w =>
      let ws1 := ws ++ [w]
      match decode ws1 with
      | .unit i n => .ok i n
      | .illegal => .illegal ws1.length
      | .more => State.fetchFrom s ws1 (va + 4) fuel

/-- The unit at the pc: at most two prefixes and the instruction. -/
def State.fetchUnit (s : State) : FetchedUnit := s.fetchFrom [] s.core.pc 3

/-- Words of the unit fetched so far, beyond its first (R191). -/
def FetchedUnit.extra : FetchedUnit → Nat
  | .ok _ n => n - 1
  | .illegal n => n - 1
  | .fault _ n => n - 1
  | .miss _ => 0
  | .away _ _ => 0

/-! ### Entering a trap recognised while fetching (R89, R200, R201) -/

/-- An uncorrectable line of code is counted at its home (R385, R390). -/
def State.countFetch (s : State) (t : TrapInfo) : State :=
  if t.code ≠ Code.machine ∨ Word.bits t.mc 0 3 = 6 then s
  else match s.cached t.addr with
    | some p => s.countErrors (homeOf (p.pa (va56 t.addr))) 0 1
    | none => s

/-- TRAP_ENTRY: a trap whose entry has waited for store-load data is entered, or one recognised at this boundary; at system
level with the frame held that one is a double trap (R202). -/
def execTrapEntry (s : State) : Out :=
  match s.core.entering, s.core.trapPend with
  | some x, _ => .next (s.enterNow x.info x.pc x.b 1)
  | none, none => .next s
  | none, some t =>
    let s1 := s.countFetch t
    if s.system && s.held then .next ((s1.doubleTrap t).setCore { (s1.doubleTrap t).core with trapPend := none })
    else .next (s1.enterTrap t s.core.pc s.clk (s.clk - 1) 1)

/-! ### Interrupts and asynchronous traps (R96, R157, R200, R329, R386) -/

/-- An asynchronous trap or interrupt that is permitted at a boundary, in the order of R200. -/
inductive Async where
  | machine (m : MachInfo)
  | fabric (r : RefusalInfo)
  | engine (q : Nat)
  | irq (i : Nat)
  deriving DecidableEq, Repr

/-- The first enabled and pending interrupt: WATCHASYNC, TICK, TIMER, CUE (R200). -/
def State.irqReady (s : State) : Option Nat :=
  if (s.readCsr 0x100).getLsbD 0 then [3, 2, 0, 1].find? fun i => s.enabledPending.testBit i else none

def State.asyncReady (s : State) : Option Async :=
  if s.held then none
  else match s.core.machines with
    | m :: _ => some (.machine m)
    | [] => match s.core.refusals with
      | r :: _ => some (.fabric r)
      | [] => match s.core.engPend with
        | q :: _ => some (.engine q)
        | [] => s.irqReady.map .irq

/-- What the frame of an asynchronous trap or interrupt names (R206). -/
def State.asyncInfo (s : State) : Async → TrapInfo
  | .machine m => { code := Code.machine, addr := m.addr, mc := m.info }
  | .fabric _ => { code := Code.fabric }
  | .irq i => { code := 0x20 + i }
  | .engine q =>
    match (s.queue q).fault with
    | none => { code := Code.engine }
    | some f =>
      { code := Code.engine, sub := f.cause, addr := f.addr,
        info0 := BitVec.ofNat 64 (f.seq + 2 ^ 32 * q + 2 ^ 36 * s.gcell), info1 := f.pc
        info2 := if f.armed then Word.setBits f.prog 48 16 f.firing else f.prog }

/-- The event is taken from where it is held (R208, R329). -/
def State.asyncTake (s : State) : Async → State
  | .machine _ => s.setCore { s.core with machines := s.core.machines.drop 1 }
  | .fabric r =>
    let t := (s.setCsr 0x191 (BitVec.ofNat 64 (Word.bits r.va 0 56))).setCsr 0x192 (BitVec.ofNat 64 (r.why + 16 * r.dev))
    t.setCore { t.core with refusals := t.core.refusals.drop 1 }
  | .engine _ => s.setCore { s.core with engPend := s.core.engPend.drop 1 }
  | .irq i => s.unpend i

/-- The resume pc: after a waiting WFI for an interrupt that ends it (R99), else that of the head unit. -/
def State.asyncPc (s : State) : Async → Word
  | .irq _ => if s.core.wfi then nextPc .wfi s.core.pc else s.core.pc
  | _ => s.core.pc

/-- INTERRUPT_ENTRY (R200, R201): taken at the boundary before this clk; a fetched unit is abandoned (R197), a parked pop
withdrawn (R118). -/
def execInterruptEntry (s : State) : Out :=
  match s.asyncReady with
  | none => .next s
  | some a =>
    if !s.boundaryOpen then .next s
    else .next ((((s.asyncTake a).withdrawPop).squashLate).enterTrap (s.asyncInfo a) (s.asyncPc a) s.clk (s.clk - 1) 1)

/-! ### The timer (R97) -/

/-- The timer counts in this clk: the context is on its cell and not halted. -/
def State.timerRuns (s : State) : Bool :=
  s.resident && s.core.status != .halted && !(s.core.status == .preempted && s.mgr.heldHalted) &&
    (s.readCsr 0x104).getLsbD 0 && !s.core.tmrSet &&
    decide (Word.bits (s.readCsr 0x105) 0 48 ≠ 0)

/-- TIMER_EXPIRY (R97): one clk of the timer; where the count reaches 0, TIMER is pended and AUTO reloads it. -/
def execTimerExpiry (s : State) : Out :=
  if !s.timerRuns then .next s
  else
    let n := Word.bits (s.readCsr 0x105) 0 48 - 1
    if n ≠ 0 then .next (s.setCsr 0x105 (BitVec.ofNat 64 n))
    else
      let period := Word.bits (s.readCsr 0x106) 0 48
      .next ((s.setCsr 0x105 (if (s.readCsr 0x104).getLsbD 1 then BitVec.ofNat 64 period else 0)).pend 0)

/-! ### Walks (R324) -/

/-- PAGE_WALK (R324): the oldest walk asked for is made once its reads are answered, so that it sees every write that its
die issued before; its outcome is cached, or kept for the unit that asked. -/
def execPageWalk (s : State) : Out :=
  match s.sys.walks with
  | [] => .next s
  | (va, acc, clock) :: ws =>
    if s.sys.hold || !s.readOpen clock then .next s
    else
      let read := s.walkAddrs (va56 va) s.root levels
      match State.walk { s with sys := { s.sys with walks := ws } } va acc s.system with
      | (t, none) => .next t
      | (t, some f) =>
        let u := match read.find? s.badLine with
          | some e => t.countErrors (homeOf e) 0 1
          | none => t
        .next (u.setCore { u.core with walkFault := u.core.walkFault ++ [(va, f.1, f.2)] })

end Sys2Proof.Machine
end

