-- ==== Sys2Proof/Machine/Launch.lean ====
section
/-!
DEFINITION. Launch queues and notifies (R294-R296, R300), packets, records and templates (R297, R306-R308), the mapper
(R301), ticks, release and deadlines (R302-R305), the walker and placement (R309, R310), watchdogs and completion
(R221-R223, R298, R299).
-/

namespace Sys2Proof.Machine

/-! ### The stage manager's own accesses (log 12) -/

/-- The page of an address in the stage manager's tables, where an access is permitted. -/
def State.mgrPage (s : State) (va : Word) (acc : Access) : Option Page :=
  if !canonical va then none
  else match s.walkFrom (Word.bits s.mgr.root 0 16) (va56 va) (Word.bits s.mgr.root 16 48 * 16) levels with
    | .leaf _ p => if permitted p.w0 acc true false then some p else none
    | .fault _ => none

/-- A request of the stage manager to another module leaves through the hub die of the host port. -/
def State.mgrSend (s : State) (key : Nat) (op : ReqOp) (va : Word) (p : Page) : State :=
  let r : Req :=
    { id := s.sys.nextId, op := op, pa := p.pa (va56 va), va := va, home := homeOf (p.pa (va56 va)), die := 24
      stamp := s.stampOf 24 op, rclk := s.vcOf 24, dest := .mgr, queue := 15, seq := 0, pc := 0, dev := s.remote (some p)
      cls := p.cls, key := key, acq := false, casid := if p.compat then some p.casid else none, origin := .hub 24 }
  { s with sys := { s.sys with nextId := s.sys.nextId + 1 }, fab := { s.fab with out := s.fab.out ++ [r] } }

/-- n bytes asked of another module once, and kept until a packet has been read (R318). -/
def State.mgrAsk (s : State) (key : Nat) (va : Word) (p : Page) (n : Nat) : State × Got (List Byte) :=
  match s.mgr.far.find? fun f => f.va == va && f.n == n with
  | some f => match f.ans with
    | some bs => (s, if f.bad then .fault Code.fabric va else .ok bs)
    | none => (s, .wait .memory)
  | none =>
    let t := s.mgrSend key (.load n) va p
    ({ t with mgr := { t.mgr with far := { va := va, n := n, id := s.sys.nextId, ans := none, bad := false } :: t.mgr.far } },
      .wait .memory)

/-- n bytes inside one 64 KiB unit; a fault where translation, permission or an uncorrectable error stands against it. -/
def State.mgrPiece (s : State) (key : Nat) (va : Word) (n : Nat) : State × Got (List Byte) :=
  if n = 0 then (s, .ok [])
  else match s.mgrPage va .read with
    | none => (s, .fault Code.translate va)
    | some p =>
      let pa := p.pa (va56 va)
      if (s.remote (some p)).isSome then s.mgrAsk key va p n
      else if !s.presentPa pa then (s, .fault Code.fabric va)
      else if (linesOf [(pa, n)]).any fun l => decide (1 < s.lineErr l) then (s, .fault Code.machine va)
      else (s, .ok (s.bytes pa n))

/-- n bytes, at most two such units. -/
def State.mgrRead (s : State) (key : Nat) (va : Word) (n : Nat) : State × Got (List Byte) :=
  let m := min n (65536 - va.toNat % 65536)
  match s.mgrPiece key va m with
  | (t, .ok a) =>
    match t.mgrPiece key (va + BitVec.ofNat 64 m) (n - m) with
    | (u, .ok b) => (u, .ok (a ++ b))
    | r => r
  | r => r

/-- The same as 64-bit words. -/
def State.mgrWords (s : State) (key : Nat) (va : Word) (n : Nat) : State × Got (List Word) :=
  match s.mgrRead key va (8 * n) with
  | (t, .ok bs) => (t, .ok (wordsOfBytes n bs))
  | (t, .wait c) => (t, .wait c)
  | (t, .fault c a) => (t, .fault c a)

/-- A fault reported to the stage manager. -/
def State.reportFault (s : State) (code : Nat) : State :=
  { s with mgr := { s.mgr with reports := s.mgr.reports ++ [(code, none)] } }

/-! ### Queue descriptors (R294) -/

/-- Word i of the descriptor of queue q. -/
def State.qdesc (s : State) (q i : Nat) : Word :=
  match s.mgr.qtable with
  | some t => BitVec.ofNat 64 (Memory.readLE s.mem (t + 64 * q + 8 * i) 8)
  | none => 0

def State.qLog (s : State) (q : Nat) : Nat := Word.bits (s.qdesc q 1) 0 5
def State.qClass (s : State) (q : Nat) : Nat := Word.bits (s.qdesc q 1) 8 2
def State.qTick (s : State) (q : Nat) : Bool := (s.qdesc q 1).getLsbD 10
def State.qKey (s : State) (q : Nat) : Nat := Word.bits (s.qdesc q 1) 32 16
def State.qAllow (s : State) (q : Nat) : Nat := Word.bits (s.qdesc q 2) 0 24
def State.qHead (s : State) (q : Nat) : Nat := Word.bits (s.qdesc q 3) 0 32
def State.qTail (s : State) (q : Nat) : Nat := Word.bits (s.qdesc q 3) 32 32
def State.qDone (s : State) (q : Nat) : Nat := Word.bits (s.qdesc q 4) 0 32

/-- ACL entry i of queue q (R300). -/
def State.qAcl (s : State) (q i : Nat) : Nat := Word.bits (s.qdesc q (5 + i / 2)) (32 * (i % 2)) 32

/-- The queue is in use: a table is named, its descriptor is not refused, and it is enabled. -/
def State.qEnabled (s : State) (q : Nat) : Bool :=
  s.mgr.qtable.isSome && decide (q < 1024) && decide (4 ≤ s.qLog q) && decide (s.qLog q ≤ 16) && (s.qdesc q 1).getLsbD 11

/-- A 32-bit field of a descriptor written by the device. -/
def State.setQdesc (s : State) (q off v : Nat) : State :=
  match s.mgr.qtable with
  | some t => { s with mem := Memory.writeLE s.mem (t + 64 * q + off) 4 v }
  | none => s

def State.setHead (s : State) (q v : Nat) : State := s.setQdesc q 24 v
def State.setTail (s : State) (q v : Nat) : State := s.setQdesc q 28 v
def State.setDone (s : State) (q v : Nat) : State := s.setQdesc q 32 v

/-- Difference modulo 2^32. -/
def sub32 (a b : Nat) : Nat := (a + 2 ^ 32 - b % 2 ^ 32) % 2 ^ 32

/-- A packet stands at HEAD < TAIL. -/
def State.qPending (s : State) (q : Nat) : Bool := decide (s.qHead q ≠ s.qTail q)

/-- A scene of the queue is with the walker. -/
def State.qWalking (s : State) (q : Nat) : Bool := s.lq.scenes.any fun c => c.queue == q && c.walk.isSome

/-- The clk in which the queue's packet became head is noted, or forgotten where there is none (R303). -/
def State.headAppears (s : State) (q : Nat) : State :=
  let rest := s.lq.notified.filter fun n => n.1 != q
  if s.qPending q && !s.qWalking q then
    if s.lq.notified.any fun n => n.1 == q then s else { s with lq := { s.lq with notified := (q, s.clk) :: rest } }
  else { s with lq := { s.lq with notified := rest } }

/-! ### Notifies (R295, R300) -/

def State.countNotifyBad (s : State) (q : Nat) : State :=
  { s with lq := { s.lq with notifyBad := Sparse.set s.lq.notifyBad q (Sparse.get s.lq.notifyBad q + 1) } }

/-- A write of T tested and, if accepted, made TAIL. -/
def State.notifyTail (s : State) (q t : Nat) : State :=
  if !s.qEnabled q then s
  else
    let d := sub32 t (s.qHead q)
    if d ≤ 2 ^ s.qLog q ∧ sub32 t (s.qTail q) ≤ d then (s.setTail q t).headAppears q else s.countNotifyBad q

/-- The bytes a write gives one 64-bit register of the window: the 64-bit and the low 32-bit form are tested, a write of
the upper half and narrower ones are counted; without a table nothing is counted (R294). -/
def State.notifyWord (s : State) (q : Nat) (bs : List (Nat × Byte)) : State :=
  if s.mgr.qtable.isNone then s
  else
    let has := fun (i n : Nat) => (List.range n).all fun j => bs.any fun b => b.1 == i + j
    let v := numOfBytes ((List.range 8).map fun i => ((bs.find? fun b => b.1 == i).map Prod.snd).getD 0)
    if has 0 8 then (if v / 2 ^ 32 ≠ 0 then s else s.notifyTail q v)
    else if has 0 4 then s.notifyTail q (v % 2 ^ 32)
    else s.countNotifyBad q

/-- A write of bytes of the notify window, at offsets from its start, register by register. -/
def State.notifyBytes (s : State) (bs : List (Nat × Byte)) : State :=
  ((bs.map fun b => b.1 / 8).eraseDups).foldl (fun (t : State) q =>
    t.notifyWord q ((bs.filter fun b => b.1 / 8 == q).map fun b => (b.1 % 8, b.2))) s

/-- A notify is taken once every earlier write of its die has been performed, as every write of another die that it is
hb-after has been: a packet is read hb-after the notify that covers it (R256, R296). -/
def State.notifyOpen (s : State) (r : Req) : Bool := !(s.unapplied r.die).any fun q => decide (q.id < r.id)

/-- Bytes of the notify window that a store writes, at offsets from its start. -/
def Req.notifyBytes (r : Req) : List (Nat × Byte) :=
  match r.op with
  | .store bs => bs.map fun b => (b.1 - 0xF000100000000, b.2)
  | _ => []

/-- NOTIFY (R295): the first store of this module to the notify window that its home may perform is applied in one step. -/
def execNotify (s : State) : Out :=
  match s.firstDue fun r => r.notifies && !r.peerNotifies && s.notifyOpen r with
  | none => .next s
  | some r =>
    .next (((((s.dropReq r.id).raiseMax r.home r.stamp).watched r r.ranges).acknowledge r).notifyBytes r.notifyBytes)

/-- An ACL entry admits a source device (R300). -/
def aclAdmits (e dev : Nat) : Bool :=
  decide (e / 2 ^ 31 = 1) && decide (e % 2 ^ 11 ≤ dev) && decide (dev ≤ e / 2 ^ 11 % 2 ^ 11)

/-- Why a queue refuses a notify of another module: its job key, or its ACL (R300, R329). -/
def State.peerRefused (s : State) (r : Req) (q : Nat) : Option Nat :=
  match r.origin with
  | .module dev _ =>
    if r.key ≠ s.qKey q then some 2
    else if (List.range 4).any fun i => aclAdmits (s.qAcl q i) dev then none else some 6
  | _ => none

/-- A remote store to the notify window, register by register: what is refused is dropped and counted at the hub, what is
accepted is tested as any other notify is (R300). Without a table all is ignored (R294). -/
def State.peerNotify (s : State) (r : Req) : State :=
  if s.mgr.qtable.isNone then s
  else ((r.notifyBytes.map fun b => b.1 / 8).eraseDups).foldl (fun (t : State) q =>
    if (s.peerRefused r q).isSome then
      { t with lq := { t.lq with peerDrop := Sparse.set t.lq.peerDrop r.die (Sparse.get t.lq.peerDrop r.die + 1) } }
    else t.notifyWord q ((r.notifyBytes.filter fun b => b.1 / 8 == q).map fun b => (b.1 % 8, b.2))) s

/-- REMOTE_NOTIFY (R300): the first store of another module to the notify window that its home may perform; its sender is told
of the first refusal in it. -/
def execRemoteNotify (s : State) : Out :=
  match s.firstDue fun r => r.peerNotifies && s.notifyOpen r with
  | none => .next s
  | some r =>
    let why := if s.mgr.qtable.isNone then none
      else ((r.notifyBytes.map fun b => b.1 / 8).eraseDups).findSome? fun q => s.peerRefused r q
    let s1 := (((s.dropReq r.id).raiseMax r.home r.stamp).watched r r.ranges).peerNotify r
    .next (s1.sendBack r (why.getD 0) 0)

/-! ### Packets at the head (R296, R297, R301) -/

/-- The head packet's words. Those of a queue that software has left undefined are free (R294). -/
def State.headPacket (s : State) (q : Nat) : State × Got (List Word) :=
  if s.lq.undef.contains q then (s, .ok ((List.range 8).map (Config.freePacket q (s.qHead q))))
  else s.mgrWords (s.qKey q) (canon (Word.bits (s.qdesc q 0) 12 44 * 4096 + 64 * (s.qHead q % 2 ^ s.qLog q))) 8

def wordAt (ws : List Word) (i : Nat) : Word := ws[i]?.getD 0

/-- ORDER and DEPEN are satisfied; a packet that cannot be read is not held by them. -/
def State.packetFree (s : State) (q : Nat) : Got (List Word) → Bool
  | .fault _ _ => true
  | .wait _ => false
  | .ok p =>
    let dep := wordAt p 2
    (!(wordAt p 0).getLsbD 60 || decide (s.qDone q = s.qHead q)) &&
    (!dep.getLsbD 10 || decide (sub32 (s.qDone (Word.bits dep 0 10)) (Word.bits dep 32 32) < 2 ^ 31))

/-- The queue is ready (R301): its head packet is free and, on a tick-aligned queue, released. Whether a queue that software
has left undefined is served is free (R294). -/
def State.qReady (s : State) (q : Nat) : Bool :=
  s.qEnabled q && s.qPending q && !s.qWalking q && (!s.qTick q || s.lq.released.any fun r => r.1 == q) &&
    (!s.lq.undef.contains q || Config.freeServes q s.clk) && s.packetFree q (s.headPacket q).2

/-! ### The mapper (R301) -/

/-- Every queue that is in use. -/
def State.qUsed (s : State) : List Nat := if s.mgr.qtable.isNone then [] else (List.range 1024).filter s.qEnabled

/-- The queue has a slot. -/
def State.qMapped (s : State) (q : Nat) : Bool := s.lq.slots.any fun x => match x with
  | some (r, _) => r == q
  | none => false

/-- Ready queues without a slot. -/
def State.qWaiting (s : State) : List Nat := s.qUsed.filter fun q => s.qReady q && !s.qMapped q

/-- QUANTUM in clk: 100 µs. -/
def quantum : Nat := 200000

/-- A slot's quantum is over and a ready queue of its class or above waits. -/
def State.slotOver (s : State) (waiting : List Nat) (q at' : Nat) : Bool :=
  decide (quantum ≤ s.clk - at') && waiting.any fun w => decide (s.qClass w ≤ s.qClass q)

/-- Slots released: those with no ready or walking packet, and those whose quantum is over, at the end of their walk. -/
def State.freeSlots (s : State) : State :=
  let waiting := s.qWaiting
  let done := fun (x : Option (Nat × Nat)) => match x with
    | some (q, c) => s.lq.spent.contains q || s.slotOver waiting q c
    | none => false
  { s with lq := { s.lq with
    slots := s.lq.slots.map fun x => match x with
      | some (q, _) => if s.qWalking q then x else if !s.qReady q || done x then none else x
      | none => none
    spent := (s.lq.slots.filter fun x => done x && (x.map fun y => s.qWalking y.1).getD false).filterMap fun x => x.map Prod.fst } }

/-- The queue to be mapped next: lowest class, then highest age, then lowest number. -/
def State.nextQueue (s : State) (qs : List Nat) : Option Nat :=
  let age := fun q => (Sparse.get s.lq.age q).toNat
  qs.foldl (fun (b : Option Nat) q => match b with
    | none => some q
    | some r => if s.qClass q < s.qClass r ∨ (s.qClass q = s.qClass r ∧ age r < age q) then some q else b) none

/-- The lowest free slot open to a class. -/
def State.freeSlot (s : State) (cls : Nat) : Option Nat :=
  (List.range 32).find? fun i => decide (cls = 0 ∨ 8 ≤ i) && (s.lq.slots[i]?.getD none).isNone

/-- The mapping loop. -/
def State.mapQueues (s : State) : List Nat → Nat → State
  | _, 0 => s
  | qs, fuel + 1 =>
    match s.nextQueue qs with
    | none => s
    | some q =>
      match s.freeSlot (s.qClass q) with
      | none => s
      | some i =>
        let t : State := { s with lq := { s.lq with
          slots := setAt s.lq.slots i (some (q, s.clk)), age := Sparse.set s.lq.age q 0 } }
        State.mapQueues t (qs.filter (· != q)) fuel

/-- Ready queues left without a slot age, saturating. -/
def State.ageQueues (s : State) : State :=
  let up := fun (a : Sparse 16) (q : Nat) =>
    let v := Sparse.get a q
    Sparse.set a q (if v = 0xFFFF then v else v + 1)
  { s with lq := { s.lq with age := s.qWaiting.foldl up s.lq.age } }

/-- Head packets that lie in other modules are asked for (R318). -/
def State.askHeads (s : State) : State :=
  (s.qUsed.filter fun q => s.qPending q && !s.qWalking q).foldl (fun t q => (t.headPacket q).1) s

/-- MAPPER_RUN (R301). -/
def execMapperRun (s : State) : Out :=
  let s1 := s.askHeads.freeSlots
  let t := (s1.mapQueues s1.qWaiting 32).ageQueues
  .next { t with lq := { t.lq with ready := t.qUsed.filter t.qReady } }

/-- The mapper runs every µs, where a queue has become ready, and where a slot has lost its ready packet or is due to be freed
at the end of its walk. -/
def State.mapperDue (s : State) : Bool :=
  s.mgr.qtable.isSome && (decide (s.clk % 2000 = 0) ||
    (s.qUsed.any fun q => !s.lq.ready.contains q && s.qReady q) ||
    s.lq.slots.any fun x => match x with
      | some (q, _) => !s.qWalking q && (!s.qReady q || s.lq.spent.contains q)
      | none => false)

/-- Queues that are ready no more are forgotten, so that they can become ready again. -/
def State.readyStill (s : State) : State :=
  if s.lq.ready.isEmpty then s else { s with lq := { s.lq with ready := s.lq.ready.filter s.qReady } }

/-! ### Cells that are free (R210, R309, R388) -/

/-- The context is saved away (R337). -/
def State.isAway (s : State) : Bool := s.core.status == .away

/-- The troupe of the modelled context; while it is away its cells are free, and may hold another troupe. -/
def State.owns (s : State) (t : Troupe) : Bool := t.cells.contains s.gcell && t.away == s.isAway

/-- The cell holds a troupe. -/
def State.cellBusy (s : State) (c : Nat) : Bool :=
  s.lq.troupes.any (fun t => !t.away && t.cells.contains c) ||
    (decide (c = s.gcell) && (match s.core.status with
      | .absent => false
      | .completed => false
      | .away => false
      | _ => true))

/-- Usable cells of a die, and those free. -/
def State.usableOn (s : State) (d : Nat) : List Nat :=
  if d < 24 ∧ s.diePresent d then
    ((List.range 64).filter (mapOf s.mgr.cellmap d).getLsbD).map fun c => 64 * d + c
  else []

def State.freeOn (s : State) (d : Nat) : List Nat := (s.usableOn d).filter fun c => !s.cellBusy c

/-! ### Loop-nest records and templates (R306-R308) -/

def recL (r : List Word) : Nat := Word.bits (wordAt r 0) 56 3
def recGang (r : List Word) : Bool := (wordAt r 0).getLsbD 59
def recSize (r : List Word) : Nat := Word.bits (wordAt r 4) 24 7
/-- The level at each position, outermost first. -/
def recPerm (r : List Word) : List Nat := (List.range (recL r)).map fun p => Word.bits (wordAt r 4) (3 * p) 3
def recSerp (r : List Word) (l : Nat) : Bool := (wordAt r 4).getLsbD (18 + l)
def recRank (r : List Word) : Nat := Word.bits (wordAt r 4) 32 5
def recExt (r : List Word) : List Nat := (List.range 6).map fun l => Word.bits (wordAt r (1 + l / 2)) (32 * (l % 2)) 32

/-- Dies on which the scene may be placed. -/
def State.allowed (s : State) (q : Nat) (r : List Word) : List Nat :=
  (List.range 24).filter fun d => (s.qAllow q).testBit d && (wordAt r 5).getLsbD d && s.diePresent d

/-- Troupes of a scene: the product of its extents. -/
def troupes (r : List Word) (ext : List Nat) : Nat := (ext.take (recL r)).foldl (· * ·) 1

/-- The bits a record marks zero are zero. -/
def recZero (r : List Word) : Bool :=
  Word.bits (wordAt r 0) 60 4 == 0 && Word.bits (wordAt r 4) 31 1 == 0 && Word.bits (wordAt r 4) 37 27 == 0 &&
  Word.bits (wordAt r 5) 24 40 == 0 && Word.bits (wordAt r 7) 56 8 == 0 && (r.drop 8).all (· == 0)

/-- R308 for the record itself. -/
def State.recOk (s : State) (q : Nat) (r : List Word) : Bool :=
  recZero r && Word.bits (wordAt r 0) 0 2 == 0 && decide (1 ≤ recL r) && decide (recL r ≤ 6) &&
  ((List.range (recL r)).all fun l => (recPerm r).contains l) && decide (1 ≤ recSize r) && decide (recSize r ≤ 64) &&
  (s.allowed q r).any fun d => decide (recSize r ≤ (s.usableOn d).length)

/-- A template entry's ID and VALUE are accepted (R307, R308). -/
def templOk (e : List Word) : Bool :=
  let id := (wordAt e 0).toNat
  let v := wordAt e 1
  (decide (1 ≤ id) && decide (id ≤ 0x1F)) ||
  (decide (0x40 ≤ id) && decide (id ≤ 0x4F) && Word.bits v 32 32 == 0) ||
  id == 0x1001 || id == 0x1101 ||
  (decide (0x1010 ≤ id) && decide (id ≤ 0x1012) && !csrRejects (id - 0x1000) v) ||
  (decide (0x2000 ≤ id) && decide (id ≤ 0x2005))

/-- The last VALUE of an ID, or a default. -/
def templVal (t : List (Nat × Word)) (id : Nat) (d : Word) : Word := ((t.reverse.find? fun e => e.1 == id).map Prod.snd).getD d

/-- BUMP and RBASE of each store as the template leaves them (R236). -/
def templAllocOk (t : List (Nat × Word)) : Bool :=
  (List.range 3).all fun st =>
    let b := (templVal t (0x2000 + 2 * st) 0).toNat
    let r := (templVal t (0x2001 + 2 * st) (BitVec.ofNat 64 (storeSize st))).toNat
    decide (b % 64 = 0) && decide (r % 64 = 0) && decide (b ≤ r) && decide (r ≤ storeSize st)

/-- What reading a packet's record finds: a scene's parts, a refusal, a read fault, or bytes still to come from another
module (R308). -/
inductive Accepted where
  | scene (rec : List Word) (templ : List (Nat × Word)) (ext : List Nat)
  | refused
  | unread (code : Nat)
  | later
  deriving DecidableEq, Repr

/-- Pairs of words of a template. -/
def templWords (n : Nat) (ws : List Word) : List (List Word) := (List.range n).map fun i => [wordAt ws (2 * i), wordAt ws (2 * i + 1)]

/-- Words of a record's parts, read one after another. -/
def State.readPart (s : State) (q : Nat) (va : Word) (n : Nat) (k : State → List Word → State × Accepted) : State × Accepted :=
  match s.mgrWords (s.qKey q) va n with
  | (t, .ok ws) => k t ws
  | (t, .wait _) => (t, .later)
  | (t, .fault c _) => (t, .unread c)

/-- What a record with its template and its extents comes to (R307, R308). -/
def State.judgeRecord (s : State) (q : Nat) (r tw : List Word) (ext : List Nat) : Accepted :=
  let es := templWords (Word.bits (wordAt r 6) 56 8) tw
  let t := es.map fun e => ((wordAt e 0).toNat, wordAt e 1)
  let room := ((s.allowed q r).map fun d => (s.usableOn d).length / recSize r).foldl (· + ·) 0
  if !es.all templOk || !templAllocOk t || (recGang r && decide (room < troupes r ext)) then .refused else .scene r t ext

/-- The record, its template and its extents, read and checked. -/
def State.acceptRecord (s : State) (q : Nat) (va : Word) : State × Accepted :=
  s.readPart q va 16 fun s r =>
    if !s.recOk q r then (s, .refused)
    else s.readPart q (canon (Word.bits (wordAt r 6) 0 56)) (2 * Word.bits (wordAt r 6) 56 8) fun s tw =>
      let ind := Word.bits (wordAt r 7) 0 56
      if ind = 0 then (s, s.judgeRecord q r tw (recExt r))
      else s.readPart q (canon ind) 3 fun s ws => (s, s.judgeRecord q r tw (recExt (0 :: ws)))

/-- A packet breaks R297. -/
def packetBad (p : List Word) : Bool :=
  let w0 := wordAt p 0
  Word.bits w0 61 3 != 0 || decide (1 < Word.bits w0 56 4) || Word.bits w0 0 7 != 0 ||
  Word.bits (wordAt p 1) 57 7 != 0 || Word.bits (wordAt p 1) 0 5 != 0 || Word.bits (wordAt p 2) 11 21 != 0 ||
  Word.bits (wordAt p 4) 33 31 != 0 || (p.drop 5).any (· != 0)

/-! ### PACKET_READ (R296, R297, R305, R308) -/

/-- The scene a packet makes, with nothing placed. -/
def newScene (q j : Nat) (p : List Word) (status clk release : Nat) : Scene :=
  { queue := q, index := j, packet := p, record := [], templ := [], ext := [], walk := none, since := clk, placed := 0,
    dropped := 0, status := status, fcell := 0, fcause := 0, late := false, release := release, lastDie := 23, sent := none }

/-- TICKNOW (R302). -/
def State.tickNow (s : State) : Nat := Word.bits (s.readCsr 0x180) 0 48

/-- The scene handed to the walker (R309): no iterations where an extent is 0. -/
def Scene.start (c : Scene) (r : List Word) (t : List (Nat × Word)) (ext : List Nat) : Scene :=
  { c with record := r, templ := t, ext := ext,
           walk := if (ext.take (recL r)).any (· == 0) then none else some (List.replicate (recL r) (0, true)) }

/-- Mapped queues whose head packet may be read now. -/
def State.readable (s : State) : List Nat :=
  s.lq.slots.filterMap fun x => match x with
    | some (q, _) => if s.qReady q && !s.lq.spent.contains q then some q else none
    | none => none

/-- HEAD passes the packet of a queue, and its scene takes its place (R296). -/
def State.passPacket (s : State) (q : Nat) (c : Scene) : State :=
  let t := s.setHead q ((c.index + 1) % 2 ^ 32)
  State.headAppears { t with
    lq := { t.lq with
      released := t.lq.released.filter fun x => x.1 != q, notified := t.lq.notified.filter fun x => x.1 != q
      scenes := t.lq.scenes ++ [c] }
    mgr := { t.mgr with far := [] } } q

/-- The head packet of a queue is read, and what it names: its scene is handed to the walker, refused, or ended. What comes
from another module is waited for. -/
def State.readPacket (s : State) (q : Nat) : State :=
  let r := ((s.lq.released.find? fun x => x.1 == q).map Prod.snd).getD s.tickNow
  let scene := fun (p : List Word) (status : Nat) => newScene q (s.qHead q) p status s.clk r
  match s.headPacket q with
  | (t, .wait _) => t
  | (t, .fault c _) => (t.reportFault c).passPacket q (scene [] 5)
  | (t, .ok p) =>
    if packetBad p then t.passPacket q (scene p 4)
    else if Word.bits (wordAt p 0) 56 4 = 0 then t.passPacket q (scene p 0)
    else match t.acceptRecord q (canon (Word.bits (wordAt p 0) 0 56)) with
      | (u, .scene rec tm ext) => u.passPacket q ((scene p 0).start rec tm ext)
      | (u, .refused) => u.passPacket q (scene p 4)
      | (u, .unread c) => (u.reportFault c).passPacket q (scene p 4)
      | (u, .later) => u

/-- PACKET_READ (R297): the lowest slot with a ready head packet is served. -/
def execPacketRead (s : State) : Out :=
  match s.readable.head? with
  | none => .next s
  | some q => .next (s.readPacket q)

/-! ### The walker (R309) -/

/-- The vector after one: levels from the innermost position outward. -/
def walkNext (ext : List Nat) (serp : Nat → Bool) (v : List (Nat × Bool)) : List Nat → Option (List (Nat × Bool))
  | [] => none
  | l :: ls =>
    let x := v[l]?.getD (0, true)
    if x.2 && decide (x.1 + 1 < ext[l]?.getD 0) then some (setAt v l (x.1 + 1, true))
    else if !x.2 && decide (0 < x.1) then some (setAt v l (x.1 - 1, false))
    else walkNext ext serp (setAt v l (if serp l then (x.1, !x.2) else (0, x.2))) ls

/-- The scene's next vector. -/
def Scene.advance (c : Scene) : Option (List (Nat × Bool)) :=
  match c.walk with
  | none => none
  | some v => walkNext c.ext (recSerp c.record) v (recPerm c.record).reverse

/-! ### Placement (R210, R309, R310) -/

/-- CSRs of the module, which a context load leaves. -/
def moduleCsr (n : Nat) : Bool :=
  decide (n = 0) || (decide (0x180 ≤ n) && !(decide (0x190 ≤ n) && decide (n ≤ 0x192)) && n != 0x1C1 && n != 0x1C5)

/-- A context's CSRs at its first issue: reset values, its key and root, and the template's (R44, R96, R307, R314,
R327). -/
def State.contextCsr (s : State) (key : Nat) (t : List (Nat × Word)) : Sparse 64 :=
  let keep := s.csr.filter fun e => moduleCsr e.1
  let base : List (Nat × Word) := [(0x011, 8), (0x012, 8), (0x013, 0xF00), (0x100, 0x3F01), (0x102, s.mgr.root), (0x103, BitVec.ofNat 64 key)]
  let one := fun (c : Sparse 64) (e : Nat × Word) =>
    if e.1 = 0x1001 then Sparse.set c 1 (fieldsOf 1 0xF 0 e.2)
    else if e.1 = 0x1101 then Sparse.set c 0x101 (fieldsOf 0x101 (csrMask 0x101) 0 e.2)
    else if 0x1010 ≤ e.1 ∧ e.1 ≤ 0x1012 then Sparse.set c (e.1 - 0x1000) (fieldsOf (e.1 - 0x1000) (csrMask (e.1 - 0x1000)) 0 e.2)
    else c
  t.foldl one (base.foldl (fun (c : Sparse 64) e => Sparse.set c e.1 e.2) keep)

/-- g registers in order of precedence: rank, indices, template, zero (R309). -/
def contextG (rank : Nat) (c : Scene) (v : List (Nat × Bool)) : Vector Word 32 :=
  Vector.ofFn fun i =>
    let n := i.val
    if n = 0 then 0
    else if n = recRank c.record then BitVec.ofNat 64 rank
    else if n ≤ v.length then BitVec.ofNat 64 ((v[n - 1]?.getD (0, true)).1)
    else templVal c.templ n 0

/-- The allocators as the template sets them (R123, R236). -/
def contextAllocs (t : List (Nat × Word)) : Vector Alloc 3 :=
  Vector.ofFn fun i =>
    let rb := (templVal t (0x2001 + 2 * i.val) (BitVec.ofNat 64 (storeSize i.val))).toNat
    { bump := (templVal t (0x2000 + 2 * i.val) 0).toNat, rbase := rb, rhead := rb, rtail := rb, rlive := 0 }

/-- The modelled cell's context begins (R39, R210, R309). -/
def State.loadContext (s : State) (c : Scene) (v : List (Nat × Bool)) (cells : List Nat) : State :=
  let rank := (cells.findIdx? (· == s.gcell)).getD 0
  { s with
    csr := s.contextCsr (s.qKey c.queue) c.templ
    core := { Core.reset with
      status := .running, pc := canon (Word.bits (wordAt c.record 0) 0 56), g := contextG rank c v
      z := Vector.ofFn fun i => Word.half (templVal c.templ (0x40 + i.val) 0) 0 }
    cell := { Cell.reset with allocs := contextAllocs c.templ, troupeSize := cells.length, rank := rank }
    acct := Acct.reset, coll := Coll.reset, dbg := Dbg.reset }

/-- The troupe of a scene's next vector takes its cells; its first issue is this clk. A troupe placed on the modelled cell's
place while its context is away is another's (log 1). -/
def State.placeOn (s : State) (c : Scene) (v : List (Nat × Bool)) (cells : List Nat) : State :=
  let t : Troupe :=
    { queue := c.queue, index := c.index, cells := cells, first := s.clk, wdog := Word.bits (wordAt c.packet 4) 0 32
      done := [], away := false }
  let s1 : State := { s with lq := { s.lq with troupes := s.lq.troupes ++ [t] } }
  if cells.contains s.gcell && !s.isAway then s1.loadContext c v cells else s1

/-- The first die, after that of the scene's previous placement, with room; its lowest free cells. -/
def State.fit (s : State) (c : Scene) : Option (List Nat) :=
  let dies := s.allowed c.queue c.record
  let order := dies.filter (fun d => decide (c.lastDie < d)) ++ dies.filter fun d => decide (d ≤ c.lastDie)
  let n := recSize c.record
  (order.find? fun d => decide (n ≤ (s.freeOn d).length)).map fun d => (s.freeOn d).take n

/-- One troupe placed; none where no die has room. -/
def State.placeOne (s : State) (c : Scene) : Option (State × Scene) :=
  match c.walk, s.fit c with
  | some v, some cells =>
    some (s.placeOn c v cells,
      { c with walk := c.advance, since := s.clk, placed := c.placed + 1, lastDie := (cells.head?.getD 0) / 64 })
  | _, _ => none

/-- Every troupe of a gang placed in one step (R310). -/
def State.placeGang (s : State) (c : Scene) : Nat → Option (State × Scene)
  | 0 => some (s, c)
  | fuel + 1 =>
    match c.walk with
    | none => some (s, c)
    | some _ =>
      match s.placeOne c with
      | some (t, d) => State.placeGang t d fuel
      | none => none

/-- A scene put in its place in a sorted list, behind those it does not precede. -/
def insertScene (before : Scene → Scene → Bool) (c : Scene) : List Scene → List Scene
  | [] => [c]
  | x :: xs => if before x c then x :: insertScene before c xs else c :: x :: xs

/-- Scenes with the walker on active slots, lowest class first, then longest wait, then lowest slot. -/
def State.walkers (s : State) : List Scene :=
  let cs := s.lq.slots.filterMap fun x => match x with
    | some (q, _) => s.lq.scenes.find? fun c => c.queue == q && c.walk.isSome
    | none => none
  let before := fun (a b : Scene) => decide (s.qClass a.queue < s.qClass b.queue) ||
    (s.qClass a.queue == s.qClass b.queue && decide (a.since ≤ b.since))
  cs.foldl (fun (l : List Scene) c => insertScene before c l) []

/-- A scene replaced by its new value. -/
def State.putScene (s : State) (c : Scene) : State :=
  { s with lq := { s.lq with scenes := s.lq.scenes.map fun x => if x.queue = c.queue ∧ x.index = c.index then c else x } }

/-- TROUPE_PLACEMENT (R309, R310): the first scene in that order that fits. -/
def execTroupePlacement (s : State) : Out :=
  let try' := fun (c : Scene) => if recGang c.record then s.placeGang c 1537 else s.placeOne c
  match s.walkers.findSome? try' with
  | none => .next s
  | some (t, c) => .next ((t.putScene c).headAppears c.queue)

/-! ### Ticks, releases and deadlines (R302-R305) -/

/-- The packet at the head of a tick-aligned queue is released at edge n (R303). -/
def State.releases (s : State) (n q : Nat) : Bool :=
  s.qEnabled q && s.qTick q && s.qPending q && !s.qWalking q && !(s.lq.released.any fun r => r.1 == q) &&
  (s.lq.notified.any fun x => x.1 == q && decide (x.2 < s.clk)) &&
  (match (s.headPacket q).2 with
    | .ok p => decide (Word.bits (wordAt p 3) 0 48 ≤ n)
    | .fault _ _ => true
    | .wait _ => false)

/-- TICK_EDGE (R302, R303): at its clk TICKNOW rises, TICK is pended in a resident cell, and head packets of tick-aligned
queues are released. -/
def execTickEdge (s : State) : Out :=
  if s.clk ≠ s.mgr.nextTick then .next s
  else
    let n := (s.tickNow + 1) % 2 ^ 48
    let s1 := s.setCsr 0x180 (BitVec.ofNat 64 n)
    let s2 := if s1.resident then s1.pend 2 else s1
    let free := (s2.qUsed.filter (s2.releases n)).map fun q => (q, n)
    .next { s2 with
      mgr := { s2.mgr with nextTick := s.clk + Word.bits (s2.readCsr 0x181) 0 40 }
      lq := { s2.lq with released := s2.lq.released ++ free } }

/-- The deadline of a scene has passed (R305). -/
def State.overdue (s : State) (c : Scene) : Bool :=
  let d := Word.bits (wordAt c.packet 3) 48 16
  decide (d ≠ 0) && !c.late && decide (c.release + d ≤ s.tickNow)

/-- A scene at its deadline: late, and with DLKILL its unplaced iterations dropped. -/
def Scene.expire (c : Scene) : Scene :=
  if (wordAt c.packet 4).getLsbD 32 && c.walk.isSome then
    { c with late := true, walk := none, dropped := troupes c.record c.ext - c.placed }
  else { c with late := true }

/-- DEADLINE_EXPIRY (R305). -/
def execDeadlineExpiry (s : State) : Out :=
  let late := s.lq.scenes.filter s.overdue
  let s1 : State := { s with lq := { s.lq with scenes := s.lq.scenes.map fun c => if s.overdue c then c.expire else c } }
  .next (late.foldl (fun (t : State) c => t.headAppears c.queue) s1)

/-! ### Completion (R221-R223, R298, R299) -/

/-- The modelled cell may complete (R221, R222): every entry that is not discarded has drained, its writes are performed
and acknowledged; after a double trap the started ones that run, where a control entry that waits has been unstarted again,
and none runs in a queue that has faulted (R202, R335, log 23). -/
def State.cellDone (s : State) : Bool :=
  let doubled := s.core.status == .doubled
  let drained := (List.range 13).all fun q =>
    let v := s.queue q
    (doubled && v.fault.isSome) || (v.run.all (fun e => doubled && e.waits) && v.chainEntry.isNone &&
      v.armed.all (fun e => e.fin.isSome) && (doubled || (v.words.isEmpty && v.armed.isEmpty)))
  (s.core.status == .ended || doubled) && drained && s.cell.chained.all (fun e => doubled && (!e.trig || s.matrixFaulted)) &&
  s.allDone s.clk s.sys.nextId && s.sys.held.all (fun h => h.req.origin != .own) && s.sys.acks.isEmpty

/-- Accesses of a context that is over belong to nobody: its writes are still performed, its answers are dropped. -/
def State.disown (s : State) : State :=
  let mark := fun (r : Req) =>
    if r.origin = .own then { r with origin := .cell s.gcell } else if r.mine then { r with queue := 14 } else r
  let kept := fun (rs : List Req) => (rs.filter fun r => r.op.writes || decide (r.origin ≠ .own)).map mark
  { s with
    sys := { s.sys with
      reqs := kept s.sys.reqs, replies := [], acks := [], walks := [], missed := [], readClks := []
      held := s.sys.held.map fun h => { h with req := mark h.req }
      parked := s.sys.parked.filter fun r => decide (r.origin ≠ .own) }
    fab := { s.fab with out := kept s.fab.out } }

/-- The modelled cell stops being charged; its open runs are written, its unstarted entries discarded. -/
def State.endContext (s : State) : State :=
  let s1 := ((List.range 13).foldl State.resetQueue s.closeRuns).disown
  s1.setCore { s1.core with status := .completed, inflight := [], reinject := [], posted := [], entering := none }

/-- A troupe that has completed counts in its scene: the first with a non-zero status names the cell (R298). -/
def State.troupeEnds (s : State) (t : Troupe) : State :=
  let status := t.done.foldl (fun n d => max n d.2.1) 0
  let cell := (t.cells.filterMap fun c => t.done.find? fun d => d.1 == c && d.2.1 == status).head?
  let upd := fun (c : Scene) =>
    if c.queue = t.queue ∧ c.index = t.index then
      let c1 := if c.status = 0 ∧ status ≠ 0 then
          { c with fcell := (cell.map fun d => d.1).getD 0, fcause := if status = 3 then 0 else (cell.map fun d => d.2.2).getD 0 }
        else c
      { c1 with status := max c.status status }
    else c
  { s with lq := { s.lq with
    scenes := s.lq.scenes.map upd
    troupes := s.lq.troupes.filter fun x => !(x.queue == t.queue && x.index == t.index && x.cells == t.cells) } }

/-- Every cell of the troupe has reported. -/
def Troupe.reported (t : Troupe) : Bool := t.cells.all fun c => t.done.any fun d => d.1 == c

/-- A troupe whose cells have all reported completes once every write of theirs has been performed (R221, R223, R298). -/
def State.troupeOver (s : State) (t : Troupe) : Bool :=
  t.reported && (s.sys.reqs ++ s.sys.held.map Held.req ++ s.fab.out).all fun r =>
    !r.op.writes || (match r.origin with
      | .own => !s.owns t
      | .cell c => !t.cells.contains c
      | .hub _ => decide (r.queue = 15) || !t.cells.contains s.gcell
      | .module _ _ => true)

/-- Troupes that are over complete, in the order of their placement. -/
def State.endTroupes (s : State) : State := (s.lq.troupes.filter s.troupeOver).foldl State.troupeEnds s

/-- Reports of cells of a troupe that have not reported yet. -/
def Troupe.hear (t : Troupe) (rs : List (Nat × Nat × Nat)) : Troupe :=
  { t with done := t.done ++ rs.filter fun r => t.cells.contains r.1 && !t.done.any fun d => d.1 == r.1 }

/-- A cell of a troupe reports its completion (R223); a cell of a troupe that is away has none to report. -/
def State.cellReports (s : State) (cell status cause : Nat) : State :=
  { s with lq := { s.lq with troupes := s.lq.troupes.map fun t => if t.away then t else t.hear [(cell, status, cause)] } }

/-- CELL_COMPLETION (R221): the modelled cell completes, completions of other cells are taken, and troupes that are over
complete. -/
def execCellCompletion (s : State) : Out :=
  let s1 := if s.cellDone then s.endContext.cellReports s.gcell s.cell.endStatus s.cell.endCause else s
  let s2 := s.inp.completions.foldl (fun (t : State) c => t.cellReports c.1 c.2.1 c.2.2) s1
  .next (State.endTroupes { s2 with inp := { s2.inp with completions := [] } })

/-- A troupe's watchdog has expired before every cell of it completed (R299): its last clk is past. -/
def State.wdogOver (s : State) (t : Troupe) : Bool :=
  !t.reported && decide (t.wdog ≠ 0) && decide (t.first + 2000 * t.wdog < s.clk)

/-- A troupe is ended: those of its cells that have not completed report KILLED (R223). -/
def State.kill (s : State) (t : Troupe) : State :=
  let s1 := if s.owns t && !(t.done.any fun d => d.1 == s.gcell) then s.endContext else s
  { s1 with lq := { s1.lq with troupes := s1.lq.troupes.map fun x =>
      if x = t then { t.hear (t.cells.map fun c => (c, 3, 0)) with away := false } else x } }

/-- WATCHDOG_EXPIRY (R299): every troupe whose watchdog is over is ended; it completes with its last write. -/
def execWatchdogExpiry (s : State) : Out := .next ((s.lq.troupes.filter s.wdogOver).foldl State.kill s).endTroupes

/-- System software ends the troupes of some cells (R223). -/
def State.takeKills (s : State) : State :=
  let t := (s.lq.troupes.filter fun t => !t.reported && s.inp.kills.any t.cells.contains).foldl State.kill s
  { t with inp := { t.inp with kills := [] } }

/-- The scene is complete: nothing left to place, no troupe running, and its predecessors have completed. -/
def State.sceneDone (s : State) (c : Scene) : Bool :=
  c.walk.isNone && decide (c.index = s.qDone c.queue) &&
    !(s.lq.troupes.any fun t => t.queue == c.queue && t.index == c.index)

/-- The completion record's 32 bytes (R298). -/
def State.completionBytes (s : State) (c : Scene) : List Byte :=
  let named := c.status ≠ 0 ∧ c.status ≠ 4
  bytesOfNum 8 (c.index + 2 ^ 32 * c.status + 2 ^ 36 * bit c.late) ++ bytesOfNum 8 (c.placed + 2 ^ 32 * c.dropped) ++
  bytesOfNum 8 (if named then c.fcell + 2 ^ 16 * c.fcause else 0) ++ bytesOfNum 8 s.tickNow

/-- Where the scene's completion record goes; none where it names none. -/
def Scene.compl (c : Scene) : Option Word :=
  let a := Word.bits (wordAt c.packet 1) 0 56
  if c.status = 5 ∨ a = 0 ∨ a % 32 ≠ 0 then none else some (canon a)

/-- The page of a record that goes to another module (R318). -/
def State.farRecord (s : State) (c : Scene) : Option Page :=
  (c.compl.bind fun va => s.mgrPage va .write).filter fun p => (s.remote (some p)).isSome

/-- The record written as one write; a failed one is dropped and reported. -/
def State.writeCompletion (s : State) (c : Scene) : State :=
  match c.compl with
  | none => s
  | some va => match s.mgrPage va .write with
    | none => s.reportFault Code.translate
    | some p =>
      if (s.remote (some p)).isSome then s
      else { s with mem := Sparse.setRun s.mem (p.pa (va56 va)) (s.completionBytes c) }

/-- The record sent to another module as one write. -/
def State.sendRecord (s : State) (c : Scene) (p : Page) : State :=
  let va := c.compl.getD 0
  let bs := (s.completionBytes c).zipIdx.map fun b => (p.pa (va56 va) + b.2, b.1)
  (s.mgrSend (s.qKey c.queue) (.store bs) va p).putScene { c with sent := some s.sys.nextId }

/-- DONE rises, the message is sent, and the scene is over. -/
def State.endScene (s : State) (c : Scene) : State :=
  let s1 := s.setDone c.queue ((c.index + 1) % 2 ^ 32)
  let irq := (wordAt c.packet 1).getLsbD 56 && c.status ≠ 5
  { s1 with
    lq := { s1.lq with scenes := s1.lq.scenes.filter fun x => !(x.queue == c.queue && x.index == c.index) }
    mgr := { s1.mgr with msix := if irq then s1.mgr.msix ++ [c.queue] else s1.mgr.msix } }

/-- The completion record of the scene is on its way to another module. -/
def State.recordOut (s : State) (c : Scene) : Bool := s.fab.out.any fun r => c.sent == some r.id

/-- SCENE_COMPLETION (R298): in packet order, the record, DONE, then the message. -/
def execSceneCompletion (s : State) : Out :=
  match s.lq.scenes.find? s.sceneDone with
  | none => .next s
  | some c =>
    match s.farRecord c, c.sent with
    | some p, none => .next (s.sendRecord c p)
    | _, _ => .next (if s.recordOut c then s else (s.writeCompletion c).endScene c)

end Sys2Proof.Machine
end

