-- ==== Sys2Proof/Machine/Context.lean ====
section
/-!
DEFINITION. Pre-emption (R334-R336), the Caerzip coding of images (R339, R340), saving and departing (R331, R332, R337,
R342, R343) and restoring (R331, R333, R338, R342).
-/

namespace Sys2Proof.Machine

/-! ### Stopping (R334-R336) -/

/-- PREEMPT (R334): taken at a boundary; a halted cell is saved halted. -/
def execPreempt (s : State) : Out :=
  let taken := fun (t : State) => ({ t with inp := { t.inp with preempt := false } } : State)
  if !s.inp.preempt then .next s
  else if s.core.status == .halted then
    .next (taken { s with
      core := { s.core with status := .preempted }, mgr := { s.mgr with heldHalted := true } })
  else if s.mayStop then .next (taken (s.stopCell .preempted))
  else .next s

/-- The stop deadline has passed (R336). -/
def State.deadlineOver (s : State) : Bool :=
  match s.mgr.preemptAt with
  | some t => s.core.status == .preempted && decide (t + s.mgr.deadline ≤ s.clk)
  | none => false

/-- HARD_STOP (R336): queues whose entries still run are stopped between two progress units; what those entries have read
ahead is forgotten, for they restart (R160). -/
def execHardStop (s : State) : Out :=
  if !s.deadlineOver then .next s
  else
    let qs := (List.range 13).filter s.queueMoves
    let t := qs.foldl (fun (t : State) q =>
      ((s.queue q).run ++ (s.queue q).armed).foldl (fun (t : State) e => t.forgetReads q e.seq) t) s
    .next (qs.foldl (fun (t : State) q => t.setQueue q { (t.queue q) with stopped := true }) t)

/-! ### Caerzip (R340) -/

/-- Most words that one token stands for. -/
def tokenMax : Nat := 2 ^ 32 - 1

/-- A token: its kind and its count. -/
def token (kind n : Nat) : Word := BitVec.ofNat 64 (2 ^ 62 * kind + n)

/-- Maximal runs of equal words. -/
def wordRuns : List Word → List (Word × Nat)
  | [] => []
  | w :: ws =>
    match wordRuns ws with
    | (v, n) :: r => if v = w then (v, n + 1) :: r else (w, 1) :: (v, n) :: r
    | [] => [(w, 1)]

/-- A count split from its start into counts of at most `tokenMax`. -/
def splitCount (n : Nat) : List Nat :=
  List.replicate (n / tokenMax) tokenMax ++ (if n % tokenMax = 0 then [] else [n % tokenMax])

/-- Literal groups of a list of words. -/
def litTokens : Nat → List Word → List Word
  | 0, _ => []
  | k + 1, ws =>
    if ws.isEmpty then []
    else token 0 (min ws.length tokenMax) :: (ws.take tokenMax ++ litTokens k (ws.drop tokenMax))

/-- A run that a token of its own stands for. -/
def ownToken (r : Word × Nat) : Bool := if r.1 = 0 then decide (2 ≤ r.2) else decide (3 ≤ r.2)

def runTokens (r : Word × Nat) : List Word :=
  if r.1 = 0 then (splitCount r.2).map (token 1) else ((splitCount r.2).map fun n => [token 2 n, r.1]).flatten

/-- Tokens of runs, behind the literal words gathered so far. -/
def codeRuns (lits : List Word) : List (Word × Nat) → List Word
  | [] => litTokens (lits.length / tokenMax + 1) lits ++ [token 3 0]
  | r :: rs =>
    if ownToken r then litTokens (lits.length / tokenMax + 1) lits ++ runTokens r ++ codeRuns [] rs
    else codeRuns (lits ++ List.replicate r.2 r.1) rs

/-- A body coded. -/
def caerzip (body : List Word) : List Word := codeRuns [] (wordRuns body)

/-- Tokens read back; none where they are cut short. -/
def uncodeTokens : Nat → List Word → Option (List Word)
  | 0, _ => none
  | _ + 1, [] => none
  | fuel + 1, t :: ws =>
    let n := Word.bits t 0 32
    match Word.bits t 62 2 with
    | 0 => if ws.length < n then none else (uncodeTokens fuel (ws.drop n)).map fun r => ws.take n ++ r
    | 1 => (uncodeTokens fuel ws).map fun r => List.replicate n 0 ++ r
    | 2 => match ws with
      | [] => none
      | w :: ws1 => (uncodeTokens fuel ws1).map fun r => List.replicate n w ++ r
    | _ => some []

def uncaerzip (coded : List Word) : Option (List Word) := uncodeTokens (coded.length + 1) coded

/-! ### Sections (R331, R332, R339) -/

/-- A section: header and coded body. -/
def imageSection (id rank aux : Nat) (body : List Word) : List Word :=
  let c := caerzip body
  [BitVec.ofNat 64 (id + 2 ^ 16 * rank + 2 ^ 24 * aux), BitVec.ofNat 64 (8 * body.length), BitVec.ofNat 64 c.length] ++ c

/-- A section decodes to the length its header gives. -/
def sectionOk (x : List Word) : Bool :=
  match uncaerzip (x.drop 3) with
  | some b => decide (8 * b.length = (wordAt x 1).toNat)
  | none => false

def nat64 (n : Nat) : Word := BitVec.ofNat 64 n

/-- A list of variable length: its length, then the words of each member. -/
def listBody {α : Type} (f : α → List Word) (l : List α) : List Word := nat64 l.length :: (l.map f).flatten

/-- A value that may be absent. -/
def optBody {α : Type} (f : α → List Word) (o : Option α) : List Word := listBody f o.toList

/-- Numbers of fixed count. -/
def numBody (ns : List Nat) : List Word := ns.map nat64

/-- A BARSYNC that has arrived: its pc, instance and generation (R127). -/
def barBody (b : Word × Nat × Nat) : List Word := [b.1, nat64 b.2.1, nat64 b.2.2]

/-- A report of the watch FIFO (R371). -/
def Report.body (r : Report) : List Word :=
  [r.addr, r.mask.zeroExtend 64] ++ numBody [r.kind, r.queue, r.src, r.scell, r.at'] ++ [r.id]

/-- Bodies of the sections (log 13): registers and CSRs, what waits to be taken at a boundary, and the watch FIFO. -/
def State.bodyRegs (s : State) : List Word :=
  (s.core.g.toList.drop 1) ++ [s.core.gEmpty.zeroExtend 64] ++ s.core.m.toList ++
  (s.core.z.toList.zip s.core.zpend.toList).map (fun x => nat64 (x.1.toNat + 2 ^ 32 * x.2)) ++ packLanes s.core.q.toList ++
  s.core.mask.toList ++ [nat64 (Word.bits s.core.pc 0 56)] ++
  listBody (fun e => [nat64 e.1, e.2]) (s.csr.filter fun e => !moduleCsr e.1) ++
  optBody barBody s.core.barsync ++ listBody barBody s.core.frameBar ++
  listBody (fun q => [nat64 q]) s.core.engPend ++
  listBody (fun (r : RefusalInfo) => r.va :: numBody [r.why, r.dev]) s.core.refusals ++
  listBody (fun (m : MachInfo) => [m.addr, m.info]) s.core.machines ++
  numBody [bit s.isEnded, s.cell.endStatus, s.cell.endCause, s.cell.enqNo, bit s.mgr.heldHalted, s.dbg.warLost] ++
  listBody Report.body s.dbg.war

/-- A bank of register space: data, then full/empty bits. -/
def State.bodyBank (s : State) (b : Nat) : List Word :=
  packLanes (Sparse.getRun s.cell.rsp (4096 * b) 4096) ++
  (List.range 64).map fun i => (List.range 64).foldl (fun (w : Word) j =>
    if Sparse.get s.cell.rspEmpty (4096 * b + 64 * i + j) = 1 then w ||| ((1 : Word) <<< j) else w) 0

/-- Runs of consecutive dirty granules of a store: first granule and count. -/
def granuleRuns : List Nat → List (Nat × Nat)
  | [] => []
  | g :: gs =>
    match granuleRuns gs with
    | (h, n) :: r => if h = g + 1 then (g, n + 1) :: r else (g, 1) :: (h, n) :: r
    | [] => [(g, 1)]

def State.dirtyOf (s : State) (st : Nat) : List Nat :=
  (s.cell.dirtyGran.filter fun e => e.1 / 1024 == st).map fun e => e.1 % 1024

def State.bodyTiles (s : State) : List Word :=
  (List.range 256).map s.tile ++
  (s.cell.rings.toList.map fun r =>
    [nat64 (bit r.set + 2 ^ 8 * r.base + 2 ^ 16 * r.count + 2 ^ 24 * r.head + 2 ^ 32 * r.tail),
     nat64 (r.pclaim + 2 ^ 32 * r.cclaim)]).flatten ++
  (s.cell.allocs.toList.map fun a => [nat64 a.bump, nat64 a.rbase, nat64 a.rhead, nat64 a.rtail, nat64 a.rlive]).flatten

/-- A place of a started entry. -/
def Place.body : Place → List Word
  | .none => [0]
  | .glob va => [1, va]
  | .store st off => numBody [2, st, off]

/-- A layout record that a started entry has read. -/
def LRec.body (r : LRec) : List Word := numBody [bit r.used, r.base, r.fmt, r.geo, r.lslot, r.stride, r.lines]

/-- Format, geometry and table slot of a page. -/
def attrBody (a : Nat × Nat × Nat) : List Word := numBody [a.1, a.2.1, a.2.2]

/-- Words of a list of words, with their number. -/
def wordsBody (ws : List Word) : List Word := listBody (fun w => [w]) ws

/-- What an entry read or resolved at its start (R160). -/
def Start.body (t : Start) : List Word :=
  t.src.body ++ t.dst.body ++ optBody attrBody t.sattr ++ optBody attrBody t.dattr ++
  listBody (fun bs => listBody (fun (b : Byte) => [nat64 b.toNat]) bs) t.got ++ numBody [bit t.ready, t.acc, t.bypAt] ++
  optBody LRec.body t.recA ++ listBody LRec.body t.recB ++
  optBody (fun x => listBody (fun n => [nat64 n]) x.1 ++ listBody (fun n => [nat64 n]) x.2.1 ++
    numBody [bit x.2.2.1, x.2.2.2.1, x.2.2.2.2]) t.seg ++
  wordsBody t.desc ++ wordsBody t.list ++ listBody (fun (l : Lane) => [nat64 l.toNat]) t.byp ++
  listBody (fun (x : Nat × BitVec 32) => numBody [x.1, x.2.toNat]) t.table

/-- A started, armed or evaluated entry: its identity, its word, its popped values, its progress, the tiles it holds, and what
it read at its start. -/
def Entry.body (e : Entry) : List Word :=
  [nat64 e.seq, e.pc] ++ numBody [e.enq, e.lead, encodeEngine e.op] ++ wordsBody e.vals ++ [e.prog] ++
  numBody [e.done, e.next, e.group, e.firing] ++ listBody (fun h => [nat64 h]) e.fill ++ listBody (fun h => [nat64 h]) e.drain ++
  optBody (fun c => [nat64 c]) e.fin ++ numBody [bit e.chained, bit e.posted, bit e.armed, bit e.trig, bit e.disarm] ++ e.start.body

/-- A recorded fault (R157). -/
def QFault.body (f : QFault) : List Word :=
  [nat64 f.cause, f.addr, nat64 f.seq, f.pc, f.prog] ++ numBody [f.firing, bit f.armed, bit f.atWord]

/-- A queue: its words, its numbers, its parameter stacks, its entries and its fault. -/
def Queue.body (v : Queue) : List Word :=
  listBody (fun (w : EWord) => [nat64 w.w.toNat, w.pc, nat64 w.enq]) v.words ++
  numBody [v.nextSeq, v.issued, bit v.inChain, bit v.stopped, v.gateWait] ++ wordsBody v.stack ++ wordsBody v.chain ++
  listBody Entry.body v.run ++ listBody Entry.body v.armed ++ optBody Entry.body v.chainEntry ++ optBody QFault.body v.fault

def State.bodyAccounts (s : State) : List Word :=
  (List.range 101).map s.account ++ (List.range 32).map (Sparse.get s.acct.energy) ++
  (s.acct.caps.toList.map fun c => nat64 c.st :: ((List.range 104).map (Sparse.get c.base) ++ (List.range 104).map (Sparse.get c.vals))).flatten ++
  [0x160, 0x161, 0x162, 0x170, 0x171, 0x172].map s.readCsr

/-- Pairs of numbers, with how many there are. -/
def pairsBody (l : List (Nat × Nat)) : List Word := listBody (fun x => numBody [x.1, x.2]) l

/-- A posting (R276): its counts, epoch and mode, its rank list, its chunk bitmap, and what ordered mode has applied and
holds. -/
def Posting.body (p : Posting) : List Word :=
  numBody [p.cidx, p.tile, p.expect, p.got, p.epoch, bit p.ordered] ++ optBody (fun n => [nat64 n]) p.rq ++ wordsBody p.ranks ++
  pairsBody p.bitmap ++ pairsBody p.applied ++
  listBody (fun (h : Nat × Nat × Lane) => numBody [h.1, h.2.1, h.2.2.toNat]) p.held

/-- Barrier generations and arrivals, postings, and the chunk bitmaps and epochs of withdrawn ones (R288). -/
def State.bodyBarriers (s : State) : List Word :=
  (s.cell.bars.toList.map fun b => [nat64 b.gen, b.arrived]).flatten ++ [s.cell.endedRanks] ++
  listBody Posting.body s.coll.postings ++
  listBody (fun (l : Withdrawn) => numBody [l.cidx, l.epoch, l.bytes] ++ wordsBody l.ranks ++ pairsBody l.bitmap) s.coll.last ++
  listBody (fun n => [nat64 n]) s.coll.cues

/-- The sections of the cell's image, ascending by ID and AUX. -/
def State.image (s : State) : List (List Word) :=
  let r := s.cell.rank
  [imageSection 1 r 0 s.bodyRegs] ++
  (((List.range 12).filter s.cell.dirtyBanks.getLsbD).map fun b => imageSection 2 r b (s.bodyBank b)) ++
  ((List.range 3).map fun st => (granuleRuns (s.dirtyOf st)).map fun g =>
    imageSection 3 r (2 ^ 22 * st + g.1) (wordsOfBytes (512 * g.2) (s.storeBytes st (4096 * g.1) (4096 * g.2)))).flatten ++
  [imageSection 4 r 0 s.bodyTiles,
   imageSection 5 r 0 ((s.cell.queues.toList.map Queue.body).flatten ++ listBody Entry.body s.cell.chained),
   imageSection 6 r 0 ((List.range 128).map (Sparse.get s.cell.terms)),
   imageSection 7 r 0 ((List.range 408).map s.frameWord),
   imageSection 8 r 0 (nat64 s.core.preLatch.length :: (s.core.preLatch.map fun l => l.record 0).flatten),
   imageSection 9 r 0 s.bodyAccounts, imageSection 10 r 0 (packLanes (Sparse.getRun s.cell.lat2 0 1024)),
   imageSection 11 r 0 s.bodyBarriers]

/-! ### Saving (R337) -/

/-- The save may end: the cell is stopped and nothing of it is on its way. -/
def State.mayDepart (s : State) : Bool :=
  s.core.status == .preempted && s.mgr.restoreAt.isNone && s.allSettled

/-- CONTEXT_SAVE (R337): the image is written and the context departs; the clk before this one was its last. -/
def execContextSave (s : State) : Out :=
  if !s.mayDepart then .next s
  else
    let s1 := s.closeRuns.disown
    .next { s1 with
      core := { s1.core with status := .away }
      lq := { s1.lq with troupes := s1.lq.troupes.map fun t => if s.owns t then { t with away := true } else t }
      mgr := { s1.mgr with images := s.image, departed := s.clk - 1, preemptAt := none } }

/-! ### Restoring (R331, R333, R338, R342) -/

/-- Clean banks are zero and full, clean granules zero, check bits regenerated, caches empty (R331, R333). -/
def State.cleanRest (s : State) : State :=
  let bank := fun (w : Nat) => s.cell.dirtyBanks.getLsbD (bankOf w)
  let gran := fun (st a : Nat) => decide (Sparse.get s.cell.dirtyGran (1024 * st + a / 4096) = 1)
  { s with
    cell := { s.cell with
      rsp := s.cell.rsp.filter fun e => bank e.1
      rspEmpty := s.cell.rspEmpty.filter fun e => bank e.1
      store0 := s.cell.store0.filter fun e => gran 0 e.1
      store1 := s.cell.store1.filter fun e => gran 1 e.1
      store2 := s.cell.store2.filter fun e => gran 2 e.1
      rspErr := [], storeErr := [], rankCache := [] }
    sys := { s.sys with ctlb := [], tlb := [], walks := [], missed := [], readClks := [] } }

/-- n clk away charged to every slot that is charged, and added to the elapsed count (R198, R342). -/
def State.chargeAway (s : State) (n : Nat) : State :=
  let s1 := if s.isEnded then s else (s.chargeSlot 0 .notResident s.core.pc n).chargeSlot 1 .notResident s.core.pc n
  let s2 := [2, 3, 4].foldl (fun (t : State) slot => t.chargeSlot slot .notResident (s.slotPc slot) n) s1
  { s2 with acct := { s2.acct with elapsed := s2.acct.elapsed + BitVec.ofNat 64 n } }

/-- A troupe on its new cells, rank by rank (R338). -/
def Troupe.moveTo (t : Troupe) (cells : List Nat) : Troupe :=
  { t with
    cells := cells, away := false
    done := t.done.map fun d => ((cells[(t.cells.findIdx? (· == d.1)).getD 0]?).getD d.1, d.2) }

/-- The cell on which the modelled context resumes. -/
def State.placeCell (s : State) : Nat := s.inp.place[s.cell.rank]?.getD s.gcell

/-- Restoration begins at clk r = this one, on the cells chosen. Departure was a release, so that the die it resumes on has
every order that the die it left had (R337). -/
def State.beginRestore (s : State) : State :=
  let s1 := (s.cleanRest.chargeAway (s.clk - s.mgr.departed - 1)).joinVc (s.placeCell / 64) (s.vcOf s.die)
  { s1 with
    gcell := s.placeCell
    core := { s1.core with status := .preempted }
    lq := { s1.lq with troupes := s1.lq.troupes.map fun t => if s.owns t then t.moveTo s.inp.place else t }
    mgr := { s1.mgr with restoreAt := some (s.clk + s.inp.restoreClk) }
    inp := { s1.inp with restore := false } }

/-- Parked contributions are received again (R288). -/
def State.unpark (s : State) : State :=
  State.receiveAll { s with coll := { s.coll with parked := [] } } s.coll.parked

/-- The resumed context's first clk. -/
def State.endRestore (s : State) : State :=
  let s1 : State := { s with mgr := { s.mgr with restoreAt := none, heldHalted := false } }
  if s.mgr.heldHalted then (s1.setCore { s1.core with status := .halted }).unpark
  else (s1.resumeCell false).unpark

/-- Dies on which the troupe's scene may be placed (R309). -/
def State.troupeDies (s : State) (t : Troupe) : List Nat :=
  ((s.lq.scenes.find? fun c => c.queue == t.queue && c.index == t.index).map fun c => s.allowed c.queue c.record).getD
    (List.range 24)

/-- The cells chosen may take the troupe: as many as it has, in ascending order, usable and free, all of one allowed die (R210,
R393). -/
def State.placeFree (s : State) : Bool :=
  let d := s.placeCell / 64
  s.inp.place.length == s.cell.troupeSize && decide (s.inp.place.Pairwise (· < ·)) &&
  (s.inp.place.all fun c => (s.usableOn d).contains c && !s.cellBusy c) &&
  (s.lq.troupes.filter s.owns).all fun t => (s.troupeDies t).contains d

/-- CONTEXT_RESTORE (R338): a restore asked for begins, unless a section does not decode (R340); at c′ the cell resumes
issue. -/
def execContextRestore (s : State) : Out :=
  match s.mgr.restoreAt with
  | some c => if c ≤ s.clk then .next s.endRestore else .next s
  | none =>
    if !s.inp.restore || s.core.status != .away || !s.placeFree then .next s
    else if !s.mgr.images.all sectionOk then
      .next (State.reportFault { s with inp := { s.inp with restore := false } } Code.format)
    else
      let t := s.beginRestore
      .next (if s.inp.restoreClk = 0 then t.endRestore else t)

end Sys2Proof.Machine
end

