-- ==== Sys2Proof/Machine/Fabric.lean ====
section
/-!
DEFINITION. The fabric: membership and routing (R328, R353, R354), refusals (R329), ingress (R257, R330, R355), flits
(R356, R357), links (R391, R392), and the host link with its BARs and mailbox registers (R360, R361, R406, R407).
-/

namespace Sys2Proof.Machine

/-! ### Path choice (R354) -/

/-- Flits queued at a port in a class. -/
def State.queued (s : State) (p cls : Nat) : Nat := ((s.fab.ports[p]?).map fun x => x.waiting cls).getD 0

/-- The port of a request: class 0 takes the minimal path, the others compare it with one alternate (R354). -/
def State.pathOf (s : State) (r : Req) (dev : Nat) : Option Nat :=
  if !(s.route dev 0).getLsbD 10 then none
  else
    let alts := s.alternates dev
    match s.minPort dev with
    | none => alts.head?
    | some m =>
      if r.cls = 0 || alts.isEmpty then some m
      else
        let a := (alts[Config.freePath r.id % alts.length]?).getD m
        if 2 * s.queued a r.cls + 16 < s.queued m r.cls then some a else some m

/-- Why a request cannot leave: a device that cannot be reached, or a key that its port lacks (R328, R352, R354). -/
def State.stuck (s : State) (r : Req) : Option Nat :=
  match r.dev with
  | none => none
  | some d =>
    if s.ndev ≤ d then some 3
    else match s.pathOf r d with
      | none => some 3
      | some p => if s.member p r.key then none else some 1

/-- A request whose path is still to be chosen: a vat operation first passes the switch of its own die (R263). -/
def State.toRoute (s : State) (r : Req) : Bool :=
  !(s.fab.routed.any fun x => x.1 == r.id) && s.nextPoint r != some r.die

/-! ### FABRIC_REFUSAL_ARRIVES (R329) -/

/-- A request leaves the list of those that are out; its refusal came back as one flit, or none where it never left. -/
def State.dropOut (s : State) (r : Req) (flits : Nat) : State :=
  if r.mine then (s.outDone r.id).count 20 flits else s.outDone r.id

/-- The first request refused here, or the first refusal that has come back. -/
def execFabricRefusalArrives (s : State) : Out :=
  match s.fab.out.find? fun r => s.toRoute r && (s.stuck r).isSome with
  | some r =>
    let why := (s.stuck r).getD 3
    let s1 := s.dropOut r 0
    let s2 := if why = 1 then s1.dropKey (((r.dev.bind fun d => s.pathOf r d)).getD 0) else s1
    .next (s2.refuse r why s.devid)
  | none =>
    match s.inp.refusals with
    | [] => .next s
    | (id, x) :: rs =>
      let s1 : State := { s with inp := { s.inp with refusals := rs } }
      match s.fab.out.find? fun r => r.id == id with
      | some r => .next ((s1.dropOut r 1).refuse r x.why x.dev)
      | none => .next s1

/-! ### Flits (R356, R357) -/

/-- Weights of the round (R357). -/
def flitWeight : Nat → Nat
  | 0 => 8
  | 1 => 8
  | 2 => 4
  | _ => 1

/-- Half of a port's flits in 1 µs: 400 GB/s in 64-byte flits (R2, R357). -/
def halfShare : Nat := 3125

/-- Class 0 has strict priority while within its share. -/
def Port.strict (p : Port) : Bool := decide (p.used0 ≤ halfShare) && decide (0 < p.waiting 0)

/-- One flit of a class leaves. -/
def Port.take (p : Port) (c : Nat) : Port :=
  match p.queues[c]?.getD [] with
  | [] => p
  | f :: fs =>
    { p with
      queues := setAt p.queues c (if f.n ≤ 1 then fs else { f with n := f.n - 1 } :: fs)
      used0 := if c = 0 then p.used0 + 1 else p.used0
      nextSeq := p.nextSeq + 1, unacked := p.unacked ++ [(p.nextSeq, { f with n := 1 })] }

/-- Deficit round robin from the class whose turn it is. -/
def Port.round (p : Port) : Nat → Option Port
  | 0 => none
  | fuel + 1 =>
    let c := p.turn % 4
    let d := p.deficit[c]?.getD 0
    let next := fun (q : Port) (left : Nat) =>
      let t := (c + 1) % 4
      { q with turn := t, deficit := setAt (setAt q.deficit c left) t ((q.deficit[t]?.getD 0) + flitWeight t) }
    if p.waiting c = 0 then Port.round (next p 0) fuel
    else if d = 0 then Port.round (next p 0) fuel
    else some { p.take c with deficit := setAt p.deficit c (d - 1) }

/-- The next flit of a port. -/
def Port.arbitrate (p : Port) : Option Port := if p.strict then some (p.take 0) else p.round 9

/-- A port begins a new window each µs. -/
def Port.inWindow (p : Port) (w : Nat) : Port := if p.window = w then p else { p with window := w, used0 := 0 }

/-- The oldest request without a path is given one; its flits are queued, once it has passed every pairing point on the way
(R354). -/
def State.routeNext (s : State) : State :=
  match s.fab.out.find? fun r => s.toRoute r && (s.stuck r).isNone with
  | none => s
  | some r =>
    match r.dev.bind fun d => s.pathOf r d with
    | none => s
    | some i => State.queueFlits { s with fab := { s.fab with routed := s.fab.routed ++ [(r.id, i)] } } r

/-- A flit that a port has just sent, counted where it is the modelled cell's (R346, R347). -/
def State.countFlit (s : State) (p : Port) : State :=
  if ((p.unacked.getLast?).map fun f => f.2.own).getD false then s.count 19 1 else s

/-- FLIT_ARBITRATION (R357): the port named by the event chooses its next flit; requests are routed as they come. -/
def execFlitArbitration (s : State) : Out :=
  let s1 := s.routeNext
  let i := s.actq
  match (s1.fab.ports[i]?).bind fun p => if p.up then (p.inWindow (s.clk / 2000)).arbitrate else none with
  | some p => .next ((s1.setPort i p).countFlit p)
  | none => .next s1

/-! ### Links (R391, R392) -/

/-- The packets that a port still holds, or that its link has not acknowledged (R392). -/
def Port.held (p : Port) : List Flits := p.queues.flatten ++ p.unacked.map Prod.snd

/-- The port no longer carries traffic; the router sends the packets that it holds on again: requests of the module whole, and
what passes through by the flits left of it. -/
def State.portDown (s : State) (i : Nat) : State :=
  let p := (s.fab.ports[i]?).getD Port.reset
  let s1 := State.setPort { s with fab := { s.fab with routed := s.fab.routed.filter fun x =>
      !(x.2 == i && p.held.any fun f => f.id == some x.1) } } i
    { p with up := false, queues := [[], [], [], []], unacked := [], retries := 0 }
  (p.held.filter fun f => f.id.isNone).foldl (fun (t : State) f => match t.hopTo f.dev with
    | some j => t.enqueueFlits j f
    | none => t) s1

/-- MBSTAT.ERR records a condition, with its message (R408). -/
def State.recordErr (s : State) (e : Nat) : State :=
  if s.mgr.phase = 15 then s else { s with mgr := { s.mgr with err := e, msix := s.mgr.msix ++ [1025] } }

/-- LINK_RETRY (R391): an acknowledgement ends retries up to its flit; a failure makes the port send again. -/
def execLinkRetry (s : State) : Out :=
  match s.inp.flitAcks with
  | (i, n) :: as =>
    let p := (s.fab.ports[i]?).getD Port.reset
    .next (State.setPort { s with inp := { s.inp with flitAcks := as } } i
      { p with unacked := p.unacked.filter (fun f => decide (n < f.1)), retries := 0 })
  | [] =>
    match s.inp.flitFail with
    | [] => .next s
    | i :: is =>
      let p := (s.fab.ports[i]?).getD Port.reset
      .next (State.setPort { s with inp := { s.inp with flitFail := is } } i { p with retries := p.retries + 1 })

/-- LINK_DOWN (R391, R392, R408): a port on which one flit has failed 16 consecutive retries goes down, and is retired. -/
def execLinkDown (s : State) : Out :=
  match (List.range 36).find? fun i => ((s.fab.ports[i]?).map fun p => p.up && decide (16 ≤ p.retries)).getD false with
  | some i => .next ((s.portDown i).recordErr 0x12)
  | none => .next s

/-- LINK_RETIREMENT (R391): a port whose retry rate the stage manager has found too high is retired. -/
def execLinkRetirement (s : State) : Out :=
  match s.inp.linkFail with
  | [] => .next s
  | i :: is => .next ((State.portDown { s with inp := { s.inp with linkFail := is } } i).recordErr 0x12)

/-- A port's bits of PORTMAP: in service, and serving as a replacement (R387). -/
def State.setPortmap (s : State) (i : Nat) (up spare : Bool) : State :=
  let d := 24 + i / 9
  let w := mapOf s.mgr.portmap d
  { s with mgr := { s.mgr with portmap :=
    s.mgr.portmap.setIfInBounds d (Word.setBits (Word.setBits w (i % 9) 1 (bit up)) (9 + i % 9) 1 (bit spare)) } }

/-- ROUTING_TABLE_REWRITE (R353, R391): new table words are in force, ports that are down leave PORTMAP, and a spare port is
brought into service. -/
def execRoutingTableRewrite (s : State) : Out :=
  let s1 : State := { s with
    fab := { s.fab with routes := putRoutes s.fab.routes s.inp.routes }
    inp := { s.inp with routes := [], spares := [] } }
  let s2 := (List.range 36).foldl (fun (t : State) i =>
    if ((t.fab.ports[i]?).map Port.up).getD false then t else t.setPortmap i false false) s1
  let bring := fun (t : State) (i : Nat) =>
    let p := (t.fab.ports[i]?).getD Port.reset
    ((t.setPort i { p with up := true, retries := 0 }).setPortmap i true true).recordErr 0x12
  .next (s.inp.spares.foldl bring s2)

/-! ### Packets that pass through (R328, R354) -/

/-- A refusal sent to the source of a packet. -/
def State.refusePacket (s : State) (dev key cls why : Nat) : State := s.replyTo dev key cls 1 why 0

/-- A packet of other modules arrives at a port and leaves by another toward its target: a port whose table lacks its key drops
it, and tells the source of a request, as where no path goes on (R328, R354). -/
def State.passThrough (s : State) (x : Transit) : State :=
  let back := fun (t : State) (why : Nat) => if x.reply then t else t.refusePacket x.dev x.key x.cls why
  if !s.member x.port x.key then back (s.dropKey x.port) 1
  else match s.hopTo x.goal with
    | none => back s 3
    | some p =>
      if s.member p x.key then s.enqueueFlits p { n := x.flits, cls := x.cls, dev := x.goal, id := none, own := false }
      else back (s.dropKey p) 1

/-! ### Ingress (R257, R328, R330, R355) -/

/-- A compatibility-mode access as the target's tables see it: at user level (R330). -/
def ReqOp.access (op : ReqOp) : Access := if op.writes then (if op.reads then .both else .write) else .read

/-- The cached translation of such an access, one with D = 0 left out for a write (R323, R330). -/
def State.ingressPage (s : State) (asid : Nat) (va : Word) (acc : Access) : Option Page :=
  s.fab.icache.find? fun p =>
    decide (p.asid = asid) && decide (p.base ≤ va56 va) && decide (va56 va < p.base + p.size) &&
      !(acc.writes && !p.w0.getLsbD 7)

/-- A walk of the target's tables by a hub: its reads join M_h of their homes, A and D are set as R324 has it, and the
ingress's cache takes the page (R330). WHY 5 is a fault of translation, 6 one of permission. -/
def State.ingressWalk (s : State) (hub asid root : Nat) (va : Word) (acc : Access) : State × Except Nat Page :=
  let s0 := (s.walkAddrs (va56 va) root levels).foldl (fun (t : State) e => t.joinVc hub (t.maxOf (homeOf e))) s
  match s.walkFrom asid (va56 va) root levels with
  | .fault _ => (s0, .error 5)
  | .leaf e p =>
    if !permitted p.w0 acc false false then (s0, .error 6)
    else
      let w0 := p.w0 ||| 0x40 ||| (if acc.writes then 0x80 else 0)
      let q : Page := { p with w0 := w0 }
      let s1 := if w0 = p.w0 then s0 else s0.writeEntry hub e w0
      ({ s1 with fab := { s1.fab with icache := cachePage 1024 s1.fab.icache q } }, .ok q)

/-- The physical address of a compatibility-mode access, or why it is refused: the mode, the pairs, translation and permission,
and what the page must be (R330; WHY 6 for the page's kind is a DESIGN CHOICE, log 23). -/
def State.compatPa (s : State) (g : Ingress) (asid : Nat) (va : Word) : State × Except Nat Nat :=
  match if s.fab.compat then s.fab.roots.find? fun r => r.1 == asid else none with
  | none => (s, .error 4)
  | some r =>
    if !canonical va then (s, .error 5)
    else
      let acc := g.op.access
      let x : State × Except Nat Page := match s.ingressPage asid va acc with
        | some p => (s, if permitted p.w0 acc false false then .ok p else .error 6)
        | none => s.ingressWalk g.hub asid r.2 va acc
      match x with
      | (t, .error w) => (t, .error w)
      | (t, .ok p) =>
        if (p.fmt ≠ 0 && p.fmt ≠ 3) || p.rwin || p.coll ≠ 0 then (t, .error 6) else (t, .ok (p.pa (va56 va)))

/-- The operation with its bytes at a physical address: they move with it. -/
def ReqOp.moveTo (op : ReqOp) (old new : Nat) : ReqOp :=
  let moved := fun (a : Nat) => a + new - old
  match op with
  | .store bs => .store (bs.map fun b => (moved b.1, b.2))
  | .vload f es => .vload f (es.map fun e => (e.1, moved e.2))
  | .route os bs => .route (os.map fun o => (moved o.1, o.2)) (bs.map fun b => (moved b.1, b.2))
  | o => o

/-- A contribution is homed at the die of its receiver; anything else where its address is (R252, R257). -/
def ReqOp.place (op : ReqOp) (pa : Nat) : Nat :=
  match op with
  | .contrib c => c.tcell / 64 * 2 ^ 37
  | _ => pa

/-- A request admitted is issued into the module by its hub's die (R257). -/
def State.letIn (s : State) (g : Ingress) (pa : Nat) (op : ReqOp) : State :=
  let at' := op.place pa
  let r : Req :=
    { id := s.sys.nextId, op := op, pa := at', va := 0, home := homeOf at', die := g.hub, stamp := s.stampOf g.hub op,
      rclk := s.vcOf g.hub, dest := .none, queue := g.queue, seq := g.entry, pc := g.pc, dev := none, cls := g.cls, key := g.key,
      acq := false, casid := none, origin := .module g.dev g.cell }
  let t := if op.writes then s.marksWrite g.hub else s
  { t with sys := { t.sys with nextId := s.sys.nextId + 1, reqs := t.sys.reqs ++ [r] } }

/-- Something lies where the operation goes (R312). -/
def State.opPresent (s : State) (pa : Nat) : ReqOp → Bool
  | .contrib _ => true
  | _ => s.presentPa pa

/-- A request applied in its turn. -/
def State.ingressApply (s : State) (g : Ingress) : State :=
  let enter := fun (t : State) (pa : Nat) (op : ReqOp) =>
    if t.opPresent pa op then t.letIn g pa op else t.refusePacket g.dev g.key g.cls 7
  match g.casid with
  | some (asid, va) =>
    match s.compatPa g asid va with
    | (t, .error w) => t.refusePacket g.dev g.key g.cls w
    | (t, .ok pa) => enter t pa (g.op.moveTo g.pa pa)
  | none => enter s g.pa g.op

/-- The sequence number expected of a source and class (R355). -/
def State.expected (s : State) (g : Ingress) : Nat :=
  ((s.fab.expect.find? fun x => x.1 == g.dev && x.2.1 == g.cell && x.2.2.1 == g.cls).map fun x => x.2.2.2).getD 0

/-- The request is applied, and the next number is expected; of one that was dropped only the number is used up. -/
def State.ingressTake (s : State) (g : Ingress) : State :=
  let n := s.expected g
  let t : State := { s with fab := { s.fab with expect :=
    (g.dev, g.cell, g.cls, n + 1) :: s.fab.expect.filter fun x => !(x.1 == g.dev && x.2.1 == g.cell && x.2.2.1 == g.cls) } }
  if g.void then t else t.ingressApply g

/-- A request waits at the ingress while its hub's traffic is held, or until the homes of the tables that a walk for it reads
hold the hub's clock (R256, R258, R330, R395). -/
def State.ingressHeld (s : State) (g : Ingress) : Bool :=
  !g.void && (s.dieHeld g.hub g.op.writes || (match g.casid with
    | some (asid, va) => (s.ingressPage asid va g.op.access).isNone && !s.holds (s.vcOf g.hub) none
    | none => false))

/-- A request whose turn has come, and that may go in. -/
def State.turnCome (s : State) (g : Ingress) : Bool := g.seq == s.expected g && !s.ingressHeld g

/-- A request at the ingress goes in, is kept until its turn, or is discarded as applied already (R355, R392). -/
def State.comesIn (s : State) (g : Ingress) : State :=
  if g.seq < s.expected g then s
  else if s.turnCome g then s.ingressTake g
  else { s with fab := { s.fab with waiting := s.fab.waiting ++ [g] } }

/-- The table that drops an arriving request for its key: that of its port, or the ingress's. -/
def State.keyTable (s : State) (g : Ingress) : Option Nat :=
  if g.void then none
  else if !s.member g.port g.key then some g.port
  else if !s.member 36 g.key then some 36 else none

/-- INGRESS_REQUEST_ARRIVAL (R328, R355): a packet for another module passes through; a request kept whose turn has come goes
in; the oldest arrival is dropped for its key, or comes to the ingress. -/
def execIngressRequestArrival (s : State) : Out :=
  match s.inp.transit with
  | x :: xs => .next (State.passThrough { s with inp := { s.inp with transit := xs } } x)
  | [] =>
    match s.fab.waiting.find? s.turnCome with
    | some g =>
      .next (State.ingressTake { s with fab := { s.fab with waiting := s.fab.waiting.filter fun x => x != g } } g)
    | none =>
      match s.inp.ingress with
      | [] => .next s
      | g :: gs =>
        let s1 : State := { s with inp := { s.inp with ingress := gs } }
        match s1.keyTable g with
        | some t =>
          .next (((s1.dropKey t).refusePacket g.dev g.key g.cls (if t = 36 then 2 else 1)).comesIn { g with void := true })
        | none => .next (s1.comesIn g)

/-! ### The host (R360, R361, R406, R407) -/

/-- MBSTAT (R407). -/
def State.mbstat (s : State) : Word := BitVec.ofNat 64 (s.mgr.phase + 2 ^ 8 * s.mgr.err + 2 ^ 16 * bit s.mgr.busy)

/-- A write of MBDOOR: a listed command is taken up, or nothing changes. -/
def State.doorbell (s : State) (v : Word) : State :=
  let c := Word.bits v 0 8
  if s.mgr.busy || Word.bits v 8 56 ≠ 0 || c = 0 || 7 < c || (s.mgr.phase ≠ 5 && c ≠ 7) then s
  else { s with mgr := { s.mgr with busy := true, cmd := some c } }

/-- A write of the mailbox. -/
def State.mailWrite (s : State) (off : Nat) (v : Word) : State :=
  if off = 8 then s.doorbell v
  else if 0x10 ≤ off ∧ off ≤ 0x48 ∧ off % 8 = 0 then
    { s with mgr := { s.mgr with args := s.mgr.args.setIfInBounds ((off - 0x10) / 8) v } }
  else s

/-- A word of the stop area (R374, R407): 47 words per cell in ascending rank; what other cells and a stop that is not held
give is a free value (log 9). -/
def State.stopWord (s : State) (i : Nat) : Word :=
  if s.mgr.stop.isEmpty || decide (i / 47 ≠ s.cell.rank) then Config.freeHost (0x1000 + 8 * i)
  else s.mgr.stop[i % 47]?.getD 0

/-- A read of the mailbox; an offset that R407 does not list gives a free value (log 9). -/
def State.mailRead (s : State) (off : Nat) : Word :=
  if off = 0 then s.mbstat
  else if 0x10 ≤ off ∧ off ≤ 0x48 then s.mgr.args[(off - 0x10) / 8]?.getD 0
  else if 0x80 ≤ off ∧ off ≤ 0xB8 then s.mgr.res[(off - 0x80) / 8]?.getD 0
  else if 0x1000 ≤ off then s.stopWord ((off - 0x1000) / 8)
  else Config.freeHost off

/-- The hub die of the host port (R360). -/
def hostDie : Nat := 24

/-- Bytes written by the host through BAR4, sent to their home as a write of the host hub's die (R361). -/
def State.hostStore (s : State) (bs : List (Nat × Byte)) : State :=
  match bs with
  | [] => s
  | b :: _ =>
    if !(bs.all fun x => s.presentPa x.1) then s
    else
      let op : ReqOp := .store bs
      let r : Req :=
        { id := s.sys.nextId, op := op, pa := b.1, va := 0, home := homeOf b.1, die := hostDie, stamp := s.stampOf hostDie op
          rclk := s.vcOf hostDie, dest := .none, queue := 15, seq := 0, pc := 0, dev := none, cls := 0, key := 0, acq := false
          casid := none, origin := .hub hostDie }
      let t := s.marksWrite hostDie
      { t with sys := { t.sys with nextId := s.sys.nextId + 1, reqs := t.sys.reqs ++ [r] } }

/-- A write of the host is on its way to its home, or its die's traffic is held: what it asks for next waits, so that its
accesses are performed in order (R258, R361). -/
def State.hostWaits (s : State) (write : Bool) : Bool :=
  s.dieHeld hostDie write || s.sys.reqs.any fun r => r.origin == .hub hostDie && decide (r.queue = 15)

/-- HOST_WRITE (R361): the oldest posted write is applied; before READY only BAR2 answers (R406). -/
def execHostWrite (s : State) : Out :=
  match s.inp.hostWrites with
  | [] => .next s
  | (bar, off, n, v) :: ws =>
    let s1 : State := { s with inp := { s.inp with hostWrites := ws } }
    if !s.mgr.linkUp then .next s1
    else if bar = 2 then .next (s1.mailWrite off v)
    else if s.mgr.phase ≠ 5 then .next s1
    else if s.hostWaits true then .next s
    else if bar = 0 then .next (s1.notifyBytes (bytesAt off n v.toNat))
    else
      let pa := s.mgr.aperture + off
      if inNotify pa then .next (s1.notifyBytes (bytesAt (pa - 0xF000100000000) n v.toNat))
      else .next (s1.hostStore (bytesAt pa n v.toNat))

/-- HOST_READ (R361): the oldest read is answered; before READY reads of BAR0 and BAR4 return all ones (R406). What a read of an
absent address or of an uncorrectable line returns is a free value (log 9). -/
def execHostRead (s : State) : Out :=
  match s.inp.hostReads with
  | [] => .next s
  | (bar, off, n) :: rs =>
    let s1 : State := { s with inp := { s.inp with hostReads := rs } }
    let give := fun (t : State) (v : Word) => ({ t with inp := { t.inp with hostData := t.inp.hostData ++ [v] } } : State)
    if !s.mgr.linkUp then .next s1
    else if bar = 2 then .next (give s1 (s.mailRead off))
    else if s.mgr.phase ≠ 5 then .next (give s1 (BitVec.ofNat 64 (2 ^ (8 * n) - 1)))
    else if s.hostWaits false then .next s
    else if bar = 0 then .next (give s1 (BitVec.ofNat 64 (s.notifyValue (off / 8) / 2 ^ (8 * (off % 8)) % 2 ^ (8 * n))))
    else
      let pa := s.mgr.aperture + off
      if !s.holds (s.vcOf hostDie) none then .next s
      else if !s.presentPa pa then .next (give s1 (Config.freeHost pa))
      else
        let x := s1.readLines [(pa, n)]
        let t := x.1.joinVc hostDie (s.maxOf (homeOf pa))
        .next (give t (if x.2 then Config.freeHost pa else BitVec.ofNat 64 (numOfBytes (s.homeBytes pa n))))

end Sys2Proof.Machine
end

