-- ==== Sys2Proof/Machine/Power.lean ====
section
/-!
DEFINITION. Scrubbers and retirement of cells (R384, R393), the mailbox commands (R375, R407), resets and bring-up
(R405, R406, R408), and islands under the power cap and the thermal limits (R399, R401, R403).
-/

namespace Sys2Proof.Machine

/-! ### Scrubbers (R384) -/

/-- Words of register space, and of the three stores. -/
def rspWords : Nat := 49152
def storeWords : Nat := 917504

/-- Store and word of the n-th word of a sweep through the stores. -/
def sweepWord (n : Nat) : Nat × Nat :=
  if n < 524288 then (0, n) else if n < 786432 then (1, n - 524288) else (2, n - 786432)

/-- An uncorrectable word or line is reported by address: 1 register space, 2 store, 3 memory. -/
def State.reportAddr (s : State) (kind a : Nat) : State :=
  { s with mgr := { s.mgr with badAddrs := s.mgr.badAddrs ++ [(kind, a)] } }

/-- One word of register space is read, corrected or reported. -/
def State.scrubReg (s : State) (w : Nat) : State :=
  let e := (Sparse.get s.cell.rspErr w).toNat
  if e = 0 then s
  else if e = 1 then (s.setCell { s.cell with rspErr := Sparse.set s.cell.rspErr w 0 }).countErrors s.die 1 0
  else (s.countErrors s.die 0 1).reportAddr 1 (4 * w)

/-- One word of a store. -/
def State.scrubStore (s : State) (st w : Nat) : State :=
  let k := st * 2 ^ 24 + w
  let e := (Sparse.get s.cell.storeErr k).toNat
  if e = 0 then s
  else if e = 1 then
    ((s.setCell { s.cell with storeErr := Sparse.set s.cell.storeErr k 0 }).count 27 1).countErrors s.die 1 0
  else (s.countErrors s.die 0 1).reportAddr 2 (2 ^ 24 * st + 4 * w)

/-- One line of a stack or the cellar. -/
def State.scrubLine (s : State) (l : Nat) : State :=
  let x := s.readLines [(64 * l, 64)]
  if x.2 then x.1.reportAddr 3 (64 * l) else x.1

/-- The cell's scrubbers read a word of register space and one of the stores every 16 clk. -/
def State.scrubCell (s : State) : State :=
  if s.clk % 16 ≠ 0 then s
  else
    let p := sweepWord (s.clk / 16 % storeWords)
    (s.scrubReg (s.clk / 16 % rspWords)).scrubStore p.1 p.2

/-- SCRUB_STEP (R384). -/
def execScrubStep (s : State) : Out :=
  let s1 := s.scrubCell
  match s1.inp.scrub with
  | [] => .next s1
  | l :: ls => .next (State.scrubLine { s1 with inp := { s1.inp with scrub := ls } } l)

/-- A scrubber finds something in this clk. -/
def State.scrubDue (s : State) : Bool :=
  !s.inp.scrub.isEmpty ||
  (decide (s.clk % 16 = 0) && (decide (Sparse.get s.cell.rspErr (s.clk / 16 % rspWords) ≠ 0) ||
    (let p := sweepWord (s.clk / 16 % storeWords)
     decide (Sparse.get s.cell.storeErr (p.1 * 2 ^ 24 + p.2) ≠ 0))))

/-! ### Retirement of a cell (R393) -/

/-- CELL_RETIREMENT (R393): the cell leaves CELLMAP, the modelled troupe that holds it is pre-empted and restored on the
cells chosen, and a die with fewer than 60 usable cells is reported. -/
def execCellRetirement (s : State) : Out :=
  match s.inp.retire with
  | [] => .next s
  | c :: cs =>
    let d := c / 64
    let s1 : State := { s with
      inp := { s.inp with retire := cs }
      mgr := { s.mgr with cellmap := s.mgr.cellmap.setIfInBounds d (Word.setBits (mapOf s.mgr.cellmap d) (c % 64) 1 0) } }
    let holds := s.lq.troupes.any fun t => t.cells.contains c && s.owns t
    let s2 : State := if holds || (decide (c = s.gcell) && s.resident) then
        { s1 with inp := { s1.inp with preempt := true, restore := true } } else s1
    .next (if (s2.usableOn d).length < 60 then s2.recordErr 0x10 else s2)

/-! ### Mailbox commands (R407) -/

/-- ARG0. -/
def State.arg0 (s : State) : Nat := (s.mgr.args[0]).toNat

/-- A command ends: RES0 0 done, 1 refused. -/
def State.endCommand (s : State) (r : Nat) : State :=
  { s with mgr := { s.mgr with
    cmd := none, busy := false, res := s.mgr.res.setIfInBounds 0 (BitVec.ofNat 64 r), msix := s.mgr.msix ++ [1024] } }

/-- APERTURE (R360, R407). -/
def execAperture (s : State) : Out :=
  if s.mgr.cmd ≠ some 1 then .next s
  else if s.arg0 % 2 ^ 36 ≠ 0 then .next (s.endCommand 1)
  else .next (State.endCommand { s with mgr := { s.mgr with aperture := s.arg0 } } 0)

/-- QTABLE (R294, R407). -/
def execQtable (s : State) : Out :=
  if s.mgr.cmd ≠ some 2 then .next s
  else if s.arg0 % 65536 ≠ 0 || !s.qUsed.isEmpty then .next (s.endCommand 1)
  else .next (State.endCommand { s with mgr := { s.mgr with qtable := some s.arg0 } } 0)

/-- CAP (R402, R407). -/
def execCap (s : State) : Out :=
  if s.mgr.cmd ≠ some 3 then .next s
  else if s.arg0 < 6000 || 18000 < s.arg0 then .next (s.endCommand 1)
  else .next ((s.setCsr 0x1D1 (BitVec.ofNat 64 s.arg0)).endCommand 0)

/-- TICKPER (R302, R407): the next edge uses it. -/
def execTickper (s : State) : Out :=
  if s.mgr.cmd ≠ some 4 then .next s
  else if s.arg0 < 2000 || 2 ^ 40 ≤ s.arg0 then .next (s.endCommand 1)
  else .next ((s.setCsr 0x181 (BitVec.ofNat 64 s.arg0)).endCommand 0)

/-- The troupe that ARG0 names. -/
def State.argTroupe (s : State) : Option Troupe := s.lq.troupes.find? fun t => t.cells.contains s.arg0

/-- The cell holds a context that runs. -/
def State.cellRuns (s : State) : Bool :=
  s.core.status == .running || s.core.status == .ended || s.core.status == .doubled

/-- RES1: cells in the stop area. -/
def State.setRes1 (s : State) (n : Nat) : State :=
  { s with mgr := { s.mgr with res := s.mgr.res.setIfInBounds 1 (BitVec.ofNat 64 n) } }

/-- HALT (R372, R407): every cell of the troupe is asked to halt; the command ends with the stop. The stops of other
troupes are theirs (log 1). -/
def execHalt (s : State) : Out :=
  if s.mgr.cmd ≠ some 5 then .next s
  else if s.mgr.haltAsked then
    if s.core.status == .halted && !s.mgr.stop.isEmpty then
      .next (State.endCommand (State.setRes1 { s with mgr := { s.mgr with haltAsked := false } } s.cell.troupeSize) 0)
    else if s.resident then .next s
    else .next (State.endCommand { s with mgr := { s.mgr with haltAsked := false }, inp := { s.inp with halt := false } } 1)
  else match s.argTroupe with
    | none => .next (s.endCommand 1)
    | some t =>
      if !s.owns t then .next ((s.setRes1 t.cells.length).endCommand 0)
      else if !s.cellRuns then .next (s.endCommand 1)
      else .next { s with mgr := { s.mgr with haltAsked := true }, inp := { s.inp with halt := true } }

/-- The halted cell goes on; its stop is over. -/
def State.resumeHalted (s : State) : State :=
  State.resumeCell { s with mgr := { s.mgr with stop := [] }, inp := { s.inp with resume := false } } true

/-- RESUME (R375, R407): by the mailbox, or by the stage manager itself. -/
def execResume (s : State) : Out :=
  if s.mgr.cmd = some 6 then
    match s.argTroupe with
    | none => .next (s.endCommand 1)
    | some t =>
      if !s.owns t then .next (s.endCommand 0)
      else if s.core.status == .halted then .next (s.resumeHalted.endCommand 0)
      else .next (s.endCommand 1)
  else if s.inp.resume && s.core.status == .halted then .next s.resumeHalted
  else .next s

/-! ### Resets (R405) -/

/-- CSRs fixed by the part: FEATURE, the energy weights and IDENT. -/
def partCsr (n : Nat) : Bool := decide (n = 0) || (decide (0x1A0 ≤ n) && decide (n ≤ 0x1A7)) || decide (n = 0x1C0)

/-- Every register at its reset value; what the part fixes and what is still to come from outside stay. -/
def State.resetAll (s : State) : State :=
  { State.reset with
    gcell := s.gcell, inp := s.inp
    csr := (s.csr.filter fun e => partCsr e.1).foldl (fun (c : Sparse 64) e => Sparse.set c e.1 e.2) State.reset.csr }

/-- WARMRESET (R405, R407): what the stacks and the cellar hold, and the maps of retired channels, are kept. -/
def execWarmreset (s : State) : Out :=
  if s.mgr.cmd ≠ some 7 then .next s
  else
    let r := s.resetAll
    .next (State.endCommand { r with
      mem := s.mem.filter fun e => lineCoded e.1
      mgr := { r.mgr with memErr := s.mgr.memErr.filter fun e => lineCoded (64 * e.1), chanmap := s.mgr.chanmap, warm := true } } 0)

/-- COLD_RESET (R405): power-on or PERST#. -/
def execColdReset (s : State) : Out :=
  if s.inp.cold then .next (State.resetAll { s with inp := { s.inp with cold := false } }) else .next s

/-- LINK_RESET (R405): the host port's link state alone. -/
def execLinkReset (s : State) : Out :=
  if s.inp.linkReset then
    .next { s with mgr := { s.mgr with linkUp := true }, inp := { s.inp with linkReset := false } }
  else .next s

/-- A junction at 120 °C or above, or coolant flow lost (R403). -/
def State.trips (s : State) : Bool := s.inp.coolantLost || s.pwr.temps.any fun t => decide (120 ≤ t.2.toNat)

/-- THERMAL_TRIP (R403): a cold reset with the host link down, which leaves ERR 0x01 for the next bring-up. -/
def execThermalTrip (s : State) : Out :=
  if !s.trips then .next s
  else
    let r := State.resetAll { s with inp := { s.inp with coolantLost := false, sensors := [] } }
    .next { r with mgr := { r.mgr with err := 1, linkUp := false } }

/-! ### Bring-up (R406, R408) -/

/-- Bring-up ends in FAILED with its cause. -/
def State.fail (s : State) (e : Nat) : State :=
  { s with mgr := { s.mgr with phase := 15, err := e, msix := s.mgr.msix ++ [1025] } }

def State.toPhase (s : State) (p : Nat) : State := { s with mgr := { s.mgr with phase := p } }

/-- Bits that a map of the stage manager has for a die: 0 CELLMAP, 1 CHANMAP, 2 PORTMAP, 3 CXLSIZE; none for an absent die
(R12, R387). -/
def State.mapBits (s : State) (kind die : Nat) : Nat :=
  if !s.diePresent die then 0
  else if die < 24 then (if kind = 0 then 64 else if kind = 1 then 32 else 0)
  else if kind = 1 then 24 else if kind = 2 then 18 else if kind = 3 then 32 else 0

/-- A map with the results of the tests of its kind. -/
def State.mapped (s : State) (kind : Nat) (m : Vector Word 28) : Vector Word 28 :=
  (s.inp.maps.filter fun e => e.1 == kind).foldl (fun (m : Vector Word 28) e =>
    m.setIfInBounds e.2.1 (BitVec.ofNat 64 (Word.bits e.2.2 0 (s.mapBits kind e.2.1)))) m

/-- Dies that the part has. -/
def State.computeDies (s : State) : List Nat := (List.range 24).filter s.diePresent
def State.hubDies (s : State) : List Nat := ((List.range 4).map (24 + ·)).filter s.diePresent

/-- SELFTEST: CELLMAP is written. -/
def State.selftest (s : State) : State :=
  let s1 : State := { s with mgr := { s.mgr with cellmap := s.mapped 0 s.mgr.cellmap } }
  let cells := s1.computeDies.map fun d => (s1.usableOn d).length
  if cells.any (· == 0) then s1.fail 5
  else ((if cells.any fun n => decide (n < 60) then s1.recordErr 0x10 else s1)).toPhase 2

/-- MEMORY: CHANMAP is written, but for a warm reset; CXL memory is sized. -/
def State.trainMemory (s : State) : State :=
  let s1 : State := { s with mgr := { s.mgr with
    chanmap := if s.mgr.warm then s.mgr.chanmap else s.mapped 1 s.mgr.chanmap, cxlsize := s.mapped 3 s.mgr.cxlsize } }
  let chans := (s1.computeDies.map fun d => [s1.stackChans d 0, s1.stackChans d 1]).flatten
  let cellars := s1.hubDies.map s1.cellarChans
  if chans.any (· == 0) then s1.fail 6
  else if cellars.any (· == 0) then s1.fail 7
  else
    let retired := !s.mgr.warm && (chans.any (fun n => decide (n < 16)) || cellars.any fun n => decide (n < 24))
    ((if retired then s1.recordErr 0x11 else s1)).toPhase 3

/-- Membership bits set or cleared (R328). -/
def State.setMembers (s : State) (ms : List (Nat × Nat × Bool)) : State :=
  { s with fab := { s.fab with members := ms.foldl (fun (l : List (Nat × Nat)) e =>
      let rest := l.filter fun x => x != (e.1, e.2.1)
      if e.2.2 then (e.1, e.2.1) :: rest else rest) s.fab.members } }

/-! ### Devices and their neighbours (R350, R351) -/

/-- Product in GF(2^w) with modulus m, an element read as the integer of its coefficients (R350). -/
def gfMul (w m a b : Nat) : Nat :=
  (List.range w).foldr (fun i p =>
    let d := 2 * p
    let r := if 2 ^ w ≤ d then d ^^^ m else d
    if b.testBit i then r ^^^ a else r) 0

/-- A graph: 0 is that of GF(32), with t^5 + t^2 + 1; 1 that of GF(16), with t^4 + t + 1. -/
structure Field where
  width   : Nat
  modulus : Nat
  deriving DecidableEq, Repr

def graphField (g : Nat) : Field := if g = 0 then { width := 5, modulus := 37 } else { width := 4, modulus := 19 }

/-- Devices of a graph: 1,057 or 273. -/
def graphDevices (g : Nat) : Nat := let q := 2 ^ (graphField g).width; q * q + q + 1

/-- The point of a device number. -/
def devPoint (q n : Nat) : Nat × Nat × Nat :=
  if n = 0 then (0, 0, 1) else if n < q + 1 then (0, 1, n - 1) else (1, (n - (q + 1)) / q, (n - (q + 1)) % q)

/-- Two devices are neighbours: they differ, and their points are orthogonal (R351). -/
def neighbours (g a b : Nat) : Bool :=
  let f := graphField g
  let x := devPoint (2 ^ f.width) a
  let y := devPoint (2 ^ f.width) b
  a != b && gfMul f.width f.modulus x.1 y.1 ^^^ gfMul f.width f.modulus x.2.1 y.2.1 ^^^
    gfMul f.width f.modulus x.2.2 y.2.2 == 0

/-- The neighbours of a device in ascending order: port j goes to the j-th (R351). -/
def cabling (g a : Nat) : List Nat := (List.range (graphDevices g)).filter (neighbours g a)

/-- The links of some ports match the canonical cabling of a graph for a device number; `found` names their neighbours. -/
def fitsGraph (g dev : Nat) (ports : List Nat) (found : List (Nat × Nat)) : Bool :=
  decide (dev < graphDevices g) && ports.all fun i => ((cabling g dev)[i]?).any fun n => found.contains (i, n)

/-- DEVID of a device in a graph (R352). -/
def devidOf (g dev : Nat) : Word := BitVec.ofNat 64 (dev + 2 ^ 12 * g + 2 ^ 16 * graphDevices g)

/-- A standalone module: device 0 of the graph of its part, with only its own entry valid in its table (R352). -/
def State.standalone (s : State) : State :=
  let g := if Word.bits (s.readCsr 0x1C0) 0 8 = 2 then 1 else 0
  { s with csr := Sparse.set s.csr 0x1B0 (devidOf g 0), fab := { s.fab with routes := putRoutes [] [(0, 0x43F)] } }

/-- The graph that the links of some ports match: the one taken for the module, or else the other (R408). -/
def State.graphFound (s : State) (ports : List Nat) : Option Nat :=
  let claimed := Word.bits s.inp.devid 12 1
  [claimed, 1 - claimed].find? fun g => fitsGraph g (Word.bits s.inp.devid 0 11) ports s.inp.cabled

/-- The end of FABRIC: ports and tables as they have been found and written, PORTMAP; then READY, with every clock of the module
at zero. -/
def State.fabricReady (s : State) (pm : Vector Word 28) (alone : Bool) : State :=
  let up := fun (i : Nat) => (mapOf pm (24 + i / 9)).getLsbD (i % 9)
  let spare := fun (i : Nat) => (mapOf pm (24 + i / 9)).getLsbD (9 + i % 9)
  let ports : Vector Port 36 := Vector.ofFn fun i => { s.fab.ports[i] with up := up i.val }
  let routes := if alone then s.fab.routes
    else putRoutes s.fab.routes s.inp.routes
  let s1 := State.setMembers { s with
    csr := Sparse.set s.csr 0x180 0
    fab := { s.fab with ports := ports, routes := routes }
    mgr := { s.mgr with portmap := pm, warm := false, nextTick := Word.bits (s.readCsr 0x181) 0 40 }
    clk := 0, inp := { s.inp with routes := [], maps := [], members := [], cabled := [] } } s.inp.members
  ((if (List.range 36).any spare then s1.recordErr 0x12 else s1)).toPhase 5

/-- FABRIC: a module without a trained port is standalone; a neighbour that reports the module's own number, and links that
match the cabling of neither graph, end bring-up, in this order (R352, R408). The links of spare ports are not matched, which
are cabled as replacements. -/
def State.trainFabric (s : State) : State :=
  let pm := s.mapped 2 s.mgr.portmap
  let bitOf := fun (o i : Nat) => (mapOf pm (24 + i / 9)).getLsbD (o + i % 9)
  let trained := (List.range 36).filter (bitOf 0)
  let dev := Word.bits s.inp.devid 0 11
  if trained.isEmpty then s.standalone.fabricReady pm true
  else if s.inp.cabled.any fun l => trained.contains l.1 && l.2 == dev then s.fail 9
  else match s.graphFound (trained.filter fun i => !bitOf 9 i) with
    | none => s.fail 8
    | some g => State.fabricReady { s with csr := Sparse.set s.csr 0x1B0 (devidOf g dev) } pm false

/-- A failure that a phase may find (R408). -/
def failsWith (phase e : Nat) : Bool :=
  decide (e = 0x0A) || (match phase with
    | 0 => decide (2 ≤ e) && decide (e ≤ 4)
    | 1 => decide (e = 5)
    | 2 => decide (6 ≤ e) && decide (e ≤ 7)
    | _ => decide (8 ≤ e) && decide (e ≤ 9))

/-- BRING_UP_PHASE (R406): a phase has ended, with a failure found in it or not. -/
def execBringUpPhase (s : State) : Out :=
  if s.inp.phasesDone = 0 || s.mgr.phase = 5 || s.mgr.phase = 15 then .next s
  else
    let s1 : State := { s with inp := { s.inp with phasesDone := s.inp.phasesDone - 1, bringErr := 0 } }
    if failsWith s.mgr.phase s.inp.bringErr then .next (s1.fail s.inp.bringErr)
    else if s.mgr.phase = 0 then
      .next (State.toPhase { s1 with mgr := { s1.mgr with
        linkUp := true, msix := if s1.mgr.err = 1 then s1.mgr.msix ++ [1025] else s1.mgr.msix } } 1)
    else if s.mgr.phase = 1 then .next s1.selftest
    else if s.mgr.phase = 2 then .next s1.trainMemory
    else .next s1.trainFabric

/-! ### Islands (R398-R403) -/

/-- Islands of the dies that the part has. -/
def State.islands (s : State) : List Nat :=
  (s.computeDies.map fun d => [2 * d, 2 * d + 1]).flatten ++ (s.hubDies.map fun h => [2 * h, 2 * h + 1]).flatten

/-- N of an island as the cap and the thermal limits have it; the lower one holds (R403). -/
def State.wanted (s : State) (i : Nat) : Nat :=
  let cap := 16 - (s.pwr.capped.filter (· == i)).length
  match s.pwr.hot.find? fun h => h.1 == i with
  | some (_, n) => min cap n
  | none => cap

/-- The change of an island's ratio waits for its clk (R399). -/
def State.settleIsland (s : State) (i : Nat) : State :=
  { s with pwr := { s.pwr with pending := (s.pwr.pending.filter fun p => p.1 != i) ++ [(i, s.wanted i)] } }

/-- An island under its reading (R403): from 110 °C N is 1; from 100 °C N falls by one; below, the limit ends. -/
def State.heat (s : State) (i : Nat) : State :=
  let t := (Sparse.get s.pwr.temps i).toNat
  let rest := s.pwr.hot.filter fun h => h.1 != i
  let now := s.wanted i
  if 100 ≤ t then
    let n := if 110 ≤ t then 1 else max 1 (now - 1)
    let s1 := State.settleIsland { s with pwr := { s.pwr with hot := rest ++ [(i, n)] } } i
    if n < now then s1.recordErr 0x13 else s1
  else if s.pwr.hot.any fun h => h.1 == i then State.settleIsland { s with pwr := { s.pwr with hot := rest } } i
  else s

/-- JUNCTION_SENSOR_READ (R403): every 10 µs. -/
def execJunctionSensorRead (s : State) : Out :=
  let temps := s.inp.sensors.foldl (fun (m : Sparse 16) e => Sparse.set m e.1 (BitVec.ofNat 16 e.2)) s.pwr.temps
  let s1 : State := { s with pwr := { s.pwr with temps := temps }, inp := { s.inp with sensors := [] } }
  .next (s1.islands.foldl State.heat s1)

/-- Power of the die of an island. -/
def State.islandPower (s : State) (i : Nat) : Nat :=
  ((s.inp.diePower.find? fun d => d.1 == i / 2).map Prod.snd).getD 0

/-- The island of a list above N = 4 on the die with the highest power; the lowest of equal ones. -/
def State.hottest (s : State) (is : List Nat) : Option Nat :=
  (is.filter fun i => decide (4 < 16 - (s.pwr.capped.filter (· == i)).length)).foldl (fun (b : Option Nat) i => match b with
    | none => some i
    | some j => if s.islandPower j < s.islandPower i then some i else b) none

/-- The island to be lowered next: an array-and-stores one, and only then any other (R401). -/
def State.nextLower (s : State) : Option Nat :=
  let array := fun (i : Nat) => i % 2 == 0 && decide (i < 48)
  (s.hottest (s.islands.filter array)).orElse fun _ => s.hottest (s.islands.filter fun i => !array i)

/-- POWER_CAP_STEP (R401): every 100 µs, one step down above the cap, or the last step taken back below it. -/
def execPowerCapStep (s : State) : Out :=
  let cap := Word.bits (s.readCsr 0x1D1) 0 16
  let s1 := s.setCsr 0x1D2 (BitVec.ofNat 64 (min 0xFFFF s.inp.power))
  if cap < s.inp.power then
    match s1.nextLower with
    | some i => .next (State.settleIsland { s1 with pwr := { s1.pwr with capped := i :: s1.pwr.capped } } i)
    | none => .next s1
  else if s.inp.power < cap then
    match s1.pwr.capped with
    | i :: is => .next (State.settleIsland { s1 with pwr := { s1.pwr with capped := is } } i)
    | [] => .next s1
  else .next s1

/-- RATIO_CHANGE (R399): at a clk that is a multiple of 16, the changes that wait take effect. -/
def execRatioChange (s : State) : Out :=
  if s.clk % 16 ≠ 0 then .next s
  else
    let set := fun (m : Sparse 5) (e : Nat × Nat) => Sparse.set m e.1 (BitVec.ofNat 5 (16 - max 1 (min 16 e.2)))
    .next { s with
      pwr := { s.pwr with slow := (s.pwr.pending ++ s.inp.ratios).foldl set s.pwr.slow, pending := [] }
      inp := { s.inp with ratios := [] } }

end Sys2Proof.Machine
end

