-- ==== Sys2Proof/Machine/Energy.lean ====
section
/-!
DEFINITION. Energy events of a unit that has issued (R346): its slot, its lanes, the register-space words it reads and
writes, and its instruction words (log 8).
-/

namespace Sys2Proof.Machine

/-- FRCP, FRSQ, FEXP2 and FLOG2 (R346). -/
def elementary : Instr → Bool
  | .frcp .. | .frsq .. | .fexp2 .. | .flog2 .. => true
  | _ => false

/-- Vector sources that a unit reads in its enabled lanes, and vector destinations that it writes there. -/
def vecOperands : Instr → Nat × Nat
  | .vfadd .. | .vfsub .. | .vfmul .. | .vfmin .. | .vfmax .. | .vbadd .. | .vbsub .. | .vbmul .. | .vbmin .. | .vbmax ..
  | .viadd .. | .visub .. | .vimul .. | .vimulh .. | .vimin .. | .vimax .. | .viminu .. | .vimaxu .. | .viadds ..
  | .visubs .. | .vand .. | .vor .. | .vxor .. | .vandn .. | .vshl .. | .vshr .. | .vsar .. | .vfceq .. | .vfclt ..
  | .vfcle .. | .viceq .. | .viclt .. | .vicltu .. | .vperm .. | .vcompress .. | .vexpand .. => (2, 1)
  | .vfma .. | .vfms .. | .vfnma .. | .vbfma .. | .vsel .. => (3, 1)
  | .vfabs .. | .vfneg .. | .viabs .. | .vnot .. | .vpopc .. | .vclz .. | .frcp .. | .frsq .. | .fexp2 .. | .flog2 ..
  | .vcvtfh .. | .vcvthf .. | .vcvtfs .. | .vcvtsf .. | .vcvtfi .. | .vcvtif .. | .vcvtfu .. | .vcvtuf .. | .vrnd ..
  | .vfrsum .. | .vfrmax .. | .vfrmin .. | .virsum .. | .virmax .. | .virmin .. | .vrand .. | .vror .. | .vbcast ..
  | .vrot .. | .vslup .. | .vsldn .. | .vzip .. | .vunzip .. | .vmov .. => (1, 1)
  | .mpush .. | .vst .. => (1, 0)
  | .vsplat .. | .viota .. | .vld .. => (0, 1)
  | _ => (0, 0)

/-- Register-space words of scalar accesses through the cell's own window, and of VINS and VEXT. -/
def State.scalarWords (s : State) : Instr → Nat × Nat
  | .ld _ m _ => if m.sp = 3 && inWindow (s.address m .b8) then (2, 0) else (0, 0)
  | .ldw _ m _ => if m.sp = 3 && inWindow (s.address m .b4) then (1, 0) else (0, 0)
  | .st _ m _ => if m.sp = 3 && inWindow (s.address m .b8) then (0, 2) else (0, 0)
  | .stw _ m _ => if m.sp = 3 && inWindow (s.address m .b4) then (0, 1) else (0, 0)
  | .oqld _ m _ => if m.sp = 3 && inWindow (s.address m .b128) then (32, 0) else (0, 0)
  | .vins _ _ n _ _ => (0, bit (s.k.getLsbD n.toNat))
  | .vext .. => (1, 0)
  | _ => (0, 0)

/-- The events of a unit that issues in state s, counted in t (R346). -/
def State.countUnit (t s : State) (i : Instr) : State :=
  let lanes := popCount s.k
  let v := vecOperands i
  let w := s.scalarWords i
  let t1 := if slotV i then t.count 1 lanes else t.count 0 1
  ((((t1.count 2 (if elementary i then lanes else 0)).count 3 (v.1 * lanes + w.1)).count 4 (v.2 * lanes + w.2)).count 29
    i.words)

end Sys2Proof.Machine
end

