-- ==== Sys2Proof/Machine/Front.lean ====
section
/-!
DEFINITION. What happens in a clk, and in which order (log 2): the move of the control core (R65, R191, R200, R368), the
words and events that follow it, the end of the clk (R195, R255, R347), and the events of the module before the next.
-/

namespace Sys2Proof.Machine

/-! ### The control core's move -/

/-- What the core does in a clk: nothing more, a unit that comes to issue, or an event at its boundary. -/
inductive Move where
  | rest (s : State)
  | run (i : Instr) (s : State)
  | event (i : Instr) (s : State)
  deriving Repr

/-- A clk of the core charged to a cause, slot S. -/
def State.chargeCore (s : State) (c : Cause) (pc : Word) : State :=
  s.setCore { s.core with charge := c, chargeV := false, chargePc := pc }

/-- A clk of trap entry or return goes by (R201, R203). -/
def State.spendBusy (s : State) : State :=
  s.setCore { s.core with busy := s.core.busy - 1, charge := .trap, chargeV := false, chargePc := s.core.pc }

/-- A clk of W goes by while the data of a store load are outstanding (R201). -/
def State.spendEntering (s : State) (x : Entering) : State :=
  s.setCore { s.core with entering := some { x with waited := x.waited + 1 }, charge := .trap, chargeV := false }

/-- The unit belongs to slot V (R195). -/
def FetchedUnit.slotV : FetchedUnit → Bool
  | .ok i _ => Machine.slotV i
  | _ => false

/-- A clk of fetch of a unit's further words, on the unit's slot; after a return it is charged to TRAP (R191, R203). -/
def State.spendFetch (s : State) (u : FetchedUnit) : State :=
  s.setCore { s.core with
    fetchClk := s.core.fetchClk + 1, charge := if s.core.skipBkpt then .trap else .fetch, chargeV := u.slotV,
    chargePc := s.core.pc
    reinjectAt := if s.core.reinject.isEmpty then s.core.reinjectAt else s.core.reinjectAt + 1 }

/-- Latches kept are in flight again, counted from c', the first chance that the resumed unit has to issue, whenever it does
issue; each further word that it has fetched has put that chance off by one clk. Their producers are older than any in flight,
and those that are overdue are written at once (R135, R203). -/
def State.reinjected (s : State) : State :=
  if s.core.reinject.isEmpty then s
  else
    let ls := s.core.reinject.map fun l => { l with visible := s.core.reinjectAt + l.visible }
    let t := s.landAll (ls.filter fun l => decide (l.visible ≤ s.clk))
    t.setCore { t.core with inflight := ls.filter (fun l => decide (s.clk < l.visible)) ++ s.core.inflight, reinject := [] }

/-- Words of the unit are still to be fetched. -/
def State.fetching (s : State) (u : FetchedUnit) : Bool := decide (s.core.fetchClk < u.extra)

/-- A word of the unit cannot be read yet. -/
def FetchedUnit.waits : FetchedUnit → Bool
  | .miss _ => true
  | .away _ _ => true
  | _ => false

/-- The unit at the pc: its fetch, a breakpoint, an illegal encoding, or its issue (R65, R68, R368). Words not yet fetched
are charged to FETCH, their translation included (rows 6 and 8 of R195). -/
def State.headUnit (s : State) (u : FetchedUnit) : Move :=
  if s.fetching u then .rest (s.spendFetch u)
  else match u with
    | .miss va => .rest ((s.askWalk va .fetch).chargeCore .fetch s.core.pc)
    | .away va p => .rest ((s.farRead va p 4).1.chargeCore .fetch s.core.pc)
    | .fault t _ => .event .trapEntry (s.setCore { s.core with trapPend := some t })
    | .illegal _ =>
      .rest (s.syncTrap { code := if !s.core.skipBkpt && s.breaks? s.core.pc then Code.break else Code.illegal } s.core.pc)
    | .ok i _ =>
      if !s.core.skipBkpt && s.breaks? s.core.pc then .rest (s.syncTrap { code := Code.break } s.core.pc) else .run i s

/-- A fetch fault of the head unit is recognised at this boundary. -/
def State.fetchFaults (s : State) (u : FetchedUnit) : Bool :=
  !s.fetching u && (match u with
    | .fault _ _ => true
    | _ => false)

/-- The boundary before this clk in the order of R200, a synchronous trap first; none between the words of a unit that a
return resumes. -/
def State.boundary (s : State) (u : FetchedUnit) : Option Instr :=
  if !s.boundaryOpen || (s.core.skipBkpt && s.fetching u) || s.fetchFaults u then none
  else if s.inp.halt then some .debughalt
  else if s.inp.preempt then some .preempt
  else if s.asyncReady.isSome then some .interruptEntry
  else none

/-- The running core's move. -/
def State.runningMove (s : State) : Move :=
  if 0 < s.core.busy then .rest s.spendBusy
  else match s.core.entering with
  | some x =>
    if x.waited < 64 && s.core.inflight.any fun l => l.outstanding (s.clk - 1) then .rest (s.spendEntering x)
    else .event .trapEntry s
  | none =>
    let u := s.fetchUnit
    match s.boundary u with
    | some e => .event e s.reinjected
    | none => (if s.fetching u || u.waits then s else s.reinjected).headUnit u

/-- The core's move in this clk; a core whose island does not tick makes none (R400). -/
def State.coreMove (s : State) : Move :=
  if !s.ctlTicks then .rest s
  else match s.core.status with
    | .running => s.runningMove
    | .ended => if s.inp.halt then .event .debughalt s else if s.inp.preempt then .event .preempt s else .rest s
    | .doubled => if s.inp.halt then .event .debughalt s else if s.inp.preempt then .event .preempt s else .rest s
    | .halted => if s.inp.preempt then .event .preempt s else .rest s
    | _ => .rest s

/-! ### Engine words (R70, R71, R176) -/

/-- The engine that evaluates the head words of a queue. -/
def State.wordKind (s : State) (q : Nat) : EngineKind :=
  if q = 0 || (s.queue q).inChain then .matrix else if q ≤ 8 then .copy else .transfer

/-- The head word of a queue, decoded. -/
def State.headInstr (s : State) (q : Nat) : Option Instr :=
  ((s.queue q).words.head?).bind fun w => decodeEngine (s.wordKind q) w.w.toNat

/-- Values that an op pops or needs, where the op is assigned (R156, R162, R165-R189). -/
def opPops (k : EngineKind) (op : Nat) : Option Nat :=
  match op with
  | 0xA0 | 0xA1 => some 1
  | 0xA2 | 0xA3 | 0xA4 | 0xA5 | 0xA6 | 0xA8 => some 2
  | 0xE0 | 0xE2 | 0xE4 | 0xE6 | 0xE7 => some 0
  | 0xE1 | 0xE3 | 0xE5 => some 1
  | _ => match k with
    | .matrix => match op with
      | 0xC0 => some 3
      | 0xC1 | 0xC2 => some 4
      | 0xC3 => some 2
      | 0xC4 => some 1
      | _ => none
    | .copy => match op with
      | 0xC0 | 0xC2 => some 3
      | 0xC1 => some 4
      | 0xC3 => some 2
      | _ => none
    | .transfer => match op with
      | 0xC0 | 0xC1 | 0xC3 => some 3
      | 0xC2 | 0xC4 => some 1
      | _ => none

/-- Values that DUP and OVER leave more. -/
def opGrows (op : Nat) : Bool := op == 0xA0 || op == 0xA3

/-- STACK for a word of an assigned op whose argument is illegal (R156). -/
def State.badStack (s : State) (w : EWord) : Bool :=
  let op := w.w.toNat / 256
  let n := s.estack.length
  match opPops (s.wordKind s.actq) op with
  | none => false
  | some p => if isTerminal w.w then decide (n ≠ p) else decide (n < p) || (opGrows op && decide (8 ≤ n))

/-- A head word that no row of the map assigns: STACK, then ILLEGAL (R71, R156), once it is held back no longer than any
other word would be. -/
def State.badWord (s : State) : State :=
  match s.headWord with
  | none => s
  | some w =>
    let code := if s.badStack w then Code.stack else Code.illegal
    if isTerminal w.w then
      let t := s.pastGate .controlNop
      match t.startHeld with
      | some c => t.wordWaits c
      | none => t.wordFault code 0
    else match s.wordHeld s.actq with
      | some c => s.chargeWord c
      | none => s.wordFault code 0

/-! ### Events of a clk -/

/-- An event, where it has something to do. -/
def due (c : Bool) (i : Instr) : List Agent := if c then [.event 0 i] else []

/-- The island of a queue's engine ticks (R398, R400). -/
def State.queueTicks (s : State) (q : Nat) : Bool := if slotOf q = 4 then s.ctlTicks else s.arrTicks

/-- The head word of the queue, as it stood before the core's move, issues in this clk (R152, R154, R176), unless that
move has stopped the cell (R202, R335, R372). -/
def wordDue (s t : State) (q : Nat) : Bool :=
  let v := s.queue q
  s.queueTicks q && (if v.inChain then t.mayAdvance q && (entryLen v.words).isSome else t.mayStart q && headComplete q v.words)

/-- Queues whose head entry has a property, in a clk in which their engines tick. -/
def State.heads (s : State) (p : Entry → Bool) : List Nat :=
  (List.range 13).filter fun q => s.queueTicks q && (match s.headEntry q with
    | some e => p e
    | none => false)

/-- ENQ number of the terminal word that ends a queue's head entry: its age among the queues of its engine. -/
def State.headEnq (s : State) (q : Nat) : Nat := (((s.queue q).words.find? fun w => isTerminal w.w).map EWord.enq).getD 0

/-- A head entry whose words do not use its engine's parameter stack: its terminal word waits with its values, or its words
are held back, or it is evaluated on the chained stack (R155). -/
def State.offStack (s : State) (q : Nat) : Bool :=
  (s.queue q).inChain || decide (0 < (s.queue q).waited) || (s.wordHeld q).isSome

/-- The oldest of some queues by their head entries. -/
def State.oldestHead (s : State) (qs : List Nat) : Option Nat :=
  qs.foldl (fun (b : Option Nat) q => match b with
    | none => some q
    | some p => if s.headEnq q < s.headEnq p then some q else b) none

/-- The queue whose head entry an engine evaluates: the one begun, or else the oldest (R154, R155, log 23). -/
def State.evaluating (s : State) (slot : Nat) (due : List Nat) : Option Nat :=
  let mine := due.filter fun q => slotOf q == slot && !s.offStack q
  match mine.find? fun q => s.cell.evals[slot - 2]? == some q && decide (0 < (s.queue q).issued) with
  | some q => some q
  | none => s.oldestHead mine

/-- A queue put in its place among others, the oldest head entry first. -/
def State.insertQueue (s : State) (q : Nat) : List Nat → List Nat
  | [] => [q]
  | p :: ps => if s.headEnq q < s.headEnq p then q :: p :: ps else p :: s.insertQueue q ps

/-- The queues whose head words an engine looks at in this clk, of those that are due. -/
def State.wordsOf (s : State) (slot : Nat) (due : List Nat) : List Nat :=
  let e := s.evaluating slot due
  due.filter fun q => slotOf q == slot && (s.offStack q || some q == e)

/-- The first of a list of turns after the last one, in ascending order and then from the start (R224). -/
def nextTurn (last : Nat) (ts : List Nat) : List Nat :=
  match ts.find? fun t => decide (last < t) with
  | some t => [t]
  | none => ts.take 1


/-- Armed entries with a property: queue and position coded as q + 16 (j + 1). -/
def State.armedTurns (s : State) (p : Entry → Bool) : List Nat :=
  if !s.ctlTicks then []
  else ((List.range 13).map fun q =>
    ((s.queue q).armed.zipIdx.filter fun x => p x.1).map fun x => q + 16 * (x.2 + 1)).flatten

/-- A collective that has its reads and waits to post its receive tile (R276). -/
def Entry.mayPost (e : Entry) : Bool :=
  (match e.op with
    | .xcoll _ => true
    | _ => false) && e.fin.isNone && e.start.ready && e.receives && !e.posted

/-- The turn of a transfer queue or firing. -/
def State.xferAgent (s : State) (t : Nat) : Agent :=
  match (if t < 16 then (s.queue t).run.head? else (s.queue (t % 16)).armed[t / 16 - 1]?).map Entry.op with
  | some .xroute => .event t .routeRowScored
  | _ => .event t .transferChunk

/-- Completions of a clk: entries that have ended, deferred readiness, collective counts (R232). -/
def completionWork (s : State) : List Agent :=
  ((s.heads fun e => e.fin.isSome).map fun q => Agent.event q .entryCompletion) ++
  (s.cell.ready.filter s.readyNow).map (fun _ => .event 0 .deferredReadiness) ++
  due (!s.inp.inbox.isEmpty || (s.firstDue s.bringsNow).isSome) .contributionArrival ++
  ((s.heads Entry.mayPost) ++ s.armedTurns Entry.mayPost).map fun t => Agent.event t .posting

/-- Starts of a clk: MQ's word, then a handed-over chained entry, then the copy queues, the oldest entry first, then the
transfer queues (R232). -/
def startWork (s t : State) : List Agent :=
  let dues := (List.range 13).filter (wordDue s t)
  ((s.wordsOf 2 dues).map Agent.word) ++ due (!s.cell.chained.isEmpty && s.arrTicks) .chainedEntryStart ++
  (((s.wordsOf 3 dues).foldl (fun l q => s.insertQueue q l) []).map Agent.word) ++ (s.wordsOf 4 dues).map Agent.word

/-- The op of a control entry that waits in a queue, or whose word is due. -/
def State.controlOp (s t : State) (q : Nat) : Option Instr :=
  match s.waiting q with
  | some e => if s.queueTicks q then some e.op else none
  | none => if wordDue s t q then (s.headInstr q).filter Instr.isControl else none

/-- What the engines do in a clk (R154, R176, R185, R190, R224, R232, R276): completions, starts, control entries, which may
complete in the clk in which they start as any other entry without work may, and then the work of the entries started
before. -/
def engineWork (s t : State) : List Agent :=
  let xfers := (s.heads fun e => slotOf e.queue == 4 && e.fin.isNone && !Instr.isControl e.op && !e.mayPost) ++
    s.armedTurns fun e => e.fin.isNone && !e.mayPost
  let control := (List.range 13).filterMap fun q => (s.controlOp t q).map fun i => (q, i)
  let begun := (List.range 13).filter fun q =>
    wordDue s t q || (s.controlOp t q).isSome || s.cell.chained.any fun e => e.queue == q
  completionWork s ++ startWork s t ++
  (control.map fun c => Agent.event c.1 (match c.2 with
    | .signal _ => .signalCompletion
    | _ => .controlEntryCompletion)) ++
  (begun.map fun q => Agent.event q .entryCompletion) ++
  ((s.heads fun e => Instr.isMatrix e.op).map fun q => Agent.event q .matrixChunk) ++
  due (!s.copies.isEmpty && s.arrTicks) .copyTurn ++
  ((s.armedTurns fun e => e.fin.isSome && e.trig).map fun t => Agent.event t .xcollFiring) ++
  ((nextTurn s.cell.xferTurn xfers).map s.xferAgent)

/-- Flits that a port may send in a clk: 400 GB/s in flits of 64 bytes (R2, R356). -/
def portSlots (clk : Nat) : Nat := 25 * (clk + 1) / 8 - 25 * clk / 8

/-- What the memory system and the fabric do in a clk: at most one step of each kind, one frontier for each die whose
frontier has moved, and as many flits for each port as its rate allows (log 3). -/
def State.memoryWork (s : State) : List Agent :=
  let answers := !s.inp.fabricIn.isEmpty
  let flits := (List.range 36).filter fun p => ((s.fab.ports[p]?).map fun x => x.up && x.queues.any (· != [])).getD false
  let unrouted := s.fab.out.any s.toRoute
  due (s.firstDue s.writeKind).isSome .writeAppliedAtHome ++
  due (s.firstDue readKind).isSome .readAnsweredAtHome ++
  due (s.vatReqs.any fun r => (s.nextPoint r).isSome) .vatArrivalAtPairingPoint ++
  due (s.sys.held.any fun h => decide (h.until' ≤ s.clk)) .pairingWindowExpiry ++
  due (s.sys.reqs.any fun r => r.op.isVat) .vatHomeOperation ++
  due (s.sys.reqs.any fun r => r.notifies && !r.peerNotifies) .notify ++
  due (s.sys.reqs.any Req.peerNotifies) .remoteNotify ++
  (((List.range 28).filter fun d => decide (s.frontierOf d ≠ (Sparse.get s.sys.front d).toNat)).map fun d =>
    Agent.event d .frontierSend) ++
  due (!s.coll.outHeld.isEmpty) .backPressureRelease ++
  due (s.sys.replies.any Reply.landable || answers) .longLatencyReturn ++
  due (s.sys.replies.any Reply.isRow || answers) .operandQueueRowLands ++
  due (s.sys.replies.any Reply.isVat || answers) .vatReply ++
  due (!s.sys.acks.isEmpty || answers) .writeAcknowledged ++
  due (s.clocksHigh || s.sys.hold) .clockRenormalisation ++
  due (!s.inp.refusals.isEmpty || unrouted) .fabricRefusalArrives ++
  due (!s.inp.transit.isEmpty || !s.inp.ingress.isEmpty || !s.fab.waiting.isEmpty) .ingressRequestArrival ++
  ((if flits.isEmpty && unrouted then [0] else (List.replicate (portSlots s.clk) flits).flatten).map fun p =>
    Agent.event p .flitArbitration) ++
  due (!s.inp.flitAcks.isEmpty || !s.inp.flitFail.isEmpty) .linkRetry ++
  due ((List.range 36).any fun i => ((s.fab.ports[i]?).map fun p => p.up && decide (16 ≤ p.retries)).getD false) .linkDown ++
  due (!s.inp.linkFail.isEmpty) .linkRetirement ++
  due (!s.inp.routes.isEmpty || !s.inp.spares.isEmpty) .routingTableRewrite

/-- The step that an access of the stage manager or a debugger to a register is (log 19). -/
def outsideEvent (a : Nat × Word) : Option Instr :=
  let n := a.1
  if n = 0x105 then some .tmrcntWrite
  else if n = 0x013 then some .bankbindWrite
  else if n = 0x052 then some .fxdata
  else if n = 0x083 then some .capdata
  else if n = 0x084 then some .capclr
  else if n = 0x151 then some .cueirqClear
  else if n = 0x0E4 then some .warpop
  else if 0x130 ≤ n ∧ n ≤ 0x13C then
    match Word.bits a.2 0 2 with
    | 1 => some .qcmdResume
    | 2 => some .qcmdDiscard
    | 3 => some .qcmdReset
    | _ => none
  else if n = 0x190 then
    match Word.bits a.2 56 2 with
    | 0 => some .xinvPage
    | 1 => some .xinvAsid
    | 2 => some .xinvAll
    | _ => none
  else if 0x1000 ≤ n ∨ (csrRow n).isSome then some .registerWrite
  else none

/-- A change of a watchpoint that its home has not taken (R379). -/
def State.wpWaiting (s : State) : Bool :=
  match s.core.wpSent with
  | some (_, _, false) => true
  | _ => false

/-- The access of an outside agent clears CUEIRQ: it comes before the evaluation of the terms, whose transitions set bits
(R218). -/
def clearsCueirq : Instr → Bool
  | .cueirqClear => true
  | _ => false

/-- The access from outside sets energy weights, which apply from the clk after it: it is made between two clk (R345). -/
def State.setsWeights (s : State) : Bool := s.inp.csr.any fun a => decide (0x1A0 ≤ a.1) && decide (a.1 ≤ 0x1A7)

/-- Work of a clk, from the state `s` before the core's move and `t` after it. -/
def clkWork (s t : State) : List Agent :=
  if s.mgr.phase ≠ 5 then [.edge]
  else
    let outside := if s.setsWeights then [] else (s.inp.csr.bind outsideEvent).toList
    ((outside.filter clearsCueirq).map fun i => Agent.event 0 i) ++
    due (s.resident && (!s.cell.terms.isEmpty || decide (s.readCsr 0x150 ≠ 0))) .cueTermEvaluation ++
    due (!s.coll.cues.isEmpty) .receptionCueIncrement ++
    engineWork s t ++ s.memoryWork ++
    ((outside.filter fun i => !clearsCueirq i).map fun i => Agent.event 0 i) ++
    due s.wpWaiting .watchpointChange ++
    due (!t.sys.walks.isEmpty && s.ctlTicks) .pageWalk ++
    due (t.core.inflight.any t.landsLate) .storeLoadDataArrival ++
    due (t.core.inflight.any t.landsOnTime) .resultLands ++
    due t.timerRuns .timerExpiry ++
    due t.deadlineOver .hardStop ++
    due (!t.dbg.coming.isEmpty && t.takesReports) .watchReportEntry ++
    due t.sampleDue .sample ++ [.edge]

/-! ### The end of a clk -/

/-- A write issued in this clk takes the clock of its die as it stands at the end of the clk (R255). -/
def State.restamp (s : State) (dies : List Nat) (r : Req) : Req :=
  let v := s.vcOf r.die
  if dies.contains r.die && r.op.writes && r.stamp[r.die]? == v[r.die]? then { r with stamp := v } else r

/-- VC_d[d] of each die that issued a write rises by one, and its writes of this clk are stamped (R255). -/
def State.raiseClocks (s : State) : State :=
  let dies := s.sys.wrote
  let t : State := { s with sys := { s.sys with
    vc := dies.foldl (fun (m : Sparse 40) d => Sparse.set m (33 * d) (Sparse.get m (33 * d) + 1)) s.sys.vc, wrote := [] } }
  if dies.isEmpty then t
  else { t with
    sys := { t.sys with reqs := t.sys.reqs.map (t.restamp dies) }
    coll := { t.coll with outHeld := t.coll.outHeld.map (t.restamp dies) } }

/-- Old values that units of this clk still read are forgotten (R94, R97, R216, R219). -/
def State.forgetOld (s : State) : State :=
  s.setCore { s.core with zOld := none, qOld := none, termOld := none, tmrSet := false, charge := .notDemanded }

/-- An access of another cell of the module enters the memory system (log 1); while its die's traffic is held, it and what the
same cell asks for after it wait (R258). -/
def State.peerAccess (s : State) (x : Nat × Nat × Req) : State :=
  let r := x.2.2
  let d := x.2.1 / 64
  if s.dieHeld d r.op.writes || s.inp.peers.any fun y => y.2.1 == x.2.1 then
    { s with inp := { s.inp with peers := s.inp.peers ++ [x] } }
  else
    let q : Req := { r with
      id := s.sys.nextId, die := d, stamp := s.stampOf d r.op, rclk := s.vcOf d
      origin := if x.1 = s.devid then .cell x.2.1 else .module x.1 x.2.1 }
    let t := if r.op.writes then s.marksWrite d else s
    { t with sys := { t.sys with nextId := t.sys.nextId + 1, reqs := t.sys.reqs ++ [q] } }

/-- What has come from the other cells of the troupe and the module, and the stage manager's settings, take effect. -/
def State.takeInputs (s : State) : State :=
  let s1 := s.inp.arrivals.foldl (fun (t : State) a => if a.2 = 16 then t.endRank a.1 else t.arrive a.2 a.1) s
  let s2 := s.inp.qadds.foldl (fun (t : State) a => t.bump a.1 a.2 15) s1
  let s3 := s.inp.peers.foldl State.peerAccess { s2 with inp := { s2.inp with peers := [] } }
  let s4 := s3.setMembers s.inp.members
  { s4 with
    mgr := { s4.mgr with
      root := s.inp.root.getD s4.mgr.root
      deadline := match s.inp.deadline with
        | some n => if 1 ≤ n ∧ n ≤ 65535 then 2000 * n else s4.mgr.deadline
        | none => s4.mgr.deadline
      preemptAt := if s.inp.preempt && s4.mgr.preemptAt.isNone then some s.clk else s4.mgr.preemptAt }
    fab := { s4.fab with
      compat := (s.inp.compat.map Prod.fst).getD s4.fab.compat
      roots := ((s.inp.compat.map Prod.snd).getD s4.fab.roots).take 64 }
    inp := { s4.inp with arrivals := [], qadds := [], members := [], root := none, compat := none, deadline := none } }

/-- The accounts of the clk, and everything that changes at its end; the next clk begins. -/
def State.endClk (s : State) : State :=
  let s0 := (List.range 3).foldl (fun (t : State) st => t.endPort s.arrTicks st) s
  let s1 := s0.accountClk.stopQueues.dropDead.raiseClocks.forgetOld.takeInputs
  { s1 with clk := s1.clk + 1 }

/-! ### Events of the module before the core's next move -/

/-- The event of the mailbox command in progress (R407). -/
def commandEvent : Nat → Option Instr
  | 1 => some .aperture
  | 2 => some .qtable
  | 3 => some .cap
  | 4 => some .tickper
  | 5 => some .halt
  | 6 => some .resume
  | 7 => some .warmreset
  | _ => none

/-- Events that do not depend on the phase of bring-up. -/
def State.hostWork (s : State) : List Agent :=
  due s.trips .thermalTrip ++ due s.inp.cold .coldReset ++ due s.inp.linkReset .linkReset ++
  due (decide (s.inp.phasesDone ≠ 0) && s.mgr.phase != 5 && s.mgr.phase != 15) .bringUpPhase ++
  due (!s.inp.hostWrites.isEmpty) .hostWrite ++ due (!s.inp.hostReads.isEmpty) .hostRead ++
  ((s.mgr.cmd.bind commandEvent).toList.map fun i => Agent.event 0 i)

/-- Events of the module at the start of a clk. -/
def State.moduleWork (s : State) : List Agent :=
  if s.mgr.phase ≠ 5 then s.hostWork
  else
    due s.setsWeights .registerWrite ++ due (s.clk = s.mgr.nextTick) .tickEdge ++
    due (s.lq.scenes.any s.overdue) .deadlineExpiry ++
    due (s.cellDone || !s.inp.completions.isEmpty || s.lq.troupes.any s.troupeOver) .cellCompletion ++
    due (s.lq.troupes.any s.wdogOver) .watchdogExpiry ++
    due (s.lq.scenes.any s.sceneDone) .sceneCompletion ++
    due s.mapperDue .mapperRun ++ due (!s.readable.isEmpty) .packetRead ++
    due (!s.walkers.isEmpty) .troupePlacement ++
    due s.mayDepart .contextSave ++
    due (s.mgr.restoreAt.isSome || s.inp.restore) .contextRestore ++
    due (s.core.status == .halted && s.mgr.stop.isEmpty && s.allSettled) .stop ++
    due (s.inp.resume && s.core.status == .halted) .resume ++
    due s.scrubDue .scrubStep ++ due (!s.inp.retire.isEmpty) .cellRetirement ++
    due (s.clk % 20000 = 0) .junctionSensorRead ++ due (s.clk % 200000 = 0) .powerCapStep ++
    due (s.clk % 16 = 0 && (!s.pwr.pending.isEmpty || !s.inp.ratios.isEmpty || s.clk % 20000 = 0)) .ratioChange ++
    s.hostWork

/-- The end of the clk: before READY the clk count stands at 0 (R397, R406). -/
def State.edge (s : State) : State :=
  let s1 := if s.mgr.phase = 5 then s.endClk.takeKills.readyStill else s
  { s1 with agenda := s1.moduleWork }

end Sys2Proof.Machine
end

