-- ==== Sys2Proof/Machine/Dispatch.lean ====
section
/-!
DEFINITION. One arm per instruction: each calls its meaning.
-/

namespace Sys2Proof.Machine

/-- What an instruction, an engine word or an event does. -/
def exec (i : Instr) (s : State) : Host.Outcome State Fault Refusal :=
  match i with
  | .add d a b x y => Sys2Proof.Machine.execAdd d a b x y s
  | .sub d a b x y => Sys2Proof.Machine.execSub d a b x y s
  | .and d a b x y => Sys2Proof.Machine.execAnd d a b x y s
  | .or d a b x y => Sys2Proof.Machine.execOr d a b x y s
  | .xor d a b x y => Sys2Proof.Machine.execXor d a b x y s
  | .andn d a b x y => Sys2Proof.Machine.execAndn d a b x y s
  | .shl d a b x y => Sys2Proof.Machine.execShl d a b x y s
  | .shr d a b x y => Sys2Proof.Machine.execShr d a b x y s
  | .sar d a b x y => Sys2Proof.Machine.execSar d a b x y s
  | .mul d a b x y => Sys2Proof.Machine.execMul d a b x y s
  | .mulh d a b x y => Sys2Proof.Machine.execMulh d a b x y s
  | .mulhu d a b x y => Sys2Proof.Machine.execMulhu d a b x y s
  | .div d a b x y => Sys2Proof.Machine.execDiv d a b x y s
  | .divu d a b x y => Sys2Proof.Machine.execDivu d a b x y s
  | .rem d a b x y => Sys2Proof.Machine.execRem d a b x y s
  | .remu d a b x y => Sys2Proof.Machine.execRemu d a b x y s
  | .min d a b x y => Sys2Proof.Machine.execMin d a b x y s
  | .max d a b x y => Sys2Proof.Machine.execMax d a b x y s
  | .minu d a b x y => Sys2Proof.Machine.execMinu d a b x y s
  | .maxu d a b x y => Sys2Proof.Machine.execMaxu d a b x y s
  | .ceq d a b x y => Sys2Proof.Machine.execCeq d a b x y s
  | .cne d a b x y => Sys2Proof.Machine.execCne d a b x y s
  | .clt d a b x y => Sys2Proof.Machine.execClt d a b x y s
  | .cltu d a b x y => Sys2Proof.Machine.execCltu d a b x y s
  | .cle d a b x y => Sys2Proof.Machine.execCle d a b x y s
  | .cleu d a b x y => Sys2Proof.Machine.execCleu d a b x y s
  | .sel d a b x y => Sys2Proof.Machine.execSel d a b x y s
  | .popc d a x => Sys2Proof.Machine.execPopc d a x s
  | .clz d a x => Sys2Proof.Machine.execClz d a x s
  | .ctz d a x => Sys2Proof.Machine.execCtz d a x s
  | .rank d a b x y => Sys2Proof.Machine.execRank d a b x y s
  | .select d a b x y => Sys2Proof.Machine.execSelect d a b x y s
  | .sext d a b x y => Sys2Proof.Machine.execSext d a b x y s
  | .bext d a b x y => Sys2Proof.Machine.execBext d a b x y s
  | .brev d a x => Sys2Proof.Machine.execBrev d a x s
  | .addi d a i1 => Sys2Proof.Machine.execAddi d a i1 s
  | .andi d a i1 => Sys2Proof.Machine.execAndi d a i1 s
  | .ori d a i1 => Sys2Proof.Machine.execOri d a i1 s
  | .xori d a i1 => Sys2Proof.Machine.execXori d a i1 s
  | .shli d a n => Sys2Proof.Machine.execShli d a n s
  | .shri d a n => Sys2Proof.Machine.execShri d a n s
  | .sari d a n => Sys2Proof.Machine.execSari d a n s
  | .slti d a i1 => Sys2Proof.Machine.execSlti d a i1 s
  | .sltiu d a i1 => Sys2Proof.Machine.execSltiu d a i1 s
  | .addpc d i1 => Sys2Proof.Machine.execAddpc d i1 s
  | .muli d a i1 => Sys2Proof.Machine.execMuli d a i1 s
  | .j p => Sys2Proof.Machine.execJ p s
  | .call p => Sys2Proof.Machine.execCall p s
  | .bez a p => Sys2Proof.Machine.execBez a p s
  | .bnz a p => Sys2Proof.Machine.execBnz a p s
  | .bltz a p => Sys2Proof.Machine.execBltz a p s
  | .bknone p => Sys2Proof.Machine.execBknone p s
  | .bkany p => Sys2Proof.Machine.execBkany p s
  | .bkall p => Sys2Proof.Machine.execBkall p s
  | .loop a p => Sys2Proof.Machine.execLoop a p s
  | .jr a x => Sys2Proof.Machine.execJr a x s
  | .callr a x => Sys2Proof.Machine.execCallr a x s
  | .endI => Sys2Proof.Machine.execEndI s
  | .nop => Sys2Proof.Machine.execNop s
  | .syscall => Sys2Proof.Machine.execSyscall s
  | .rett => Sys2Proof.Machine.execRett s
  | .ien => Sys2Proof.Machine.execIen s
  | .idis => Sys2Proof.Machine.execIdis s
  | .wfi => Sys2Proof.Machine.execWfi s
  | .csrr d c => Sys2Proof.Machine.execCsrr d c s
  | .csrw d a c => Sys2Proof.Machine.execCsrw d a c s
  | .csrs d a c => Sys2Proof.Machine.execCsrs d a c s
  | .csrc d a c => Sys2Proof.Machine.execCsrc d a c s
  | .csrx d a c => Sys2Proof.Machine.execCsrx d a c s
  | .zset d a x => Sys2Proof.Machine.execZset d a x s
  | .zsetW d a x => Sys2Proof.Machine.execZsetW d a x s
  | .zget d a => Sys2Proof.Machine.execZget d a s
  | .zpend d a => Sys2Proof.Machine.execZpend d a s
  | .ld d m od => Sys2Proof.Machine.execLd d m od s
  | .ldw d m od => Sys2Proof.Machine.execLdw d m od s
  | .st d m od => Sys2Proof.Machine.execSt d m od s
  | .stw d m od => Sys2Proof.Machine.execStw d m od s
  | .vld d m od => Sys2Proof.Machine.execVld d m od s
  | .vst d m od => Sys2Proof.Machine.execVst d m od s
  | .oqld d m od => Sys2Proof.Machine.execOqld d m od s
  | .aadd d a b x y od => Sys2Proof.Machine.execAadd d a b x y od s
  | .aand d a b x y od => Sys2Proof.Machine.execAand d a b x y od s
  | .aor d a b x y od => Sys2Proof.Machine.execAor d a b x y od s
  | .axor d a b x y od => Sys2Proof.Machine.execAxor d a b x y od s
  | .amin d a b x y od => Sys2Proof.Machine.execAmin d a b x y od s
  | .amax d a b x y od => Sys2Proof.Machine.execAmax d a b x y od s
  | .aminu d a b x y od => Sys2Proof.Machine.execAminu d a b x y od s
  | .amaxu d a b x y od => Sys2Proof.Machine.execAmaxu d a b x y od s
  | .aswap d a b x y od => Sys2Proof.Machine.execAswap d a b x y od s
  | .aaddW d a b x y od => Sys2Proof.Machine.execAaddW d a b x y od s
  | .aandW d a b x y od => Sys2Proof.Machine.execAandW d a b x y od s
  | .aorW d a b x y od => Sys2Proof.Machine.execAorW d a b x y od s
  | .axorW d a b x y od => Sys2Proof.Machine.execAxorW d a b x y od s
  | .aminW d a b x y od => Sys2Proof.Machine.execAminW d a b x y od s
  | .amaxW d a b x y od => Sys2Proof.Machine.execAmaxW d a b x y od s
  | .aminuW d a b x y od => Sys2Proof.Machine.execAminuW d a b x y od s
  | .amaxuW d a b x y od => Sys2Proof.Machine.execAmaxuW d a b x y od s
  | .aswapW d a b x y od => Sys2Proof.Machine.execAswapW d a b x y od s
  | .afaddW d a b x y od => Sys2Proof.Machine.execAfaddW d a b x y od s
  | .cas d a b x y od => Sys2Proof.Machine.execCas d a b x y od s
  | .casW d a b x y od => Sys2Proof.Machine.execCasW d a b x y od s
  | .vpush d a b x y od => Sys2Proof.Machine.execVpush d a b x y od s
  | .vpop d a x od => Sys2Proof.Machine.execVpop d a x od s
  | .vpopnb d a b x od => Sys2Proof.Machine.execVpopnb d a b x od s
  | .rcsnap d a x od => Sys2Proof.Machine.execRcsnap d a x od s
  | .rcread d a b x y od => Sys2Proof.Machine.execRcread d a b x y od s
  | .tnew a b x y => Sys2Proof.Machine.execTnew a b x y s
  | .tfree a x => Sys2Proof.Machine.execTfree a x s
  | .tstate d a x => Sys2Proof.Machine.execTstate d a x s
  | .tsetrdy a x => Sys2Proof.Machine.execTsetrdy a x s
  | .twait a b x y => Sys2Proof.Machine.execTwait a b x y s
  | .rgset n b y => Sys2Proof.Machine.execRgset n b y s
  | .rwfill d n => Sys2Proof.Machine.execRwfill d n s
  | .rwfree d n => Sys2Proof.Machine.execRwfree d n s
  | .rclaim d n s1 => Sys2Proof.Machine.execRclaim d n s1 s
  | .rrelease n s1 => Sys2Proof.Machine.execRrelease n s1 s
  | .abump d s1 b y => Sys2Proof.Machine.execAbump d s1 b y s
  | .amark d s1 => Sys2Proof.Machine.execAmark d s1 s
  | .arelmark s1 b y => Sys2Proof.Machine.execArelmark s1 b y s
  | .aring d s1 b y => Sys2Proof.Machine.execAring d s1 b y s
  | .afree s1 b y => Sys2Proof.Machine.execAfree s1 b y s
  | .astate d s1 w => Sys2Proof.Machine.execAstate d s1 w s
  | .fence od => Sys2Proof.Machine.execFence od s
  | .bararr d n od => Sys2Proof.Machine.execBararr d n od s
  | .barwait n b y od => Sys2Proof.Machine.execBarwait n b y od s
  | .barsync n od => Sys2Proof.Machine.execBarsync n od s
  | .lend k s1 => Sys2Proof.Machine.execLend k s1 s
  | .latld a s1 x => Sys2Proof.Machine.execLatld a s1 x s
  | .qadd a n => Sys2Proof.Machine.execQadd a n s
  | .qread d n => Sys2Proof.Machine.execQread d n s
  | .qwait a n => Sys2Proof.Machine.execQwait a n s
  | .qterm a t => Sys2Proof.Machine.execQterm a t s
  | .vfadd d a b x y l => Sys2Proof.Machine.execVfadd d a b x y l s
  | .vfsub d a b x y l => Sys2Proof.Machine.execVfsub d a b x y l s
  | .vfmul d a b x y l => Sys2Proof.Machine.execVfmul d a b x y l s
  | .vfma d a b x y l => Sys2Proof.Machine.execVfma d a b x y l s
  | .vfms d a b x y l => Sys2Proof.Machine.execVfms d a b x y l s
  | .vfnma d a b x y l => Sys2Proof.Machine.execVfnma d a b x y l s
  | .vfmin d a b x y l => Sys2Proof.Machine.execVfmin d a b x y l s
  | .vfmax d a b x y l => Sys2Proof.Machine.execVfmax d a b x y l s
  | .vfabs d a x l => Sys2Proof.Machine.execVfabs d a x l s
  | .vfneg d a x l => Sys2Proof.Machine.execVfneg d a x l s
  | .vbadd d a b x y l => Sys2Proof.Machine.execVbadd d a b x y l s
  | .vbsub d a b x y l => Sys2Proof.Machine.execVbsub d a b x y l s
  | .vbmul d a b x y l => Sys2Proof.Machine.execVbmul d a b x y l s
  | .vbfma d a b x y l => Sys2Proof.Machine.execVbfma d a b x y l s
  | .vbmin d a b x y l => Sys2Proof.Machine.execVbmin d a b x y l s
  | .vbmax d a b x y l => Sys2Proof.Machine.execVbmax d a b x y l s
  | .viadd d a b x y l => Sys2Proof.Machine.execViadd d a b x y l s
  | .visub d a b x y l => Sys2Proof.Machine.execVisub d a b x y l s
  | .vimul d a b x y l => Sys2Proof.Machine.execVimul d a b x y l s
  | .vimulh d a b x y l => Sys2Proof.Machine.execVimulh d a b x y l s
  | .vimin d a b x y l => Sys2Proof.Machine.execVimin d a b x y l s
  | .vimax d a b x y l => Sys2Proof.Machine.execVimax d a b x y l s
  | .viminu d a b x y l => Sys2Proof.Machine.execViminu d a b x y l s
  | .vimaxu d a b x y l => Sys2Proof.Machine.execVimaxu d a b x y l s
  | .viabs d a x l => Sys2Proof.Machine.execViabs d a x l s
  | .viadds d a b x y l => Sys2Proof.Machine.execViadds d a b x y l s
  | .visubs d a b x y l => Sys2Proof.Machine.execVisubs d a b x y l s
  | .vand d a b x y l => Sys2Proof.Machine.execVand d a b x y l s
  | .vor d a b x y l => Sys2Proof.Machine.execVor d a b x y l s
  | .vxor d a b x y l => Sys2Proof.Machine.execVxor d a b x y l s
  | .vandn d a b x y l => Sys2Proof.Machine.execVandn d a b x y l s
  | .vshl d a b x y l => Sys2Proof.Machine.execVshl d a b x y l s
  | .vshr d a b x y l => Sys2Proof.Machine.execVshr d a b x y l s
  | .vsar d a b x y l => Sys2Proof.Machine.execVsar d a b x y l s
  | .vnot d a x l => Sys2Proof.Machine.execVnot d a x l s
  | .vpopc d a x l => Sys2Proof.Machine.execVpopc d a x l s
  | .vclz d a x l => Sys2Proof.Machine.execVclz d a x l s
  | .frcp d a x l => Sys2Proof.Machine.execFrcp d a x l s
  | .frsq d a x l => Sys2Proof.Machine.execFrsq d a x l s
  | .fexp2 d a x l => Sys2Proof.Machine.execFexp2 d a x l s
  | .flog2 d a x l => Sys2Proof.Machine.execFlog2 d a x l s
  | .vcvtfh d a f m x l => Sys2Proof.Machine.execVcvtfh d a f m x l s
  | .vcvthf d a f m x l => Sys2Proof.Machine.execVcvthf d a f m x l s
  | .vcvtfs d a f m x l => Sys2Proof.Machine.execVcvtfs d a f m x l s
  | .vcvtsf d a f m x l => Sys2Proof.Machine.execVcvtsf d a f m x l s
  | .vcvtfi d a f m x l => Sys2Proof.Machine.execVcvtfi d a f m x l s
  | .vcvtif d a f m x l => Sys2Proof.Machine.execVcvtif d a f m x l s
  | .vcvtfu d a f m x l => Sys2Proof.Machine.execVcvtfu d a f m x l s
  | .vcvtuf d a f m x l => Sys2Proof.Machine.execVcvtuf d a f m x l s
  | .vrnd d a f m x l => Sys2Proof.Machine.execVrnd d a f m x l s
  | .vfceq d a b x y l => Sys2Proof.Machine.execVfceq d a b x y l s
  | .vfclt d a b x y l => Sys2Proof.Machine.execVfclt d a b x y l s
  | .vfcle d a b x y l => Sys2Proof.Machine.execVfcle d a b x y l s
  | .viceq d a b x y l => Sys2Proof.Machine.execViceq d a b x y l s
  | .viclt d a b x y l => Sys2Proof.Machine.execViclt d a b x y l s
  | .vicltu d a b x y l => Sys2Proof.Machine.execVicltu d a b x y l s
  | .mpush a x l => Sys2Proof.Machine.execMpush a x l s
  | .minv l => Sys2Proof.Machine.execMinv l s
  | .mpop l => Sys2Proof.Machine.execMpop l s
  | .vfrsum d a x l => Sys2Proof.Machine.execVfrsum d a x l s
  | .vfrmax d a x l => Sys2Proof.Machine.execVfrmax d a x l s
  | .vfrmin d a x l => Sys2Proof.Machine.execVfrmin d a x l s
  | .virsum d a x l => Sys2Proof.Machine.execVirsum d a x l s
  | .virmax d a x l => Sys2Proof.Machine.execVirmax d a x l s
  | .virmin d a x l => Sys2Proof.Machine.execVirmin d a x l s
  | .vrand d a x l => Sys2Proof.Machine.execVrand d a x l s
  | .vror d a x l => Sys2Proof.Machine.execVror d a x l s
  | .vperm d a b x y l => Sys2Proof.Machine.execVperm d a b x y l s
  | .vbcast d a n x l => Sys2Proof.Machine.execVbcast d a n x l s
  | .vrot d a n x l => Sys2Proof.Machine.execVrot d a n x l s
  | .vslup d a n x l => Sys2Proof.Machine.execVslup d a n x l s
  | .vsldn d a n x l => Sys2Proof.Machine.execVsldn d a n x l s
  | .vzip d a b x y l => Sys2Proof.Machine.execVzip d a b x y l s
  | .vunzip d a b x y l => Sys2Proof.Machine.execVunzip d a b x y l s
  | .vcompress d a b x y l => Sys2Proof.Machine.execVcompress d a b x y l s
  | .vexpand d a b x y l => Sys2Proof.Machine.execVexpand d a b x y l s
  | .vmov d a x l => Sys2Proof.Machine.execVmov d a x l s
  | .vsplat d g x l => Sys2Proof.Machine.execVsplat d g x l s
  | .vins d g n x l => Sys2Proof.Machine.execVins d g n x l s
  | .vext g a n x l => Sys2Proof.Machine.execVext g a n x l s
  | .viota d l => Sys2Proof.Machine.execViota d l s
  | .vsel d a b x y l => Sys2Proof.Machine.execVsel d a b x y l s
  | .vmaskrd g l => Sys2Proof.Machine.execVmaskrd g l s
  | .vmaskwr g x l => Sys2Proof.Machine.execVmaskwr g x l s
  | .enqw q w => Sys2Proof.Machine.execEnqw q w s
  | .enqg q n a => Sys2Proof.Machine.execEnqg q n a s
  | .enqm q n s1 a => Sys2Proof.Machine.execEnqm q n s1 a s
  | .brk => Sys2Proof.Machine.execBrk s
  | .tmark a x => Sys2Proof.Machine.execTmark a x s
  | .accrd d a x => Sys2Proof.Machine.execAccrd d a x s
  | .enrgrd d a x => Sys2Proof.Machine.execEnrgrd d a x s
  | .lit v => Sys2Proof.Machine.execLit v s
  | .ext v => Sys2Proof.Machine.execExt v s
  | .dup => Sys2Proof.Machine.execDup s
  | .drop => Sys2Proof.Machine.execDrop s
  | .swap => Sys2Proof.Machine.execSwap s
  | .overI => Sys2Proof.Machine.execOverI s
  | .eadd => Sys2Proof.Machine.execEadd s
  | .esub => Sys2Proof.Machine.execEsub s
  | .emul => Sys2Proof.Machine.execEmul s
  | .eshl n => Sys2Proof.Machine.execEshl n s
  | .eor => Sys2Proof.Machine.execEor s
  | .zpush z => Sys2Proof.Machine.execZpush z s
  | .mpass g f z b a => Sys2Proof.Machine.execMpass g f z b a s
  | .mpassseg g f z b a => Sys2Proof.Machine.execMpassseg g f z b a s
  | .mpassgrp z b a => Sys2Proof.Machine.execMpassgrp z b a s
  | .mdrain c d m => Sys2Proof.Machine.execMdrain c d m s
  | .mzero => Sys2Proof.Machine.execMzero s
  | .ccopy f c r m => Sys2Proof.Machine.execCcopy f c r m s
  | .cgather c m => Sys2Proof.Machine.execCgather c m s
  | .cfill => Sys2Proof.Machine.execCfill s
  | .chint => Sys2Proof.Machine.execChint s
  | .xwrite f => Sys2Proof.Machine.execXwrite f s
  | .xread => Sys2Proof.Machine.execXread s
  | .xcoll r => Sys2Proof.Machine.execXcoll r s
  | .xroute => Sys2Proof.Machine.execXroute s
  | .xrlinv => Sys2Proof.Machine.execXrlinv s
  | .controlNop => Sys2Proof.Machine.execControlNop s
  | .fenceq => Sys2Proof.Machine.execFenceq s
  | .gate t => Sys2Proof.Machine.execGate t s
  | .qgate n => Sys2Proof.Machine.execQgate n s
  | .signal n => Sys2Proof.Machine.execSignal n s
  | .mark => Sys2Proof.Machine.execMark s
  | .capstart s1 => Sys2Proof.Machine.execCapstart s1 s
  | .capstop s1 => Sys2Proof.Machine.execCapstop s1 s
  | .resultLands => Sys2Proof.Machine.execResultLands s
  | .storeLoadDataArrival => Sys2Proof.Machine.execStoreLoadDataArrival s
  | .longLatencyReturn => Sys2Proof.Machine.execLongLatencyReturn s
  | .vatReply => Sys2Proof.Machine.execVatReply s
  | .trapEntry => Sys2Proof.Machine.execTrapEntry s
  | .interruptEntry => Sys2Proof.Machine.execInterruptEntry s
  | .timerExpiry => Sys2Proof.Machine.execTimerExpiry s
  | .tmrcntWrite => Sys2Proof.Machine.execTmrcntWrite s
  | .bankbindWrite => Sys2Proof.Machine.execBankbindWrite s
  | .fxdata => Sys2Proof.Machine.execFxdata s
  | .capdata => Sys2Proof.Machine.execCapdata s
  | .capclr => Sys2Proof.Machine.execCapclr s
  | .cueirqClear => Sys2Proof.Machine.execCueirqClear s
  | .qcmdResume => Sys2Proof.Machine.execQcmdResume s
  | .qcmdDiscard => Sys2Proof.Machine.execQcmdDiscard s
  | .qcmdReset => Sys2Proof.Machine.execQcmdReset s
  | .xinvPage => Sys2Proof.Machine.execXinvPage s
  | .xinvAsid => Sys2Proof.Machine.execXinvAsid s
  | .xinvAll => Sys2Proof.Machine.execXinvAll s
  | .watchpointChange => Sys2Proof.Machine.execWatchpointChange s
  | .warpop => Sys2Proof.Machine.execWarpop s
  | .registerWrite => Sys2Proof.Machine.execRegisterWrite s
  | .matrixChunk => Sys2Proof.Machine.execMatrixChunk s
  | .entryCompletion => Sys2Proof.Machine.execEntryCompletion s
  | .chainedEntryStart => Sys2Proof.Machine.execChainedEntryStart s
  | .copyTurn => Sys2Proof.Machine.execCopyTurn s
  | .transferChunk => Sys2Proof.Machine.execTransferChunk s
  | .signalCompletion => Sys2Proof.Machine.execSignalCompletion s
  | .controlEntryCompletion => Sys2Proof.Machine.execControlEntryCompletion s
  | .deferredReadiness => Sys2Proof.Machine.execDeferredReadiness s
  | .cueTermEvaluation => Sys2Proof.Machine.execCueTermEvaluation s
  | .xcollFiring => Sys2Proof.Machine.execXcollFiring s
  | .posting => Sys2Proof.Machine.execPosting s
  | .contributionArrival => Sys2Proof.Machine.execContributionArrival s
  | .receptionCueIncrement => Sys2Proof.Machine.execReceptionCueIncrement s
  | .backPressureRelease => Sys2Proof.Machine.execBackPressureRelease s
  | .routeRowScored => Sys2Proof.Machine.execRouteRowScored s
  | .writeAppliedAtHome => Sys2Proof.Machine.execWriteAppliedAtHome s
  | .readAnsweredAtHome => Sys2Proof.Machine.execReadAnsweredAtHome s
  | .frontierSend => Sys2Proof.Machine.execFrontierSend s
  | .vatHomeOperation => Sys2Proof.Machine.execVatHomeOperation s
  | .vatArrivalAtPairingPoint => Sys2Proof.Machine.execVatArrivalAtPairingPoint s
  | .pairingWindowExpiry => Sys2Proof.Machine.execPairingWindowExpiry s
  | .clockRenormalisation => Sys2Proof.Machine.execClockRenormalisation s
  | .pageWalk => Sys2Proof.Machine.execPageWalk s
  | .notify => Sys2Proof.Machine.execNotify s
  | .remoteNotify => Sys2Proof.Machine.execRemoteNotify s
  | .mapperRun => Sys2Proof.Machine.execMapperRun s
  | .packetRead => Sys2Proof.Machine.execPacketRead s
  | .troupePlacement => Sys2Proof.Machine.execTroupePlacement s
  | .tickEdge => Sys2Proof.Machine.execTickEdge s
  | .deadlineExpiry => Sys2Proof.Machine.execDeadlineExpiry s
  | .watchdogExpiry => Sys2Proof.Machine.execWatchdogExpiry s
  | .cellCompletion => Sys2Proof.Machine.execCellCompletion s
  | .sceneCompletion => Sys2Proof.Machine.execSceneCompletion s
  | .preempt => Sys2Proof.Machine.execPreempt s
  | .hardStop => Sys2Proof.Machine.execHardStop s
  | .contextSave => Sys2Proof.Machine.execContextSave s
  | .contextRestore => Sys2Proof.Machine.execContextRestore s
  | .debughalt => Sys2Proof.Machine.execDebughalt s
  | .stop => Sys2Proof.Machine.execStop s
  | .watchReportEntry => Sys2Proof.Machine.execWatchReportEntry s
  | .sample => Sys2Proof.Machine.execSample s
  | .fabricRefusalArrives => Sys2Proof.Machine.execFabricRefusalArrives s
  | .ingressRequestArrival => Sys2Proof.Machine.execIngressRequestArrival s
  | .flitArbitration => Sys2Proof.Machine.execFlitArbitration s
  | .linkRetry => Sys2Proof.Machine.execLinkRetry s
  | .linkDown => Sys2Proof.Machine.execLinkDown s
  | .linkRetirement => Sys2Proof.Machine.execLinkRetirement s
  | .routingTableRewrite => Sys2Proof.Machine.execRoutingTableRewrite s
  | .hostWrite => Sys2Proof.Machine.execHostWrite s
  | .hostRead => Sys2Proof.Machine.execHostRead s
  | .scrubStep => Sys2Proof.Machine.execScrubStep s
  | .cellRetirement => Sys2Proof.Machine.execCellRetirement s
  | .aperture => Sys2Proof.Machine.execAperture s
  | .qtable => Sys2Proof.Machine.execQtable s
  | .cap => Sys2Proof.Machine.execCap s
  | .tickper => Sys2Proof.Machine.execTickper s
  | .halt => Sys2Proof.Machine.execHalt s
  | .resume => Sys2Proof.Machine.execResume s
  | .warmreset => Sys2Proof.Machine.execWarmreset s
  | .coldReset => Sys2Proof.Machine.execColdReset s
  | .linkReset => Sys2Proof.Machine.execLinkReset s
  | .bringUpPhase => Sys2Proof.Machine.execBringUpPhase s
  | .junctionSensorRead => Sys2Proof.Machine.execJunctionSensorRead s
  | .thermalTrip => Sys2Proof.Machine.execThermalTrip s
  | .powerCapStep => Sys2Proof.Machine.execPowerCapStep s
  | .ratioChange => Sys2Proof.Machine.execRatioChange s
  | .writeAcknowledged => Sys2Proof.Machine.execWriteAcknowledged s
  | .operandQueueRowLands => Sys2Proof.Machine.execOperandQueueRowLands s

end Sys2Proof.Machine
end

