-- ==== Sys2Proof/Machine/Step.lean ====
section
/-!
DEFINITION. One step: the core's move, a word, an event, or the end of the clk (log 2); and a state whose next step runs a
given instruction.
-/

namespace Sys2Proof.Machine

/-- What follows a next state. -/
def after (o : Out) (f : State → State) : Out :=
  match o with
  | .next t => .next (f t)
  | .fault r => .fault r
  | .refused r => .refused r

/-- The rest of the clk that begins with the core's move from `s`. -/
def State.withWork (t s : State) : State := { t with agenda := clkWork s t }

/-- A unit that issues is counted (R346). -/
def State.countIssued (t s : State) (i : Instr) : State := if t.core.charge = .issued then t.countUnit s i else t

/-- The core's move: the unit at the pc runs as `exec` says, and the rest of the clk follows. -/
def coreStep (s : State) : Out :=
  match s.coreMove with
  | .rest t => .next (t.withWork s)
  | .event i t => after (exec i t) fun u => u.withWork s
  | .run i t => after (exec i t) fun u => (u.countIssued t i).withWork s

/-- The head word of a queue issues; one that no row assigns faults its entry (R71). -/
def wordStep (q : Nat) (s : State) : Out :=
  match s.headInstr q with
  | some i => exec i s
  | none => .next s.badWord

/-- What is left of the clk: the rest of the agenda, or nothing where a reset has abandoned the clk (R405). -/
def State.keepRest (rest : List Agent) (u : State) : State := { u with agenda := if u.agenda.isEmpty then [] else rest }

/-- One step. -/
def step (s : State) : Host.Outcome State Fault Refusal :=
  match s.agenda with
  | [] => coreStep s
  | .word q :: rest => after (wordStep q { s with agenda := rest, actq := q }) (State.keepRest rest)
  | .event q i :: rest => after (exec i { s with agenda := rest, actq := q }) (State.keepRest rest)
  | .edge :: _ => .next s.edge

/-! ### Placing an instruction (log 19) -/

/-- A page of 64 KiB that the core may fetch from, at a frame. -/
def State.codePage (s : State) (base frame : Nat) : Page :=
  { asid := s.asid, base := base, size := 65536, w1 := 0
    w0 := BitVec.ofNat 64 (1 + 2 + 4 + 8 + 16 + (if s.system then 0 else 32) + 64 + 128 + 2 ^ 16 * frame) }

/-- The core runs, with nothing before its next unit. -/
def State.ready (s : State) : State :=
  { s with
    csr := Sparse.set s.csr 0x100 (Word.setBits (s.readCsr 0x100) 0 1 0)
    pwr := { s.pwr with slow := Sparse.set (Sparse.set s.pwr.slow (2 * s.die + 1) 0) (2 * s.die) 0 }
    mgr := { s.mgr with phase := 5 }
    inp := { s.inp with halt := false, preempt := false }
    core := { s.core with
      status := .running, busy := 0, fetchClk := 2, skipBkpt := true, trapPend := none, entering := none, walkFault := [], machines := []
      refusals := [], engPend := [] } }

/-- The unit at the pc is the words of `w`, in memory that the core can fetch. -/
def State.placeUnit (s : State) (w : Nat) : State :=
  let base := va56 s.core.pc / 65536 * 65536
  let at' := va56 s.core.pc - base
  { s.ready with
    mem := Memory.writeLE s.mem at' 12 w
    mgr := { s.ready.mgr with memErr := s.mgr.memErr.filter fun e => decide (1025 < e.1) }
    sys := { s.sys with tlb := s.codePage base 0 :: s.codePage (base + 65536) 1 :: s.sys.tlb }
    agenda := [] }

/-- The queue whose engine the decoder reads a word for (log 7). -/
def wordQueue (w : Nat) : Nat :=
  if (decodeEngine .matrix w).isSome then 0 else if (decodeEngine .copy w).isSome then 1 else 9

/-- The word stands alone at the head of its queue, closed by a control NOP where it ends no entry, and is about to issue. -/
def State.placeWord (s : State) (w : Nat) : State :=
  let q := wordQueue w
  let one := fun (v : Nat) => ({ w := BitVec.ofNat 16 v, pc := s.core.pc, enq := s.cell.enqNo } : EWord)
  let ws := if 0xC000 ≤ w then [one w] else [one w, one 0xE000]
  let t := s.ready
  { t.setQueue q { Queue.reset with words := ws, nextSeq := (s.queue q).nextSeq + 1 } with agenda := [.word q, .edge] }

/-- The state with the instruction of `w` placed where the next step runs it. -/
def State.withFetchWord (s : State) (nbits w : Nat) : State :=
  if nbits ≤ 16 then s.placeWord (w % 65536) else s.placeUnit w

end Sys2Proof.Machine
end

