-- ==== Sys2Proof/Safety.lean ====
section
/-!
DEFINITION. What a well-formed state is, and what counts as a safe run: every step answers a next state, and the state
keeps the canonical form of its memories and the order of the clk (log 2).
-/

namespace Sys2Proof.Machine

/-- Queues whose head word is still to issue in this clk. -/
def wordsLeft (l : List Agent) : List Nat :=
  l.filterMap fun a => match a with
    | .word q => some q
    | .event _ _ => none
    | .edge => none

/-- The end of the clk stands nowhere but last. -/
def edgeLast : List Agent → Bool
  | [] => true
  | [_] => true
  | .edge :: _ :: _ => false
  | .word _ :: a :: l => edgeLast (a :: l)
  | .event _ _ :: a :: l => edgeLast (a :: l)

/-- The order of a clk: its end comes once and last, and each of the thirteen queues issues at most one word before it
(R151, R154). -/
def clkOrdered (l : List Agent) : Bool :=
  edgeLast l && (wordsLeft l).all (fun q => decide (q < 13)) && decide (wordsLeft l).Nodup &&
    ((wordsLeft l).isEmpty || l.getLast? == some .edge)

/-- The memory and the three stores are in canonical form. -/
def State.memoriesWf (s : State) : Bool :=
  Memory.wf s.mem && Memory.wf s.cell.store0 && Memory.wf s.cell.store1 && Memory.wf s.cell.store2

/-- A well-formed state. -/
def State.wf (s : State) : Bool := s.memoriesWf && clkOrdered s.agenda

/-- A run is safe for `n` steps: no step ends in a fault or a refusal. -/
def safeRun : Nat → State → Bool
  | 0, _ => true
  | n + 1, s => match step s with
    | .next t => safeRun n t
    | .fault _ => false
    | .refused _ => false

end Sys2Proof.Machine
end

