-- ==== Sys2Proof/Certificates/Slice0/Claims.lean ====
section
/-!
DEFINITION. The words the statements are written in: when operands can be used, how a unit retires, how a result reaches
its register, what stays as it was.
-/

namespace Sys2Proof.Claims

open Sys2Proof.Machine

/-- The g registers are full and hold no late word (R50-R52, R192-R194). -/
def Usable (s : State) (rs : List Nat) : Prop := ∀ r ∈ rs, s.emptyG r = false ∧ s.lateG r = false

/-- Everything outside the control core is as it was: CSRs, register space, stores, memory, engines, all of it. -/
def OnlyCore (s t : State) : Prop := t = { s with core := t.core }

/-- Of the control core, nothing but the g registers and their emptiness, the results in flight, the pc and the standing
of the unit at the head differs. -/
def OnlyRegisters (c d : Core) : Prop :=
  d = { c with
    g := d.g, gEmpty := d.gEmpty, inflight := d.inflight, pc := d.pc, charge := d.charge, chargeV := d.chargeV
    chargePc := d.chargePc, fetchClk := d.fetchClk, delayClk := d.delayClk, wfi := d.wfi, barsync := d.barsync
    fenceId := d.fenceId, readClk := d.readClk, far := d.far, walkFault := d.walkFault, skipBkpt := d.skipBkpt
    waited := d.waited }

/-- The unit issues and retires in this clk, and the next unit begins at `pc` (R65, R195). -/
def Retires (i : Instr) (s t : State) (pc : Word) : Prop :=
  exec i s = .next t ∧ t.core.pc = pc ∧ t.core.charge = .issued ∧ t.core.chargePc = s.core.pc

/-- The unit is still at the head: it is charged to the cause, and nothing else has changed (R195). -/
def Waits (i : Instr) (s t : State) (c : Cause) : Prop :=
  exec i s = .next t ∧ OnlyCore s t ∧ OnlyRegisters s.core t.core ∧ t.core.pc = s.core.pc ∧ t.core.g = s.core.g ∧
    t.core.gEmpty = s.core.gEmpty ∧ t.core.inflight = s.core.inflight ∧ t.core.charge = c

/-- Every g register but g[d] keeps its value and its emptiness. -/
def KeepsRegisters (s t : State) (d : Nat) : Prop := ∀ r, r ≠ d → t.g r = s.g r ∧ t.emptyG r = s.emptyG r

/-- Of results in flight for g[d], one that is due by the next clk and whose data, if it is a load's, are there by the end of
this one: a younger unit's write of this clk stands over it (R135). -/
def OverruledBy (l : Latch) (clk d : Nat) : Prop :=
  l.lateReg (clk + 1) d = true ∧ l.arrive ≤ clk ∧ l.port = none

/-- The value v, a result of exposed latency l, reaches g[d]: discarded for g0 (R39), written at once and full for a
latency of 1, and otherwise in flight until clk + l with the old value still read (R50, R133, R135, R192). -/
def Lands (s t : State) (l d : Nat) (v : Word) : Prop :=
  if d = 0 then t.core.g = s.core.g ∧ t.core.gEmpty = s.core.gEmpty ∧ t.core.inflight = s.core.inflight
  else if l ≤ 1 then t.g d = v ∧ t.emptyG d = false ∧
    ∀ x, x ∈ t.core.inflight ↔ x ∈ s.core.inflight ∧ ¬ OverruledBy x s.clk d
  else t.core.g = s.core.g ∧ t.core.gEmpty = s.core.gEmpty ∧ t.core.inflight = s.core.inflight ++
    [{ target := .reg d v, visible := s.clk + l, arrive := 0, scalar := true, port := none }]

/-- The unit retires, its one result reaches g[d], and nothing else changes: no other register, no CSR, no mask, shape
register or counter, no byte of register space, of the stores or of memory. -/
def WritesRegister (i : Instr) (s : State) (l d : Nat) (v : Word) (pc : Word) : Prop :=
  ∃ t, Retires i s t pc ∧ Lands s t l d v ∧ KeepsRegisters s t d ∧ OnlyRegisters s.core t.core ∧ OnlyCore s t

/-- An instruction that reads g registers and writes one: its sources, its destination, its exposed latency and its
value. -/
structure Row where
  srcs : List Nat
  dst  : Nat
  lat  : Nat
  val  : State → Word

/-- Two sources (format A). -/
def two (d a b : BitVec 5) (lat : Nat) (f : Word → Word → Word) : Option Row :=
  some { srcs := [a.toNat, b.toNat], dst := d.toNat, lat := lat, val := fun s => f (s.g a.toNat) (s.g b.toNat) }

/-- One source (formats A and I). -/
def one (d a : BitVec 5) (lat : Nat) (f : Word → Word) : Option Row :=
  some { srcs := [a.toNat], dst := d.toNat, lat := lat, val := fun s => f (s.g a.toNat) }

/-- No g register is read. -/
def zero (d : BitVec 5) (f : State → Word) : Option Row := some { srcs := [], dst := d.toNat, lat := 1, val := f }

/-- 1 where the condition holds, else 0. -/
def truth (b : Bool) : Word := if b then 1 else 0

/-- Set bits of a below a position. -/
def bitsBelow (a : Word) (n : Nat) : Nat := (List.range n).countP a.getLsbD

/-- The greatest of the positions of set bits, if there is one. -/
def highest (a : Word) : Option Nat := (List.range 64).reverse.find? a.getLsbD

/-- The least of the positions of set bits, if there is one. -/
def lowest (a : Word) : Option Nat := (List.range 64).find? a.getLsbD

/-- R78: the results of ADD to SAR, MIN to MAXU and the multiplications. R79: those of the divisions. -/
def arithmetic : Instr → Option Row
  | .add d a b _ _ => two d a b 1 fun x y => x + y
  | .sub d a b _ _ => two d a b 1 fun x y => x - y
  | .and d a b _ _ => two d a b 1 fun x y => x &&& y
  | .or d a b _ _ => two d a b 1 fun x y => x ||| y
  | .xor d a b _ _ => two d a b 1 fun x y => x ^^^ y
  | .andn d a b _ _ => two d a b 1 fun x y => x &&& ~~~ y
  | .shl d a b _ _ => two d a b 1 fun x y => x <<< (y.toNat % 64)
  | .shr d a b _ _ => two d a b 1 fun x y => x >>> (y.toNat % 64)
  | .sar d a b _ _ => two d a b 1 fun x y => x.sshiftRight (y.toNat % 64)
  | .mul d a b _ _ => two d a b 3 fun x y => BitVec.ofNat 64 (x.toNat * y.toNat)
  | .mulh d a b _ _ => two d a b 3 fun x y => BitVec.ofInt 64 (x.toInt * y.toInt / 2 ^ 64)
  | .mulhu d a b _ _ => two d a b 3 fun x y => BitVec.ofNat 64 (x.toNat * y.toNat / 2 ^ 64)
  | .div d a b _ _ => two d a b 12 fun x y =>
    if y = 0 then 0xFFFFFFFFFFFFFFFF
    else if x = 0x8000000000000000 ∧ y = 0xFFFFFFFFFFFFFFFF then x else BitVec.ofInt 64 (x.toInt.tdiv y.toInt)
  | .divu d a b _ _ => two d a b 12 fun x y =>
    if y = 0 then 0xFFFFFFFFFFFFFFFF else BitVec.ofNat 64 (x.toNat / y.toNat)
  | .rem d a b _ _ => two d a b 12 fun x y =>
    if y = 0 then x else if x = 0x8000000000000000 ∧ y = 0xFFFFFFFFFFFFFFFF then 0
    else BitVec.ofInt 64 (x.toInt - x.toInt.tdiv y.toInt * y.toInt)
  | .remu d a b _ _ => two d a b 12 fun x y =>
    if y = 0 then x else BitVec.ofNat 64 (x.toNat - x.toNat / y.toNat * y.toNat)
  | .min d a b _ _ => two d a b 1 fun x y => BitVec.ofInt 64 (min x.toInt y.toInt)
  | .max d a b _ _ => two d a b 1 fun x y => BitVec.ofInt 64 (max x.toInt y.toInt)
  | .minu d a b _ _ => two d a b 1 fun x y => BitVec.ofNat 64 (min x.toNat y.toNat)
  | .maxu d a b _ _ => two d a b 1 fun x y => BitVec.ofNat 64 (max x.toNat y.toNat)
  | _ => none

/-- R83: the compares and SEL, whose old g[rd] is a third source. -/
def comparison : Instr → Option Row
  | .ceq d a b _ _ => two d a b 1 fun x y => truth (x = y)
  | .cne d a b _ _ => two d a b 1 fun x y => truth (x ≠ y)
  | .clt d a b _ _ => two d a b 1 fun x y => truth (x.toInt < y.toInt)
  | .cltu d a b _ _ => two d a b 1 fun x y => truth (x.toNat < y.toNat)
  | .cle d a b _ _ => two d a b 1 fun x y => truth (x.toInt ≤ y.toInt)
  | .cleu d a b _ _ => two d a b 1 fun x y => truth (x.toNat ≤ y.toNat)
  | .sel d a b _ _ => some
    { srcs := [a.toNat, b.toNat, d.toNat], dst := d.toNat, lat := 1
      val := fun s => if s.g d.toNat ≠ 0 then s.g a.toNat else s.g b.toNat }
  | _ => none

/-- R84: bit counting, extraction and reversal. R85: RANK and SELECT. -/
def bitwise : Instr → Option Row
  | .popc d a _ => one d a 1 fun x => BitVec.ofNat 64 (bitsBelow x 64)
  | .clz d a _ => one d a 1 fun x => BitVec.ofNat 64 (((highest x).map fun p => 63 - p).getD 64)
  | .ctz d a _ => one d a 1 fun x => BitVec.ofNat 64 ((lowest x).getD 64)
  | .rank d a b _ _ => two d a b 1 fun x y => BitVec.ofNat 64 (bitsBelow x (min 64 y.toNat))
  | .select d a b _ _ => two d a b 1 fun x y =>
    BitVec.ofNat 64 (((List.range 64).find? fun p => x.getLsbD p && bitsBelow x p == y.toNat).getD 64)
  | .sext d a b _ _ => two d a b 1 fun x y => (x.setWidth (y.toNat % 64 + 1)).signExtend 64
  | .bext d a b _ _ => two d a b 1 fun x y =>
    (x >>> (y.toNat % 64)) &&& BitVec.ofNat 64 (2 ^ min (y.toNat / 2 ^ 8 % 2 ^ 7) 64 - 1)
  | .brev d a _ => one d a 1 fun x => BitVec.ofBoolListLE ((List.range 64).map fun i => x.getLsbD (63 - i))
  | _ => none

/-- R61, R67: the immediate of format I, joined with any XIMM, sign- or zero-extended to 64 bits. -/
def signedImm {n : Nat} (i : Imm n) : Word :=
  match i.hi with
  | none => i.lo.signExtend 64
  | some h => (h ++ i.lo).signExtend 64
def unsignedImm {n : Nat} (i : Imm n) : Word :=
  match i.hi with
  | none => i.lo.setWidth 64
  | some h => (h ++ i.lo).setWidth 64

/-- R61, R82: a sum modulo 2^56, sign-extended from bit 55. -/
def address56 (a : Word) : Word := (a.setWidth 56).signExtend 64

/-- R80: the immediate forms. R81: the shifts by an immediate. R82: ADDPC. -/
def immediate : Instr → Option Row
  | .addi d a i => one d a 1 fun x => x + signedImm i
  | .andi d a i => one d a 1 fun x => x &&& unsignedImm i
  | .ori d a i => one d a 1 fun x => x ||| unsignedImm i
  | .xori d a i => one d a 1 fun x => x ^^^ unsignedImm i
  | .slti d a i => one d a 1 fun x => truth (x.toInt < (signedImm i).toInt)
  | .sltiu d a i => one d a 1 fun x => truth (x.toNat < (signedImm i).toNat)
  | .muli d a i => one d a 3 fun x => x * signedImm i
  | .shli d a n => one d a 1 fun x => x <<< n.toNat
  | .shri d a n => one d a 1 fun x => x >>> n.toNat
  | .sari d a n => one d a 1 fun x => x.sshiftRight n.toNat
  | .addpc d i => zero d fun s => address56 (s.core.pc + 4 * signedImm i)
  | _ => none

/-- Whatever its row says, an instruction of the table with ready operands writes its register and nothing else. -/
def Computes (table : Instr → Option Row) : Prop :=
  ∀ (i : Instr) (s : State) (r : Row), table i = some r → Usable s (r.srcs ++ [r.dst]) →
    WritesRegister i s r.lat r.dst (r.val s) (s.core.pc + 4 * BitVec.ofNat 64 i.words)

/-- The unit keeps every register, its emptiness and every result in flight. -/
def KeepsCore (s t : State) : Prop :=
  OnlyRegisters s.core t.core ∧ t.core.g = s.core.g ∧ t.core.gEmpty = s.core.gEmpty ∧ t.core.inflight = s.core.inflight

/-- The address after the unit's words (R66, R191). -/
def following (i : Instr) (s : State) : Word := s.core.pc + 4 * BitVec.ofNat 64 i.words

/-! ### Transfers of control (R86-R88, R90) -/

/-- A transfer: its sources, when it is taken, its target, and a register written either way (0: none). -/
structure Jump where
  srcs   : List Nat
  taken  : State → Bool
  target : State → Word
  dst    : Nat
  val    : State → Word

/-- R61: the address of the branch word, after its prefix, plus 4 times the displacement, modulo 2^56, sign-extended. -/
def displaced (i : Instr) (p : Imm 21) (s : State) : Word :=
  address56 (s.core.pc + 4 * BitVec.ofNat 64 (i.words - 1) + 4 * signedImm p)

/-- A branch in format B with no register of its own. -/
def branchIf (i : Instr) (p : Imm 21) (srcs : List Nat) (taken : State → Bool) : Option Jump :=
  some { srcs := srcs, taken := taken, target := displaced i p, dst := 0, val := fun _ => 0 }

/-- R86, R87, R88, R90: every transfer, and NOP, which is never taken. -/
def transfer (i : Instr) : Option Jump :=
  match i with
  | .j p => branchIf i p [] fun _ => true
  | .call p => some { srcs := [], taken := fun _ => true, target := displaced i p, dst := 31, val := following i }
  | .bez a p => branchIf i p [a.toNat] fun s => s.g a.toNat = 0
  | .bnz a p => branchIf i p [a.toNat] fun s => s.g a.toNat ≠ 0
  | .bltz a p => branchIf i p [a.toNat] fun s => (s.g a.toNat).toInt < 0
  | .bknone p => branchIf i p [] fun s => s.k = 0
  | .bkany p => branchIf i p [] fun s => s.k ≠ 0
  | .bkall p => branchIf i p [] fun s => s.k = 0xFFFFFFFFFFFFFFFF
  | .loop a p => some
    { srcs := [a.toNat], taken := fun s => s.g a.toNat - 1 ≠ 0, target := displaced i p, dst := a.toNat
      val := fun s => s.g a.toNat - 1 }
  | .jr a _ => some { srcs := [a.toNat], taken := fun _ => true, target := fun s => s.g a.toNat, dst := 0, val := fun _ => 0 }
  | .callr a _ => some
    { srcs := [a.toNat], taken := fun _ => true, target := fun s => s.g a.toNat, dst := 31, val := following i }
  | .nop => some { srcs := [], taken := fun _ => false, target := fun _ => 0, dst := 0, val := fun _ => 0 }
  | _ => none

/-! ### Shape registers (R93) -/

/-- The unit retires, changes no register and no result in flight, and leaves the state as `f` says outside those. -/
def RetiresWith (i : Instr) (s : State) (pc : Word) (f : State → State → Prop) : Prop :=
  ∃ t, Retires i s t pc ∧ KeepsCore s t ∧ f s t

/-- R93: ZGET and ZPEND return a shape register and its pending-reader count. -/
def shapeRead : Instr → Option Row
  | .zget d z => zero d fun s => (s.core.z[z.toNat]?.getD 0).setWidth 64
  | .zpend d z => zero d fun s => BitVec.ofNat 64 (s.core.zpend[z.toNat]?.getD 0)
  | _ => none

/-! ### The word a stopped unit leaves behind -/

/-- The trap frame holds the cause, the resume pc and the information of a trap, and the old modes (R201, R204-R206). -/
def Frames (s t : State) (x : TrapInfo) (pc : Word) : Prop :=
  Sparse.get t.csr 0x042 = BitVec.ofNat 64 (x.code + 256 * x.sub) ∧ Sparse.get t.csr 0x043 = x.addr ∧
    Sparse.get t.csr 0x044 = x.info0 ∧ Sparse.get t.csr 0x045 = x.info1 ∧ Sparse.get t.csr 0x046 = x.info2 ∧
    Sparse.get t.csr 0x041 = BitVec.ofNat 64 (pc.toNat % 2 ^ 56) ∧
    (Sparse.get t.csr 0x040).getLsbD 0 = true ∧ (Sparse.get t.csr 0x040).getLsbD 1 = true ∧
    (Sparse.get t.csr 0x040).getLsbD 2 = s.system ∧ (Sparse.get t.csr 0x040).getLsbD 3 = (s.readCsr 0x100).getLsbD 0

end Sys2Proof.Claims
end

