-- ==== Sys2Proof/Certificates/Slice0/ClaimsSystem.lean ====
section
/-!
DEFINITION. The words the statements about traps, shape registers and CSRs are written in.
-/

namespace Sys2Proof.Claims

open Sys2Proof.Machine

/-! ### Traps -/

/-- The data of every store load have arrived by the end of clk e (R193, R200). -/
def Arrived (s : State) (e : Nat) : Prop := ∀ l, l ∈ s.core.inflight → l.port = none ∧ l.arrive ≤ e

/-- A synchronous trap is entered from its clk of issue on: no data of a store load are outstanding, and the trap is no
double trap (R200-R202). -/
def EntersAtOnce (s : State) : Prop := (s.system && s.held) = false ∧ Arrived s s.clk

/-- Results in flight, with those a return re-injects, counted from the clk of issue. -/
def pendingAt (s : State) : List Latch :=
  (s.core.reinject.map fun l => { l with visible := s.clk + l.visible }) ++ s.core.inflight

/-- NLAT: the results not yet visible, at most twelve (R200). -/
def toSave (s : State) : Nat := min 12 ((pendingAt s).countP fun l => decide (s.clk < l.visible))

/-- The CSRs that trap entry writes (R201, R204, R386). -/
def entryCsrs : List Nat :=
  [0x001, 0x014, 0x040, 0x041, 0x042, 0x043, 0x044, 0x045, 0x046, 0x048, 0x049, 0x04A, 0x04B, 0x04C, 0x04D, 0x04E,
   0x04F, 0x050, 0x100, 0x1C5]

/-- Trap entry of a unit (R200, R201): the frame, the modes, the mask stack, the handler's address, the clk of entry, and
what stays. -/
def Enters (s t : State) (x : TrapInfo) (pc : Word) : Prop :=
  Frames s t x pc ∧ t.system = true ∧ (t.readCsr 0x100).getLsbD 0 = false ∧ t.msp = 0 ∧ t.k = BitVec.allOnes 64 ∧
    t.core.pc = ((t.readCsr 0x101).setWidth 56 &&& 0xFFFFFFFFFFFFFC).signExtend 64 ∧
    (t.readCsr 0x040).toNat / 16 % 16 = toSave s ∧ t.core.inflight = [] ∧ t.core.reinject = [] ∧
    t.readCsr 0x048 = BitVec.ofNat 64 s.msp ∧ (∀ i, i < 8 → t.readCsr (0x049 + i) = s.core.mask[i]?.getD 0) ∧
    t.core.busy = 4 + toSave s ∧ t.core.charge = .trap ∧ t.core.chargePc = s.core.pc ∧
    (∀ n, n ∉ entryCsrs → t.readCsr n = s.readCsr n) ∧ t.mem = s.mem ∧ t.sys = s.sys ∧
    t.cell.store0 = s.cell.store0 ∧ t.cell.store1 = s.cell.store1 ∧ t.cell.store2 = s.cell.store2 ∧
    t.core.q = s.core.q ∧ t.core.z = s.core.z ∧ t.cell.queues = s.cell.queues

/-- A trap recognised with resume point b while data of a store load are outstanding: its entry waits for them, and neither
frame, modes, pc nor registers change (R200, R201). -/
def WaitsToEnter (s t : State) (x : TrapInfo) (pc : Word) (b waited : Nat) : Prop :=
  t.core.entering = some { info := x, pc := pc, b := b, waited := waited } ∧ t.csr = s.csr ∧ t.core.pc = s.core.pc ∧
    t.core.g = s.core.g ∧ t.core.inflight = s.core.inflight ∧ t.core.charge = .trap ∧ t.cell = s.cell ∧ t.mem = s.mem

/-- The unit takes a trap of a code with nothing further to report, with its own pc as the resume pc. -/
def TrapsWith (i : Instr) (s : State) (code : Nat) : Prop :=
  ∃ t, exec i s = .next t ∧ Enters s t { code := code } s.core.pc

/-! ### Shape registers (R93, R94) -/

/-- ZSET's effect: the register is written, the engine words of this clk still read the value before, nothing else
differs. -/
def WritesShape (s t : State) (n : Nat) (v : Lane) : Prop :=
  KeepsCore (s.setCore { s.core with z := t.core.z, zOld := t.core.zOld }) t ∧ OnlyCore s t ∧
    (∀ m, m < 16 → t.z m = if m = n then v else s.z m) ∧ (∀ m, t.zForEngine m = s.z m)

/-! ### CSRs (R56, R100) -/

/-- Registers with no behaviour of their own, read and written at system level, with their writable bits (R97, R102,
R204, R365, R388). -/
def plainCsrs : List (Nat × Word) :=
  [(0x041, 0xFFFFFFFFFFFFFF), (0x042, 0xFFFF), (0x043, BitVec.allOnes 64), (0x044, BitVec.allOnes 64),
   (0x045, BitVec.allOnes 64), (0x046, BitVec.allOnes 64), (0x048, 7), (0x049, BitVec.allOnes 64),
   (0x050, BitVec.allOnes 64), (0x051, 0x1FF), (0x0C1, 0xFFFFFFFFFFFFC0), (0x0C2, 0xFFFFFFFFC0),
   (0x0C3, 0xFFFFFFFFF0), (0x0C4, BitVec.allOnes 64), (0x101, 0xFFFFFFFFFFFFFD), (0x102, BitVec.allOnes 64),
   (0x104, 3), (0x106, 0xFFFFFFFFFFFF)]

/-- The value a form of R100 writes, from the old value and g[ra]; none for CSRR. -/
def csrForm : Instr → Option (Nat × Nat × Nat × (Word → Word → Option Word))
  | .csrr d n => some (d.toNat, 0, n.toNat, fun _ _ => none)
  | .csrw d a n => some (d.toNat, a.toNat, n.toNat, fun _ x => some x)
  | .csrs d a n => some (d.toNat, a.toNat, n.toNat, fun o x => some (o ||| x))
  | .csrc d a n => some (d.toNat, a.toNat, n.toNat, fun o x => some (o &&& ~~~x))
  | .csrx d a n => some (d.toNat, a.toNat, n.toNat, fun o x => some (o ^^^ x))
  | _ => none

/-- Of the state, only registers and the CSR n differ. -/
def OnlyCsr (s t : State) (n : Nat) : Prop :=
  (∀ m, m ≠ n → t.readCsr m = s.readCsr m) ∧ t = { s with core := t.core, csr := t.csr } ∧ OnlyRegisters s.core t.core

end Sys2Proof.Claims
end

