-- ==== Sys2Proof/Certificates/Slice0/ClaimsMemory.lean ====
section
/-!
DEFINITION. The words the statements about memory accesses are written in.
-/

namespace Sys2Proof.Claims

open Sys2Proof.Machine

/-! ### When an access may be made -/

/-- No acquire of the cell is outstanding (R259): the last one's loads have landed. -/
structure Acquired (s : State) : Prop where
  landed : s.core.acqUntil ≤ s.clk
  noAcq : (s.sys.reqs ++ s.fab.out ++ s.coll.outHeld).all (fun r => r.origin != .own || r.queue != 15 || !r.acq) = true
  noReply : (s.sys.replies ++ s.core.posted.filterMap Posted.row).all (fun r => r.queue != 15 || !r.acq) = true

/-- No acquire is outstanding, global traffic of the die is not held (R258, R395), and the context neither traces nor replays
(R365, R377). -/
structure AccessOpen (s : State) : Prop where
  acquired : Acquired s
  flowing : s.sys.hold = false
  room : (Sparse.get s.sys.vc (33 * s.die)).toNat < 2 ^ 40 - 2 ^ 20
  plain : Sparse.get s.csr 0x0C0 = 0

/-- An instruction's release order, if it has one, is satisfied (R259). -/
def Released (s : State) (od : Option Ord) : Prop := isRelease od = true → s.released (ordScope od) = true

/-- A write may be made: what earlier release fences wait for has been performed, and so has what its own order asks (R259). -/
def Writable (s : State) (od : Option Ord) : Prop := s.fencesOpen = true ∧ Released s od

/-- The device that an access of a page goes to, if it is another module: that of its window, or of its receiver (R111,
R318). -/
def isLocal (s : State) (p : Page) : Option Nat := if p.rwin && decide (p.tdev ≠ s.devid) then some p.tdev else none

def farOf (s : State) (p : Page) (write : Bool) : Option Nat :=
  if write = true ∧ p.coll ≠ 0 then (if p.tdev = s.devid then none else some p.tdev) else isLocal s p

/-- Of the cell's requests to another module for which the page is meant there are no more outstanding, with n more, than
the 256 of its class (R355). -/
def Room (s : State) (p : Page) (write : Bool) (n : Nat) : Prop :=
  ∀ d, farOf s p write = some d → s.outstanding d p.cls + n ≤ 256

/-- The n bytes at va lie on page p: a canonical address outside the register-space window, the page cached, the access
permitted, and D set for a write (R311, R321-R323). -/
structure OnPage (s : State) (va : Word) (acc : Access) (n : Nat) (p : Page) : Prop where
  canon : (va.setWidth 56).signExtend 64 = va
  outside : inWindow va = false
  known : s.core.walkFault = []
  cached : s.cached va = some p
  dirty : acc.writes = true → p.w0.getLsbD 7 = true
  allowed : permitted p.w0 acc s.system s.ux = true
  within : va56 va + n ≤ p.base + p.size

/-- n bytes of the register-space window of a usable cell, at system level; for a read no word of the cell's own register
space holds an error (R53, R321). -/
structure InUsableWindow (s : State) (va : Word) (n : Nat) : Prop where
  window : inWindow va = true
  level : s.system = true
  usable : s.cellUsable (windowCell va) = true
  within : windowByte va + n ≤ 0x30000
  sound : s.cell.rspErr = []

/-- Place of a window byte among the physical addresses (R252, R321, log 1). -/
def windowPlace (va : Word) : Nat := 2 ^ 52 + 0x40000 * windowCell va + windowByte va

/-- The bytes lie in the store, and no word of a store holds an error (R105, R230). -/
def InStore (s : State) (st : Nat) (va : Word) (n : Nat) : Prop := va.toNat + n ≤ storeSize st ∧ s.cell.storeErr = []

/-- No watchpoint of the cell is armed (R369). -/
def Unwatched (s : State) : Prop := ∀ i, i < 4 → (Sparse.get s.csr (0x0D1 + 2 * i)).getLsbD 16 = false

/-! ### Operands of format M (R40, R62) -/

/-- The base register as the mode leaves it, and every other register as it was. -/
def BaseMoved (s t : State) (m : MemArg) (sc : Scale) : Prop :=
  ∀ r, r < 32 → t.g r = if r = m.base.toNat ∧ r ≠ 0 then (s.newBase m sc).getD (s.g r) else s.g r

/-- The results still in flight once the mode has written the base register. -/
def flightAfter (s : State) (m : MemArg) (sc : Scale) : List Latch := (s.updateBase m sc).core.inflight

/-- Address registers, and d, that the operand needs. -/
def operandRegs (m : MemArg) (d : Nat) : List Nat :=
  [m.base.toNat, d] ++ if m.mode = 3 then [m.off.toNat % 32] else []

/-! ### An access on its way (R252, R255, R318) -/

/-- The die's clock (R255). -/
def clockOf (s : State) : List Nat := (List.range 28).map fun e => (Sparse.get s.sys.vc (32 * s.die + e)).toNat

/-- The stamp of a write: the die's clock, with its own component one higher (R255). -/
def stampFor (s : State) (op : ReqOp) : List Nat :=
  if op.writes = true then (List.range 28).map fun e =>
    (Sparse.get s.sys.vc (32 * s.die + e)).toNat + if e = s.die then 1 else 0
  else []

/-- The access of the head unit: what it does and where, its home, its stamp, its destination. -/
def IsAccess (s : State) (r : Req) (op : ReqOp) (va : Word) (pa : Nat) (dev : Option Nat) (dest : Dest) (acq : Bool) :
    Prop :=
  r.id = s.sys.nextId ∧ r.op = op ∧ r.pa = pa ∧ r.va = va ∧ r.home = homeOf pa ∧ r.die = s.die ∧
    r.stamp = stampFor s op ∧ r.rclk = clockOf s ∧ r.dest = dest ∧ r.queue = 15 ∧ r.pc = s.core.pc ∧ r.dev = dev ∧
    r.acq = acq ∧ r.key = s.jobKey ∧ r.origin = .own

/-- One access more is on its way, to its home or, of a remote-window page, to another module. -/
def Sends (s t : State) (op : ReqOp) (va : Word) (pa : Nat) (dev : Option Nat) (dest : Dest) (acq : Bool) : Prop :=
  ∃ r, IsAccess s r op va pa dev dest acq ∧
    t.sys.reqs = s.sys.reqs ++ (if dev = none then [r] else []) ∧
    t.fab.out = s.fab.out ++ (if dev = none then [] else [r])

/-- Beside registers, the register-space words and queue rows that wait for the answer, and energy counters, nothing differs
but the accesses on their way, their count, and the dies that wrote in this clk. -/
def OnlyAccess (s t : State) : Prop :=
  t = { s with
    core := t.core
    cell := { s.cell with rspEmpty := t.cell.rspEmpty, oq := t.cell.oq }
    sys := { s.sys with reqs := t.sys.reqs, nextId := t.sys.nextId, wrote := t.sys.wrote }
    fab := { s.fab with out := t.fab.out }
    acct := { s.acct with occur := t.acct.occur } }


/-- Nothing differs but the control core and energy counters. -/
def OnlyCounts (s t : State) : Prop := t = { s with core := t.core, acct := { s.acct with occur := t.acct.occur } }

/-- Of the control core, registers, results in flight, the wait of an acquire, requests for store ports, the pc and the head
unit's standing. -/
def CoreOfAccess (s t : State) : Prop :=
  OnlyRegisters { s.core with acqUntil := t.core.acqUntil, posted := t.core.posted } t.core

/-- A store as the control core's units see it: with the writes of its earlier units, also those whose port has not been
granted (R107, R228). -/
def seen (s : State) (st : Nat) : Memory := s.coreView.cell.store st

/-- Bytes [off, off + n) of a store hold a value for the core's later units, little-endian, and every other byte of every store
is as it was. -/
def StoreHolds (s t : State) (st off n : Nat) (v : Nat) : Prop :=
  (∀ a, Sparse.get (seen t st) a =
    if off ≤ a ∧ a < off + n then BitVec.ofNat 8 (v / 256 ^ (a - off)) else Sparse.get (seen s st) a) ∧
  ∀ st', st' < 3 → st' ≠ st → seen t st' = seen s st'

/-- The core asks for the port of a store in this clk, to write bytes at offsets or to read (R228). -/
def AsksPort (s t : State) (st : Nat) (parts : List (Nat × List Byte)) : Prop :=
  t.core.posted = s.core.posted ++ [{ st := st, clk := s.clk, enq := s.cell.enqNo, parts := parts, row := none }]

/-- The n bytes of a number, little-endian. -/
def bytesOf (n v : Nat) : List Byte := (List.range n).map fun j => BitVec.ofNat 8 (v / 256 ^ j)

/-- A store load of nominal latency n issued in this clk, which asks for the port of its store (R193, R228). -/
def storeLatch (s : State) (n st : Nat) (t : Target) (scalar : Bool) : Latch :=
  { target := t, visible := s.clk + n, arrive := s.clk + n - 1, scalar := scalar, port := some st }

/-! ### Scalar loads and stores (R108) -/

/-- LD and LDW: bytes, destination, operand, order. -/
def scalarLoad : Instr → Option (Nat × Nat × MemArg × Option Ord)
  | .ld d m od => some (8, d.toNat, m, od)
  | .ldw d m od => some (4, d.toNat, m, od)
  | _ => none

/-- ST and STW: bytes, source, operand, order. -/
def scalarStore : Instr → Option (Nat × Nat × MemArg × Option Ord)
  | .st d m od => some (8, d.toNat, m, od)
  | .stw d m od => some (4, d.toNat, m, od)
  | _ => none

/-- The scale of a scalar access of n bytes (R62). -/
def scaleOf (n : Nat) : Scale := if n = 8 then .b8 else .b4

/-- Where an access with a g-register result leaves it: none for g0 (R108, R114). -/
def regDest (d : Nat) : Dest := if d = 0 then .none else .reg d

/-! ### Atomics (R114) -/

/-- The function a word takes in memory and the operand give, by function code, for n-byte words. -/
def atomicCode : Instr → Option (Nat × Nat × Nat × Nat × Nat × Option Ord)
  | .aadd d a b _ _ od => some (0, 8, d.toNat, a.toNat, b.toNat, od)
  | .aand d a b _ _ od => some (1, 8, d.toNat, a.toNat, b.toNat, od)
  | .aor d a b _ _ od => some (2, 8, d.toNat, a.toNat, b.toNat, od)
  | .axor d a b _ _ od => some (3, 8, d.toNat, a.toNat, b.toNat, od)
  | .amin d a b _ _ od => some (4, 8, d.toNat, a.toNat, b.toNat, od)
  | .amax d a b _ _ od => some (5, 8, d.toNat, a.toNat, b.toNat, od)
  | .aminu d a b _ _ od => some (6, 8, d.toNat, a.toNat, b.toNat, od)
  | .amaxu d a b _ _ od => some (7, 8, d.toNat, a.toNat, b.toNat, od)
  | .aswap d a b _ _ od => some (8, 8, d.toNat, a.toNat, b.toNat, od)
  | .aaddW d a b _ _ od => some (0, 4, d.toNat, a.toNat, b.toNat, od)
  | .aandW d a b _ _ od => some (1, 4, d.toNat, a.toNat, b.toNat, od)
  | .aorW d a b _ _ od => some (2, 4, d.toNat, a.toNat, b.toNat, od)
  | .axorW d a b _ _ od => some (3, 4, d.toNat, a.toNat, b.toNat, od)
  | .aminW d a b _ _ od => some (4, 4, d.toNat, a.toNat, b.toNat, od)
  | .amaxW d a b _ _ od => some (5, 4, d.toNat, a.toNat, b.toNat, od)
  | .aminuW d a b _ _ od => some (6, 4, d.toNat, a.toNat, b.toNat, od)
  | .amaxuW d a b _ _ od => some (7, 4, d.toNat, a.toNat, b.toNat, od)
  | .aswapW d a b _ _ od => some (8, 4, d.toNat, a.toNat, b.toNat, od)
  | .afaddW d a b _ _ od => some (9, 4, d.toNat, a.toNat, b.toNat, od)
  | _ => none

/-- CAS and CAS.W: size, destination, address, new value, order. -/
def compareSwap : Instr → Option (Nat × Nat × Nat × Nat × Option Ord)
  | .cas d a b _ _ od => some (8, d.toNat, a.toNat, b.toNat, od)
  | .casW d a b _ _ od => some (4, d.toNat, a.toNat, b.toNat, od)
  | _ => none

/-! ### Vat instructions (R117) -/

/-- The operation, the address register, the value pushed, and the registers that take value and status of the reply. -/
def vatForm (s : State) : Instr → Option (VatOp × Nat × Word × Option Nat × Option Nat × Option Ord)
  | .vpush d a b _ _ od => some (.push, a.toNat, s.g b.toNat, none, some d.toNat, od)
  | .vpop d a _ od => some (.pop, a.toNat, 0, some d.toNat, none, od)
  | .vpopnb d a b _ od => some (.popNb, a.toNat, 0, some d.toNat, some b.toNat, od)
  | _ => none

/-- The registers a vat instruction reads at issue. -/
def vatSources : Instr → List Nat
  | .vpush _ a b _ _ _ => [a.toNat, b.toNat]
  | .vpop _ a _ _ => [a.toNat]
  | .vpopnb _ a _ _ _ => [a.toNat]
  | _ => []

/-! ### Vector operands (R45, R47, R54, R130) -/

/-- Enabled lanes, in order. -/
def enabled (k : Word) : List Nat := (List.range 64).filter k.getLsbD

/-- The word of lane l of v[n] (R45). -/
def laneWord (s : State) (n l : Nat) : Nat := (256 * (s.readCsr 0x010).toNat + 256 * n) % 2 ^ 18 / 4 + l

/-- The words of the lanes are full, hold no late result and no error (R51-R53, R194). -/
def LanesReady (s : State) (n : Nat) (k : Word) : Prop :=
  s.cell.rspErr = [] ∧ ∀ l, l < 64 → k.getLsbD l = true →
    s.emptyWord (laneWord s n l) = false ∧ s.lateWord (laneWord s n l) = false

/-- The words of the lanes lie in no bank bound to the matrix slot (R48). -/
def LanesFree (s : State) (n : Nat) (k : Word) : Prop :=
  ∀ l, l < 64 → k.getLsbD l = true → (s.readCsr 0x013).getLsbD (laneWord s n l / 4096) = false

/-- Words of the lanes are empty, the other words as they were. -/
def LanesEmptied (s t : State) (n : Nat) (k : Word) : Prop :=
  ∀ w, t.emptyWord w = (s.emptyWord w || (enabled k).any fun l => laneWord s n l == w)

/-- Bytes per element of a page of format 0-3 in a vector footprint (R109). -/
def elemSize (fmt : Nat) : Nat := if fmt = 0 ∨ fmt = 3 then 4 else 2

/-- The blocks of a footprint on a narrow page, in order. -/
def blocksAt (va : Word) (p : Page) (foot : Nat) : List Block :=
  (List.range (foot / blockBytes p.fmt p.geo)).map fun j =>
    p.block ((va56 va - p.base) / blockBytes p.fmt p.geo + j)

/-- A page of a narrow format whose blocks can be touched at va: the access begins at a block, its bytes are whole blocks, the
geometry is no reserved one, and the scale-stream slots of these blocks are sound (R22, R23, R25, R109). -/
structure NarrowReady (s : State) (va : Word) (p : Page) (foot : Nat) (whole : Bool) : Prop where
  narrow : 4 ≤ p.fmt ∧ p.fmt ≤ 11 ∧ p.geo ≠ 3
  start : (va56 va - p.base) % blockBytes p.fmt p.geo = 0 ∧ foot % blockBytes p.fmt p.geo = 0
  slots : ∀ b, b ∈ blocksAt va p foot → s.presentPa b.slot = true → s.presentPa (b.slot + 95) = true →
    s.badLine b.slot = false ∧ s.badLine (b.slot + 95) = false ∧
    (decodeSlot (s.bytes b.slot 96) (if whole then b.group else b.blk + 1)).isSome = true

/-- A read of the cell's die is answered: its home holds the clock of the clk in which it was first made, the clock of now for
a read not made before (R255, R256). -/
def Answered (s : State) (clock : List Nat) : Prop :=
  ∀ e, e < 28 → ((if clock = [] then clockOf s else clock)[e]?).getD 0 ≤ (Sparse.get s.sys.front e).toNat

/-- The read of the slots is answered (R109). -/
def SlotsRead (s : State) : Prop := Answered s s.core.readClk

/-- The die has joined the maxima of the homes of what it read at the addresses (R255, R256). -/
def JoinsHomes (s t : State) (pas : List Nat) : Prop :=
  ∀ e, e < 28 → (Sparse.get t.sys.vc (32 * s.die + e)).toNat =
    (pas.map fun a => (Sparse.get s.sys.maxv (32 * homeOf a + e)).toNat).foldl max (Sparse.get s.sys.vc (32 * s.die + e)).toNat

/-- The same for the slots of a footprint. -/
def JoinsSlots (s t : State) (va : Word) (p : Page) (foot : Nat) : Prop :=
  JoinsHomes s t ((blocksAt va p foot).map Block.slot)

/-- The state with the clocks that the dies have in another. -/
def joined (s t : State) : State := { s with sys := { s.sys with vc := t.sys.vc } }

/-- The code of an FP32 lane in an element of a page of format 0-3, under CTL.RM (R34, R109). -/
def elemCode (s : State) (fmt : Nat) (l : Lane) : Nat :=
  if fmt = 1 then Fmt.bf16.encode s.rm false (ofFp32 l)
  else if fmt = 2 then Fmt.fp16.encode s.rm false (ofFp32 l) else l.toNat

/-- Bytes of 64 elements of a narrow format; of LAT2, of 8 indices (R109). -/
def narrowFoot (fmt : Nat) : Nat := if fmt = 11 then 16 else 64 * fmtWidth fmt / 8

end Sys2Proof.Claims
end

