-- ==== Sys2Proof/Certificates/Slice0/ClaimsSync.lean ====
section
/-!
DEFINITION. The words the statements about tiles, rings, allocators, the cue board, barriers and bank lending are written in.
-/

namespace Sys2Proof.Claims

open Sys2Proof.Machine

/-- n bits of a word from a position. -/
def field (d : Word) (lo n : Nat) : Nat := d.toNat / 2 ^ lo % 2 ^ n

/-- The word with its STATE field (51:50) replaced (R121). -/
def withTileState (d : Word) (v : Nat) : Word := (d &&& ~~~((3 : Word) <<< 50)) ||| (BitVec.ofNat 64 v <<< 50)

/-- Of the cell, only its tile table, pending readiness and rings differ; of the state, only that and the core. -/
def OnlyTiles (s t : State) : Prop :=
  t = { s with core := t.core, cell := { s.cell with tiles := t.cell.tiles, ready := t.cell.ready, rings := t.cell.rings } }

/-- Of the cell, only the allocators differ; of the state, only that and the core. -/
def OnlyAllocs (s t : State) : Prop := t = { s with core := t.core, cell := { s.cell with allocs := t.cell.allocs } }

/-- Handle h holds the descriptor, every other handle what it held. -/
def TileIs (s t : State) (h : Nat) (d : Word) : Prop :=
  ∀ g, Sparse.get t.cell.tiles g = if g = h then d else Sparse.get s.cell.tiles g

/-- The pending readiness of h that a TSETRDY set is dropped (R233). -/
def DropsReady (s t : State) (h : Nat) : Prop :=
  t.cell.ready = s.cell.ready.filter fun r => r.ring || r.tile != h

/-- A readiness of h stands pending, for the next clk at the earliest, in place of one that was (R233). -/
def PendsReady (s t : State) (h : Nat) (ring : Bool) : Prop :=
  t.cell.ready = (s.cell.ready.filter fun r => r.tile != h) ++
    [{ tile := h, ring := ring, enq := s.cell.enqNo, at' := s.clk + 1 }]

/-- What TNEW asks (R121). -/
structure Bindable (s : State) (h : Nat) (d : Word) : Prop where
  handle : h < 256
  store : field d 48 2 < 3
  some' : field d 24 24 ≠ 0
  whole : field d 0 24 % 64 = 0 ∧ field d 24 24 % 64 = 0
  inside : field d 0 24 + field d 24 24 ≤ storeSize (field d 48 2)
  still : field (Sparse.get s.cell.tiles h) 50 2 ≠ 1 ∧ field (Sparse.get s.cell.tiles h) 50 2 ≠ 3
  plain : field d 50 14 = 0

/-- Ring n is r, every other ring what it was. -/
def RingIs (s t : State) (n : Nat) (r : Ring) : Prop :=
  ∀ m, m < 16 → t.cell.rings[m]? = if m = n then some r else s.cell.rings[m]?

/-- Allocator st is a, every other what it was. -/
def AllocIs (s t : State) (st : Nat) (a : Alloc) : Prop :=
  ∀ m, m < 3 → t.cell.allocs[m]? = if m = st then some a else s.cell.allocs[m]?

/-- The EXHAUST trap with the request size and the five fields (R123, R206). -/
def Exhausts (i : Instr) (s : State) (st size : Nat) (a : Alloc) : Prop :=
  ∃ t, exec i s = .next t ∧ Enters s t
    { code := 0x0A
      info0 := BitVec.ofNat 64 (st + 256 * a.rlive + 2 ^ 32 * min size 0xFFFFFFFF)
      info1 := BitVec.ofNat 64 (a.bump + 2 ^ 24 * a.rbase), info2 := BitVec.ofNat 64 (a.rhead + 2 ^ 24 * a.rtail) }
    s.core.pc

/-- A unit retires with one result of latency 1 and an effect on the cell; of the core nothing but registers differs. -/
def RetiresInto (i : Instr) (s t : State) (d : Nat) (v : Word) : Prop :=
  Retires i s t (following i s) ∧ Lands s t 1 d v ∧ KeepsRegisters s t d ∧ OnlyRegisters s.core t.core

/-- A unit retires with no register written. -/
def RetiresPlain (i : Instr) (s t : State) : Prop := Retires i s t (following i s) ∧ KeepsCore s t

/-- q[n] counts v more, modulo 2^32, and the agent and clk of the increment are kept: from the next clk on it is the last one
(R42, R216, R220). -/
def Counts (s t : State) (n : Nat) (v : Lane) (agent : Nat) : Prop :=
  (∀ m, m < 64 → t.cue m = if m = n then s.cue m + v else s.cue m) ∧ ({ t with clk := s.clk + 1 } : State).bumper n = agent

/-- The accesses of the core as an acquire marks them: earlier loads, which later accesses wait for (R259). -/
def marked (rs : List Req) : List Req := rs.map fun r => if r.queue = 15 && r.op.reads then { r with acq := true } else r

/-- The acquire side of an order: nothing, or every earlier load is waited for. -/
def AcquireSide (s t : State) (od : Option Ord) : Prop :=
  if isAcquire od = true then t.sys.reqs = marked s.sys.reqs ∧ t.fab.out = marked s.fab.out ∧
      t.sys.replies = s.sys.replies.map (fun r => if r.queue = 15 then { r with acq := true } else r) ∧
      t.sys = { s.sys with reqs := t.sys.reqs, replies := t.sys.replies } ∧ t.fab = { s.fab with out := t.fab.out }
  else t.sys = s.sys ∧ t.fab = s.fab

/-- Instance n after the cell's arrival: the generation completes where every rank has arrived or ended (R127). -/
def arrivedAt (s : State) (n : Nat) : Barrier :=
  let b := s.bar n
  let a := b.arrived ||| ((1 : Word) <<< s.cell.rank)
  if (List.range s.cell.troupeSize).all fun r => a.getLsbD r || s.cell.endedRanks.getLsbD r then { gen := b.gen + 1, arrived := 0 }
  else { gen := b.gen, arrived := a }

/-- The part of a LATLD's loading: the slot, its parts, and the answers so far (R129). -/
def TableAsked (t : State) (slot need : Nat) : Prop :=
  t.core.latWait = some { slot := slot, need := need, got := [], bad := [] }

/-- A vector load of the cell that decodes with the slot is on its way (R29). -/
def SlotInUse (s : State) (slot : Nat) : Prop := ∃ r, r ∈ s.ownReqs ∧ r.decodes slot = true

/-- Beside the core, only the barriers and the marks of an acquire differ. -/
def OnlyBarriers (s t : State) : Prop :=
  t = { s with core := t.core, cell := { s.cell with bars := t.cell.bars }, sys := t.sys, fab := t.fab }

end Sys2Proof.Claims
end

