-- ==== Sys2Proof/Certificates/Slice0/ClaimsVector.lean ====
section
/-!
DEFINITION. The words the statements about vector instructions are written in, with the tables of their results.
-/

namespace Sys2Proof.Claims

open Sys2Proof.Machine

/-- Lane l of v[n] (R45). -/
def lane (s : State) (n l : Nat) : Lane := s.word (laneWord s n l)

/-- A vector instruction with a vector destination: its delay count, exposed latency and destination, the lanes it writes,
the lanes of each vector source that it tests, its g-register sources, and its result by lane. -/
structure VRow where
  delay   : Nat
  lat     : Nat
  dst     : Nat
  written : Word
  srcs    : List (Nat × Word)
  gsrcs   : List Nat
  val     : Nat → Lane

/-- Operands, destination and delay count that let the unit issue (R51-R53, R130, R134). -/
structure VectorReady (s : State) (r : VRow) : Prop where
  delayed : r.delay ≤ s.core.delayClk
  scalars : Usable s r.gsrcs
  sources : ∀ x, x ∈ r.srcs → LanesReady s x.1 x.2
  target  : LanesReady s r.dst r.written
  bank    : LanesFree s r.dst r.written

/-- The unit retires with one result latch more, whose enabled lanes hold `val` and become visible at clk + lat, and nothing else
changes (R130, R133). -/
def Latches (i : Instr) (s : State) (r : VRow) : Prop :=
  ∃ t data, Retires i s t (following i s) ∧ t.core.inflight = s.core.inflight ++
      [{ target := .vec (4 * laneWord s r.dst 0) r.written data, visible := s.clk + r.lat, arrive := 0, scalar := false
         port := none }] ∧
    (∀ l, l < 64 → r.written.getLsbD l = true → data[l]? = some (r.val l)) ∧ t.core.g = s.core.g ∧
    t.core.gEmpty = s.core.gEmpty ∧ OnlyRegisters s.core t.core ∧ OnlyCore s t

/-- Whatever its row says, an instruction of the table whose operands are ready latches its result. -/
def VectorComputes (table : State → Instr → Option VRow) : Prop :=
  ∀ (i : Instr) (s : State) (r : VRow), table s i = some r → i.wellFormed = true → VectorReady s r → Latches i s r

/-- One source, lane by lane. -/
def v1 (s : State) (lat : Nat) (d a : BitVec 6) (l : BitVec 2) (f : Lane → Lane) : Option VRow :=
  some { delay := l.toNat, lat := lat, dst := d.toNat, written := s.k, srcs := [(a.toNat, s.k)], gsrcs := []
         val := fun n => f (lane s a.toNat n) }

/-- Two sources, lane by lane. -/
def v2 (s : State) (lat : Nat) (d a b : BitVec 6) (l : BitVec 2) (f : Lane → Lane → Lane) : Option VRow :=
  some { delay := l.toNat, lat := lat, dst := d.toNat, written := s.k, srcs := [(a.toNat, s.k), (b.toNat, s.k)], gsrcs := []
         val := fun n => f (lane s a.toNat n) (lane s b.toNat n) }

/-- Two sources and the old destination, lane by lane. -/
def v3 (s : State) (lat : Nat) (d a b : BitVec 6) (l : BitVec 2) (f : Lane → Lane → Lane → Lane) : Option VRow :=
  some { delay := l.toNat, lat := lat, dst := d.toNat, written := s.k
         srcs := [(a.toNat, s.k), (b.toNat, s.k), (d.toNat, s.k)], gsrcs := []
         val := fun n => f (lane s a.toNat n) (lane s b.toNat n) (lane s d.toNat n) }

/-! ### Integer and bitwise lanes (R140, R141, R145) -/

/-- All ones where the relation holds, else 0. -/
def allOnesIf (b : Bool) : Lane := if b then 0xFFFFFFFF else 0

/-- Clamped to the signed 32-bit range. -/
def clamped (i : Int) : Lane :=
  if i < -(2 ^ 31) then 0x80000000 else if 2 ^ 31 - 1 < i then 0x7FFFFFFF else BitVec.ofInt 32 i

/-- R140, R141, VICEQ to VICLTU of R145, VMOV and VSEL of R150. -/
def integerLanes (s : State) : Instr → Option VRow
  | .viadd d a b _ _ l => v2 s 2 d a b l fun x y => x + y
  | .visub d a b _ _ l => v2 s 2 d a b l fun x y => x - y
  | .vimul d a b _ _ l => v2 s 4 d a b l fun x y => BitVec.ofNat 32 (x.toNat * y.toNat)
  | .vimulh d a b _ _ l => v2 s 4 d a b l fun x y => BitVec.ofInt 32 (x.toInt * y.toInt / 2 ^ 32)
  | .vimin d a b _ _ l => v2 s 2 d a b l fun x y => BitVec.ofInt 32 (min x.toInt y.toInt)
  | .vimax d a b _ _ l => v2 s 2 d a b l fun x y => BitVec.ofInt 32 (max x.toInt y.toInt)
  | .viminu d a b _ _ l => v2 s 2 d a b l fun x y => BitVec.ofNat 32 (min x.toNat y.toNat)
  | .vimaxu d a b _ _ l => v2 s 2 d a b l fun x y => BitVec.ofNat 32 (max x.toNat y.toNat)
  | .viabs d a _ l => v1 s 2 d a l fun x => BitVec.ofNat 32 x.toInt.natAbs
  | .viadds d a b _ _ l => v2 s 2 d a b l fun x y => clamped (x.toInt + y.toInt)
  | .visubs d a b _ _ l => v2 s 2 d a b l fun x y => clamped (x.toInt - y.toInt)
  | .vand d a b _ _ l => v2 s 1 d a b l fun x y => x &&& y
  | .vor d a b _ _ l => v2 s 1 d a b l fun x y => x ||| y
  | .vxor d a b _ _ l => v2 s 1 d a b l fun x y => x ^^^ y
  | .vandn d a b _ _ l => v2 s 1 d a b l fun x y => x &&& ~~~y
  | .vshl d a b _ _ l => v2 s 1 d a b l fun x y => x <<< (y.toNat % 32)
  | .vshr d a b _ _ l => v2 s 1 d a b l fun x y => x >>> (y.toNat % 32)
  | .vsar d a b _ _ l => v2 s 1 d a b l fun x y => x.sshiftRight (y.toNat % 32)
  | .vnot d a _ l => v1 s 1 d a l fun x => ~~~x
  | .vpopc d a _ l => v1 s 2 d a l fun x => BitVec.ofNat 32 ((List.range 32).countP x.getLsbD)
  | .vclz d a _ l => v1 s 2 d a l fun x =>
    BitVec.ofNat 32 ((((List.range 32).reverse.find? x.getLsbD).map fun p => 31 - p).getD 32)
  | .viceq d a b _ _ l => v2 s 2 d a b l fun x y => allOnesIf (x = y)
  | .viclt d a b _ _ l => v2 s 2 d a b l fun x y => allOnesIf (x.toInt < y.toInt)
  | .vicltu d a b _ _ l => v2 s 2 d a b l fun x y => allOnesIf (x.toNat < y.toNat)
  | .vmov d a _ l => v1 s 1 d a l fun x => x
  | .vsel d a b _ _ l => v3 s 1 d a b l fun x y z => if z ≠ 0 then x else y
  | _ => none

/-! ### Floating-point lanes (R33, R137-R145) -/

/-- An FP32 lane's value and the lane of a value, under CTL.FTZ. -/
def in32 (s : State) (x : Lane) : FVal := Fmt.fp32.decode s.ftz x.toNat
def out32 (s : State) (mode : Nat) (v : FVal) : Lane := BitVec.ofNat 32 (Fmt.fp32.encode mode s.ftz v)

/-- The exact sum; an exact zero is negative under RDN only (R32). -/
def sum (s : State) (x y : FVal) : FVal := x.add (s.rm == 3) y

/-- BF16 halves of a lane, each computed on its own (R139). -/
def bothHalves (s : State) (f : FVal → FVal → FVal → FVal) (x y z : Lane) : Lane :=
  let h : Nat → Nat := fun p => Fmt.bf16.encode s.rm s.ftz
    (f (Fmt.bf16.decode s.ftz (x.toNat / 2 ^ p % 2 ^ 16)) (Fmt.bf16.decode s.ftz (y.toNat / 2 ^ p % 2 ^ 16))
      (Fmt.bf16.decode s.ftz (z.toNat / 2 ^ p % 2 ^ 16)))
  BitVec.ofNat 32 (h 0 + 2 ^ 16 * h 16)

/-- The mode of a conversion: its own, or CTL.RM (R143). -/
def modeOf (s : State) (own : Bool) (m : BitVec 3) : Nat := if own then m.toNat else s.rm

/-- R138, R139, R142, R144 and the FP32 compares of R145. -/
def floatLanes (s : State) : Instr → Option VRow
  | .vfadd d a b _ _ l => v2 s 4 d a b l fun x y => out32 s s.rm (sum s (in32 s x) (in32 s y))
  | .vfsub d a b _ _ l => v2 s 4 d a b l fun x y => out32 s s.rm (sum s (in32 s x) (in32 s y).neg)
  | .vfmul d a b _ _ l => v2 s 4 d a b l fun x y => out32 s s.rm ((in32 s x).mul (in32 s y))
  | .vfma d a b _ _ l => v3 s 4 d a b l fun x y z => out32 s s.rm (sum s ((in32 s x).mul (in32 s y)) (in32 s z))
  | .vfms d a b _ _ l => v3 s 4 d a b l fun x y z => out32 s s.rm (sum s ((in32 s x).mul (in32 s y)) (in32 s z).neg)
  | .vfnma d a b _ _ l => v3 s 4 d a b l fun x y z => out32 s s.rm (sum s ((in32 s x).mul (in32 s y)).neg (in32 s z))
  | .vfmin d a b _ _ l => v2 s 2 d a b l fun x y => out32 s s.rm ((in32 s x).min (in32 s y))
  | .vfmax d a b _ _ l => v2 s 2 d a b l fun x y => out32 s s.rm ((in32 s x).max (in32 s y))
  | .vfabs d a _ l => v1 s 1 d a l fun x => x &&& 0x7FFFFFFF
  | .vfneg d a _ l => v1 s 1 d a l fun x => x ^^^ 0x80000000
  | .vbadd d a b _ _ l => v2 s 3 d a b l fun x y => bothHalves s (fun p q _ => sum s p q) x y 0
  | .vbsub d a b _ _ l => v2 s 3 d a b l fun x y => bothHalves s (fun p q _ => sum s p q.neg) x y 0
  | .vbmul d a b _ _ l => v2 s 3 d a b l fun x y => bothHalves s (fun p q _ => p.mul q) x y 0
  | .vbfma d a b _ _ l => v3 s 3 d a b l (bothHalves s fun p q r => sum s (p.mul q) r)
  | .vbmin d a b _ _ l => v2 s 3 d a b l fun x y => bothHalves s (fun p q _ => p.min q) x y 0
  | .vbmax d a b _ _ l => v2 s 3 d a b l fun x y => bothHalves s (fun p q _ => p.max q) x y 0
  | .frcp d a _ l => v1 s 12 d a l fun x => out32 s 0 (in32 s x).rcp
  | .frsq d a _ l => v1 s 12 d a l fun x => out32 s 0 (in32 s x).rsqrt
  | .fexp2 d a _ l => v1 s 12 d a l (exp2Lane s.ftz)
  | .flog2 d a _ l => v1 s 12 d a l (log2Lane s.ftz)
  | .vcvtfh d a f m _ l => v1 s 3 d a l fun x => BitVec.ofNat 32 (Fmt.fp16.encode (modeOf s f m) s.ftz (in32 s x))
  | .vcvthf d a f m _ l => v1 s 3 d a l fun x => out32 s (modeOf s f m) (Fmt.fp16.decode s.ftz (x.toNat % 2 ^ 16))
  | .vcvtfs d a f m _ l => v1 s 3 d a l fun x => BitVec.ofNat 32 (Fmt.bf16.encode (modeOf s f m) s.ftz (in32 s x))
  | .vcvtsf d a f m _ l => v1 s 3 d a l fun x => out32 s (modeOf s f m) (Fmt.bf16.decode s.ftz (x.toNat % 2 ^ 16))
  | .vcvtfi d a f m _ l => v1 s 3 d a l fun x =>
    BitVec.ofInt 32 (toIntClamped (modeOf s f m) (-(2 ^ 31)) (2 ^ 31 - 1) (Fmt.fp32.decode false x.toNat))
  | .vcvtif d a f m _ l => v1 s 3 d a l fun x => BitVec.ofNat 32 (Fmt.fp32.encode (modeOf s f m) false (ofInteger x.toInt))
  | .vcvtfu d a f m _ l => v1 s 3 d a l fun x =>
    BitVec.ofInt 32 (toIntClamped (modeOf s f m) 0 (2 ^ 32 - 1) (Fmt.fp32.decode false x.toNat))
  | .vcvtuf d a f m _ l => v1 s 3 d a l fun x => BitVec.ofNat 32 (Fmt.fp32.encode (modeOf s f m) false (ofInteger x.toNat))
  | .vrnd d a f m _ l => v1 s 3 d a l fun x => out32 s (modeOf s f m) (toIntegral (modeOf s f m) (in32 s x))
  | .vfceq d a b _ _ l => v2 s 2 d a b l fun x y => allOnesIf ((in32 s x).eqv (in32 s y))
  | .vfclt d a b _ _ l => v2 s 2 d a b l fun x y => allOnesIf ((in32 s x).lt (in32 s y))
  | .vfcle d a b _ _ l => v2 s 2 d a b l fun x y => allOnesIf ((in32 s x).lt (in32 s y) || (in32 s x).eqv (in32 s y))
  | _ => none

/-! ### Reductions (R147, R148) -/

/-- Element i of the tree of R148 after a number of levels. -/
def treeAt (f : Lane → Lane → Lane) (x : Nat → Lane) : Nat → Nat → Lane
  | 0, i => x i
  | n + 1, i => f (treeAt f x n (2 * i)) (treeAt f x n (2 * i + 1))

/-- A reduction: every enabled lane takes element 0 after six levels, disabled lanes counting as the identity. -/
def reduction (s : State) (lat : Nat) (d a : BitVec 6) (l : BitVec 2) (f : Lane → Lane → Lane) (e : Lane) : Option VRow :=
  some { delay := l.toNat, lat := lat, dst := d.toNat, written := s.k, srcs := [(a.toNat, s.k)], gsrcs := []
         val := fun _ => treeAt f (fun n => if s.k.getLsbD n then lane s a.toNat n else e) 6 0 }

def reductions (s : State) : Instr → Option VRow
  | .vfrsum d a _ l => reduction s 8 d a l (fun x y => out32 s 0 ((in32 s x).add false (in32 s y))) 0x80000000
  | .vfrmax d a _ l => reduction s 4 d a l (fun x y => out32 s s.rm ((in32 s x).max (in32 s y))) 0xFF800000
  | .vfrmin d a _ l => reduction s 4 d a l (fun x y => out32 s s.rm ((in32 s x).min (in32 s y))) 0x7F800000
  | .virsum d a _ l => reduction s 4 d a l (fun x y => x + y) 0
  | .virmax d a _ l => reduction s 4 d a l (fun x y => BitVec.ofInt 32 (max x.toInt y.toInt)) 0x80000000
  | .virmin d a _ l => reduction s 4 d a l (fun x y => BitVec.ofInt 32 (min x.toInt y.toInt)) 0x7FFFFFFF
  | .vrand d a _ l => reduction s 3 d a l (fun x y => x &&& y) 0xFFFFFFFF
  | .vror d a _ l => reduction s 3 d a l (fun x y => x ||| y) 0
  | _ => none

/-! ### Lane moves (R131, R149, R150) -/

/-- The word whose bit n is p n. -/
def maskOf (p : Nat → Bool) : Word := BitVec.ofBoolListLE ((List.range 64).map p)

/-- Lanes of a source read on behalf of the enabled lanes, where lane n reads lane src n. -/
def readFor (k : Word) (src : Nat → Option Nat) : Word := maskOf fun j => (enabled k).any fun n => src n == some j

/-- A move: lane n of the destination takes lane src n of va, or 0. -/
def moveRow (s : State) (d a : BitVec 6) (l : BitVec 2) (written : Word) (more : List (Nat × Word)) (src : Nat → Option Nat) :
    Option VRow :=
  some { delay := l.toNat, lat := 2, dst := d.toNat, written := written, gsrcs := []
         srcs := (a.toNat, readFor written src) :: more, val := fun n => ((src n).map (lane s a.toNat)).getD 0 }

/-- Lanes selected by vb under k. -/
def sel (s : State) (b : BitVec 6) : List Nat := (enabled s.k).filter fun j => lane s b.toNat j != 0

def laneMoves (s : State) : Instr → Option VRow
  | .vperm d a b _ _ l => moveRow s d a l s.k [(b.toNat, s.k)] fun n => some ((lane s b.toNat n).toNat % 64)
  | .vbcast d a m _ l => moveRow s d a l s.k [] fun _ => some m.toNat
  | .vrot d a m _ l => moveRow s d a l s.k [] fun n => some ((n + m.toNat) % 64)
  | .vslup d a m _ l => moveRow s d a l s.k [] fun n => if m.toNat ≤ n then some (n - m.toNat) else none
  | .vsldn d a m _ l => moveRow s d a l s.k [] fun n => if n + m.toNat ≤ 63 then some (n + m.toNat) else none
  | .vzip d a b _ _ l => some
    { delay := l.toNat, lat := 2, dst := d.toNat, written := s.k, gsrcs := []
      srcs := [(a.toNat, readFor s.k fun n => if n % 2 = 0 then some (n / 2) else none)
              , (b.toNat, readFor s.k fun n => if n % 2 = 1 then some (n / 2) else none)]
      val := fun n => if n % 2 = 0 then lane s a.toNat (n / 2) else lane s b.toNat (n / 2) }
  | .vunzip d a b _ _ l => some
    { delay := l.toNat, lat := 2, dst := d.toNat, written := s.k, gsrcs := []
      srcs := [(a.toNat, readFor s.k fun n => if n < 32 then some (2 * n) else none)
              , (b.toNat, readFor s.k fun n => if n < 32 then none else some (2 * (n - 32)))]
      val := fun n => if n < 32 then lane s a.toNat (2 * n) else lane s b.toNat (2 * (n - 32)) }
  | .vcompress d a b _ _ l => moveRow s d a l s.k [(b.toNat, s.k)] fun n => (sel s b)[n]?
  | .vexpand d a b _ _ l => moveRow s d a l (maskOf (sel s b).contains) [(b.toNat, s.k)]
      fun n => some ((sel s b).countP (· < n))
  | .vsplat d g _ l => some
    { delay := l.toNat, lat := 1, dst := d.toNat, written := s.k, srcs := [], gsrcs := [g.toNat]
      val := fun _ => (s.g g.toNat).setWidth 32 }
  | .vins d g m _ l => some
    { delay := l.toNat, lat := 1, dst := d.toNat, written := maskOf (fun n => n == m.toNat && s.k.getLsbD n), srcs := []
      gsrcs := [g.toNat], val := fun _ => (s.g g.toNat).setWidth 32 }
  | .viota d l => some
    { delay := l.toNat, lat := 2, dst := d.toNat, written := s.k, srcs := [], gsrcs := []
      val := fun n => BitVec.ofNat 32 ((enabled s.k).countP (· < n)) }
  | _ => none

/-- A vector instruction retires with one result latch more, for a g register, of exposed latency 2; a result for g0 is
discarded (R39, R150, R205). -/
def LatchesTo (i : Instr) (s : State) (g : Nat) (v : Word) : Prop :=
  ∃ t, Retires i s t (following i s) ∧ OnlyRegisters s.core t.core ∧ OnlyCore s t ∧ t.core.g = s.core.g ∧
    t.core.gEmpty = s.core.gEmpty ∧ t.core.inflight = s.core.inflight ++ if g = 0 then [] else
      [{ target := .reg g v, visible := s.clk + 2, arrive := 0, scalar := false, port := none }]

/-- The mask stack is these entries with MSP, and nothing else of the state differs (R146). -/
def MaskIs (s t : State) (msp i : Nat) (v : Word) : Prop :=
  t.msp = msp ∧ (∀ j, j < 8 → t.core.mask[j]? = if j = i then some v else s.core.mask[j]?) ∧
    OnlyCsr s { t with core := { t.core with mask := s.core.mask } } 0x014 ∧ t.core.g = s.core.g ∧
    t.core.inflight = s.core.inflight

end Sys2Proof.Claims
end

