-- ==== Sys2Proof/Certificates/Slice0/ClaimsEngine.lean ====
section
/-!
DEFINITION. The words the statements about the engine queues, their words and their entries are written in.
-/

namespace Sys2Proof.Claims

open Sys2Proof.Machine


/-! ### Queues and their words (R69, R70, R151-R153) -/

/-- A launch or control word: it ends an entry (R70). -/
def ends (w : BitVec 16) : Bool := decide (0xC000 ≤ w.toNat)

/-- Queue q is v, every other queue what it was. -/
def QueueIs (s t : State) (q : Nat) (v : Queue) : Prop :=
  ∀ p, p < 13 → t.cell.queues[p]? = if p = q then some v else s.cell.queues[p]?

/-- Words of the entry in formation, behind the last word that ends one (R152). -/
def openWords (ws : List (BitVec 16)) : Nat := (ws.reverse.takeWhile fun w => !ends w).length

/-- No entry that the new words extend or complete would hold more than 64 words (R152). -/
def EntriesFit (v : Queue) (ws : List (BitVec 16)) : Prop :=
  ∀ n, n < ws.length → openWords (v.words.map EWord.w ++ ws.take n) < 64

/-- Words of ZPUSH of a shape register (R41). -/
def pushes (z : Nat) (ws : List (BitVec 16)) : Nat := ws.countP fun w => decide (w.toNat = 0xA900 + z)

/-- The unit retires and places words at the tail of queue q, which name its pc; pending readers of shape registers and the
numbers of entries rise with them; a read of a store asks for its port; nothing else changes (R41, R69, R153, R228). -/
def Places (i : Instr) (s t : State) (q : Nat) (v : Queue) (ws : List (BitVec 16)) (ports : List Posted) : Prop :=
  Retires i s t (following i s) ∧
    QueueIs s t q { v with
      words := v.words ++ ws.map (fun w => { w := w, pc := s.core.pc, enq := s.cell.enqNo })
      nextSeq := (v.nextSeq + ws.countP ends) % 2 ^ 32 } ∧
    (∀ z, z < 16 → t.core.zpend[z]? = (s.core.zpend[z]?).map fun n => n + pushes z ws) ∧
    t.core.posted = s.core.posted ++ ports ∧
    KeepsCore (s.setCore { s.core with zpend := t.core.zpend, posted := t.core.posted }) t ∧
    t = { s with core := t.core, cell := { s.cell with queues := t.cell.queues, enqNo := s.cell.enqNo + 1 } }

/-- What ENQ of some words does: it places them where they fit, waits, charged to QUEUEFULL, where there is no room, and traps
with STACK where an entry would hold more than 64 words. -/
def Enqueues (i : Instr) (s : State) (q : Nat) (v : Queue) (ws : List (BitVec 16)) (ports : List Posted) : Prop :=
  (EntriesFit v ws → v.words.length + ws.length ≤ (if q ≤ 8 then 256 else 128) → ∃ t, Places i s t q v ws ports) ∧
  (EntriesFit v ws → (if q ≤ 8 then 256 else 128) < v.words.length + ws.length → ∃ t, Waits i s t .queueFull) ∧
  (¬ EntriesFit v ws → EntersAtOnce s → TrapsWith i s 0x0E)

/-! ### A word at the head of a queue (R154-R157) -/

/-- The active queue is v, its head word is w, and the word that ends the head entry is `last`; the cell runs (R152). -/
structure AtHead (s : State) (v : Queue) (w last : EWord) : Prop where
  queue : s.cell.queues[s.actq]? = some v
  word : v.words.head? = some w
  complete : v.words.find? (fun x => ends x.w) = some last
  runs : s.core.status = .running ∧ s.cell.endedRanks.getLsbD s.cell.rank = false ∧ s.cell.endStatus ≠ 2

/-- The stack that the head entry is evaluated on, top first: a chained entry has its own (R155, R176). -/
def stackOf (v : Queue) : List Word := if v.inChain then v.chain else v.stack

/-- Sequence number of the head entry (R153). -/
def seqOf (v : Queue) : Nat := (v.nextSeq + 2 ^ 32 - (v.words.map EWord.w).countP ends) % 2 ^ 32

/-- The engine slot of a queue, charged in this clk (R190). -/
def Charged (s t : State) (last : EWord) (c : Cause) : Prop :=
  t.acct.eng = s.acct.eng ++ [(if s.actq = 0 then 2 else if s.actq ≤ 8 then 3 else 4, last.enq, c, last.pc)]

/-- Nothing differs but the queues, the entry that the engine's stack serves, pending readers, and charges. -/
def OnlyQueues (s t : State) : Prop :=
  t = { s with
    core := { s.core with zpend := t.core.zpend }, cell := { s.cell with queues := t.cell.queues, evals := t.cell.evals }
    acct := { s.acct with eng := t.acct.eng } }

/-- No chained entry of the active queue waits to start (R154, R176). -/
def NoneChained (s : State) (v : Queue) : Prop := v.chainEntry = none ∧ ∀ e, e ∈ s.cell.chained → e.queue ≠ s.actq

/-- The head word issues and leaves its queue, and the stack is the one given (R41, R154, R155). -/
def WordIssues (s t : State) (v : Queue) (w last : EWord) (st : List Word) : Prop :=
  QueueIs s t s.actq { v with
      words := v.words.drop 1, stack := if v.inChain then v.stack else st, chain := if v.inChain then st else v.chain
      issued := v.issued + 1, waited := 0 } ∧
    (∀ z, z < 16 → t.core.zpend[z]? = (s.core.zpend[z]?).map fun n => n - pushes z [w.w]) ∧
    Charged s t last .issued ∧ OnlyQueues s t

/-- The head entry faults at its word: the queue is frozen with the cause, and ENGINE is pended (R156-R158). -/
def WordFaults (s t : State) (v : Queue) (last : EWord) (cause : Nat) : Prop :=
  QueueIs s t s.actq { v with
      fault := some { cause := cause, addr := 0, seq := seqOf v, pc := last.pc, prog := 0, firing := 0, armed := false
                      atWord := true } } ∧
    t.sys.reqs = s.sys.reqs ∧
    t = { s with
      core := { s.core with engPend := s.core.engPend ++ [s.actq] }, cell := { s.cell with queues := t.cell.queues }
      sys := { s.sys with replies := t.sys.replies, readClks := t.sys.readClks, missed := t.sys.missed } }

/-- R70, R162: what a stack word makes of the stack, top first; none where it needs more values than there are. The Bool
says that its argument is legal. -/
def stackRow (s : State) (st : List Word) : Instr → Option (Bool × Option (List Word))
  | .lit v => some (true, some (v.setWidth 64 :: st))
  | .ext v => some (true, match st with
    | a :: r => some (BitVec.ofNat 64 (a.toNat * 2 ^ 13 + v.toNat) :: r)
    | [] => none)
  | .dup => some (true, match st with
    | a :: r => some (a :: a :: r)
    | [] => none)
  | .drop => some (true, match st with
    | _ :: r => some r
    | [] => none)
  | .swap => some (true, match st with
    | a :: b :: r => some (b :: a :: r)
    | _ => none)
  | .overI => some (true, match st with
    | a :: b :: r => some (b :: a :: b :: r)
    | _ => none)
  | .eadd => some (true, match st with
    | a :: b :: r => some ((b + a) :: r)
    | _ => none)
  | .esub => some (true, match st with
    | a :: b :: r => some ((b - a) :: r)
    | _ => none)
  | .emul => some (true, match st with
    | a :: b :: r => some (BitVec.ofNat 64 (b.toNat * a.toNat) :: r)
    | _ => none)
  | .eshl n => some (decide (n.toNat < 64), match st with
    | a :: r => some ((a <<< n.toNat) :: r)
    | [] => none)
  | .eor => some (true, match st with
    | a :: b :: r => some ((b ||| a) :: r)
    | _ => none)
  | .zpush z => some (decide (z.toNat < 16), some ((s.zForEngine z.toNat).setWidth 64 :: st))
  | _ => none

/-! ### Entries that start (R154, R156, R164, R173, R176, R217) -/

/-- The matrix engine is free for a word of MQ: no entry of MQ has started and not completed, no matrix entry runs, waits for the
engine or holds it faulted (R151, R173). -/
def EngineFree (s : State) (v : Queue) : Prop :=
  s.actq = 0 → v.run = [] ∧ s.cell.chained = [] ∧ (∀ e, e ∈ s.running → Instr.isMatrix e.op = false) ∧
    s.matrixFaulted = false

/-- Nothing holds the terminal word at the head of the active queue back: no control word in front, no chained entry that
has not started, on MQ a free matrix engine, no gate, and room among the started entries (R151, R180). -/
structure MayBegin (s : State) (v : Queue) (last : EWord) : Prop where
  head : AtHead s v last last
  plain : v.inChain = false
  order : ∀ e, e ∈ v.run → Instr.isControl e.op = false
  chain : NoneChained s v
  engine : EngineFree s v
  gate : v.gateWait = 0 ∧ s.gated s.actq = false
  room : s.actq = 0 ∨
    (s.running.filter fun e => slotOf e.queue == slotOf s.actq && !Instr.isMatrix e.op).length < (if s.actq ≤ 8 then 256 else 64)

/-- A CCOPY or CGATHER with CHAIN: the next entry of its queue is evaluated on the chained stack (R176). -/
def chains : Instr → Bool
  | .ccopy _ c _ _ => c
  | .cgather c _ => c
  | _ => false

/-- The entry e has started: its word has left the queue, its values the stack, in push order, and it stands behind the
queue's started entries with DONE = 0 (R153-R155, R159). -/
def Starts (i : Instr) (s t : State) (v : Queue) (last : EWord) (e : Entry) : Prop :=
  exec i s = .next t ∧ e.queue = s.actq ∧ e.op = i ∧ e.vals = v.stack.reverse ∧ e.seq = seqOf v ∧ e.pc = last.pc ∧
    e.enq = last.enq ∧ e.done = 0 ∧ e.armed = false ∧ e.chained = false ∧
    QueueIs s t s.actq { v with words := v.words.drop 1, stack := [], issued := 0, waited := 0, run := v.run ++ [e]
                                inChain := chains i } ∧
    Charged s t last .issued ∧ t.core = s.core ∧ t.csr = s.csr ∧ t.clk = s.clk

/-- The entry of a chained matrix word is kept until its copy has been written (R176). -/
def KeptChained (i : Instr) (s : State) (v : Queue) (last : EWord) : Prop :=
  ∃ t e, exec i s = .next t ∧ e.queue = s.actq ∧ e.op = i ∧ e.vals = v.chain.reverse ∧ e.seq = seqOf v ∧ e.chained = true ∧
    QueueIs s t s.actq { v with words := v.words.drop 1, chain := [], issued := 0, waited := 0, inChain := false
                                chainEntry := some e } ∧
    Charged s t last .issued ∧ OnlyQueues s t

/-- The word stays at the head, and its slot is charged to the cause. -/
def StaysAtHead (i : Instr) (s : State) (v : Queue) (last : EWord) (c : Cause) : Prop :=
  ∃ t, exec i s = .next t ∧ QueueIs s t s.actq { v with waited := v.waited + 1 } ∧ Charged s t last c ∧ OnlyQueues s t

/-- Of the cell, nothing but queues, the entry its engine's stack serves, tiles and pending readiness differs. -/
def OnlyEntry (s t : State) : Prop :=
  t = { s with cell := { s.cell with queues := t.cell.queues, evals := t.cell.evals, tiles := t.cell.tiles, ready := t.cell.ready }
               acct := { s.acct with eng := t.acct.eng } }

/-- The entry faults at its word with a cause. -/
def FaultsAt (i : Instr) (s : State) (v : Queue) (last : EWord) (cause : Nat) : Prop :=
  ∃ t, exec i s = .next t ∧ WordFaults s t v last cause

/-! ### Places and tiles (R164, R174, R227) -/

/-- The descriptor of a handle. -/
def tileAt (s : State) (h : Nat) : Word := Sparse.get s.cell.tiles h

/-- A place with n bytes behind it: global, in one of the stores, or in a bound tile there (R156, R174, R227). -/
def PlaceFine (s : State) (p : Word) (n : Nat) (stores : List Nat) : Prop :=
  (field p 62 2 = 0 ∧ field p 56 6 = 0) ∨
  (field p 62 2 = 1 ∧ field p 56 2 < 3 ∧ field p 56 2 ∈ stores ∧ field p 58 4 = 0 ∧ field p 24 32 = 0 ∧
    field p 0 24 + n ≤ storeSize (field p 56 2)) ∨
  (field p 62 2 = 2 ∧ field p 48 14 = 0 ∧ field p 8 16 = 0 ∧ field (tileAt s (field p 0 8)) 24 24 ≠ 0 ∧
    field p 24 24 + n ≤ field (tileAt s (field p 0 8)) 24 24 ∧ field (tileAt s (field p 0 8)) 48 2 ∈ stores ∧
    field (tileAt s (field p 0 8)) 0 24 + field p 24 24 + n ≤ storeSize (field (tileAt s (field p 0 8)) 48 2))

/-- A place in a tile finds its tile in a state. -/
def PlaceIn (s : State) (p : Word) (v : Nat) : Prop :=
  field p 62 2 = 2 → field (tileAt s (field p 0 8)) 50 2 = v

/-- The tile of a tile place takes a state; nothing else of the tile table changes. -/
def PlaceTaken (s t : State) (p : Word) (v : Nat) : Prop :=
  if field p 62 2 = 2 then TileIs s t (field p 0 8) (withTileState (tileAt s (field p 0 8)) v)
  else t.cell.tiles = s.cell.tiles

/-- Handles an entry holds, filling and draining. -/
def Holds (e : Entry) (p : Word) (fill drain : Bool) : Prop :=
  e.fill = (if fill = true ∧ field p 62 2 = 2 then [field p 0 8] else []) ∧
    e.drain = (if drain = true ∧ field p 62 2 = 2 then [field p 0 8] else [])

/-- Where a place of a piece of work lies (R174). -/
def placeOf (s : State) (p : Word) : Place :=
  if field p 62 2 = 0 then .glob ((p.setWidth 56).signExtend 64)
  else if field p 62 2 = 1 then .store (field p 56 2) (field p 0 24)
  else .store (field (tileAt s (field p 0 8)) 48 2) (field (tileAt s (field p 0 8)) 0 24 + field p 24 24)

/-! ### Control words (R185-R189) -/

/-- A control word: values popped, whether its entry completes at once, and whether its value is legal. -/
def controlRow : Instr → Option (Nat × Bool × (Word → Bool))
  | .controlNop => some (0, true, fun _ => true)
  | .fenceq => some (1, false, fun m => decide (m.toNat < 2 ^ 13))
  | .gate _ => some (0, false, fun _ => true)
  | .qgate _ => some (1, false, fun m => decide (m.toNat < 2 ^ 32))
  | .signal _ => some (0, false, fun _ => true)
  | .mark => some (1, true, fun _ => true)
  | .capstart _ => some (0, false, fun _ => true)
  | .capstop _ => some (0, false, fun _ => true)
  | _ => none

/-! ### Matrix launch words (R165-R172) -/

/-- A pass: the values it pops, and whether its argument is legal (R165, R169, R170). -/
def passRow : Instr → Option (Nat × Bool)
  | .mpass g f _ b a => some (3, b ≠ 3 && (!f || a == 0) && (!g || b == 0))
  | .mpassseg g f _ b a => some (4, b ≠ 3 && (!f || a == 0) && (!g || b == 0))
  | .mpassgrp _ b a => some (4, b == 1 && (a == 1 || a == 2))
  | _ => none

/-- Accumulator c[n] lies in a bank bound to the matrix slot (R45, R47, R48). -/
def AccumBound (s : State) (n : Nat) : Prop :=
  (s.readCsr 0x013).getLsbD (((s.readCsr 0x012).toNat % 32 + n) / 2) = true

/-- First word of c[n] (R45). -/
def accumWord (s : State) (n : Nat) : Nat := 2048 * ((s.readCsr 0x012).toNat % 32 + n)

/-- No word of m accumulators from c[n] on is empty (R52). -/
def AccumFull (s : State) (n m : Nat) : Prop := s.anyEmpty (accumWord s n) (2048 * m) = false

end Sys2Proof.Claims
end

