-- ==== Sys2Proof/Certificates/Slice0/ClaimsEvents.lean ====
section
/-!
DEFINITION. The words the statements about events are written in: what lands, entries that move, launches, contexts, the fabric.
-/

namespace Sys2Proof.Claims

open Sys2Proof.Machine

/-! ### Results landing (R192, R193, R200) -/

/-- While a trap waits to be entered, only results that belong before its resume point are written. -/
def mayLand (s : State) (l : Latch) : Bool :=
  match s.core.entering with
  | some x => decide (l.visible ≤ x.b)
  | none => true

/-- The last of the latches for g[r], and for a word of register space. -/
def lastReg (ls : List Latch) (r : Nat) : Option Word :=
  ls.reverse.findSome? fun l => match l.target with
    | .reg q v => if q = r then some v else none
    | .vec _ _ _ => none
def lastWord (ls : List Latch) (w : Nat) : Option Lane :=
  ls.reverse.findSome? fun l => match l.target with
    | .reg _ _ => none
    | .vec off lanes data =>
      if off / 4 ≤ w ∧ w < off / 4 + 64 ∧ lanes.getLsbD (w - off / 4) = true then some (data[w - off / 4]?.getD 0) else none

/-- The latches that pass the test are in flight no more, and each register and word holds the result of the last issued of
them, full (R135). -/
def LastStands (s t : State) (p : Latch → Bool) : Prop :=
  t.core.inflight = s.core.inflight.filter (fun l => !p l) ∧
    (∀ r, r < 32 → r ≠ 0 → t.g r = (lastReg (s.core.inflight.filter p) r).getD (s.g r) ∧
      t.emptyG r = (s.emptyG r && (lastReg (s.core.inflight.filter p) r).isNone)) ∧
    ∀ w, t.word w = (lastWord (s.core.inflight.filter p) w).getD (s.word w) ∧
      t.emptyWord w = (s.emptyWord w && (lastWord (s.core.inflight.filter p) w).isNone)

/-- The latches that pass the test are written, in issue order; nothing else changes. -/
def LandsAll (s t : State) (p : Latch → Bool) : Prop :=
  LastStands s t p ∧ OnlyRegisters s.core t.core ∧ t = { s with core := t.core, cell := { s.cell with
    rsp := t.cell.rsp, rspEmpty := t.cell.rspEmpty, rspErr := t.cell.rspErr, dirtyBanks := t.cell.dirtyBanks } }

/-- Results on time, and late store loads whose data arrive, that are written in this clk (R192, R193, R200). -/
def onTimeNow (s : State) (l : Latch) : Bool := mayLand s l && decide (l.arrive < l.visible) && decide (l.visible ≤ s.clk + 1)
def lateNow (s : State) (l : Latch) : Bool :=
  mayLand s l && decide (l.visible ≤ l.arrive) && l.port.isNone && decide (l.arrive ≤ s.clk)

/-- Vector results are aligned to vectors (R45). -/
def AlignedLatches (s : State) : Prop :=
  ∀ l, l ∈ s.core.inflight → ∀ off lanes data, l.target = .vec off lanes data → off % 256 = 0

/-- Trap entry at a boundary before a clk, which the step itself occupies (R200, R201). -/
def EntersAtBoundary (s t : State) (x : TrapInfo) (pc : Word) : Prop :=
  Frames s t x pc ∧ t.system = true ∧ (t.readCsr 0x100).getLsbD 0 = false ∧ t.msp = 0 ∧ t.k = BitVec.allOnes 64 ∧
    t.core.pc = ((t.readCsr 0x101).setWidth 56 &&& 0xFFFFFFFFFFFFFC).signExtend 64 ∧
    (t.readCsr 0x040).toNat / 16 % 16 = toSave s ∧ t.core.inflight = [] ∧ t.core.reinject = [] ∧
    t.core.busy = 3 + toSave s ∧ t.core.charge = .trap ∧ t.mem = s.mem

/-- A boundary may be taken: the vat operation, window access and table load of the head unit allow it, the frame is not held,
and the data of every store load have arrived by the end of the clk before (R118, R200-R202). -/
structure AtBoundary (s : State) : Prop where
  vat : s.core.vat = .none
  win : s.core.win = .none
  lat : s.core.latWait = none
  free : s.held = false
  arrived : Arrived s (s.clk - 1)

/-! ### Accesses of registers from outside (R97, R158, R344) -/

/-- The access has been made. -/
def Accessed (i : Instr) (s t : State) : Prop := exec i s = .next t ∧ t.inp = { s.inp with csr := none }

/-- The caches of the cell and of its die hold the same pages but those named, the ingress's cache too where the scope is the
module, and memory is as it was (R325). -/
def Invalidates (s t : State) (all : Bool) (named : Page → Prop) : Prop :=
  t.mem = s.mem ∧ (∀ p, p ∈ t.sys.ctlb ↔ p ∈ s.sys.ctlb ∧ ¬ named p) ∧ (∀ p, p ∈ t.sys.tlb ↔ p ∈ s.sys.tlb ∧ ¬ named p) ∧
    ∀ p, p ∈ t.fab.icache ↔ p ∈ s.fab.icache ∧ ¬ (all = true ∧ named p)

/-! ### Entries in progress (R153-R160, R224, R238) -/

/-- The oldest started entry of the active queue is e, its work is not done, and it may advance. -/
structure Moving (s : State) (e : Entry) : Prop where
  slot : s.actq < 13
  head : s.headEntry s.actq = some e
  own : e.queue = s.actq ∧ e.armed = false
  work : e.fin = none
  runs : s.core.status = .running
  free : (s.queue s.actq).stopped = false ∧ (s.queue s.actq).fault = none

/-- The entry at the head of its queue has become f. -/
def HeadIs (t : State) (q : Nat) (f : Entry) : Prop := t.headEntry q = some f

/-- The ports of a store are open to a requester in this clk (R228). -/
def PortOpen (s : State) (who st : Nat) : Prop := s.portOpen who st = true

/-- The control core has no write of a store under way from before the ENQ of the entry (R154). -/
def CoreBehind (s : State) (e : Entry) (st : Nat) : Prop :=
  ∀ p, p ∈ s.core.posted → p.st = st → p.parts = [] ∨ e.enq < p.enq

/-- The started entries of the active queue are es and then e, a control entry that waits (R185). -/
structure WaitsLast (s : State) (es : List Entry) (e : Entry) : Prop where
  slot : s.actq < 13
  run : (s.queue s.actq).run = es ++ [e]
  alone : ∀ x, x ∈ es → x.seq ≠ e.seq
  own : e.queue = s.actq ∧ e.armed = false
  work : e.fin = none
  runs : s.core.status = .running
  free : (s.queue s.actq).stopped = false ∧ (s.queue s.actq).fault = none

/-- Start order of copies (R224). -/
def startedBefore (x y : Entry) : Prop := x.begun < y.begun ∨ (x.begun = y.begun ∧ x.enq < y.enq)

/-- In start order the entry does not come after the copy served last. -/
def Passed (s : State) (x : Entry) : Prop :=
  x.begun < s.cell.copyTurn.1 ∨ (x.begun = s.cell.copyTurn.1 ∧ x.enq ≤ s.cell.copyTurn.2)

/-- It is the turn of the copy e: of the copies started in an earlier clk it is the first after the one served last, or the
first of all where none comes after that (R224). -/
def CopyDue (s : State) (e : Entry) : Prop :=
  e.begun < s.clk ∧ ∀ x, x ∈ s.running → Instr.isCopy x.op = true → x.fin = none → x.begun < s.clk → x ≠ e →
    (Passed s e → Passed s x ∧ startedBefore e x) ∧ (¬ Passed s e → Passed s x ∨ startedBefore e x)

/-- The reads of an entry are answered: their homes hold their clock (R255, R256, R261). -/
def EntryAnswered (s : State) (e : Entry) : Prop :=
  Answered s (((s.sys.readClks.find? fun r => r.1 == e.queue && r.2.1 == e.seq).map fun r => r.2.2).getD [])

/-- Bytes of a store from an offset on. -/
def StoreBytes (s t : State) (st off : Nat) (bs : Nat → Byte) (n : Nat) : Prop :=
  (∀ a, Sparse.get (t.cell.store st) a = if off ≤ a ∧ a < off + n then bs (a - off) else Sparse.get (s.cell.store st) a) ∧
    ∀ st', st' < 3 → st' ≠ st → t.cell.store st' = s.cell.store st'

/-- BF16 value at a byte offset of a store. -/
def bf16At (s : State) (st off : Nat) : FVal := Fmt.bf16.decode false (Memory.readLE (s.cell.store st) off 2)

/-- The exact sum of products of n neighbours (R37). -/
def dotAt (n : Nat) (x y : Nat → FVal) : FVal :=
  (List.range n).foldl (fun (acc : FVal) k => acc.add false ((x k).mul (y k))) (.fin false 0 0)

/-! ### Cue terms (R215, R216) -/

/-- Valid predicates of a group, as they stand in this clk. -/
def inGroup (s : State) (k p g : Nat) : Prop :=
  (s.termSeen k p).getLsbD 40 = true ∧ field (s.termSeen k p) 38 2 = g

/-- Term k holds: it is enabled, and in one of its groups there is a predicate, and every predicate holds. -/
def TermHolds (s : State) (k : Nat) : Prop :=
  (s.termSeen k 7).getLsbD 14 = true ∧ ∃ g, g < 4 ∧ (∃ p, p < 7 ∧ inGroup s k p g) ∧ ∀ p, p < 7 → inGroup s k p g →
    (s.cueSeen (field (s.termSeen k p) 32 6) - (s.termSeen k p).setWidth 32).toNat < 2 ^ 31

/-! ### Homes and clocks (R252-R256) -/

/-- The home of a request holds its clock: every component but the writer's own for a write, which has been stamped, and every
component of the read clock for a read (R255, R256). -/
structure HomeHolds (s : State) (r : Req) : Prop where
  stamped : r.op.writes = true → r.stamp[r.die]?.getD 0 ≤ (Sparse.get s.sys.vc (33 * r.die)).toNat ∧ r.die < 28
  write : r.op.writes = true → ∀ e, e < 28 → e ≠ r.die → r.stamp[e]?.getD 0 ≤ (Sparse.get s.sys.front e).toNat
  read : r.op.reads = true → ∀ e, e < 28 → r.rclk[e]?.getD 0 ≤ (Sparse.get s.sys.front e).toNat

/-- r is the first request and the oldest, also of those held at pairing points. -/
def Oldest (s : State) (r : Req) : Prop :=
  s.sys.reqs.head? = some r ∧ ∀ q, q ∈ s.sys.reqs ++ s.sys.held.map Held.req → r.id ≤ q.id

/-- r is the oldest request, its home holds its clock and has the bytes it touches, no part of the register-space window, and
it belongs to the cell. -/
structure DueFirst (s : State) (r : Req) : Prop where
  first : Oldest s r
  held : HomeHolds s r
  present : s.reqPresent r = true
  memory : r.pa < windowSpace
  own : r.origin = .own
  clean : s.mgr.memErr = []

/-- The home's maximum has taken the stamp of r, and r has left the requests (R256). -/
def PerformedAt (s t : State) (r : Req) : Prop :=
  t.sys.reqs = s.sys.reqs.filter (fun q => q.id != r.id) ∧
    ∀ e, e < 28 → Sparse.get t.sys.maxv (32 * r.home + e) =
      BitVec.ofNat 40 (max (Sparse.get s.sys.maxv (32 * r.home + e)).toNat (r.stamp[e]?.getD 0))

/-- One answer more to r is on its way, with a value and a status in its first lane. -/
def Answers (s t : State) (r : Req) (val : Word) (p : Reply → Prop) : Prop :=
  ∃ a, t.sys.replies = s.sys.replies ++ [a] ∧ a.id = r.id ∧ a.dest = r.dest ∧ a.val = val ∧ a.bad = false ∧ p a

/-- A row of an operand queue with one more of its parts, each in its place by its offset in the row (R112). -/
def PartJoined (x d : OqRow) : OqRow :=
  if d.off ≤ x.off then { x with
    parts := x.parts - 1, off := d.off, bytes := d.bytes ++ x.bytes, codes := d.codes ++ x.codes, scales := d.scales ++ x.scales }
  else { x with
    parts := x.parts - 1, bytes := x.bytes ++ d.bytes, codes := x.codes ++ d.codes, scales := x.scales ++ d.scales }

/-- Bytes [a, a + n) of memory hold a value, little-endian, and every other byte is as it was. -/
def MemHolds (s t : State) (a n v : Nat) : Prop :=
  ∀ b, Sparse.get t.mem b = if a ≤ b ∧ b < a + n then BitVec.ofNat 8 (v / 256 ^ (b - a)) else Sparse.get s.mem b

/-- The die of the cell has joined a clock (R255). -/
def Joins (s t : State) (clock : List Nat) : Prop :=
  ∀ e, e < 28 → Sparse.get t.sys.vc (32 * s.die + e) =
    BitVec.ofNat 40 (max (Sparse.get s.sys.vc (32 * s.die + e)).toNat (clock[e]?.getD 0))

/-- The byte that a list of byte writes leaves at an address. -/
def lastByte (bs : List (Nat × Byte)) (a : Nat) (old : Byte) : Byte :=
  ((bs.reverse.find? fun b => decide (b.1 = a)).map Prod.snd).getD old

/-- A page that an engine's access to one address needs: cached, permitted, D set for a write, here, plain (R175, R273). -/
structure OutputPage (s : State) (va : Word) (acc : Access) (n : Nat) (p : Page) : Prop where
  canon : (va.setWidth 56).signExtend 64 = va
  outside : inWindow va = false
  cached : s.cached va = some p
  dirty : acc.writes = true → p.w0.getLsbD 7 = true
  allowed : permitted p.w0 acc s.system s.ux = true
  local' : isLocal s p = none
  plain : p.fmt < 4 ∧ p.coll = 0
  within : va56 va + n ≤ p.base + p.size

/-! ### Reception (R276-R283) -/

/-- The descriptor word i of an entry's collective or route operation. -/
def descOf (e : Entry) (i : Nat) : Word := e.start.desc[i]?.getD 0

/-- Handle of the receive tile of a firing (R286). -/
def tileOfFiring (e : Entry) : Nat := (field (descOf e 2) 32 8 + e.firing * field (descOf e 2) 40 8) % 256

/-- A posting may be made (R276). -/
structure MayPost (s : State) (e : Entry) : Prop where
  moving : Moving s e
  read : e.start.ready = true
  receives : (descOf e 0).getLsbD 61 = true
  first : e.posted = false
  bound : field (tileAt s (tileOfFiring e)) 48 2 = 2 ∧ field (tileAt s (tileOfFiring e)) 24 24 ≠ 0
  room : 4 * e.start.acc ≤ field (tileAt s (tileOfFiring e)) 24 24

/-- The accumulate-on-write port is granted the result store: it is open to it, and no drain writes the store in this clk
(R228). -/
def AccumulateOpen (s : State) : Prop :=
  PortOpen s 1 2 ∧ ∀ e, e ∈ s.running → ∀ c m, e.op = .mdrain c false m → e.fin.isSome = true

/-- The contribution meets the posting p, which is the first with its CIDX, from a source it lists at rank r. -/
structure Meets (s : State) (c : Contrib) (p : Posting) (r : Nat) : Prop where
  resident : s.core.status ≠ .away
  stands : s.coll.postings.find? (fun x => x.cidx == c.cidx) = some p
  listed : rankOf p.ranks c.dev c.cell = some r

/-! ### Vats (R116, R117, R263-R266) -/

/-- The vat operation r is first at its home, past every pairing point. -/
structure VatFirst (s : State) (r : Req) : Prop where
  first : Oldest s r
  held : HomeHolds s r
  past : s.nextPoint r = none
  present : s.presentPa r.pa = true
  own : r.origin = .own
  clean : s.mgr.memErr = []
  alone : s.sys.parked.all (fun q => q.pa != r.pa) = true

/-- The n-byte field of a vat's header. -/
def vatField (s : State) (pa i n : Nat) : Nat := Memory.readLE s.mem (pa + i) n

/-- A well-formed header (R116). -/
structure VatFine (s : State) (pa : Nat) : Prop where
  kind : vatField s pa 0 1 ≤ 2 ∧ vatField s pa 1 7 = 0
  cap : 1 ≤ vatField s pa 8 8 ∧ vatField s pa 8 8 ≤ 2 ^ 32
  count : vatField s pa 16 8 ≤ vatField s pa 8 8
  pos : if vatField s pa 0 1 = 2 then vatField s pa 24 8 < vatField s pa 8 8 else vatField s pa 24 8 = 0
  zero : vatField s pa 32 32 = 0

/-- The vat operation r is answered with a value and a status, in the manner `how`. -/
def VatAnswers (s t : State) (r : Req) (val : Word) (status how : Nat) : Prop :=
  ∃ a, t.sys.replies = s.sys.replies ++ [a] ∧ a.id = r.id ∧ a.dest = .vat ∧ a.val = val ∧
    a.lanes = [BitVec.ofNat 32 status, BitVec.ofNat 32 how]

/-- The vat operation r goes on from the pairing point p, which holds what it held (R263, R266). -/
def PassesOn (s t : State) (r : Req) (p : Nat) : Prop :=
  t.sys.held = s.sys.held ∧ t.sys.reqs = s.sys.reqs.filter (fun q => q.id != r.id) ++ [r] ∧
    t.sys.passed = (r.id, p) :: s.sys.passed ∧ t.core = s.core ∧ t.mem = s.mem

/-! ### Launch queues (R294, R295) -/

/-- A 32-bit number of queue q's descriptor at a byte offset, for a table at tb. -/
def queueWord (s : State) (tb q off : Nat) : Nat := Memory.readLE s.mem (tb + 64 * q + off) 4

/-- The queue is enabled (R294). -/
structure QueueOn (s : State) (tb q : Nat) : Prop where
  table : s.mgr.qtable = some tb
  number : q < 1024
  size : 4 ≤ queueWord s tb q 8 % 2 ^ 5 ∧ queueWord s tb q 8 % 2 ^ 5 ≤ 16
  on : queueWord s tb q 8 / 2 ^ 11 % 2 = 1

/-- A TAIL that the queue accepts: neither behind its TAIL nor more than its size ahead of its HEAD (R295). -/
def TailFits (s : State) (tb q v : Nat) : Prop :=
  (v + 2 ^ 32 - queueWord s tb q 24) % 2 ^ 32 ≤ 2 ^ (queueWord s tb q 8 % 2 ^ 5) ∧
    (v + 2 ^ 32 - queueWord s tb q 28) % 2 ^ 32 ≤ (v + 2 ^ 32 - queueWord s tb q 24) % 2 ^ 32

/-- A reply that port p, the way to device d, carries: what it says is on its way to the device (R328, R354, R359). -/
def RepliesTo (s t : State) (d why : Nat) (val : Word) : Prop := t.fab.back = s.fab.back ++ [(d, why, val)]

/-- A request of another module, at this one: the oldest, its home holding its clock; an answer to its key finds a way (R256,
R328, R354). -/
structure PeerFirst (s : State) (r : Req) (d : Nat) : Prop where
  first : Oldest s r
  held : HomeHolds s r
  from' : ∃ c, r.origin = .module d c
  way : ∃ p, s.hopTo d = some p ∧ s.member p r.key = true

/-- The watchdog of a troupe is over while some of its cells have not reported (R299). -/
def Expired (s : State) (x : Troupe) : Prop :=
  0 < x.wdog ∧ x.first + 2000 * x.wdog < s.clk ∧ ∃ c, c ∈ x.cells ∧ ∀ d, d ∈ x.done → d.1 ≠ c

/-- No write of this module is on its way or held. -/
def NoneUnderWay (s : State) : Prop := s.sys.reqs = [] ∧ s.sys.held = [] ∧ s.fab.out = []

/-! ### Contexts, ports and bring-up (R336, R350-R354, R392, R406) -/

/-- An answer to an engine's entry that is stopped between two progress units: the queue still moves (R160, R336). -/
def ReadAhead (s : State) (r : Reply) : Prop :=
  ∃ q v e n va, q < 13 ∧ s.queueMoves q = true ∧ s.cell.queues[q]? = some v ∧ e ∈ v.run ++ v.armed ∧
    r.queue = q ∧ r.seq = e.seq ∧ r.dest = .entry n va

/-- The refusal of the core's request r is kept for the trap, and r is waited for no more (R329). -/
def RefusedTo (s t : State) (r : Req) (why dev : Nat) : Prop :=
  t.core = { s.core with
      refusals := s.core.refusals ++ [{ va := r.va, why := why, dev := dev }]
      far := s.core.far.filter fun f => f.id != r.id } ∧ t.mem = s.mem ∧ t.cell = s.cell

/-- Table i has dropped a packet for its key, and counts it in its KEYDROP (R328). -/
def CountsDrop (s t : State) (i : Nat) : Prop :=
  ∀ k, Sparse.get t.fab.keyDrop k = if k = i then Sparse.get s.fab.keyDrop k + 1 else Sparse.get s.fab.keyDrop k

/-- The port with flits queued in their class. -/
def withFlits (p : Port) (f : Flits) : Port := { p with queues := setAt p.queues f.cls ((p.queues[f.cls]?.getD []) ++ [f]) }

/-- Port i, which is p, carries no traffic any more; the requests of the module whose flits it holds are given a path afresh,
and a packet that passes through goes on by another port, if it is the only one (R392). -/
def TakenDown (s t : State) (i : Nat) (p : Port) : Prop :=
  (t.fab.ports[i]?).map Port.up = some false ∧ (t.fab.ports[i]?).map Port.queues = some [[], [], [], []] ∧
    (t.fab.ports[i]?).map Port.unacked = some [] ∧
    (∀ x, x ∈ t.fab.routed ↔ x ∈ s.fab.routed ∧
      ¬ (x.2 = i ∧ ∃ f, f ∈ p.queues.flatten ++ p.unacked.map Prod.snd ∧ f.id = some x.1)) ∧
    ((∀ f, f ∈ p.queues.flatten ++ p.unacked.map Prod.snd → f.id ≠ none) →
      ∀ j, j < 36 → j ≠ i → t.fab.ports[j]? = s.fab.ports[j]?) ∧
    ∀ f j q, p.queues.flatten ++ p.unacked.map Prod.snd = [f] → f.id = none → t.hopTo f.dev = some j →
      s.fab.ports[j]? = some q → t.fab.ports[j]? = some (withFlits q f)

/-- No access of the host is on its way to its home (R361). -/
def HostFree (s : State) : Prop := ∀ r, r ∈ s.sys.reqs → r.origin = .hub 24 → r.queue ≠ 15

/-- PORTMAP has port i in service (R387). -/
def PortTrained (s : State) (i : Nat) : Bool := (mapOf s.mgr.portmap (24 + i / 9)).getLsbD (i % 9)

/-- Every trained port leads where the cabling of graph g takes it from the module's number (R350, R351, R408). -/
def Cabled (s : State) (g : Nat) : Prop :=
  field s.inp.devid 0 11 < (if g = 0 then 1057 else 273) ∧ ∀ i, i < 36 → PortTrained s i = true →
    ∃ n, (cabling g (field s.inp.devid 0 11))[i]? = some n ∧ (i, n) ∈ s.inp.cabled

/-- The module is READY: TICKNOW and the clk count begin at 0, and its trained ports carry traffic (R302, R397, R406). -/
def Ready (s t : State) : Prop :=
  t.mgr.phase = 5 ∧ t.readCsr 0x180 = 0 ∧ t.clk = 0 ∧ t.core = s.core ∧
    ∀ i p, t.fab.ports[i]? = some p → p.up = PortTrained s i

/-- A mailbox command has ended with RES0 (R407). -/
def Ended (s t : State) (r : Nat) : Prop :=
  t.mgr.cmd = none ∧ t.mgr.busy = false ∧ t.mgr.res[0]? = some (BitVec.ofNat 64 r) ∧ t.mgr.msix = s.mgr.msix ++ [1024]

/-! ### Steps -/

/-- The core comes to issue in this step: it runs on a clk of its island, nothing is to be taken at the boundary, no return is in
progress, and no breakpoint is armed (R65, R191, R200, R368, R400). -/
structure ComesToIssue (s : State) : Prop where
  start : s.agenda = []
  ticks : s.ctlTicks = true
  runs : s.core.status = .running ∧ s.core.busy = 0 ∧ s.core.entering = none ∧ s.core.reinject = []
  boundary : s.inp.halt = false ∧ s.inp.preempt = false ∧ s.asyncReady = none
  unarmed : ∀ i, i < 4 → (s.readCsr (0x0C8 + i)).getLsbD 0 = false

/-- The words of a unit stand at the pc, on pages that may be fetched from, and have been fetched (R57, R191, R322). -/
structure UnitAtPc (s : State) (i : Instr) (ws : List (BitVec 32)) : Prop where
  unit : decode ws = .unit i ws.length
  aligned : s.core.pc.toNat % 4 = 0
  clean : s.mgr.memErr = []
  fetched : ws.length ≤ s.core.fetchClk + 1
  words : ∀ j w, ws[j]? = some w → ∃ p, OnPage s (s.core.pc + 4 * BitVec.ofNat 64 j) .fetch 4 p ∧ isLocal s p = none ∧
    w = BitVec.ofNat 32 (Memory.readLE s.mem (p.frame + (va56 (s.core.pc + 4 * BitVec.ofNat 64 j) - p.base)) 4)

end Sys2Proof.Claims
end

