-- ==== Sys2Proof/Certificates/Slice0/Obligations.lean ====
section
/-!
DEFINITION. The statements for the provers.
-/

open Sys2Proof Sys2Proof.Machine Sys2Proof.Claims

/-! ### Reset -/

/-- What the spec gives at reset: ISTAT (R96), the views (R44), the bindings of the banks (R47), the timer (R97), LASTBR and
TVEC (R204), FSTAT (R205), the tick period (R302), and, with R405, every clock at zero and no context. The other fields of
`State.reset` are the model's choice (log 4). -/
def Obligations.ResetState : Prop :=
  State.reset.readCsr 0x100 = 0x3F01 ∧ State.reset.readCsr 0x010 = 0 ∧ State.reset.readCsr 0x011 = 8 ∧
    State.reset.readCsr 0x012 = 8 ∧ State.reset.readCsr 0x013 = 0xF00 ∧ State.reset.msp = 0 ∧
    State.reset.readCsr 0x104 = 0 ∧ State.reset.readCsr 0x105 = 0 ∧ State.reset.readCsr 0x106 = 0 ∧
    State.reset.readCsr 0x047 = 0 ∧ State.reset.readCsr 0x101 = 0 ∧ State.reset.readCsr 0x040 = 0 ∧
    State.reset.readCsr 0x181 = 66666667 ∧ State.reset.clk = 0 ∧ State.reset.sys.vc = [] ∧
    State.reset.core.status = .absent

/-! ### Scalar instructions -/

/-- R78, R79, R83: the results of the arithmetic, logic, shift, division, minimum and comparison instructions. -/
def Obligations.ArithmeticResults : Prop := Computes arithmetic ∧ Computes comparison

/-- R84, R85: bit counts, RANK and SELECT, extension, extraction and reversal. -/
def Obligations.BitResults : Prop := Computes bitwise

/-- R80-R82: the immediate forms, the shifts by an immediate, ADDPC. -/
def Obligations.ImmediateResults : Prop := Computes immediate

/-- R86-R88, R90: a taken transfer goes to its target and records its pc in LASTBR; one that is not taken goes on to the next
unit and leaves LASTBR; links and the decrement of LOOP are written either way; NOP only goes on. -/
def Obligations.TransferResults : Prop :=
  ∀ (i : Instr) (s : State) (x : Jump), transfer i = some x → i.wellFormed = true → Usable s (x.srcs ++ [x.dst]) →
    ∃ t, Retires i s t (if x.taken s then x.target s else following i s) ∧ Lands s t 1 x.dst (x.val s) ∧
      KeepsRegisters s t x.dst ∧ OnlyCsr s t 0x047 ∧
      t.readCsr 0x047 = if x.taken s then (s.core.pc.setWidth 56).setWidth 64 else s.readCsr 0x047

/-- R51, R76, R77, R194: of an instruction of these tables, an empty source whose per-source bit is 0, or an empty
destination, makes the unit wait, charged to EMPTYWAIT, and a late destination makes it wait, charged to SCOREBOARD. -/
def Sys2Proof.Claims.RegistersAreWaitedFor : Prop :=
  ∀ (d a b : BitVec 5) (s : State),
    (s.emptyG a.toNat = true ∨ s.emptyG b.toNat = true ∨ s.emptyG d.toNat = true →
      ∃ t, Waits (.add d a b false false) s t .emptyWait) ∧
    (Usable s [a.toNat, b.toNat] → s.emptyG d.toNat = false → s.lateG d.toNat = true →
      ∃ t, Waits (.add d a b false false) s t .scoreboard)

/-- R51, R194, R206: an empty source whose per-source bit is 1 traps with EMPTYREAD, which names the register as 0x4_0000 + n
in FINFO0. -/
def Sys2Proof.Claims.EmptySourceTraps : Prop :=
  ∀ (d a b : BitVec 5) (y : Bool) (s : State), EntersAtOnce s → s.emptyG a.toNat = true →
    ∃ t, exec (.add d a b true y) s = .next t ∧
      Enters s t { code := 0x07, info0 := BitVec.ofNat 64 (0x40000 + a.toNat) } s.core.pc

/-- R194, R206: a late source traps with LATENCY where CTL.LATMODE is 1, and is waited for where it is 0. -/
def Sys2Proof.Claims.LateSources : Prop :=
  ∀ (d a : BitVec 5) (s : State), s.emptyG a.toNat = false → s.emptyG d.toNat = false → s.lateG a.toNat = true →
    (s.latmode = false → ∃ t, Waits (.popc d a false) s t .scoreboard) ∧
    (s.latmode = true → EntersAtOnce s → ∃ t, exec (.popc d a false) s = .next t ∧
      Enters s t { code := 0x08, info0 := BitVec.ofNat 64 (0x40000 + a.toNat) } s.core.pc)

/-- R51, R52, R77, R194: empty and late registers hold a unit back, or trap. -/
def Obligations.RegisterWaits : Prop := Claims.RegistersAreWaitedFor ∧ Claims.EmptySourceTraps ∧ Claims.LateSources

/-! ### Shape registers (R93, R94) -/

/-- ZGET and ZPEND return a shape register and its pending readers. -/
def Sys2Proof.Claims.ShapeReads : Prop :=
  ∀ (i : Instr) (s : State) (r : Row), shapeRead i = some r → i.wellFormed = true → Usable s [r.dst] →
    WritesRegister i s 1 r.dst (r.val s) (following i s)

/-- ZSET writes at once; ZSET.W waits, charged to ORDERWAIT, until no reader is pending; a source above 32 bits traps with
SHAPE; a register number of 16 or more traps with ILLEGAL; engine words of this clk read the value before. -/
def Sys2Proof.Claims.ShapeWrites : Prop :=
  ∀ (d a : BitVec 5) (x : Bool) (s : State), Usable s [a.toNat] →
    (d.toNat < 16 → (s.g a.toNat).toNat < 2 ^ 32 → s.core.zOld = none →
      (∃ t, Retires (.zset d a x) s t (following (.zset d a x) s) ∧
        WritesShape s t d.toNat ((s.g a.toNat).setWidth 32)) ∧
      (s.zpend d.toNat = 0 → ∃ t, Retires (.zsetW d a x) s t (following (.zsetW d a x) s) ∧
        WritesShape s t d.toNat ((s.g a.toNat).setWidth 32)) ∧
      (s.zpend d.toNat ≠ 0 → ∃ t, Waits (.zsetW d a x) s t .orderWait)) ∧
    (d.toNat < 16 → 2 ^ 32 ≤ (s.g a.toNat).toNat → EntersAtOnce s →
      TrapsWith (.zset d a x) s 0x10 ∧ TrapsWith (.zsetW d a x) s 0x10) ∧
    (16 ≤ d.toNat → EntersAtOnce s → TrapsWith (.zset d a x) s 0x01 ∧ TrapsWith (.zsetW d a x) s 0x01)

/-- R41, R94, R155: the shape registers are read and written, and kept while readers are pending. -/
def Obligations.ShapeRegisters : Prop := Claims.ShapeReads ∧ Claims.ShapeWrites

/-! ### Traps and returns -/

/-- R200, R201, R204-R206: what trap entry does, whatever the trap. -/
def Sys2Proof.Claims.TrapEntry : Prop :=
  ∀ (s : State) (x : TrapInfo) (pc : Word), EntersAtOnce s → Enters s (s.syncTrap x pc) x pc

/-- R200, R201: a trap recognised while data of a store load are outstanding is entered once they have arrived. -/
def Sys2Proof.Claims.TrapWaits : Prop :=
  ∀ (s : State) (x : TrapInfo) (pc : Word), (s.system && s.held) = false → ¬ Arrived s s.clk →
    WaitsToEnter s (s.syncTrap x pc) x pc s.clk 0

/-- R202: a trap at system level with FSTAT.HELD = 1 stops the cell; the frame, the pc and every register are left as they
stand, and the cell's completion will carry fault status with the second cause. -/
def Sys2Proof.Claims.DoubleTrap : Prop :=
  ∀ (s : State) (x : TrapInfo) (pc : Word), s.system = true → s.held = true →
    (s.syncTrap x pc).core.status = .doubled ∧ (s.syncTrap x pc).csr = s.csr ∧ (s.syncTrap x pc).core.pc = s.core.pc ∧
      (s.syncTrap x pc).core.g = s.core.g ∧ (s.syncTrap x pc).mem = s.mem ∧ (s.syncTrap x pc).cell.endStatus = 2 ∧
      (s.syncTrap x pc).cell.endCause = x.code ∧ (s.syncTrap x pc).cell.fx = s.cell.fx

/-- R199-R202, R205, R206: a trap is entered, at once or when the store loads outstanding have landed, or, at system level with
the frame held, is a double trap. -/
def Obligations.TrapEntries : Prop := Claims.TrapEntry ∧ Claims.TrapWaits ∧ Claims.DoubleTrap

/-- R95, R101: SYSCALL and BRK trap with the pc of the next unit as the resume pc. -/
def Obligations.SystemCalls : Prop :=
  ∀ s : State, EntersAtOnce s →
    (∃ t, exec .syscall s = .next t ∧ Enters s t { code := 0x16 } (s.core.pc + 4)) ∧
    (∃ t, exec .brk s = .next t ∧ Enters s t { code := 0x12 } (s.core.pc + 4))

/-- R203: RETT restores the pc, the level, IE, MSP and the mask stack from the frame, clears VALID and HELD, takes 4 + NLAT
clk and re-injects the latches of the frame. -/
def Sys2Proof.Claims.TrapReturn : Prop :=
  ∀ s : State, s.system = true → (s.readCsr 0x040).getLsbD 0 = true →
    (∀ j, j < s.nlat → s.latchBad j = false ∧ s.latchLent j = false) →
    ∃ t, exec .rett s = .next t ∧ t.core.charge = .issued ∧ t.core.chargePc = s.core.pc ∧
      t.core.pc = ((s.readCsr 0x041).setWidth 56).signExtend 64 ∧ t.system = (s.readCsr 0x040).getLsbD 2 ∧
      (t.readCsr 0x100).getLsbD 0 = (s.readCsr 0x040).getLsbD 3 ∧ t.msp = (s.readCsr 0x048).toNat % 8 ∧
      (∀ i, i < 8 → t.core.mask[i]? = some (s.readCsr (0x049 + i))) ∧ (t.readCsr 0x040).getLsbD 0 = false ∧
      (t.readCsr 0x040).getLsbD 1 = false ∧ t.core.busy = 4 + s.nlat ∧
      t.core.reinject = (List.range s.nlat).map s.latchOf ∧ t.core.g = s.core.g ∧ t.core.inflight = s.core.inflight ∧
      (∀ n, n ∉ [0x001, 0x100, 0x014, 0x040] → t.readCsr n = s.readCsr n) ∧
      t = { s with core := t.core, csr := t.csr }

/-- R95, R203, R49: RETT at user level traps with PRIVILEGE; at system level, with no frame, a malformed latch record or a record
that names a bank bound to the matrix slot, it returns nowhere: the frame is left unchanged, the clk is charged to TRAP, and
the handler continues (log 23). -/
def Sys2Proof.Claims.TrapReturnRefused : Prop :=
  ∀ s : State,
    (s.system = false → EntersAtOnce s → TrapsWith .rett s 0x02) ∧
    (s.system = true → ((s.readCsr 0x040).getLsbD 0 = false ∨
        (∃ j, j < s.nlat ∧ (s.latchBad j = true ∨ s.latchLent j = true))) →
      ∃ t, exec .rett s = .next t ∧ t.core.pc = s.core.pc + 4 ∧ t.core.charge = .trap ∧ t.core.chargePc = s.core.pc ∧
        KeepsCore s t ∧ OnlyCore s t)

/-- R92, R203: RETT restores the frame, or is refused. -/
def Obligations.TrapReturns : Prop := Claims.TrapReturn ∧ Claims.TrapReturnRefused

/-- R95, R98: IEN and IDIS set and clear ISTAT.IE at system level and trap with PRIVILEGE at user level. -/
def Sys2Proof.Claims.InterruptEnable : Prop :=
  ∀ s : State,
    (s.system = true →
      (∃ t, Retires .ien s t (s.core.pc + 4) ∧ KeepsCore s t ∧ OnlyCsr s t 0x100 ∧
        t.readCsr 0x100 = s.readCsr 0x100 ||| 1) ∧
      (∃ t, Retires .idis s t (s.core.pc + 4) ∧ KeepsCore s t ∧ OnlyCsr s t 0x100 ∧
        t.readCsr 0x100 = s.readCsr 0x100 &&& ~~~1)) ∧
    (s.system = false → EntersAtOnce s → TrapsWith .ien s 0x02 ∧ TrapsWith .idis s 0x02)

/-- R99: WFI retires where an interrupt enabled by IMASK, or a stop, is pending, whatever IE holds; otherwise it waits, charged
to CUEWAIT. -/
def Sys2Proof.Claims.WaitForInterrupt : Prop :=
  ∀ s : State,
    (((∃ i, i < 4 ∧ (s.readCsr 0x100).getLsbD (16 + i) = true ∧ (s.readCsr 0x100).getLsbD (8 + i) = true) ∨
        s.inp.halt = true ∨ s.inp.preempt = true) →
      ∃ t, Retires .wfi s t (s.core.pc + 4) ∧ KeepsCore s t ∧ OnlyCore s t) ∧
    ((∀ i, i < 4 → (s.readCsr 0x100).getLsbD (16 + i) = false ∨ (s.readCsr 0x100).getLsbD (8 + i) = false) →
        s.inp.halt = false → s.inp.preempt = false →
      ∃ t, Waits .wfi s t .cueWait ∧ t.core.wfi = true)

/-- R93, R96, R99: the interrupt enable, and the wait for an interrupt. -/
def Obligations.InterruptControl : Prop := Claims.InterruptEnable ∧ Claims.WaitForInterrupt

/-- R100: CSRR to CSRX on a register with no behaviour of its own, at system level: g[rd] takes the old value, the register the
new one, its reserved bits stay zero, and nothing else changes. -/
def Obligations.CsrAccess : Prop :=
  ∀ (i : Instr) (s : State) (d a n : Nat) (f : Word → Word → Option Word) (w : Word), csrForm i = some (d, a, n, f) →
    i.wellFormed = true → (n, w) ∈ plainCsrs → s.system = true → Usable s [a, d] →
    ∃ t, Retires i s t (following i s) ∧ Lands s t 1 d (s.readCsr n) ∧ KeepsRegisters s t d ∧ OnlyCsr s t n ∧
      t.readCsr n = match f (s.readCsr n) (s.g a) with
        | some v => (s.readCsr n &&& ~~~w) ||| (v &&& w)
        | none => s.readCsr n

/-- R56, R68, R100: an unassigned number traps with ILLEGAL at either level, a system register at user level with PRIVILEGE,
and a user-level write of a register that is read-only there is ignored while g[rd] takes the old value. -/
def Obligations.CsrPermission : Prop :=
  ∀ (i : Instr) (s : State) (d a n : Nat) (f : Word → Word → Option Word), csrForm i = some (d, a, n, f) →
    i.wellFormed = true →
    ((0x053 ≤ n ∧ n ≤ 0x07F ∨ 0x107 ≤ n ∧ n ≤ 0x11F) → EntersAtOnce s → TrapsWith i s 0x01) ∧
    (s.system = false → EntersAtOnce s → (0x040 ≤ n ∧ n ≤ 0x046 ∨ 0x048 ≤ n ∧ n ≤ 0x052 ∨ 0x100 ≤ n ∧ n ≤ 0x106) →
      TrapsWith i s 0x02) ∧
    (s.system = false → Usable s [a, d] → n = 0x000 ∨ n = 0x013 ∨ n = 0x014 ∨ n = 0x047 →
      WritesRegister i s 1 d (s.readCsr n) (following i s))

/-! ### Memory operands, loads and stores -/

/-- R40, R61, R62: the address and the base register afterwards in the four modes of format M. -/
def Obligations.MemoryOperands : Prop :=
  ∀ (s : State) (m : MemArg) (sc : Scale) (step : Word) (w : Word),
    step = (if sc = .b256 then signedImm ⟨m.off.setWidth 8, m.hi⟩ else signedImm ⟨m.off, m.hi⟩) *
      BitVec.ofNat 64 sc.bytes →
    w = (s.core.m[m.mreg.toNat]?).getD 0 →
    (m.mode = 0 → s.address m sc = s.g m.base.toNat + step ∧ s.newBase m sc = none) ∧
    (m.mode = 1 → s.address m sc = s.g m.base.toNat ∧ s.newBase m sc = some (s.g m.base.toNat + step)) ∧
    (m.mode = 2 → s.address m sc = s.g m.base.toNat ∧ s.newBase m sc = some
      (if w.toNat / 2 ^ 24 % 2 ^ 24 = 0 then s.g m.base.toNat + step
       else BitVec.ofInt 64 ((w.toNat % 2 ^ 24 : Nat) +
        (((s.g m.base.toNat).toNat : Int) - (w.toNat % 2 ^ 24 : Nat) + step.toInt) % (w.toNat / 2 ^ 24 % 2 ^ 24 : Nat)))) ∧
    (m.mode = 3 → s.newBase m sc = none ∧
      s.address m sc = s.g m.base.toNat + (s.g (m.off.toNat % 32) <<< (m.off.toNat / 32 % 8)))

/-- R104, R105, R108, R193: LD and LDW from the weight store put the little-endian value in a latch of nominal latency 6, which
asks for the store's port, and write nothing else but the base register. -/
def Sys2Proof.Claims.LoadFromStore : Prop :=
  ∀ (i : Instr) (s : State) (n d : Nat) (m : MemArg) (od : Option Ord) (va : Word), scalarLoad i = some (n, d, m, od) →
    i.wellFormed = true → m.sp ≠ 3 → AccessOpen s → Usable s (operandRegs m d) → va = s.address m (scaleOf n) →
    va.toNat % n = 0 → InStore s 0 va n →
    ∃ t, Retires i s t (following i s) ∧ BaseMoved s t m (scaleOf n) ∧ t.core.gEmpty = s.core.gEmpty ∧
      t.core.inflight = flightAfter s m (scaleOf n) ++ (if d = 0 then [] else
        [storeLatch s 6 0 (.reg d (BitVec.ofNat 64 (Memory.readLE (seen s 0) va.toNat n))) true]) ∧
      (if d = 0 then AsksPort s t 0 [] else t.core.posted = s.core.posted) ∧
      t.core.acqUntil = (if isAcquire od then s.clk + 6 else s.core.acqUntil) ∧ CoreOfAccess s t ∧ OnlyCounts s t

/-- R104, R108, R109, R318: LD and LDW from a page send one load to the address's home, or to another module, and mark g[rd]
empty until the value lands. -/
def Sys2Proof.Claims.LoadFromPage : Prop :=
  ∀ (i : Instr) (s : State) (n d : Nat) (m : MemArg) (od : Option Ord) (va : Word) (p : Page),
    scalarLoad i = some (n, d, m, od) → i.wellFormed = true → m.sp = 3 → AccessOpen s → Usable s (operandRegs m d) →
    va = s.address m (scaleOf n) → va.toNat % n = 0 → OnPage s va .read n p → p.fmt = 0 ∨ p.fmt = 3 → p.coll ≠ 3 →
    Room s p false 1 →
    ∃ t, Retires i s t (following i s) ∧ BaseMoved s t m (scaleOf n) ∧
      (∀ r, r < 32 → t.emptyG r = (s.emptyG r || (decide (r = d) && decide (d ≠ 0)))) ∧
      t.core.inflight = flightAfter s m (scaleOf n) ∧
      Sends s t (.load n) va (p.frame + (va56 va - p.base)) (isLocal s p) (regDest d) (isAcquire od) ∧
      OnlyRegisters s.core t.core ∧ OnlyAccess s t

/-- R108, R252, R321: an access of the register-space window is sent to the die of the cell it names, and its unit waits at the
head, charged to MEMORY, until it is answered; one that is refused traps. -/
def Sys2Proof.Claims.WindowAccess : Prop :=
  ∀ (i : Instr) (s : State) (n d : Nat) (m : MemArg) (od : Option Ord) (va : Word) (op : ReqOp) (acq : Bool),
    (scalarLoad i = some (n, d, m, od) ∧ op = .load n ∧ acq = isAcquire od ∨
      scalarStore i = some (n, d, m, od) ∧ acq = false ∧ op = .store
        ((List.range n).map fun j => (windowPlace va + j, BitVec.ofNat 8 ((s.g d).toNat / 256 ^ j)))) →
    i.wellFormed = true → m.sp = 3 → va = s.address m (scaleOf n) → inWindow va = true →
    (s.core.win = .none → AccessOpen s → Usable s (operandRegs m d) → s.fencesOpen = true → Released s od → Unwatched s →
      va.toNat % n = 0 → InUsableWindow s va n →
      ∃ t, exec i s = .next t ∧ t.core.pc = s.core.pc ∧ t.core.charge = .memory ∧ t.core.win = .sent ∧
        t.core.g = s.core.g ∧ t.core.gEmpty = s.core.gEmpty ∧ t.core.inflight = s.core.inflight ∧
        Sends s t op va (windowPlace va) none .win acq ∧ OnlyAccess s t) ∧
    (s.core.win = .sent → ∃ t, Waits i s t .memory) ∧
    (∀ c a, s.core.win = .refused c a → EntersAtOnce s →
      ∃ t, exec i s = .next t ∧ Enters s t { code := c, addr := a } s.core.pc ∧ t.core.win = .none)

/-- R108, R321: LD and LDW from the window retire with the bytes answered, a result of latency 1. -/
def Sys2Proof.Claims.LoadFromWindow : Prop :=
  ∀ (i : Instr) (s : State) (n d : Nat) (m : MemArg) (od : Option Ord) (bs : List Byte) (ls : List Lane),
    scalarLoad i = some (n, d, m, od) → i.wellFormed = true → m.sp = 3 → inWindow (s.address m (scaleOf n)) = true →
    s.core.win = .done bs ls →
    ∃ t, Retires i s t (following i s) ∧ Lands (s.updateBase m (scaleOf n)) t 1 d (BitVec.ofNat 64 (numOfBytes bs)) ∧
      KeepsRegisters (s.updateBase m (scaleOf n)) t d ∧ OnlyRegisters { s.core with win := .none } t.core ∧ OnlyCore s t

/-- R103-R107, R193, R226, R321: scalar loads from a store, a page and the register-space window. -/
def Obligations.ScalarLoads : Prop :=
  Claims.LoadFromStore ∧ Claims.LoadFromPage ∧ Claims.WindowAccess ∧ Claims.LoadFromWindow

/-- R103, R105, R106, R322, R324: what stops a scalar load or store whose registers are ready: a misaligned address traps with
ALIGN and a byte beyond the store with PROTECT, naming the address; where the page is not cached the unit waits, charged to
TRANSLATION, and a walk is asked for; where the page refuses the access it traps with PROTECT. -/
def Obligations.AccessFaults : Prop :=
  ∀ (i : Instr) (s : State) (n d : Nat) (m : MemArg) (od : Option Ord) (va : Word) (acc : Access),
    (scalarLoad i = some (n, d, m, od) ∧ acc = .read ∨ scalarStore i = some (n, d, m, od) ∧ acc = .write) →
    i.wellFormed = true → AccessOpen s → Usable s (operandRegs m d) → va = s.address m (scaleOf n) →
    (EntersAtOnce s → va.toNat % n ≠ 0 →
      ∃ t, exec i s = .next t ∧ Enters s t { code := 0x03, addr := va } s.core.pc) ∧
    (EntersAtOnce s → va.toNat % n = 0 → m.sp ≠ 3 → 0x200000 < va.toNat + n →
      ∃ t, exec i s = .next t ∧
        Enters s t { code := 0x05, addr := BitVec.ofNat 64 (max va.toNat 0x200000) } s.core.pc) ∧
    (va.toNat % n = 0 → m.sp = 3 → inWindow va = false → (va.setWidth 56).signExtend 64 = va → s.core.walkFault = [] →
      s.cached va = none → ∃ t, exec i s = .next t ∧ t.core.pc = s.core.pc ∧ t.core.charge = .translation ∧
        t.core.g = s.core.g ∧ t.core.gEmpty = s.core.gEmpty ∧ t.core.inflight = s.core.inflight ∧ t.mem = s.mem ∧
        t.cell = s.cell ∧ t.sys.reqs = s.sys.reqs ∧
        ∃ w, w ∈ t.sys.walks ∧ (w ∈ s.sys.walks ∨ w.2 = (acc, clockOf s)) ∧
          w.1.toNat / 2 ^ 16 % 2 ^ 40 = va.toNat / 2 ^ 16 % 2 ^ 40) ∧
    (EntersAtOnce s → va.toNat % n = 0 → m.sp = 3 → inWindow va = false → (va.setWidth 56).signExtend 64 = va →
      s.core.walkFault = [] → ∀ p, s.cached va = some p → (acc = .write → p.w0.getLsbD 7 = true) →
      permitted p.w0 acc s.system s.ux = false → va56 va + n ≤ p.base + p.size →
      ∃ t, exec i s = .next t ∧ Enters s t { code := 0x05, addr := va } s.core.pc)

/-- R105, R107, R108, R228: ST and STW to the weight store ask for its port, to write g[rd] there, little-endian, and no other
byte; the core's later units see the bytes at once. -/
def Sys2Proof.Claims.StoreToStore : Prop :=
  ∀ (i : Instr) (s : State) (n d : Nat) (m : MemArg) (od : Option Ord) (va : Word), scalarStore i = some (n, d, m, od) →
    i.wellFormed = true → m.sp ≠ 3 → AccessOpen s → Usable s (operandRegs m d) → Writable s od →
    va = s.address m (scaleOf n) → va.toNat % n = 0 → va.toNat + n ≤ 0x200000 →
    ∃ t, Retires i s t (following i s) ∧ BaseMoved s t m (scaleOf n) ∧ t.core.gEmpty = s.core.gEmpty ∧
      t.core.inflight = flightAfter s m (scaleOf n) ∧ AsksPort s t 0 [(va.toNat, bytesOf n (s.g d).toNat)] ∧
      StoreHolds s t 0 va.toNat n (s.g d).toNat ∧ t.core.acqUntil = s.core.acqUntil ∧ CoreOfAccess s t ∧ OnlyCounts s t

/-- R108, R109, R111, R273: ST and STW to a page send one write of g[rd] to its home, or, on a collective page, one
contribution of its words to the receiving cell. -/
def Sys2Proof.Claims.StoreToPage : Prop :=
  ∀ (i : Instr) (s : State) (n d : Nat) (m : MemArg) (od : Option Ord) (va : Word) (p : Page),
    scalarStore i = some (n, d, m, od) → i.wellFormed = true → m.sp = 3 → AccessOpen s → Usable s (operandRegs m d) →
    Writable s od → Unwatched s → va = s.address m (scaleOf n) → va.toNat % n = 0 → OnPage s va .write n p →
    p.fmt = 0 ∨ p.fmt = 3 → p.coll ≠ 3 → Room s p true 1 →
    ∃ t, Retires i s t (following i s) ∧ BaseMoved s t m (scaleOf n) ∧ t.core.gEmpty = s.core.gEmpty ∧
      t.core.inflight = flightAfter s m (scaleOf n) ∧ OnlyRegisters s.core t.core ∧ OnlyAccess s t ∧
      (p.coll = 0 → Sends s t (.store ((List.range n).map fun j =>
          (p.frame + (va56 va - p.base) + j, BitVec.ofNat 8 ((s.g d).toNat / 256 ^ j)))) va
        (p.frame + (va56 va - p.base)) (isLocal s p) .none false) ∧
      (p.coll ≠ 0 → Sends s t (.contrib
          { cidx := p.cidx, dev := s.devid, cell := s.gcell, off := p.poff * p.size + (va56 va - p.base)
            words := (List.range (n / 4)).map fun j => BitVec.ofNat 32 ((s.g d).toNat / 2 ^ (32 * j))
            chunk := false, epoch := none, add := decide (p.coll = 2), tdev := p.tdev, tcell := p.tcell, clock := [] }) va
        (p.tcell / 64 * 2 ^ 37) (if p.tdev = s.devid then none else some p.tdev) .none false)

/-- R108, R321: ST and STW to the window retire once their write has been performed. -/
def Sys2Proof.Claims.StoreToWindow : Prop :=
  ∀ (i : Instr) (s : State) (n d : Nat) (m : MemArg) (od : Option Ord) (bs : List Byte) (ls : List Lane),
    scalarStore i = some (n, d, m, od) → i.wellFormed = true → m.sp = 3 → inWindow (s.address m (scaleOf n)) = true →
    s.core.win = .done bs ls →
    ∃ t, Retires i s t (following i s) ∧ BaseMoved s t m (scaleOf n) ∧ t.core.gEmpty = (s.updateBase m (scaleOf n)).core.gEmpty ∧
      t.core.inflight = flightAfter s m (scaleOf n) ∧ OnlyRegisters { s.core with win := .none } t.core ∧ OnlyCore s t

/-- R103-R107, R226, R321: scalar stores to a store, a page and the register-space window. -/
def Obligations.ScalarStores : Prop := Claims.StoreToStore ∧ Claims.StoreToPage ∧ Claims.StoreToWindow

/-- R104, R108-R110, R193: VLD of the enabled lanes. With k = 0 only the base register moves; from a store, a latch of nominal
latency 8 holds the words; from a page of format 0-3, one load of the enabled elements goes to its home and their words are
empty until it lands; from a narrow or LAT2 page, one load of the blocks. -/
def Obligations.VectorLoad : Prop :=
  ∀ (s : State) (d : BitVec 5) (m : MemArg) (od : Option Ord) (va : Word) (v : Nat), (Instr.vld d m od).wellFormed = true →
    AccessOpen s → Usable s (operandRegs m 0) → va = s.address m .b256 →
    v = d.toNat + (if m.off.getLsbD 8 then 32 else 0) →
    (s.k = 0 → ∃ t, Retires (.vld d m od) s t (following (.vld d m od) s) ∧ BaseMoved s t m .b256 ∧
      t.core.inflight = flightAfter s m .b256 ∧ OnlyRegisters s.core t.core ∧ OnlyCore s t) ∧
    (s.k ≠ 0 → LanesReady s v s.k → LanesFree s v s.k →
      (m.sp ≠ 3 → va.toNat % 64 = 0 → InStore s m.sp.toNat va 256 →
        ∃ t, Retires (.vld d m od) s t (following (.vld d m od) s) ∧ BaseMoved s t m .b256 ∧
          t.core.inflight = flightAfter s m .b256 ++ [storeLatch s 8 m.sp.toNat (.vec (4 * laneWord s v 0) s.k
            ((List.range 64).map fun l => BitVec.ofNat 32 (Memory.readLE (seen s m.sp.toNat) (va.toNat + 4 * l) 4)))
            false] ∧ t.core.posted = s.core.posted ∧
          t.core.acqUntil = (if isAcquire od then s.clk + 8 else s.core.acqUntil) ∧ CoreOfAccess s t ∧ OnlyCounts s t) ∧
      (m.sp = 3 → ∀ p, p.fmt < 4 → p.coll ≠ 3 → va.toNat % 64 = 0 → OnPage s va .read (64 * elemSize p.fmt) p →
        Room s p false 1 →
        ∃ t, Retires (.vld d m od) s t (following (.vld d m od) s) ∧ BaseMoved s t m .b256 ∧
          t.core.inflight = flightAfter s m .b256 ∧ LanesEmptied s t v s.k ∧
          Sends s t (.vload p.fmt ((enabled s.k).map fun l => (l, p.frame + (va56 va - p.base) + elemSize p.fmt * l))) va
            (p.frame + (va56 va - p.base)) (isLocal s p) (.vec (4 * laneWord s v 0) s.k) (isAcquire od) ∧
          OnlyRegisters s.core t.core ∧ OnlyAccess s t) ∧
      (m.sp = 3 → ∀ p, NarrowReady s va p (narrowFoot p.fmt) false → (p.fmt = 11 → s.hasLat2 = true) →
        OnPage s va .read (narrowFoot p.fmt) p → s.k = BitVec.allOnes 64 → Room s p false 1 →
        (SlotsRead s → ∃ t, Retires (.vld d m od) s t (following (.vld d m od) s) ∧ BaseMoved s t m .b256 ∧
          LanesEmptied s t v s.k ∧ JoinsSlots s t va p (narrowFoot p.fmt) ∧
          Sends (joined s t) t (.bload ((blocksAt va p (narrowFoot p.fmt)).zipIdx.map fun b =>
              (b.2 * blockElems p.geo, b.1))) va
            (p.frame + (va56 va - p.base)) (isLocal s p) (.vec (4 * laneWord s v 0) s.k) (isAcquire od) ∧
          OnlyRegisters s.core t.core ∧ OnlyAccess (joined s t) t) ∧
        (¬ SlotsRead s → ∃ t, Waits (.vld d m od) s t .memory)))

/-- R107-R111, R228: VST of the enabled lanes. With k = 0 only the base register moves; to a store, its port is asked for, to
write the enabled words and no other byte; to a page of format 0 to 3, one write of the enabled elements goes to its home; to
a collective page, one contribution for each enabled word to the receiver; to a narrow page, with k all ones, one write of
the blocks, which their home encodes with CTL.RM. -/
def Obligations.VectorStore : Prop :=
  ∀ (s : State) (d : BitVec 5) (m : MemArg) (od : Option Ord) (va : Word) (v : Nat), (Instr.vst d m od).wellFormed = true →
    AccessOpen s → Usable s (operandRegs m 0) → Writable s od → Unwatched s → va = s.address m .b256 →
    v = d.toNat + (if m.off.getLsbD 8 then 32 else 0) →
    (s.k = 0 → ∃ t, Retires (.vst d m od) s t (following (.vst d m od) s) ∧ BaseMoved s t m .b256 ∧
      t.core.inflight = flightAfter s m .b256 ∧ OnlyRegisters s.core t.core ∧ OnlyCore s t) ∧
    (s.k ≠ 0 → LanesReady s v s.k →
      (m.sp ≠ 3 → va.toNat % 64 = 0 → va.toNat + 256 ≤ storeSize m.sp.toNat →
        ∃ t, Retires (.vst d m od) s t (following (.vst d m od) s) ∧ BaseMoved s t m .b256 ∧
          t.core.inflight = flightAfter s m .b256 ∧ t.core.acqUntil = s.core.acqUntil ∧ CoreOfAccess s t ∧ OnlyCounts s t ∧
          AsksPort s t m.sp.toNat
            ((enabled s.k).map fun l => (va.toNat + 4 * l, bytesOf 4 (s.word (laneWord s v l)).toNat)) ∧
          (∀ a, Sparse.get (seen t m.sp.toNat) a =
            if va.toNat ≤ a ∧ a < va.toNat + 256 ∧ s.k.getLsbD ((a - va.toNat) / 4) = true then
              BitVec.ofNat 8 ((s.word (laneWord s v ((a - va.toNat) / 4))).toNat / 256 ^ ((a - va.toNat) % 4))
            else Sparse.get (seen s m.sp.toNat) a) ∧
          (∀ st, st < 3 → st ≠ m.sp.toNat → seen t st = seen s st)) ∧
      (m.sp = 3 → ∀ p, p.fmt < 4 → p.coll = 0 → va.toNat % 64 = 0 → OnPage s va .write (64 * elemSize p.fmt) p →
        Room s p true 1 →
        ∃ t, Retires (.vst d m od) s t (following (.vst d m od) s) ∧ BaseMoved s t m .b256 ∧
          t.core.inflight = flightAfter s m .b256 ∧ OnlyRegisters s.core t.core ∧ OnlyAccess s t ∧
          Sends s t (.store (((enabled s.k).map fun l => (List.range (elemSize p.fmt)).map fun j =>
              (p.frame + (va56 va - p.base) + elemSize p.fmt * l + j,
                BitVec.ofNat 8 (elemCode s p.fmt (s.word (laneWord s v l)) / 256 ^ j))).flatten)) va
            (p.frame + (va56 va - p.base)) (isLocal s p) .none false) ∧
      (m.sp = 3 → ∀ p, p.fmt = 0 ∨ p.fmt = 3 → p.coll = 1 ∨ p.coll = 2 → va.toNat % 64 = 0 → OnPage s va .write 256 p →
        Room s p true (enabled s.k).length →
        ∃ t rs, Retires (.vst d m od) s t (following (.vst d m od) s) ∧ BaseMoved s t m .b256 ∧
          t.core.inflight = flightAfter s m .b256 ∧ OnlyRegisters s.core t.core ∧ OnlyAccess s t ∧
          rs.map Req.op = ((enabled s.k).map fun l => .contrib
            { cidx := p.cidx, dev := s.devid, cell := s.gcell, off := p.poff * p.size + (va56 va - p.base) + 4 * l
              words := [s.word (laneWord s v l)], chunk := false, epoch := none, add := decide (p.coll = 2)
              tdev := p.tdev, tcell := p.tcell, clock := [] }) ∧
          t.sys.reqs = s.sys.reqs ++ (if farOf s p true = none then rs else []) ∧
          t.fab.out = s.fab.out ++ (if farOf s p true = none then [] else rs)) ∧
      (m.sp = 3 → ∀ p, p.fmt ≠ 11 → NarrowReady s va p (narrowFoot p.fmt) true → OnPage s va .write (narrowFoot p.fmt) p →
        s.k = BitVec.allOnes 64 → Room s p true 1 →
        (SlotsRead s → ∃ t, Retires (.vst d m od) s t (following (.vst d m od) s) ∧ BaseMoved s t m .b256 ∧
          OnlyRegisters s.core t.core ∧ JoinsSlots s t va p (narrowFoot p.fmt) ∧ OnlyAccess (joined s t) t ∧
          Sends (joined s t) t (.encode (blocksAt va p (narrowFoot p.fmt)) (s.lanesAt (4 * laneWord s v 0)) s.rm) va
            (p.frame + (va56 va - p.base)) (isLocal s p) .none false) ∧
        (¬ SlotsRead s → ∃ t, Waits (.vst d m od) s t .memory)))

/-- R112, R228: OQLD reserves the next row of its queue; a store is asked for its port and answers it in order, a page, or the
register-space window, is asked for one row of 128 bytes or of whole blocks; a full queue makes it wait, charged to
QUEUEFULL. -/
def Obligations.OperandQueueLoad : Prop :=
  ∀ (s : State) (d : BitVec 5) (m : MemArg) (od : Option Ord) (va : Word) (rows : List OqRow),
    (Instr.oqld d m od).wellFormed = true → AccessOpen s → Usable s (operandRegs m 0) → va = s.address m .b128 →
    s.cell.oq[d.toNat]? = some rows → va.toNat % 64 = 0 →
    (m.sp ≠ 3 → InStore s m.sp.toNat va 128 → rows.length < 64 →
      ∃ t r a, Retires (.oqld d m od) s t (following (.oqld d m od) s) ∧ BaseMoved s t m .b128 ∧
        t.cell.oq[d.toNat]? = some (rows ++ [r]) ∧ r.landed = false ∧
        t.core.posted = s.core.posted ++
          [{ st := m.sp.toNat, clk := s.clk, enq := s.cell.enqNo, parts := [], row := some a }] ∧
        a.dest = .row d.toNat r.id 0 ∧
        (a.row.map OqRow.bytes) = some ((List.range 128).map fun j => Sparse.get (seen s m.sp.toNat) (va.toNat + j)) ∧
        t.core.acqUntil = s.core.acqUntil ∧ CoreOfAccess s t ∧ t = { s with
          core := t.core, cell := { s.cell with oq := t.cell.oq }
          sys := { s.sys with nextId := s.sys.nextId + 1 }, acct := { s.acct with occur := t.acct.occur } }) ∧
    (m.sp ≠ 3 → InStore s m.sp.toNat va 128 → 64 ≤ rows.length → ∃ t, Waits (.oqld d m od) s t .queueFull) ∧
    (m.sp = 3 → rows.length < 64 → ∀ p, p.fmt < 4 → p.coll ≠ 3 → OnPage s va .read 128 p → Room s p false 1 →
      ∃ t r, Retires (.oqld d m od) s t (following (.oqld d m od) s) ∧ BaseMoved s t m .b128 ∧
        t.cell.oq[d.toNat]? = some (rows ++ [r]) ∧ r.landed = false ∧ r.fmt = p.fmt ∧
        Sends s t (.rowBytes 128) va (p.frame + (va56 va - p.base)) (isLocal s p) (.row d.toNat r.id 0) (isAcquire od) ∧
        OnlyRegisters s.core t.core ∧ OnlyAccess s t) ∧
    (m.sp = 3 → rows.length < 64 → ∀ p, NarrowReady s va p (rowFoot p.fmt) false → SlotsRead s →
      (p.fmt = 11 → s.hasLat2 = true) → OnPage s va .read (rowFoot p.fmt) p → Room s p false 1 →
      ∃ t r, Retires (.oqld d m od) s t (following (.oqld d m od) s) ∧ BaseMoved s t m .b128 ∧
        t.cell.oq[d.toNat]? = some (rows ++ [r]) ∧ r.landed = false ∧ r.fmt = p.fmt ∧ r.geo = p.geo ∧ r.lslot = p.lslot ∧
        JoinsSlots s t va p (rowFoot p.fmt) ∧
        Sends (joined s t) t (.rowBlocks (blocksAt va p (rowFoot p.fmt))) va
          (p.frame + (va56 va - p.base)) (isLocal s p) (.row d.toNat r.id 0) (isAcquire od) ∧
        OnlyRegisters s.core t.core ∧ OnlyAccess (joined s t) t) ∧
    (m.sp = 3 → inWindow va = true →
      (s.core.win = .none → rows.length < 64 → InUsableWindow s va 128 →
        ∃ t, exec (.oqld d m od) s = .next t ∧ t.core.pc = s.core.pc ∧ t.core.charge = .memory ∧ t.core.win = .sent ∧
          Sends s t (.rowBytes 128) va (windowPlace va) none .win (isAcquire od) ∧ OnlyAccess s t) ∧
      (∀ bs ls, s.core.win = .done bs ls →
        ∃ t r, Retires (.oqld d m od) s t (following (.oqld d m od) s) ∧ BaseMoved s t m .b128 ∧
          t.cell.oq[d.toNat]? = some (rows ++ [r]) ∧ r.landed = true ∧ r.bytes = bs ∧
          OnlyRegisters { s.core with win := .none } t.core ∧
          t = { s with core := t.core, cell := { s.cell with oq := t.cell.oq } }))

/-! ### Atomics, CAS, vats, route counters -/

/-- R106, R113, R114: an atomic sends one read-modify-write of its size to the address's home, with g[rb] as its operand, and
marks g[rd] empty until the old value lands. -/
def Sys2Proof.Claims.AtomicsSend : Prop :=
  ∀ (i : Instr) (s : State) (fn n d a b : Nat) (od : Option Ord) (p : Page), atomicCode i = some (fn, n, d, a, b, od) →
    i.wellFormed = true → AccessOpen s → Usable s [a, b, d] → Writable s od → (s.g a).toNat % n = 0 →
    OnPage s (s.g a) .both n p → p.fmt = 0 ∨ (n = 4 ∧ p.fmt = 3) → p.coll = 0 → Room s p true 1 →
    ∃ t, Retires i s t (following i s) ∧ t.core.g = s.core.g ∧ t.core.inflight = s.core.inflight ∧
      (∀ r, r < 32 → t.emptyG r = (s.emptyG r || (decide (r = d) && decide (d ≠ 0)))) ∧
      Sends s t (.atomic fn n (s.g b)) (s.g a) (p.frame + (va56 (s.g a) - p.base)) (isLocal s p) (regDest d)
        (isAcquire od) ∧
      OnlyRegisters s.core t.core ∧ OnlyAccess s t

/-- R115: CAS and CAS.W send one compare-and-swap, with g[rd] as the expected value and g[rb] as the new one, and mark g[rd]
empty until the old value lands. -/
def Sys2Proof.Claims.CompareSwapSends : Prop :=
  ∀ (i : Instr) (s : State) (n d a b : Nat) (od : Option Ord) (p : Page), compareSwap i = some (n, d, a, b, od) →
    i.wellFormed = true → AccessOpen s → Usable s [a, b, d] → Writable s od → (s.g a).toNat % n = 0 →
    OnPage s (s.g a) .both n p → p.fmt = 0 ∨ (n = 4 ∧ p.fmt = 3) → p.coll = 0 → Room s p true 1 →
    ∃ t, Retires i s t (following i s) ∧ t.core.g = s.core.g ∧ t.core.inflight = s.core.inflight ∧
      (∀ r, r < 32 → t.emptyG r = (s.emptyG r || (decide (r = d) && decide (d ≠ 0)))) ∧
      Sends s t (.cas n (s.g d) (s.g b)) (s.g a) (p.frame + (va56 (s.g a) - p.base)) (isLocal s p) (regDest d)
        (isAcquire od || (od.map fun o => o.ford == 1).getD false) ∧
      OnlyRegisters s.core t.core ∧ OnlyAccess s t

/-- R114, R115, R252-R255: atomic operations and compare-and-swaps are sent to their homes. -/
def Obligations.Atomics : Prop := Claims.AtomicsSend ∧ Claims.CompareSwapSends

/-- R113: an atomic or a CAS on a page of another format traps with FORMAT, on a collective page or in the register-space
window with PROTECT, on a misaligned address with ALIGN. -/
def Obligations.AtomicFaults : Prop :=
  ∀ (i : Instr) (s : State) (n d a b : Nat) (od : Option Ord),
    ((∃ fn, atomicCode i = some (fn, n, d, a, b, od)) ∨ compareSwap i = some (n, d, a, b, od)) →
    i.wellFormed = true → AccessOpen s → Usable s [a, b, d] → EntersAtOnce s →
    ((s.g a).toNat % n ≠ 0 → ∃ t, exec i s = .next t ∧ Enters s t { code := 0x03, addr := s.g a } s.core.pc) ∧
    ((s.g a).toNat % n = 0 → inWindow (s.g a) = true →
      ∃ t, exec i s = .next t ∧ Enters s t { code := 0x05, addr := s.g a } s.core.pc) ∧
    (∀ p, (s.g a).toNat % n = 0 → OnPage s (s.g a) .both n p → p.coll ≠ 0 →
      ∃ t, exec i s = .next t ∧ Enters s t { code := 0x05, addr := s.g a } s.core.pc) ∧
    (∀ p, (s.g a).toNat % n = 0 → OnPage s (s.g a) .both n p → p.coll = 0 → p.fmt ≠ 0 → ¬ (n = 4 ∧ p.fmt = 3) →
      ∃ t, exec i s = .next t ∧ Enters s t { code := 0x06, addr := s.g a } s.core.pc)

/-- R117, R118: a vat instruction sends its operation once, with PAIR from bit 0 of its address operand, and waits at the head,
charged to MEMORY, or to CUEWAIT while parked; the reply's value and status then reach its registers with latency 1, or the
refusal of its home traps; set bits 5:1 of the operand trap with VAT. -/
def Obligations.VatInstructions : Prop :=
  ∀ (i : Instr) (s : State) (op : VatOp) (a : Nat) (x : Word) (vd sd : Option Nat) (od : Option Ord),
    vatForm s i = some (op, a, x, vd, sd, od) → i.wellFormed = true → AccessOpen s →
    (∀ r, s.core.vat = .done r → ∃ t u, Retires i s t (following i s) ∧ t.core.vat = .none ∧ OnlyCore s t ∧
      OnlyRegisters { s.core with vat := .none } t.core ∧
      u = (match vd with
        | some d => s.result 1 d r.val
        | none => s) ∧
      (∀ q, q < 32 → t.g q = (match sd with
        | some d => u.result 1 d r.status
        | none => u).g q)) ∧
    (∀ n, s.core.vat = .sent n → ∃ t, Waits i s t .memory) ∧
    (∀ n, s.core.vat = .parked n → ∃ t, Waits i s t .cueWait) ∧
    (∀ c, s.core.vat = .bad c → EntersAtOnce s → ∃ t, exec i s = .next t ∧ t.core.vat = .none ∧
      Enters s t { code := c, addr := if c = 0x13 then s.g a &&& ~~~63 else 0, mc := if c = 0x13 then 0x1FFFFC6 else 0 }
        s.core.pc) ∧
    (s.core.vat = .none → Usable s (vatSources i ++ vd.toList ++ sd.toList) → Writable s od →
      (∀ p, (s.g a).toNat / 2 % 32 = 0 → OnPage s (s.g a &&& ~~~63) .both 8 p → p.fmt = 0 → p.coll = 0 → Room s p true 1 →
        ∃ t, exec i s = .next t ∧ t.core.pc = s.core.pc ∧ t.core.charge = .memory ∧ t.core.g = s.core.g ∧
          t.core.vat = .sent s.sys.nextId ∧
          Sends s t (.vat op ((s.g a).getLsbD 0) x) (s.g a &&& ~~~63) (p.frame + (va56 (s.g a &&& ~~~63) - p.base))
            (isLocal s p) .vat (isAcquire od) ∧ OnlyAccess s t) ∧
      (∀ p, (s.g a).toNat / 2 % 32 ≠ 0 → OnPage s (s.g a &&& ~~~63) .both 8 p → p.fmt = 0 → p.coll = 0 →
        EntersAtOnce s → TrapsWith i s 0x15))

/-- R120: RCSNAP and RCREAD send one access to the hub that g[ra] names and mark g[rd] empty until its answer lands; a value that
names no hub present, or a part without route units, traps with ABSENT. -/
def Obligations.RouteCounters : Prop :=
  ∀ (s : State) (d a b : BitVec 5) (x y : Bool) (od : Option Ord), AccessOpen s → Usable s [a.toNat, b.toNat, d.toNat] →
    (Instr.rcread d a b x y od).wellFormed = true → Writable s od →
    (24 ≤ (s.g a.toNat).toNat ∧ (s.g a.toNat).toNat < 24 + (s.readCsr 0x000).toNat / 32 % 8 ∧
        (s.g a.toNat).toNat < 28 ∧ (s.readCsr 0x000).getLsbD 8 = true →
      (∃ t, Retires (.rcsnap d a x od) s t (following (.rcsnap d a x od) s) ∧
        Sends s t (.rcsnap (s.g a.toNat).toNat) 0 (0xF000000000000 + ((s.g a.toNat).toNat - 24) * 0x800000) none
          (regDest d.toNat) (isAcquire od) ∧ OnlyRegisters s.core t.core ∧ OnlyAccess s t ∧ t.core.g = s.core.g ∧
        t.emptyG d.toNat = decide (d ≠ 0)) ∧
      (∃ t, Retires (.rcread d a b x y od) s t (following (.rcread d a b x y od) s) ∧
        Sends s t (.rcread (s.g a.toNat).toNat (s.g b.toNat)) 0 (0xF000000000000 + ((s.g a.toNat).toNat - 24) * 0x800000)
          none (regDest d.toNat) (isAcquire od) ∧ OnlyRegisters s.core t.core ∧ OnlyAccess s t ∧ t.core.g = s.core.g ∧
        t.emptyG d.toNat = decide (d ≠ 0))) ∧
    (((s.g a.toNat).toNat < 24 ∨ 28 ≤ (s.g a.toNat).toNat ∨ (s.readCsr 0x000).getLsbD 8 = false ∨
        24 + (s.readCsr 0x000).toNat / 32 % 8 ≤ (s.g a.toNat).toNat ∧ (s.readCsr 0x000).toNat % 32 ≤ 24) → EntersAtOnce s →
      TrapsWith (.rcsnap d a x od) s 0x0F ∧ TrapsWith (.rcread d a b x y od) s 0x0F)

/-! ### Tiles, rings, allocators -/

/-- R121, R233: TNEW binds a handle with STATE empty, TFREE empties it, TSTATE reads it, TSETRDY makes it ready after the cell's
earlier writes, TWAIT waits, charged to TILE, until it has the state asked for. -/
def Obligations.TileInstructions : Prop :=
  ∀ (s : State) (d a b : BitVec 5) (x y : Bool) (h : Nat) (w : Word), Usable s [a.toNat, b.toNat, d.toNat] →
    (h = (s.g b.toNat).toNat → Bindable s h (s.g a.toNat) →
      ∃ t, RetiresPlain (.tnew a b x y) s t ∧ OnlyTiles s t ∧ TileIs s t h (s.g a.toNat) ∧ DropsReady s t h ∧
        t.cell.rings = s.cell.rings) ∧
    (h = (s.g a.toNat).toNat → h < 256 → w = Sparse.get s.cell.tiles h →
      (field w 24 24 ≠ 0 → field w 50 2 ≠ 1 → field w 50 2 ≠ 3 →
        ∃ t, RetiresPlain (.tfree a x) s t ∧ OnlyTiles s t ∧ TileIs s t h (withTileState w 0) ∧ DropsReady s t h ∧
          t.cell.rings = s.cell.rings) ∧
      WritesRegister (.tstate d a x) s 1 d.toNat w (following (.tstate d a x) s) ∧
      (field w 24 24 ≠ 0 → field w 50 2 ≠ 3 →
        ∃ t, RetiresPlain (.tsetrdy a x) s t ∧ OnlyTiles s t ∧ t.cell.tiles = s.cell.tiles ∧ PendsReady s t h false ∧
          t.cell.rings = s.cell.rings) ∧
      (field w 24 24 ≠ 0 → field w 50 2 = (s.g b.toNat).toNat % 4 →
        ∃ t, RetiresPlain (.twait a b x y) s t ∧ OnlyCore s t) ∧
      (field w 24 24 ≠ 0 → field w 50 2 ≠ (s.g b.toNat).toNat % 4 → ∃ t, Waits (.twait a b x y) s t .tile))

/-- R121: what traps with TILE. -/
def Obligations.TileFaults : Prop :=
  ∀ (s : State) (d a b : BitVec 5) (x y : Bool) (w : Word), Usable s [a.toNat, b.toNat, d.toNat] → EntersAtOnce s →
    (¬ Bindable s (s.g b.toNat).toNat (s.g a.toNat) → TrapsWith (.tnew a b x y) s 0x0C) ∧
    (256 ≤ (s.g a.toNat).toNat → TrapsWith (.tfree a x) s 0x0C ∧ TrapsWith (.tstate d a x) s 0x0C ∧
      TrapsWith (.tsetrdy a x) s 0x0C ∧ TrapsWith (.twait a b x y) s 0x0C) ∧
    ((s.g a.toNat).toNat < 256 → w = Sparse.get s.cell.tiles (s.g a.toNat).toNat →
      (field w 24 24 = 0 ∨ field w 50 2 = 1 ∨ field w 50 2 = 3 → TrapsWith (.tfree a x) s 0x0C) ∧
      (field w 24 24 = 0 ∨ field w 50 2 = 3 → TrapsWith (.tsetrdy a x) s 0x0C) ∧
      (field w 24 24 = 0 → TrapsWith (.twait a b x y) s 0x0C))

/-- R122: RGSET sets a ring; RWFILL, RWFREE and RCLAIM wait, charged to RINGWAIT, on the state of its tile at HEAD or TAIL and
give the handle; RCLAIM also moves the pointer, the claim and the tile's state. -/
def Sys2Proof.Claims.RingInstructions : Prop :=
  ∀ (s : State) (d n b : BitVec 5) (y : Bool) (r : Ring), n.toNat < 16 → s.cell.rings[n.toNat]? = some r →
    Usable s [b.toNat, d.toNat] →
    (field (s.g b.toNat) 8 8 ≠ 0 → field (s.g b.toNat) 0 8 + field (s.g b.toNat) 8 8 ≤ 256 →
      (s.g b.toNat).toNat < 2 ^ 16 → r.pclaim = 0 → r.cclaim = 0 →
      ∃ t, RetiresPlain (.rgset n b y) s t ∧ OnlyTiles s t ∧ t.cell.tiles = s.cell.tiles ∧ t.cell.ready = s.cell.ready ∧
        RingIs s t n.toNat { set := true, base := field (s.g b.toNat) 0 8, count := field (s.g b.toNat) 8 8, head := 0
                             tail := 0, pclaim := 0, cclaim := 0 }) ∧
    (r.set = true → ∀ (hd tl : Word), hd = Sparse.get s.cell.tiles (r.base + r.head) →
      tl = Sparse.get s.cell.tiles (r.base + r.tail) →
      (field hd 50 2 = 2 →
        WritesRegister (.rwfill d n) s 1 d.toNat (BitVec.ofNat 64 (r.base + r.head)) (following (.rwfill d n) s) ∧
        ∃ t, RetiresInto (.rclaim d n 0) s t d.toNat (BitVec.ofNat 64 (r.base + r.head)) ∧ OnlyTiles s t ∧
          TileIs s t (r.base + r.head) (withTileState hd 3) ∧ DropsReady s t (r.base + r.head) ∧
          RingIs s t n.toNat { r with head := (r.head + 1) % r.count, cclaim := r.cclaim + 1 }) ∧
      (field hd 50 2 ≠ 2 → (∃ t, Waits (.rwfill d n) s t .ringWait) ∧ ∃ t, Waits (.rclaim d n 0) s t .ringWait) ∧
      (field tl 50 2 = 0 →
        WritesRegister (.rwfree d n) s 1 d.toNat (BitVec.ofNat 64 (r.base + r.tail)) (following (.rwfree d n) s) ∧
        ∃ t, RetiresInto (.rclaim d n 1) s t d.toNat (BitVec.ofNat 64 (r.base + r.tail)) ∧ OnlyTiles s t ∧
          TileIs s t (r.base + r.tail) (withTileState tl 1) ∧ t.cell.ready = s.cell.ready ∧
          RingIs s t n.toNat { r with tail := (r.tail + 1) % r.count, pclaim := r.pclaim + 1 }) ∧
      (field tl 50 2 ≠ 0 → (∃ t, Waits (.rwfree d n) s t .ringWait) ∧ ∃ t, Waits (.rclaim d n 1) s t .ringWait))

/-- R122, R233: RRELEASE gives back the oldest claim of its side: the producer's tile becomes ready after the cell's earlier
writes, the consumer's becomes empty; without a claim, and on a ring never set, the ring instructions trap with RING. -/
def Sys2Proof.Claims.RingRelease : Prop :=
  ∀ (s : State) (d n : BitVec 5) (r : Ring), n.toNat < 16 → s.cell.rings[n.toNat]? = some r →
    (0 < r.pclaim → r.pclaim ≤ r.count → r.tail < r.count →
      ∃ t, RetiresPlain (.rrelease n 1) s t ∧ OnlyTiles s t ∧ t.cell.tiles = s.cell.tiles ∧
        PendsReady s t (r.base + (r.tail + r.count - r.pclaim) % r.count) true ∧
        RingIs s t n.toNat { r with pclaim := r.pclaim - 1 }) ∧
    (0 < r.cclaim → r.cclaim ≤ r.count → r.head < r.count → ∀ h, h = r.base + (r.head + r.count - r.cclaim) % r.count →
      ∃ t, RetiresPlain (.rrelease n 0) s t ∧ OnlyTiles s t ∧
        TileIs s t h (withTileState (Sparse.get s.cell.tiles h) 0) ∧ t.cell.ready = s.cell.ready ∧
        RingIs s t n.toNat { r with cclaim := r.cclaim - 1 }) ∧
    (EntersAtOnce s → (r.pclaim = 0 → TrapsWith (.rrelease n 1) s 0x0B) ∧ (r.cclaim = 0 → TrapsWith (.rrelease n 0) s 0x0B)) ∧
    (EntersAtOnce s → Usable s [d.toNat] → r.set = false → TrapsWith (.rwfill d n) s 0x0B ∧
      TrapsWith (.rwfree d n) s 0x0B ∧ TrapsWith (.rclaim d n 0) s 0x0B ∧ TrapsWith (.rclaim d n 1) s 0x0B)

/-- R122, R233: the ring instructions and the release of slots. -/
def Obligations.Rings : Prop := Claims.RingInstructions ∧ Claims.RingRelease

/-- R123: the allocator instructions on an allocator a of a store of size S, with request sizes rounded up to 64 bytes. -/
def Sys2Proof.Claims.AllocatorInstructions : Prop :=
  ∀ (s : State) (d p b : BitVec 5) (y : Bool) (a : Alloc) (size n : Nat), p.toNat < 3 → s.cell.allocs[p.toNat]? = some a →
    Usable s [b.toNat, d.toNat] → size = storeSize p.toNat → n = ((s.g b.toNat).toNat + 63) / 64 * 64 →
    (a.bump + n ≤ a.rbase → ∃ t, RetiresInto (.abump d p b y) s t d.toNat (BitVec.ofNat 64 a.bump) ∧ OnlyAllocs s t ∧
      AllocIs s t p.toNat { a with bump := a.bump + n }) ∧
    WritesRegister (.amark d p) s 1 d.toNat (BitVec.ofNat 64 a.bump) (following (.amark d p) s) ∧
    ((s.g b.toNat).toNat ≤ a.bump → (s.g b.toNat).toNat % 64 = 0 →
      ∃ t, RetiresPlain (.arelmark p b y) s t ∧ OnlyAllocs s t ∧
        AllocIs s t p.toNat { a with bump := (s.g b.toNat).toNat }) ∧
    (n = 0 → WritesRegister (.aring d p b y) s 1 d.toNat (BitVec.ofNat 64 a.rhead) (following (.aring d p b y) s)) ∧
    (n ≠ 0 → ∀ at' waste, at' = (if size < a.rhead + n then a.rbase else a.rhead) →
      waste = (if size < a.rhead + n then size - a.rhead else 0) → n ≤ size - a.rbase →
      a.rlive + waste + n ≤ size - a.rbase →
      ∃ t, RetiresInto (.aring d p b y) s t d.toNat (BitVec.ofNat 64 at') ∧ OnlyAllocs s t ∧
        AllocIs s t p.toNat { a with
          rlive := a.rlive + waste + n, rhead := if at' + n = size then a.rbase else at' + n }) ∧
    (∀ x e, x = (s.g b.toNat).toNat → e = (if x = a.rhead then a.rlive else
        (((x : Int) - a.rtail) % ((size - a.rbase : Nat) : Int)).toNat) → a.rbase ≤ x → x < size → x % 64 = 0 →
      e ≤ a.rlive → ∃ t, RetiresPlain (.afree p b y) s t ∧ OnlyAllocs s t ∧
        AllocIs s t p.toNat { a with rtail := x, rlive := a.rlive - e }) ∧
    (∀ (w : BitVec 5) v, (w.toNat, v) ∈ [(0, a.bump), (1, a.rbase), (2, a.rhead), (3, a.rtail), (4, a.rlive)] →
      WritesRegister (.astate d p w) s 1 d.toNat (BitVec.ofNat 64 v) (following (.astate d p w) s))

/-- R123, R206: where the request does not fit or the offset is not allowed, the allocator instructions trap with EXHAUST and its
frame. -/
def Sys2Proof.Claims.AllocatorExhausts : Prop :=
  ∀ (s : State) (d p b : BitVec 5) (y : Bool) (a : Alloc) (size n : Nat), p.toNat < 3 → s.cell.allocs[p.toNat]? = some a →
    Usable s [b.toNat, d.toNat] → EntersAtOnce s → size = storeSize p.toNat →
    n = ((s.g b.toNat).toNat + 63) / 64 * 64 →
    (a.rbase < a.bump + n → Exhausts (.abump d p b y) s p.toNat n a) ∧
    (a.bump < (s.g b.toNat).toNat ∨ (s.g b.toNat).toNat % 64 ≠ 0 → Exhausts (.arelmark p b y) s p.toNat 0 a) ∧
    (n ≠ 0 → size - a.rbase < n ∨
        size - a.rbase < a.rlive + (if size < a.rhead + n then size - a.rhead else 0) + n →
      Exhausts (.aring d p b y) s p.toNat n a) ∧
    ((s.g b.toNat).toNat < a.rbase ∨ size ≤ (s.g b.toNat).toNat ∨ (s.g b.toNat).toNat % 64 ≠ 0 →
      Exhausts (.afree p b y) s p.toNat (s.g b.toNat).toNat a)

/-- R123, R236: the allocator instructions, and exhaustion. -/
def Obligations.Allocators : Prop := Claims.AllocatorInstructions ∧ Claims.AllocatorExhausts

/-! ### The cue board, fences, barriers, LEND and LATLD -/

/-- R42, R124, R216: QADD adds to a counter once every earlier write to register space and the stores has been performed, and
waits till then, charged to ORDERWAIT; terms and engines of this clk read the value before; QREAD reads; QWAIT waits,
charged to CUEWAIT, until the counter has reached g[ra] modulo 2^32. -/
def Sys2Proof.Claims.CueInstructions : Prop :=
  ∀ (s : State) (d a : BitVec 5) (n : BitVec 6), Usable s [a.toNat, d.toNat] → Sparse.get s.csr 0x0C0 = 0 →
    (s.core.inflight = [] → s.core.posted = [] → s.coreReplies.all (fun r => r.dest == .none) = true →
        s.coreReqs.all (fun r => r.dest == .none || !r.op.reads) = true →
      ∃ t, Retires (.qadd a n) s t (following (.qadd a n) s) ∧ Counts s t n.toNat ((s.g a.toNat).setWidth 32) 0 ∧
        (s.core.qOld = none → ∀ m, m < 64 → t.cueSeen m = s.cue m) ∧
        OnlyRegisters { s.core with q := t.core.q, qOld := t.core.qOld } t.core ∧ t.core.g = s.core.g ∧
        t = { s with core := t.core, cell := { s.cell with bumps := t.cell.bumps }, acct := { s.acct with occur := t.acct.occur } }) ∧
    (s.core.inflight ≠ [] ∨ s.core.posted ≠ [] → ∃ t, Waits (.qadd a n) s t .orderWait) ∧
    WritesRegister (.qread d n) s 1 d.toNat ((s.cue n.toNat).setWidth 64) (following (.qread d n) s) ∧
    ((s.cue n.toNat - (s.g a.toNat).setWidth 32).toNat < 2 ^ 31 →
      ∃ t, RetiresPlain (.qwait a n) s t ∧ OnlyCore s t) ∧
    (2 ^ 31 ≤ (s.cue n.toNat - (s.g a.toNat).setWidth 32).toNat → ∃ t, Waits (.qwait a n) s t .cueWait)

/-- R124, R215, R219, R228: QTERM takes the eight words of a term from the weight store, whose port it asks for; a reserved bit
set traps with ILLEGAL; the evaluation of this clk uses the old term. -/
def Sys2Proof.Claims.TermDefinition : Prop :=
  ∀ (s : State) (a : BitVec 5) (n : BitVec 4) (ws : List Word), Usable s [a.toNat] → AccessOpen s →
    (s.g a.toNat).toNat % 64 = 0 → InStore s 0 (s.g a.toNat) 64 →
    ws = (List.range 8).map (fun j => BitVec.ofNat 64 (Memory.readLE (seen s 0) ((s.g a.toNat).toNat + 8 * j) 8)) →
    ((ws.take 7).all (fun w => w.toNat < 2 ^ 41) = true ∧ (ws[7]?.getD 0).toNat < 2 ^ 15 →
      ∃ t, Retires (.qterm a n) s t (following (.qterm a n) s) ∧
        (∀ k, Sparse.get t.cell.terms k = if 8 * n.toNat ≤ k ∧ k < 8 * n.toNat + 8 then ws[k - 8 * n.toNat]?.getD 0
          else Sparse.get s.cell.terms k) ∧
        t.core.termOld = some (n.toNat, (List.range 8).map fun j => Sparse.get s.cell.terms (8 * n.toNat + j)) ∧
        AsksPort s t 0 [] ∧ OnlyRegisters { s.core with termOld := t.core.termOld, posted := t.core.posted } t.core ∧
        t.core.g = s.core.g ∧ t = { s with core := t.core, cell := { s.cell with terms := t.cell.terms } }) ∧
    (((ws.take 7).all (fun w => w.toNat < 2 ^ 41) = false ∨ 2 ^ 15 ≤ (ws[7]?.getD 0).toNat) → EntersAtOnce s →
      TrapsWith (.qterm a n) s 0x01)

/-- R124, R125, R214-R216, R219: the cue counters and terms. -/
def Obligations.CueBoard : Prop := Claims.CueInstructions ∧ Claims.TermDefinition

/-- R126, R259: FENCE without an order waits, charged to ORDERWAIT, until every access made before it has been performed; with an
order it retires: its acquire side makes later accesses wait for earlier loads, and its release side makes later writes wait,
charged to ORDERWAIT, for what its scope asks. -/
def Obligations.Fences : Prop :=
  ∀ (s : State) (od : Option Ord), (Instr.fence od).wellFormed = true →
    (∀ n, ordOrder od = 0 → n = s.core.fenceId.getD s.sys.nextId →
      (s.allDone s.clk n = true → ∃ t, RetiresPlain (.fence od) s t ∧ OnlyCore s t) ∧
      (s.allDone s.clk n = false → ∃ t, Waits (.fence od) s t .orderWait ∧ t.core.fenceId = some n)) ∧
    (ordOrder od ≠ 0 → ∃ t, Retires (.fence od) s t (following (.fence od) s) ∧ AcquireSide s t od ∧
      KeepsCore (s.setCore { s.core with relFences := t.core.relFences }) t ∧
      t = { s with core := t.core, sys := t.sys, fab := t.fab } ∧
      (isRelease od = false → t.core.relFences = s.core.relFences) ∧
      (isRelease od = true → { scope := ordScope od, clk := s.clk, id := s.sys.nextId } ∈ t.core.relFences ∧
        ∀ f, f ∈ s.core.relFences → s.releasedAt f.scope f.clk f.id = false → f ∈ t.core.relFences)) ∧
    (∀ i n d m o, scalarStore i = some (n, d, m, o) → i.wellFormed = true → m.sp ≠ 3 → AccessOpen s →
      Usable s (operandRegs m d) → (s.address m (scaleOf n)).toNat % n = 0 →
      (s.address m (scaleOf n)).toNat + n ≤ 0x200000 → s.fencesOpen = false → ∃ t, Waits i s t .orderWait)

/-- R127: BARARR arrives and returns the generation; BARWAIT waits, charged to BARRIER, until the generation exceeds g[rb];
BARSYNC arrives, waits for that generation, and does not arrive again. -/
def Obligations.Barriers : Prop :=
  ∀ (s : State) (d n b : BitVec 5) (y : Bool) (od : Option Ord) (m : Nat), (Instr.bararr d n od).wellFormed = true →
    m = n.toNat → Usable s [b.toNat, d.toNat] → Released s od →
    ((s.bar m).arrived.getLsbD s.cell.rank = false →
      (∃ t, RetiresInto (.bararr d n od) s t d.toNat (BitVec.ofNat 64 (s.bar m).gen) ∧ AcquireSide s t od ∧
        OnlyBarriers s t ∧ (∀ k, k < 16 → t.bar k = if k = m then arrivedAt s m else s.bar k)) ∧
      (s.core.barsync = none →
        ((arrivedAt s m).gen = (s.bar m).gen + 1 → ∃ t, RetiresPlain (.barsync n od) s t ∧ AcquireSide s t od ∧
          OnlyBarriers s t ∧ t.bar m = arrivedAt s m) ∧
        ((arrivedAt s m).gen = (s.bar m).gen → ∃ t, exec (.barsync n od) s = .next t ∧ t.core.pc = s.core.pc ∧
          t.core.charge = .barrier ∧ t.core.barsync = some (s.core.pc, m, (s.bar m).gen) ∧ t.bar m = arrivedAt s m ∧
          t.core.g = s.core.g))) ∧
    ((s.bar m).arrived.getLsbD s.cell.rank = true → ∃ t, Waits (.bararr d n od) s t .barrier) ∧
    (∀ g, s.core.barsync = some (s.core.pc, m, g) →
      (g < (s.bar m).gen → ∃ t, RetiresPlain (.barsync n od) s t ∧ AcquireSide s t od ∧ OnlyBarriers s t ∧
        t.cell.bars = s.cell.bars) ∧
      ((s.bar m).gen ≤ g → ∃ t, Waits (.barsync n od) s t .barrier)) ∧
    ((s.g b.toNat).toNat < (s.bar m).gen → ∃ t, RetiresPlain (.barwait n b y od) s t ∧ AcquireSide s t od ∧
      OnlyBarriers s t ∧ t.cell.bars = s.cell.bars) ∧
    ((s.bar m).gen ≤ (s.g b.toNat).toNat → ∃ t, Waits (.barwait n b y od) s t .barrier)

/-- R49, R128: LEND to the slot a bank already has changes nothing; otherwise it sets the bank's bit of BANKBIND, unless a result
is in flight toward the bank, where it traps with LEND. -/
def Obligations.BankLending : Prop :=
  ∀ (s : State) (k p : BitVec 5), k.toNat < 12 → p.toNat < 2 →
    ((s.readCsr 0x013).getLsbD k.toNat = decide (p.toNat = 1) → ∃ t, RetiresPlain (.lend k p) s t ∧ OnlyCore s t) ∧
    ((s.readCsr 0x013).getLsbD k.toNat = !decide (p.toNat = 1) →
      (s.bankBusy k.toNat = false → ∃ t, RetiresPlain (.lend k p) s t ∧ OnlyCsr s t 0x013 ∧
        ∀ j, j < 64 → (t.readCsr 0x013).getLsbD j =
          if j = k.toNat then decide (p.toNat = 1) else (s.readCsr 0x013).getLsbD j) ∧
      (s.bankBusy k.toNat = true → EntersAtOnce s → TrapsWith (.lend k p) s 0x09))

/-- R29, R129: LATLD sends the read of its table; it waits, charged to ORDERWAIT, while a matrix entry reads the slot, and, once
sent, charged to MEMORY, until the table has arrived and no vector load decodes with the slot; then its 256 words fill the
slot, or an uncorrectable line traps with MACHINE. A misaligned address traps with ALIGN, a page of another format with
FORMAT, a part without LAT2 with ABSENT. -/
def Obligations.TableLoad : Prop :=
  ∀ (s : State) (a p : BitVec 5) (x : Bool) (i : Instr), p.toNat < 4 → i = .latld a p x →
    (∀ va g, va = s.g a.toNat → AccessOpen s → Usable s [a.toNat] → s.core.latWait = none →
      (s.hasLat2 = true → va.toNat % 64 = 0 → OnPage s va .read 1024 g →
        (g.fmt = 0 → g.coll ≠ 3 → Room s g false 1 → s.running.all (fun e => !e.usesSlot p.toNat) = true →
          ∃ t, exec i s = .next t ∧ t.core.pc = s.core.pc ∧ t.core.charge = .memory ∧ TableAsked t p.toNat 1 ∧
            t.core.g = s.core.g ∧ t.core.gEmpty = s.core.gEmpty ∧ t.core.inflight = s.core.inflight ∧
            Sends s t (.load 1024) va (g.frame + (va56 va - g.base)) (isLocal s g) (.table 0) false ∧ OnlyAccess s t) ∧
        (g.fmt = 0 → g.coll ≠ 3 → s.running.any (fun e => e.usesSlot p.toNat) = true → ∃ t, Waits i s t .orderWait) ∧
        (g.fmt ≠ 0 ∨ g.coll = 3 → EntersAtOnce s →
          ∃ t, exec i s = .next t ∧ Enters s t { code := 0x06, addr := va } s.core.pc)) ∧
      (s.hasLat2 = true → va.toNat % 64 ≠ 0 → EntersAtOnce s →
        ∃ t, exec i s = .next t ∧ Enters s t { code := 0x03, addr := va } s.core.pc) ∧
      (s.hasLat2 = false → EntersAtOnce s → TrapsWith i s 0x0F)) ∧
    (∀ w, s.core.latWait = some w →
      (w.got.length < w.need → ∃ t, Waits i s t .memory) ∧
      (w.need ≤ w.got.length → w.bad = [] → SlotInUse s w.slot → ∃ t, Waits i s t .memory) ∧
      (w.need ≤ w.got.length → w.bad = [] → ¬ SlotInUse s w.slot →
        ∃ t, Retires i s t (following i s) ∧ KeepsCore (s.setCore { s.core with latWait := none }) t ∧
          t = { s with core := t.core, cell := { s.cell with lat2 := t.cell.lat2 } } ∧
          ∀ k, Sparse.get t.cell.lat2 k = if 256 * w.slot ≤ k ∧ k < 256 * w.slot + 256 then
            BitVec.ofNat 32 (numOfBytes (((w.got.map Prod.snd).flatten.drop (4 * (k - 256 * w.slot))).take 4))
            else Sparse.get s.cell.lat2 k) ∧
      (∀ b bs, w.need ≤ w.got.length → w.bad = b :: bs → EntersAtOnce s →
        ∃ t, exec i s = .next t ∧ t.core.latWait = none ∧
          Enters s t { code := 0x13, addr := b, mc := 0x1FFFFC6 } s.core.pc))

/-! ### Engine queues: ENQ, END, accounts -/

/-- R69, R152, R153, R228: ENQW, ENQG and ENQM place one word, up to four of g[ra], or up to 32 of a store, whose port is asked
for, at the tail of a queue. -/
def Obligations.Enqueue : Prop :=
  ∀ (s : State) (q : BitVec 5) (v : Queue), q.toNat < 13 → s.cell.queues[q.toNat]? = some v → Acquired s →
    (∀ w, Enqueues (.enqw q w) s q.toNat v [w] []) ∧
    (∀ (n : BitVec 2) (a : BitVec 5), (Instr.enqg q n a).wellFormed = true → Usable s [a.toNat] →
      Enqueues (.enqg q n a) s q.toNat v
        ((List.range (n.toNat + 1)).map fun j => BitVec.ofNat 16 ((s.g a.toNat).toNat / 2 ^ (16 * j))) []) ∧
    (∀ (n a : BitVec 5) (p : BitVec 2), p.toNat < 3 → Usable s [a.toNat] → (s.g a.toNat).toNat % 2 = 0 →
      InStore s p.toNat (s.g a.toNat) (2 * (n.toNat + 1)) →
      Enqueues (.enqm q n p a) s q.toNat v ((List.range (n.toNat + 1)).map fun j =>
          BitVec.ofNat 16 (Memory.readLE (seen s p.toNat) ((s.g a.toNat).toNat + 2 * j) 2))
        [{ st := p.toNat, clk := s.clk, enq := s.cell.enqNo, parts := [], row := none }])

/-- R91, R127, R152, R221: END waits for the core's results toward register space and the g registers, charged to SCOREBOARD or
MEMORY; when it retires the cell has ended and counts as arrived, open entries are dropped, complete ones stay, armed entries
are disarmed, and the frames of a handler are discarded. -/
def Sys2Proof.Claims.EndOfCell : Prop :=
  ∀ s : State,
    (s.core.inflight = [] → s.coreReplies.all (fun r => !r.dest.inRegs) = true →
        s.coreReqs.all (fun r => !r.dest.inRegs) = true →
      ∃ t, Retires .endI s t (s.core.pc + 4) ∧ t.core.status = .ended ∧
        t.cell.endedRanks = s.cell.endedRanks ||| ((1 : Word) <<< s.cell.rank) ∧ t.core.g = s.core.g ∧ t.mem = s.mem ∧
        t.readCsr 0x040 = s.readCsr 0x040 &&& ~~~3 ∧ (∀ n, n ≠ 0x040 → t.readCsr n = s.readCsr n) ∧
        t.cell.fx = (if s.readCsr 0x040 &&& 3 = 0 then s.cell.fx else []) ∧ t.core.frameBar = [] ∧ t.cell.tiles = s.cell.tiles ∧
        ∀ q v, s.cell.queues[q]? = some v → ∃ u, t.cell.queues[q]? = some u ∧ u.run = v.run ∧ u.stack = v.stack ∧
          u.fault = v.fault ∧ (∀ e, e ∈ u.armed → e.disarm = true) ∧ u.words <+: v.words ∧
          (v.inChain = false → (∀ w, w ∈ v.words → ends w.w = false) → u.words = []) ∧
          (v.inChain = false → v.words.length ≤ 256 → openWords (v.words.map EWord.w) = 0 →
            (q = 0 ∨ 8 < q ∨ ∀ w, w ∈ v.words → w.w.getLsbD 5 = false) → u.words = v.words)) ∧
    (s.core.inflight ≠ [] → ∃ t, Waits .endI s t .scoreboard) ∧
    (s.core.inflight = [] → s.coreReplies.all (fun r => !r.dest.inRegs) = false ∨
        s.coreReqs.all (fun r => !r.dest.inRegs) = false → ∃ t, Waits .endI s t .memory)

/-- R101, R102: ACCRD and ENRGRD return a counter of the cell, its sum or 0, by the index in g[ra]; without tracing TMARK only
retires. -/
def Sys2Proof.Claims.AccountReads : Prop :=
  ∀ (s : State) (d a : BitVec 5) (x : Bool) (n : Nat), Usable s [a.toNat, d.toNat] → Sparse.get s.csr 0x0C0 = 0 →
    n = (s.g a.toNat).toNat →
    WritesRegister (.accrd d a x) s 1 d.toNat
      (if n < 100 then Sparse.get s.acct.cnt n else if n = 100 then s.acct.elapsed else 0) (following (.accrd d a x) s) ∧
    WritesRegister (.enrgrd d a x) s 1 d.toNat
      (if n < 32 then Sparse.get s.acct.energy n
        else if n = 32 then BitVec.ofNat 64 (((List.range 32).map fun j => (Sparse.get s.acct.energy j).toNat).sum) else 0)
      (following (.enrgrd d a x) s) ∧
    ∃ t, RetiresPlain (.tmark a x) s t ∧ OnlyCore s t

/-- R91, R100, R101, R344-R348: the end of a cell, and the account instructions. -/
def Obligations.EndAndAccounts : Prop := Claims.EndOfCell ∧ Claims.AccountReads

/-! ### Engine words -/

/-- R70, R155, R156, R162, R163: what each stack word makes of the entry's stack; too few values or more than eight fault with
STACK, and then an argument beyond its range with ILLEGAL. Behind a control word that has not completed a word stays, charged
to ORDERWAIT (R185), and behind a chained entry that has not started, charged to MEMORY (R154). -/
def Obligations.StackWords : Prop :=
  ∀ (i : Instr) (s : State) (v : Queue) (w last : EWord) (ok : Bool) (r : Option (List Word)), AtHead s v w last →
    stackRow s (stackOf v) i = some (ok, r) →
    (v.inChain = true ∨ (NoneChained s v ∧ ∀ e, e ∈ v.run → Instr.isControl e.op = false) →
      (∀ st, r = some st → st.length ≤ 8 → ok = true → ∃ t, exec i s = .next t ∧ WordIssues s t v w last st) ∧
      ((∀ st, r = some st → 8 < st.length) → FaultsAt i s v last 0x0E) ∧
      (∀ st, r = some st → st.length ≤ 8 → ok = false → FaultsAt i s v last 0x01)) ∧
    (v.inChain = false → (∃ e, e ∈ v.run ∧ Instr.isControl e.op = true) → ∃ t, exec i s = .next t ∧
      Charged s t last .orderWait ∧ t = { s with acct := { s.acct with eng := t.acct.eng } }) ∧
    (v.inChain = false → (∀ e, e ∈ v.run → Instr.isControl e.op = false) → ¬ NoneChained s v → ∃ t, exec i s = .next t ∧
      Charged s t last .memory ∧ t = { s with acct := { s.acct with eng := t.acct.eng } })

/-- R156, R185-R189: a control word that may start pops its value and starts its entry; a MASK or THRESH beyond its field
faults with ILLEGAL, a stack of another depth with STACK; behind another control word it stays, charged to ORDERWAIT, and
behind a gate, charged to CUEWAIT. -/
def Obligations.ControlWords : Prop :=
  ∀ (i : Instr) (s : State) (v : Queue) (last : EWord) (n : Nat) (fin : Bool) (ok : Word → Bool),
    controlRow i = some (n, fin, ok) → Sparse.get s.csr 0x0C0 = 0 →
    (MayBegin s v last →
      (v.stack.length = n → ok (v.stack.head?.getD 0) = true →
        ∃ t e, Starts i s t v last e ∧ e.fin = (if fin then some s.clk else none) ∧ e.fill = [] ∧ e.drain = [] ∧
          OnlyQueues s t) ∧
      (v.stack.length = n → ok (v.stack.head?.getD 0) = false → FaultsAt i s v last 0x01) ∧
      (v.stack.length ≠ n → FaultsAt i s v last 0x0E)) ∧
    (AtHead s v last last → v.inChain = false → (s.gated s.actq = true ∨ v.gateWait = 0) →
      (∃ e, e ∈ v.run ∧ Instr.isControl e.op = true) → StaysAtHead i s v last .orderWait) ∧
    (AtHead s v last last → v.inChain = false → (∀ e, e ∈ v.run → Instr.isControl e.op = false) → NoneChained s v →
      EngineFree s v → s.gated s.actq = true →
      ∃ t, exec i s = .next t ∧ QueueIs s t s.actq { v with waited := v.waited + 1, gateWait := v.gateWait + 1 } ∧
        Charged s t last .cueWait ∧ OnlyQueues s t)

/-- R156, R165-R173, R176, R227, R238: the matrix launch words. -/
def Sys2Proof.Claims.MatrixWords : Prop :=
  ∀ (i : Instr) (s : State) (v : Queue) (last : EWord),
    (MayBegin s v last →
      (∀ n ok e0 p, passRow i = some (n, ok) → e0 = s.newEntry i → p = v.stack.reverse[0]?.getD 0 →
        (v.stack.length = n → ok = true → firstBad (s.passChecks e0) = none → s.cell.rspErr = [] →
          (field p 4 20 ≠ 0 → (passArg i).a = 0 → field (tileAt s (field (e0.vals[1]?.getD 0) 0 8)) 50 2 = 2) →
          (field p 4 20 ≠ 0 → (passArg i).b = 0 → field (tileAt s (field (e0.vals[2]?.getD 0) 0 8)) 50 2 = 2) →
          (∀ g, g < e0.blocks → AccumBound s (field p 0 4 + g)) →
          (∀ l, s.core.latWait = some l → e0.usesSlot l.slot = true → StaysAtHead i s v last .orderWait) ∧
          (s.core.latWait = none → ¬ AccumFull s (field p 0 4) e0.blocks → StaysAtHead i s v last .emptyWait) ∧
          (s.core.latWait = none → AccumFull s (field p 0 4) e0.blocks → ∃ t e, Starts i s t v last e ∧
            (field p 4 20 = 0 → (passArg i).a ≠ 1 → (passArg i).b ≠ 1 → (passArg i).seg = false →
              e.start.ready = true ∧ e.fin = some s.clk) ∧
            ((passArg i).zero = true → (passArg i).a ≠ 1 → (passArg i).b ≠ 1 → (passArg i).seg = false →
              ∀ w, accumWord s (field p 0 4) ≤ w → w < accumWord s (field p 0 4) + 2048 → Sparse.get t.cell.rsp w = 0))) ∧
        (v.stack.length = n → ok = true → ∀ c, firstBad (s.passChecks e0) = some (c, 0) → FaultsAt i s v last c) ∧
        (v.stack.length = n → ok = false → FaultsAt i s v last 0x01) ∧
        (v.stack.length ≠ n → FaultsAt i s v last 0x0E)) ∧
      (∀ n, i = .mzero → v.stack = [n] →
        (n.toNat ≤ 15 → AccumBound s n.toNat → ¬ AccumFull s n.toNat 1 → StaysAtHead i s v last .emptyWait) ∧
        (n.toNat ≤ 15 → AccumBound s n.toNat → AccumFull s n.toNat 1 → ∃ t e, Starts i s t v last e ∧ e.fin = some s.clk ∧
          ∀ w, Sparse.get t.cell.rsp w =
            if accumWord s n.toNat ≤ w ∧ w < accumWord s n.toNat + 2048 then 0 else Sparse.get s.cell.rsp w) ∧
        (15 < n.toNat → FaultsAt i s v last 0x10) ∧ (n.toNat ≤ 15 → ¬ AccumBound s n.toNat → FaultsAt i s v last 0x09)) ∧
      (∀ c d m n h, i = .mdrain c d m → v.stack = [h, n] → m.toNat ≠ 3 → (d = true → m.toNat = 1) → n.toNat ≤ 15 →
        (c = true → AccumBound s n.toNat ∧ AccumFull s n.toNat 1) →
        (d = false → h.toNat < 256 → field (tileAt s h.toNat) 48 2 = 2 →
          (if m.toNat = 1 then 4096 else 8192) ≤ field (tileAt s h.toNat) 24 24 →
          (field (tileAt s h.toNat) 50 2 = (if m.toNat = 2 then 2 else 0) →
            ∃ t e, Starts i s t v last e ∧ e.fin = none ∧ e.fill = [h.toNat] ∧ OnlyEntry s t ∧
              TileIs s t h.toNat (withTileState (tileAt s h.toNat) 1)) ∧
          (field (tileAt s h.toNat) 50 2 ≠ (if m.toNat = 2 then 2 else 0) → StaysAtHead i s v last .tile)) ∧
        (d = true → h.toNat ≤ 14 → ∀ o, o = 2048 * ((s.readCsr 0x011).toNat % 128) + 2048 * h.toNat →
          (s.readCsr 0x013).getLsbD (o / 16384) = true → (s.readCsr 0x013).getLsbD ((o + 4095) / 16384) = true →
          (s.anyEmpty (o / 4) 1024 = true → StaysAtHead i s v last .emptyWait) ∧
          (s.anyEmpty (o / 4) 1024 = false → ∃ t e, Starts i s t v last e ∧ e.fin = none ∧ t.cell.tiles = s.cell.tiles ∧
            ∀ w, t.emptyWord w = (s.emptyWord w || (decide (o / 4 ≤ w) && decide (w < o / 4 + 1024))))))) ∧
    (∀ n ok, (passRow i = some (n, ok) ∨ (∃ c d m, i = .mdrain c d m ∧ n = 2 ∧ ok = (m != 3 && (!d || m == 1))) ∨
        (i = .mzero ∧ n = 1 ∧ ok = true)) →
      AtHead s v last last → v.inChain = true → v.chain.length = n → ok = true → KeptChained i s v last)

/-- R156, R174-R179: the copy launch words. -/
def Sys2Proof.Claims.CopyWords : Prop :=
  ∀ (s : State) (v : Queue) (last : EWord),
    (∀ f c n p d, MayBegin s v last → v.stack = [n, p, d] → n.toNat < 2 ^ 40 →
      PlaceFine s p n.toNat [0, 1, 2] → PlaceFine s d n.toNat [0, 1, 2] → (f = true → field p 62 2 = 2) →
      (PlaceIn s p 2 → PlaceIn s d 0 → ∃ t e, Starts (.ccopy f c 0 0) s t v last e ∧ OnlyEntry s t ∧
        e.start.src = placeOf s p ∧ e.start.dst = placeOf s d ∧ e.fin = (if n = 0 then some s.clk else none) ∧
        e.fill = (if field d 62 2 = 2 then [field d 0 8] else []) ∧
        e.drain = (if f = true then [field p 0 8] else []) ∧
        ∀ h, tileAt t h = if field d 62 2 = 2 ∧ h = field d 0 8 then withTileState (tileAt s h) 1
          else if f = true ∧ h = field p 0 8 then withTileState (tileAt s h) 3 else tileAt s h) ∧
      (¬ (PlaceIn s p 2 ∧ PlaceIn s d 0) → StaysAtHead (.ccopy f c 0 0) s v last .tile)) ∧
    (∀ (f c : Bool) (r : BitVec 3) (m : BitVec 2) n p d i formatted plain u, i = .ccopy f c r m → r.toNat ≤ 4 → m.toNat ≠ 0 →
      (m.toNat ≠ 2 → r.toNat = 0) → MayBegin s v last → v.stack = [n, p, d] → n ≠ 0 → n.toNat < 2 ^ 40 →
      s.copyFormats (s.newEntry i) = (u, .ok (formatted, plain)) →
      firstBad (s.copyChecks (s.newEntry i) formatted plain) = none →
      PlaceIn s p 2 → PlaceIn s d 0 → ∃ t e, Starts i s t v last e ∧ e.fin = none ∧ e.start.src = placeOf s p ∧
        e.start.dst = placeOf s d ∧ e.start.sattr = (if m.toNat = 2 then plain else formatted) ∧
        e.start.dattr = (if m.toNat = 2 then formatted else plain)) ∧
    (∀ c x o b d, MayBegin s v last → v.stack = [x, o, b, d] → field x 48 16 = 0 → o.toNat % 4 = 0 →
      PlaceFine s d (field x 0 24 * field x 24 24) [0, 1, 2] → PlaceIn s d 0 →
      ∃ t e, Starts (.cgather c 0) s t v last e ∧ OnlyEntry s t ∧ Holds e d true false ∧ PlaceTaken s t d 1 ∧
        e.start.dst = placeOf s d ∧ e.start.src = .glob b ∧
        e.fin = (if field x 0 24 = 0 ∨ field x 24 24 = 0 then some s.clk else none)) ∧
    (∀ c x o b d formatted plain u, MayBegin s v last → v.stack = [x, o, b, d] → field x 0 24 ≠ 0 → field x 24 24 ≠ 0 →
      s.gatherFormats (s.newEntry (.cgather c 1)) = (u, .ok (formatted, plain)) →
      firstBad (s.gatherChecks (s.newEntry (.cgather c 1)) formatted plain) = none → PlaceIn s d 0 →
      ∃ t e, Starts (.cgather c 1) s t v last e ∧ e.fin = none ∧ e.start.src = .glob b ∧ e.start.dst = placeOf s d ∧
        e.start.sattr = formatted) ∧
    (∀ x n d, MayBegin s v last → v.stack = [x, n, d] → PlaceFine s d n.toNat [0, 1, 2] → PlaceIn s d 0 →
      ∃ t e, Starts .cfill s t v last e ∧ OnlyEntry s t ∧ Holds e d true false ∧ PlaceTaken s t d 1 ∧
        e.start.dst = placeOf s d ∧ e.fin = (if n = 0 then some s.clk else none)) ∧
    (∀ x y, MayBegin s v last → v.stack = [x, y] →
      ∃ t e, Starts .chint s t v last e ∧ OnlyQueues s t ∧ e.fin = some s.clk)

/-- R156, R180-R184: the transfer launch words. -/
def Sys2Proof.Claims.TransferWords : Prop :=
  ∀ (s : State) (v : Queue) (last : EWord),
    (∀ f n p d, MayBegin s v last → v.stack = [n, p, d] → n.toNat < 2 ^ 40 → PlaceFine s p n.toNat [1, 2] →
      (PlaceIn s p 2 → ∃ t e, Starts (.xwrite f) s t v last e ∧ OnlyEntry s t ∧ Holds e p false f ∧
        (if f = true then PlaceTaken s t p 3 else t.cell.tiles = s.cell.tiles) ∧
        e.start.src = placeOf s p ∧ e.start.dst = .glob d ∧
        e.fin = (if n = 0 then some s.clk else none)) ∧
      (¬ PlaceIn s p 2 → StaysAtHead (.xwrite f) s v last .tile)) ∧
    (∀ n p d, MayBegin s v last → v.stack = [n, p, d] → n.toNat < 2 ^ 40 → PlaceFine s d n.toNat [0, 1, 2] →
      PlaceIn s d 0 → ∃ t e, Starts .xread s t v last e ∧ OnlyEntry s t ∧ Holds e d true false ∧ PlaceTaken s t d 1 ∧
        e.start.dst = placeOf s d ∧ e.start.src = .glob p ∧
        e.fin = (if n = 0 then some s.clk else none)) ∧
    (∀ f n p d, MayBegin s v last → v.stack = [n, p, d] → 2 ^ 40 ≤ n.toNat → field p 62 2 = 0 →
      field p 56 6 = 0 → FaultsAt (.xwrite f) s v last 0x10) ∧
    (∀ a, MayBegin s v last → v.stack = [a] →
      (a.toNat % 8 = 0 → ∃ t e, Starts .xrlinv s t v last e ∧ e.fin = some s.clk ∧ OnlyQueues s t) ∧
      (a.toNat % 8 ≠ 0 → FaultsAt .xrlinv s v last 0x03)) ∧
    (∀ r a, MayBegin s v last → v.stack = [a] →
      (a.toNat % 64 = 0 →
          r = false ∨ v.armed.length + (v.run.filter fun e => e.op == .xcoll true).length < 4 →
        ∃ t e, Starts (.xcoll r) s t v last e ∧ OnlyQueues s t ∧ e.fin = none ∧ e.start.ready = false) ∧
      (a.toNat % 64 = 0 → r = true → 4 ≤ v.armed.length + (v.run.filter fun e => e.op == .xcoll true).length →
        StaysAtHead (.xcoll r) s v last .orderWait) ∧
      (a.toNat % 64 ≠ 0 → FaultsAt (.xcoll r) s v last 0x03)) ∧
    (∀ n p d, MayBegin s v last → v.stack = [n, p, d] → PlaceFine s p 0 [0, 1, 2] →
      ((s.readCsr 0x000).getLsbD 8 = true → d.toNat % 64 = 0 → PlaceIn s p 2 →
        ∃ t e, Starts .xroute s t v last e ∧ OnlyEntry s t ∧ e.fin = none ∧ e.start.src = placeOf s p ∧
          t.cell.tiles = s.cell.tiles) ∧
      ((s.readCsr 0x000).getLsbD 8 = false → FaultsAt .xroute s v last 0x0F) ∧
      ((s.readCsr 0x000).getLsbD 8 = true → d.toNat % 64 ≠ 0 → FaultsAt .xroute s v last 0x03))

/-- R164-R184: the launch words of the three engines start entries. -/
def Obligations.LaunchWords : Prop := Claims.MatrixWords ∧ Claims.CopyWords ∧ Claims.TransferWords

/-! ### Vector instructions -/

/-- R130, R133, R140, R141, R145, R150: the integer, bitwise and compare lanes, VMOV and VSEL. -/
def Obligations.IntegerLanes : Prop := VectorComputes integerLanes

/-- R33, R137-R139, R142-R145: the floating-point lanes, conversions and compares. -/
def Obligations.FloatLanes : Prop := VectorComputes floatLanes

/-- R131, R147-R150: reductions and lane moves. -/
def Obligations.LaneMoves : Prop := VectorComputes reductions ∧ VectorComputes laneMoves

/-- R48, R130, R132, R134: an instruction of these tables that could issue spends its delay count first, charged to DELAY; one
whose destination lies in a bank bound to the matrix slot traps with LEND. -/
def Sys2Proof.Claims.VectorIssue : Prop :=
  ∀ (i : Instr) (s : State) (r : VRow),
    (integerLanes s i = some r ∨ floatLanes s i = some r ∨ reductions s i = some r ∨ laneMoves s i = some r) →
    i.wellFormed = true →
    (VectorReady s { r with delay := 0 } → s.core.delayClk < r.delay →
      exec i s = .next { s with core := { s.core with
        charge := .delay, chargeV := true, chargePc := s.core.pc, delayClk := s.core.delayClk + 1 } }) ∧
    (VectorReady { s with csr := Sparse.set s.csr 0x013 0 } r → ¬ LanesFree s r.dst r.written → EntersAtOnce s →
      TrapsWith i s 0x09)

/-- R54, R134, R146, R150: MPUSH, MINV, MPOP and VMASKWR change the mask stack; MPUSH with MSP = 7 and MINV and MPOP with
MSP = 0 trap with STACK; VEXT and VMASKRD put a lane or k in a latch for a g register. -/
def Sys2Proof.Claims.MaskStack : Prop :=
  ∀ (s : State) (l : BitVec 2), l.toNat ≤ s.core.delayClk →
    (∀ (a : BitVec 6) x, LanesReady s a.toNat s.k →
      (s.msp ≠ 7 → ∃ t, Retires (.mpush a x l) s t (following (.mpush a x l) s) ∧
        MaskIs s t (s.msp + 1) (s.msp + 1) (s.k &&& maskOf fun n => lane s a.toNat n != 0)) ∧
      (s.msp = 7 → EntersAtOnce s → TrapsWith (.mpush a x l) s 0x0E)) ∧
    (s.msp ≠ 0 →
      (∃ t, Retires (.minv l) s t (following (.minv l) s) ∧
        MaskIs s t s.msp s.msp ((s.core.mask[s.msp - 1]?).getD 0 &&& ~~~(s.core.mask[s.msp]?).getD 0)) ∧
      (∃ t, Retires (.mpop l) s t (following (.mpop l) s) ∧ MaskIs s t (s.msp - 1) 8 0)) ∧
    (s.msp = 0 → EntersAtOnce s → TrapsWith (.minv l) s 0x0E ∧ TrapsWith (.mpop l) s 0x0E) ∧
    (∀ (g : BitVec 6) x, (Instr.vmaskwr g x l).wellFormed = true → Usable s [g.toNat] → s.cell.rspErr = [] →
      ∃ t, Retires (.vmaskwr g x l) s t (following (.vmaskwr g x l) s) ∧ MaskIs s t s.msp s.msp (s.g g.toNat)) ∧
    (∀ (g a n : BitVec 6) x, (Instr.vext g a n x l).wellFormed = true → LanesReady s a.toNat (1 <<< n.toNat) →
      Usable s [g.toNat] → LatchesTo (.vext g a n x l) s g.toNat ((lane s a.toNat n.toNat).setWidth 64)) ∧
    (∀ g : BitVec 6, (Instr.vmaskrd g l).wellFormed = true → Usable s [g.toNat] → LatchesTo (.vmaskrd g l) s g.toNat s.k)

/-- R54, R130, R131, R145: vector units at issue, and the mask stack. -/
def Obligations.VectorIssues : Prop := Claims.VectorIssue ∧ Claims.MaskStack

/-! ### Events of the control core and of register accesses -/

/-- R97, R135, R192, R193, R200-R202, R208, R323, R324: results land in issue order; a trap recognised at a boundary is entered, or
is a double trap; asynchronous traps and interrupts are taken in the order of R200; the timer counts; a walk caches its leaf
with A and D set, or is kept for the unit that asked. -/
def Obligations.CoreEvents : Prop :=
  ∀ s : State,
    (∃ t, exec .resultLands s = .next t ∧ LandsAll s t (onTimeNow s)) ∧
    (s.core.inflight.any (onTimeNow s) = false →
      ∃ t, exec .storeLoadDataArrival s = .next t ∧ LandsAll s t (lateNow s)) ∧
    (AlignedLatches s → ∃ t u, exec .storeLoadDataArrival s = .next t ∧ exec .resultLands t = .next u ∧
      LastStands s u fun l => onTimeNow s l || lateNow s l) ∧
    (∀ x, s.core.entering = none → s.core.trapPend = some x →
      ((s.system && s.held) = false → Arrived s (s.clk - 1) →
        ∃ t, exec .trapEntry s = .next t ∧ EntersAtBoundary s t x s.core.pc ∧ t.core.trapPend = none) ∧
      ((s.system && s.held) = false → ¬ Arrived s (s.clk - 1) →
        ∃ t, exec .trapEntry s = .next t ∧ WaitsToEnter s t x s.core.pc s.clk 1) ∧
      (s.system = true → s.held = true → ∃ t, exec .trapEntry s = .next t ∧ t.core.status = .doubled ∧
        t.core.trapPend = none ∧ t.csr = s.csr ∧ t.cell.endStatus = 2 ∧ t.cell.endCause = x.code)) ∧
    (∀ x, s.core.entering = some x → ∃ t, exec .trapEntry s = .next t ∧ Frames s t x.info x.pc ∧ t.core.entering = none ∧
      t.core.inflight = [] ∧ t.system = true ∧ t.core.busy = 3 + field (t.readCsr 0x040) 4 4 ∧
      t.core.pc = ((t.readCsr 0x101).setWidth 56 &&& 0xFFFFFFFFFFFFFC).signExtend 64) ∧
    (AtBoundary s →
      (∀ m ms, s.core.machines = m :: ms → ∃ t, exec .interruptEntry s = .next t ∧
        EntersAtBoundary s t { code := 0x13, addr := m.addr } s.core.pc ∧ t.readCsr 0x1C5 = m.info ∧ t.core.machines = ms) ∧
      (∀ r rs, s.core.machines = [] → s.core.refusals = r :: rs → ∃ t, exec .interruptEntry s = .next t ∧
        EntersAtBoundary s t { code := 0x14 } s.core.pc ∧ t.readCsr 0x191 = (r.va.setWidth 56).setWidth 64 ∧
        t.readCsr 0x192 = BitVec.ofNat 64 (r.why + 16 * r.dev) ∧ t.core.refusals = rs) ∧
      (∀ q qs f, s.core.machines = [] → s.core.refusals = [] → s.core.engPend = q :: qs → (s.queue q).fault = some f →
        ∃ t, exec .interruptEntry s = .next t ∧ EntersAtBoundary s t
          { code := 0x0D, sub := f.cause, addr := f.addr
            info0 := BitVec.ofNat 64 (f.seq + 2 ^ 32 * q + 2 ^ 36 * s.gcell), info1 := f.pc
            info2 := if f.armed = true then BitVec.ofNat 64 (f.prog.toNat % 2 ^ 48 + 2 ^ 48 * (f.firing % 2 ^ 16))
              else f.prog } s.core.pc ∧
          t.core.engPend = qs) ∧
      (∀ n, s.core.machines = [] → s.core.refusals = [] → s.core.engPend = [] → (s.readCsr 0x100).getLsbD 0 = true →
        [3, 2, 0, 1].find? (fun j => (s.readCsr 0x100).getLsbD (16 + j) && (s.readCsr 0x100).getLsbD (8 + j)) = some n →
        ∃ t, exec .interruptEntry s = .next t ∧
          EntersAtBoundary s t { code := 0x20 + n } (if s.core.wfi then s.core.pc + 4 else s.core.pc) ∧
          (t.readCsr 0x100).getLsbD (16 + n) = false ∧
          ∀ j, j ≠ 0 → j ≠ 16 + n → (t.readCsr 0x100).getLsbD j = (s.readCsr 0x100).getLsbD j)) ∧
    (∀ c, c = (s.readCsr 0x105).toNat % 2 ^ 48 → s.core.status = .running → (s.readCsr 0x104).getLsbD 0 = true →
      s.core.tmrSet = false →
      (1 < c → ∃ t, exec .timerExpiry s = .next t ∧ t.readCsr 0x105 = BitVec.ofNat 64 (c - 1) ∧ OnlyCsr s t 0x105 ∧
        t.core = s.core) ∧
      (c = 1 → ∃ t, exec .timerExpiry s = .next t ∧ t.readCsr 0x105 = (if (s.readCsr 0x104).getLsbD 1
          then BitVec.ofNat 64 ((s.readCsr 0x106).toNat % 2 ^ 48) else 0) ∧
        t.readCsr 0x100 = s.readCsr 0x100 ||| 0x10000 ∧ (∀ n, n ≠ 0x105 → n ≠ 0x100 → t.readCsr n = s.readCsr n) ∧
        t = { s with csr := t.csr }) ∧
      (c = 0 → exec .timerExpiry s = .next s)) ∧
    (s.core.status = .halted ∨ s.core.status = .away ∨ (s.core.status = .preempted ∧ s.mgr.heldHalted = true) →
      exec .timerExpiry s = .next s) ∧
    (∀ va acc c ws, s.sys.walks = (va, acc, c) :: ws →
      (s.sys.hold = true ∨ ¬ Answered s c → exec .pageWalk s = .next s) ∧
      (s.sys.hold = false → Answered s c →
        (∀ e p, s.walkFrom s.asid (va56 va) s.root levels = .leaf e p → permitted p.w0 acc s.system s.ux = true →
          ∃ t q, exec .pageWalk s = .next t ∧ t.sys.walks = ws ∧ t.cached va = some q ∧ q.base = p.base ∧ q.size = p.size ∧
            q.w1 = p.w1 ∧ q.w0 = p.w0 ||| 0x40 ||| (if acc.writes then 0x80 else 0) ∧ t.core = s.core ∧ t.cell = s.cell ∧
            t.csr = s.csr ∧ JoinsHomes s t (s.walkAddrs (va56 va) s.root levels) ∧
            ∀ a, a < e ∨ e + 8 ≤ a → Sparse.get t.mem a = Sparse.get s.mem a) ∧
        (∀ f p, s.walkFrom s.asid (va56 va) s.root levels = f →
          (∃ x, f = .fault x ∧ p = (va, x, none)) ∨
            (∃ e q, f = .leaf e q ∧ permitted q.w0 acc s.system s.ux = false ∧ p = (va, 5, some q)) →
          ∃ t, exec .pageWalk s = .next t ∧ t.sys.walks = ws ∧
            t.core = { s.core with walkFault := s.core.walkFault ++ [p] } ∧ t.mem = s.mem ∧ t.sys.ctlb = s.sys.ctlb ∧
            t.sys.tlb = s.sys.tlb ∧ JoinsHomes s t (s.walkAddrs (va56 va) s.root levels))))

/-- R49, R97, R100, R158, R204, R205, R218, R325, R344, R371, R379: what an access of a register from outside the core does
(log 19), and the home's part of a change of a watchpoint. -/
def Obligations.OutsideAccesses : Prop :=
  ∀ (s : State) (n : Nat) (v : Word), s.inp.csr = some (n, v) →
    (n = 0x105 → ∃ t, Accessed .tmrcntWrite s t ∧ t.readCsr 0x105 = (v.setWidth 48).setWidth 64 ∧ t.core.tmrSet = true ∧
      (∀ m, m ≠ 0x105 → t.readCsr m = s.readCsr m)) ∧
    (n = 0x013 → ∃ t, Accessed .bankbindWrite s t ∧ (∀ m, m ≠ 0x013 → t.readCsr m = s.readCsr m) ∧
      t.readCsr 0x013 = if (List.range 12).any (fun b => (s.readCsr 0x013).getLsbD b != v.getLsbD b && s.bankBusy b)
        then s.readCsr 0x013 else (v.setWidth 12).setWidth 64) ∧
    (n = 0x052 → ∀ w, w = (s.readCsr 0x051).toNat % 512 → ∃ t, Accessed .fxdata s t ∧
      (∀ a, Sparse.get t.cell.fx a = if a = w ∧ w < 408 then (if w % 34 = 0 then v &&& 0x3FFFF00000F07 else v)
        else Sparse.get s.cell.fx a) ∧
      t.readCsr 0x051 = BitVec.ofNat 64 ((w + 1) % 512) ∧ ∀ m, m ≠ 0x051 → t.readCsr m = s.readCsr m) ∧
    (n = 0x083 → ∃ t, Accessed .capdata s t ∧ field (t.readCsr 0x082) 8 7 = (field (s.readCsr 0x082) 8 7 + 1) % 128 ∧
      field (t.readCsr 0x082) 0 3 = field (s.readCsr 0x082) 0 3 ∧ t.acct = s.acct) ∧
    (n = 0x084 → ∃ t, Accessed .capclr s t ∧ t.csr = s.csr ∧ ∀ j c, s.acct.caps[j]? = some c → t.acct.caps[j]? =
      some (if v.getLsbD j then { st := 0, base := [], vals := [] } else c)) ∧
    (n = 0x151 → ∃ t, Accessed .cueirqClear s t ∧ t.readCsr 0x151 = s.readCsr 0x151 &&& ~~~v ∧
      ∀ m, m ≠ 0x151 → t.readCsr m = s.readCsr m) ∧
    (∀ q u, n = 0x130 + q → q < 13 → s.cell.queues[q]? = some u →
      (v.toNat % 4 = 1 → u.fault.isSome = true ∨ u.stopped = true → ∃ t w, Accessed .qcmdResume s t ∧
        QueueIs s t q w ∧ w.fault = none ∧ w.stopped = false ∧ w.words = u.words ∧ w.run.map Entry.seq = u.run.map Entry.seq ∧
        (∀ e, e ∈ w.run → e.next = e.done) ∧ t.core.engPend = s.core.engPend.filter (· != q)) ∧
      (v.toNat % 4 = 2 → ∀ f, u.fault = some f → f.atWord = false → u.inChain = false →
        ∃ t w, Accessed .qcmdDiscard s t ∧ QueueIs s t q w ∧ w.fault = none ∧ w.stopped = false ∧
          w.run = u.run.filter (fun e => e.seq != f.seq) ∧ w.words = u.words ∧
          t.core.engPend = s.core.engPend.filter (· != q)) ∧
      (v.toNat % 4 = 3 → u.fault.isSome = true ∨ u.stopped = true → ∃ t w, Accessed .qcmdReset s t ∧ QueueIs s t q w ∧
        w.fault = none ∧ w.stopped = false ∧ w.words = [] ∧ w.stack = [] ∧ w.run = [] ∧ w.nextSeq = u.nextSeq ∧
        (∀ e, e ∈ t.cell.chained → e.queue ≠ q)) ∧
      (v.toNat % 4 = 1 → u.fault = none → u.stopped = false → ∃ t, Accessed .qcmdResume s t ∧ t.cell = s.cell) ∧
      (v.toNat % 4 = 2 → u.fault = none → u.stopped = false → ∃ t, Accessed .qcmdDiscard s t ∧ t.cell = s.cell)) ∧
    (n = 0x190 →
      (field v 56 2 = 0 → ∃ t, Accessed .xinvPage s t ∧ Invalidates s t (v.getLsbD 58) fun p =>
        p.asid = field v 0 16 ∧ p.base / 2 ^ 16 ≤ field v 16 40 ∧ field v 16 40 < (p.base + p.size) / 2 ^ 16) ∧
      (field v 56 2 = 1 → ∃ t, Accessed .xinvAsid s t ∧ Invalidates s t (v.getLsbD 58) fun p => p.asid = field v 0 16) ∧
      (field v 56 2 = 2 → ∃ t, Accessed .xinvAll s t ∧ Invalidates s t (v.getLsbD 58) fun _ => True)) ∧
    (n = 0x0E4 → ∃ t, Accessed .warpop s t ∧ t.dbg.war = s.dbg.war.drop 1 ∧
      (t.readCsr 0x100).getLsbD 19 = !(s.dbg.war.drop 1).isEmpty ∧
      t.dbg.warLost = if (s.dbg.war.drop 1).isEmpty then 0 else s.dbg.warLost) ∧
    (∀ w, (n, w) ∈ plainCsrs → ∃ t, Accessed .registerWrite s t ∧
      t.readCsr n = (s.readCsr n &&& ~~~w) ||| (v &&& w) ∧ ∀ m, m ≠ n → t.readCsr m = s.readCsr m) ∧
    (n = 0x000 ∨ n = 0x180 → ∃ t, Accessed .registerWrite s t ∧ t.csr = s.csr) ∧
    (n = 0x103 → ∃ t, Accessed .registerWrite s t ∧ t.readCsr n = v &&& 0xFFFF ∧ ∀ m, m ≠ n → t.readCsr m = s.readCsr m) ∧
    (n = 0x181 → ∃ t, Accessed .registerWrite s t ∧
      t.readCsr n = (if 2000 ≤ v.toNat % 2 ^ 40 then (v.setWidth 40).setWidth 64 else s.readCsr n) ∧
      ∀ m, m ≠ n → t.readCsr m = s.readCsr m) ∧
    (∀ p, n = 0x1000 + p → ∃ t, Accessed .registerWrite s t ∧ (Sparse.get t.sys.pairctl p).toNat = v.toNat % 256 ∧
      p ∈ t.sys.pairset ∧ t.csr = s.csr) ∧
    (∀ m w, s.core.wpSent = some (m, w, false) → ∃ t, exec .watchpointChange s = .next t ∧
      t.core = { s.core with wpSent := some (m, w, true) } ∧ t.csr = s.csr ∧ t.mem = s.mem)

/-! ### Events of the engines -/

/-- R154, R158, R164, R171, R173, R176, R178, R186-R189, R216-R219, R224, R233, R237, R238: what a started entry does in a clk, and
how it completes; deferred readiness; the evaluation of the cue terms. -/
def Obligations.EngineEvents : Prop :=
  ∀ (s : State) (e : Entry),
    (Moving s e → s.cell.rspErr = [] → s.cell.storeErr = [] →
      (∀ c o, e.op = .mdrain c false 0 → e.done < 16 → o = field (e.start.desc[0]?.getD 0) 0 24 → PortOpen s 0 2 →
        CoreBehind s e 2 → ∃ t, exec .matrixChunk s = .next t ∧
          StoreBytes s t 2 (o + 512 * e.done) (fun a => BitVec.ofNat 8
            ((s.word (e.start.acc / 4 + 128 * e.done + a / 4)).toNat / 256 ^ (a % 4))) 512 ∧
          HeadIs t s.actq { e with
            done := e.done + 1, waited := 0, fin := if e.done = 15 then some s.clk else none } ∧ t.core = s.core ∧
          ∀ w, t.word w = if c = true ∧ e.done = 15 ∧ e.start.acc / 4 ≤ w ∧ w < e.start.acc / 4 + 2048 then 0 else s.word w) ∧
      (∀ p k a b k0, e.op = .mpass false false false 0 0 → p = e.vals[0]?.getD 0 → k = field p 4 20 → field p 24 4 = 1 →
        field p 28 4 = 1 → k0 = e.done → k0 < k → a = e.start.desc[0]?.getD 0 → b = e.start.desc[1]?.getD 0 →
        field a 48 2 = 1 → field b 48 2 = 0 → e.start.ready = true → e.start.seg = none → e.group = 0 → PortOpen s 0 0 →
        PortOpen s 0 1 → CoreBehind s e 0 → CoreBehind s e 1 → s.actq < 9 →
        ∃ t, exec .matrixChunk s = .next t ∧ t.core = s.core ∧
          (∀ w, t.word w = if e.start.acc / 4 ≤ w ∧ w < e.start.acc / 4 + 2048 then
              BitVec.ofNat 32 (Fmt.fp32.encode 0 false ((Fmt.fp32.decode false (s.word w).toNat).add false
                (dotAt (min 4 (k - k0))
                  (fun n => bf16At s 1 (field a 0 24 + 2 * k * ((w - e.start.acc / 4) / 128) + 2 * (k0 + n)))
                  (fun n => bf16At s 0 (field b 0 24 + 2 * k * ((w - e.start.acc / 4) % 128) + 2 * (k0 + n))))))
            else s.word w) ∧
          (k0 + 4 < k → HeadIs t s.actq { e with done := k0 + 4, waited := 0 }) ∧
          (k ≤ k0 + 4 → HeadIs t s.actq { e with done := k0 + 4, waited := 0, fin := some (s.clk + 6) })) ∧
      (∀ st off n k, e.op = .cfill → e.start.dst = .store st off → st < 3 → n = (e.vals[1]?.getD 0).toNat → k = e.next →
        e.done = k → k < n → n ≤ 2 ^ 22 → PortOpen s (if s.actq < 9 then 3 else 4) st → CoreBehind s e st →
        CopyDue s e → s.actq ≠ 0 →
        ∀ c m, c = (if st = 0 then 1024 else if st = 1 then 256 else 512) →
        m = (if n - k ≤ c then n - k else c - (off + k + c) % 4) →
        ∃ t, exec .copyTurn s = .next t ∧
          StoreBytes s t st (off + k) (fun a => BitVec.ofNat 8 ((e.vals[2]?.getD 0).toNat / 256 ^ ((k + a) % 8))) m ∧
          HeadIs t s.actq { e with
            next := k + m, done := k + m, waited := 0, fin := if n ≤ k + m then some s.clk else none } ∧
          t.cell.copyTurn = (e.begun, e.enq) ∧ t.core = s.core) ∧
      (∀ st off n k va p, e.op = .xread → e.start.dst = .store st off → e.start.src = .glob va → st < 3 →
        n = (e.vals[2]?.getD 0).toNat → k = e.next → e.done = k → k < n → n < 2 ^ 22 → e.start.sattr = none →
        PortOpen s (if s.actq < 9 then 3 else 4) st → CoreBehind s e st →
        ∀ x y m, (va.setWidth 56).signExtend 64 = va → x = (BitVec.ofNat 56 (va.toNat + k)).signExtend 64 → inWindow x = false →
        s.cached x = some p → permitted p.w0 .read s.system s.ux = true → p.fmt < 4 → p.coll ≠ 3 → isLocal s p = none →
        s.sys.hold = false → EntryAnswered s e → s.mgr.memErr = [] →
        y = min (min (64 - (off + k) % 64) (n - k)) (p.base + p.size - va56 x) →
        (y = n - k ∧ m = y ∨ y < n - k ∧ (off + k + y) % 4 < y ∧ m = y - (off + k + y) % 4) →
        s.presentPa (p.frame + (va56 x - p.base)) = true → s.presentPa (p.frame + (va56 x - p.base) + m - 1) = true →
        ∃ t, exec .transferChunk s = .next t ∧
          StoreBytes s t st (off + k) (fun a => Sparse.get s.mem (p.frame + (va56 x - p.base) + a)) m ∧ t.mem = s.mem ∧
          t.core = s.core ∧ t.cell.xferTurn = s.actq ∧ JoinsHomes s t [p.frame + (va56 x - p.base)] ∧
          ∃ h, HeadIs t s.actq h ∧ h.next = k + m ∧ h.done = k + m ∧ h.seq = e.seq ∧
            h.fin = if n ≤ k + m then some s.clk else none)) ∧
    (∀ n, WaitsLast s [] e → e.op = .signal n → ∃ t, exec .signalCompletion s = .next t ∧ Counts s t n.toNat 1 (s.actq + 1) ∧
      HeadIs t s.actq { e with fin := some s.clk, waited := 0 } ∧ t.core.g = s.core.g ∧ t.mem = s.mem) ∧
    (∀ n es, WaitsLast s es e → es ≠ [] → e.op = .signal n → ∃ t, exec .signalCompletion s = .next t ∧ t.core = s.core ∧
      (t.queue s.actq).run = es ++ [{ e with waited := e.waited + 1 }]) ∧
    (WaitsLast s [] e → Sparse.get s.csr 0x0C0 = 0 →
      (∀ m, e.op = .fenceq → m = e.vals[0]?.getD 0 →
        ((∀ q, q < 13 → m.getLsbD q = true → q ≠ s.actq → s.doneBefore q e.enq = true) →
          ∃ t, exec .controlEntryCompletion s = .next t ∧ HeadIs t s.actq { e with fin := some s.clk, waited := 0 } ∧
            t.core = s.core) ∧
        (∀ q, q < 13 → m.getLsbD q = true → q ≠ s.actq → s.doneBefore q e.enq = false →
          ∃ t, exec .controlEntryCompletion s = .next t ∧ HeadIs t s.actq { e with waited := e.waited + 1 } ∧
            t.core = s.core)) ∧
      (∀ c, e.op = .capstart c → ∃ t, exec .controlEntryCompletion s = .next t ∧
        HeadIs t s.actq { e with fin := some s.clk, waited := 0 } ∧
        ∃ x, t.acct.caps[c.toNat]? = some x ∧ x.st = 1 ∧ Sparse.get x.base 100 = s.acct.elapsed ∧
          ∀ j, j < 100 → Sparse.get x.base j = Sparse.get s.acct.cnt j)) ∧
    (∀ es, WaitsLast s es e → Sparse.get s.csr 0x0C0 = 0 →
      (∀ k, e.op = .gate k → ∃ t, exec .controlEntryCompletion s = .next t ∧ t.core = s.core ∧ (t.queue s.actq).run = es ++
        [if (s.readCsr 0x150).getLsbD k.toNat = true then { e with fin := some s.clk, waited := 0 }
          else { e with waited := e.waited + 1 }]) ∧
      (∀ n, e.op = .qgate n → ∃ t, exec .controlEntryCompletion s = .next t ∧ t.core = s.core ∧ (t.queue s.actq).run = es ++
        [if (s.cueSeen n.toNat - (e.vals[0]?.getD 0).setWidth 32).toNat < 2 ^ 31 then { e with fin := some s.clk, waited := 0 }
          else { e with waited := e.waited + 1 }])) ∧
    (∀ c, s.headEntry s.actq = some e → e.queue = s.actq → s.actq < 13 → s.core.status = .running →
      (s.queue s.actq).stopped = false → (s.queue s.actq).fault = none → e.fin = some c → c ≤ s.clk →
      s.entryIdle e.queue e.seq = true → chains e.op = false →
      ∃ t, exec .entryCompletion s = .next t ∧
        QueueIs s t s.actq { s.queue s.actq with
          run := (s.queue s.actq).run.drop 1
          armed := (s.queue s.actq).armed ++ (if e.op = .xcoll true ∧ e.disarm = false ∧ field (descOf e 7) 0 32 ≠ 1 ∧
              s.cell.endedRanks.getLsbD s.cell.rank = false
            then [{ e with armed := true, fill := [], drain := [] }] else []) } ∧
        (∀ h, tileAt t h = if h ∈ e.fill ∧ field (tileAt s h) 50 2 = 1 then withTileState (tileAt s h) 2
          else if h ∈ e.drain ∧ field (tileAt s h) 50 2 = 3 then withTileState (tileAt s h) 0 else tileAt s h) ∧
        t.cell.rankCache = (if e.op = .xrlinv then s.cell.rankCache.filter fun r => r.1 != (e.vals[0]?.getD 0).toNat
          else s.cell.rankCache) ∧
        t = { s with
          cell := { s.cell with queues := t.cell.queues, tiles := t.cell.tiles, rankCache := t.cell.rankCache } }) ∧
    (∀ es n, s.cell.chained = e :: es → e.op = .mzero → e.vals = [n] → n.toNat ≤ 15 → AccumBound s n.toNat →
      AccumFull s n.toNat 1 → e.queue < 13 →
      (∀ x, x ∈ s.running → Instr.isMatrix x.op = false) → s.core.status = .running → (s.queue e.queue).stopped = false →
      (s.queue e.queue).fault = none → s.matrixFaulted = false →
      ∃ t f, exec .chainedEntryStart s = .next t ∧ t.cell.chained = es ∧ f.fin = some s.clk ∧ f.seq = e.seq ∧
        f.begun = s.clk ∧
        QueueIs s t e.queue { s.queue e.queue with run := (s.queue e.queue).run ++ [f] } ∧
        ∀ w, t.word w = if accumWord s n.toNat ≤ w ∧ w < accumWord s n.toNat + 2048 then 0 else s.word w) ∧
    (∀ r, s.cell.ready.find? s.readyNow = some r → ∃ t, exec .deferredReadiness s = .next t ∧
      TileIs s t r.tile (if field (tileAt s r.tile) 50 2 = 3 then tileAt s r.tile else withTileState (tileAt s r.tile) 2) ∧
      t.cell.ready = s.cell.ready.filter (fun x => x.tile != r.tile) ∧ OnlyTiles s t) ∧
    (∃ t, exec .cueTermEvaluation s = .next t ∧ (∀ k, k < 16 → ((t.readCsr 0x150).getLsbD k = true ↔ TermHolds s k)) ∧
      (∀ k, k < 16 → (t.readCsr 0x151).getLsbD k = ((s.readCsr 0x151).getLsbD k ||
        ((t.readCsr 0x150).getLsbD k && !(s.readCsr 0x150).getLsbD k && (s.termSeen k 7).getLsbD 13))) ∧
      ((∃ k, k < 16 ∧ (t.readCsr 0x150).getLsbD k = true ∧ (s.readCsr 0x150).getLsbD k = false ∧
        (s.termSeen k 7).getLsbD 13 = true) → (t.readCsr 0x100).getLsbD 17 = true) ∧ t.core = s.core ∧ t.mem = s.mem)

/-! ### Events of collectives and routing -/

/-- R182, R257, R276-R280, R282, R286, R290-R292: a firing begins; a posting is made or waits; a contribution is applied, parked,
discarded or refused; the counters due are raised; a held contribution goes out; a token row is scored once. -/
def Obligations.CollectiveEvents : Prop :=
  ∀ s : State,
    (∀ q j e, s.actq = q + 16 * (j + 1) → q < 13 → (s.queue q).armed[j]? = some e → e.queue = q → e.armed = true →
      e.trig = true → e.fin.isSome = true → s.core.status = .running → (s.queue q).stopped = false →
      s.cell.endedRanks.getLsbD s.cell.rank = false → s.cell.endStatus ≠ 2 →
      (s.queue q).fault = none →
      ∃ t f, exec .xcollFiring s = .next t ∧ (t.queue q).armed[j]? = some f ∧ f.seq = e.seq ∧ f.vals = e.vals ∧
        f.firing = e.firing + 1 ∧ f.trig = false ∧ f.fin = none ∧ f.posted = false ∧ t.core.g = s.core.g ∧
        t.core.pc = s.core.pc) ∧
    (∀ e h, MayPost s e → h = tileOfFiring e →
      (s.coll.postings.length < 16 → (∀ p, p ∈ s.coll.postings → p.cidx ≠ field (descOf e 7) 32 12) →
        (∀ c, c ∈ s.coll.parked → c.cidx ≠ field (descOf e 7) 32 12) → field (tileAt s h) 50 2 = 0 → 0 < e.start.acc →
        ((descOf e 0).getLsbD 62 = true → AccumulateOpen s) → ∃ t p, exec .posting s = .next t ∧ t.coll.postings = s.coll.postings ++ [p] ∧ p.cidx = field (descOf e 7) 32 12 ∧
          p.tile = h ∧ p.expect = e.start.acc ∧ p.got = 0 ∧ p.epoch = (field (descOf e 2) 48 8 + e.firing) % 256 ∧
          p.ordered = (descOf e 0).getLsbD 58 ∧ p.ranks = e.start.list ∧
          p.rq = (if (descOf e 7).getLsbD 50 = true then some (field (descOf e 7) 44 6) else none) ∧
          TileIs s t h (withTileState (tileAt s h) 1) ∧ HeadIs t s.actq { e with posted := true, waited := 0 } ∧
          (∀ a, Sparse.get t.cell.store2 a = if (descOf e 0).getLsbD 62 = true ∧ field (tileAt s h) 0 24 ≤ a ∧
            a < field (tileAt s h) 0 24 + field (tileAt s h) 24 24 then 0 else Sparse.get s.cell.store2 a) ∧
          t.core = s.core ∧ t.mem = s.mem) ∧
      (16 ≤ s.coll.postings.length ∨ (∃ p, p ∈ s.coll.postings ∧ p.cidx = field (descOf e 7) 32 12) ∨
          field (tileAt s h) 50 2 ≠ 0 ∨ ((descOf e 0).getLsbD 62 = true ∧ ¬ PortOpen s 1 2) →
        ∃ t, exec .posting s = .next t ∧ HeadIs t s.actq { e with waited := e.waited + 1 } ∧ t.coll = s.coll ∧
          t.cell.tiles = s.cell.tiles ∧ t.core = s.core)) ∧
    (∀ r c x, Oldest s r → HomeHolds s r → r.origin = .own → r.op = .contrib x → x.tdev = s.devid →
      x.tcell = s.gcell → c = { x with clock := r.stamp } → s.core.status ≠ .away →
      (∀ p, p ∈ s.coll.postings → p.cidx ≠ c.cidx) → (∀ l, l ∈ s.coll.last → l.cidx ≠ c.cidx) →
      (s.wingsRoom c = true → ∃ t, exec .contributionArrival s = .next t ∧ PerformedAt s t r ∧
        t.coll = { s.coll with parked := s.coll.parked ++ [c] } ∧ t.sys.acks = s.sys.acks ++ [(r.queue, r.seq)] ∧
        t.inp = s.inp ∧ t.core = s.core) ∧
      (s.wingsRoom c = false → ∃ t, exec .contributionArrival s = .next t ∧
        t.sys.reqs = s.sys.reqs.filter (fun q => q.id != r.id) ∧ t.sys.acks = s.sys.acks ∧
        t.coll = { s.coll with outHeld := s.coll.outHeld ++ [r] } ∧ t.inp = s.inp ∧ t.core = s.core)) ∧
    (∀ c cs, s.inp.inbox = c :: cs → (∀ r, r ∈ s.sys.reqs → s.contribOf r = none) →
      (∀ p r, Meets s c p r → c.chunk = false → c.epoch = none → p.ordered = false → ¬ PortOpen s 1 2 →
        ∃ t, exec .contributionArrival s = .next t ∧ t.inp = s.inp ∧ t.coll = s.coll ∧ t.core = s.core ∧
          t.cell.store2 = s.cell.store2 ∧ t.cell.tiles = s.cell.tiles) ∧
      (∀ p r w v x, Meets s c p r → c.chunk = false → c.epoch = none → c.words = [v] → c.off = 4 * w → p.ordered = false →
        4 * w + 4 ≤ field (tileAt s p.tile) 24 24 → s.cell.storeErr = [] → AccumulateOpen s →
        x = field (tileAt s p.tile) 0 24 + 4 * w →
        ∃ t, exec .contributionArrival s = .next t ∧ t.inp = { s.inp with inbox := cs } ∧ t.core = s.core ∧ t.csr = s.csr ∧
          t.mem = s.mem ∧
          StoreBytes s t 2 x (fun a => BitVec.ofNat 8 ((if c.add = true then Fmt.fp32.encode 0 false
            ((Fmt.fp32.decode false (Memory.readLE s.cell.store2 x 4)).add false (Fmt.fp32.decode false v.toNat))
            else v.toNat) / 256 ^ a)) 4 ∧
          (p.got + 1 < p.expect → t.cell.tiles = s.cell.tiles ∧ ∃ k, t.coll = { s.coll with
            postings := s.coll.postings.map fun y => if y.cidx = p.cidx then { p with got := p.got + 1, clock := k } else y }) ∧
          (p.expect ≤ p.got + 1 →
            TileIs s t p.tile (if field (tileAt s p.tile) 50 2 ≤ 1 then withTileState (tileAt s p.tile) 2 else tileAt s p.tile) ∧
            t.coll.postings = s.coll.postings.filter (fun y => y.cidx != p.cidx) ∧
            t.coll.cues = s.coll.cues ++ p.rq.toList)) ∧
      (∀ p r x, Meets s c p r → c.epoch = some x → c.chunk = true → (r, c.off / 64) ∈ p.bitmap → x = p.epoch →
        ∃ t, exec .contributionArrival s = .next t ∧ t.inp = { s.inp with inbox := cs } ∧
          t.readCsr 0x170 = s.readCsr 0x170 + 1 ∧ (∀ n, n ≠ 0x170 → t.readCsr n = s.readCsr n) ∧ t.core = s.core ∧
          t.cell = s.cell ∧ t.coll = s.coll) ∧
      (∀ p r x, Meets s c p r → c.epoch = some x → x ≠ p.epoch → 127 < (x + 256 - p.epoch) % 256 →
        ∃ t, exec .contributionArrival s = .next t ∧ t.inp = { s.inp with inbox := cs } ∧
          t.readCsr 0x171 = s.readCsr 0x171 + 1 ∧ (∀ n, n ≠ 0x171 → t.readCsr n = s.readCsr n) ∧ t.core = s.core ∧
          t.cell = s.cell ∧ t.coll = s.coll) ∧
      (∀ p r x, Meets s c p r → c.epoch = some x → 0 < (x + 256 - p.epoch) % 256 → (x + 256 - p.epoch) % 256 ≤ 127 →
        s.wingsRoom c = true → exec .contributionArrival s = .next { s with
          inp := { s.inp with inbox := cs }, coll := { s.coll with parked := s.coll.parked ++ [c] } }) ∧
      (s.core.status = .away → s.wingsRoom c = false → exec .contributionArrival s = .next s)) ∧
    (s.core.status ≠ .halted → s.core.status ≠ .away → ∃ t, exec .receptionCueIncrement s = .next t ∧
      (∀ n, n < 64 → t.core.q[n]? = s.core.q[n]?.map fun v => v + BitVec.ofNat 32 (s.coll.cues.count n)) ∧
      t.coll = { s.coll with cues := [] } ∧ t.core = { s.core with q := t.core.q } ∧ t.csr = s.csr ∧ t.mem = s.mem) ∧
    (s.core.status = .halted ∨ s.core.status = .away → exec .receptionCueIncrement s = .next s) ∧
    (∀ r rs, s.coll.outHeld = r :: rs →
      ((∀ c, r.op = .contrib c → s.wingsRoom c = true) → ∃ t q k, exec .backPressureRelease s = .next t ∧
        t.coll = { s.coll with outHeld := rs } ∧ t.sys.reqs = s.sys.reqs ++ [{ r with stamp := q, rclk := k }] ∧
        (∀ e, e < 28 → k[e]?.getD 0 = (Sparse.get s.sys.vc (32 * r.die + e)).toNat ∧
          (r.op.writes = true → q[e]?.getD 0 = k[e]?.getD 0 + if e = r.die then 1 else 0)) ∧
        r.die ∈ t.sys.wrote ∧ t.core = s.core ∧ t.cell = s.cell) ∧
      (∀ c, r.op = .contrib c → s.wingsRoom c = false → exec .backPressureRelease s = .next s)) ∧
    (∀ e h k, Moving s e → e.op = .xroute → e.start.ready = true → e.next = e.done → e.next < (e.vals[2]?.getD 0).toNat →
      24 ≤ e.routeHub → e.routeHub < 28 → s.hubs[e.routeHub - 24]? = some h → k = s.jobKey →
      ((k, s.gcell, e.routeTok0 + e.next) ∈ h.seen → ∃ t g, exec .routeRowScored s = .next t ∧
        t.hubs[e.routeHub - 24]? = some g ∧ g.seen = h.seen ∧ g.snap = h.snap ∧
        (∀ x, Sparse.get g.live x = if x = 512 * k + 258 then Sparse.get h.live x + 1 else Sparse.get h.live x) ∧
        HeadIs t s.actq { e with next := e.next + 1, waited := 0 } ∧ t.sys.reqs = s.sys.reqs ∧ t.core = s.core) ∧
      (∀ st off xs r d bp pa, (k, s.gcell, e.routeTok0 + e.next) ∉ h.seen → e.start.src = .store st off → st < 3 →
        PortOpen s (if s.actq < 9 then 3 else 4) st → CoreBehind s e st → s.cell.storeErr = [] →
        s.sys.hold = false → (Sparse.get s.sys.vc (33 * s.die)).toNat < 2 ^ 40 - 2 ^ 20 → EntryAnswered s e → s.mgr.memErr = [] →
        OutputPage s (descOf e 3) .read (4 * e.routeE) bp → pa = bp.frame + (va56 (descOf e 3) - bp.base) →
        s.presentPa pa = true → s.presentPa (pa + 4 * e.routeE - 1) = true →
        xs = bf16Vals e.routeD (Sparse.getRun (s.cell.store st) (off + 2 * e.routeD * e.next) (2 * e.routeD)) →
        r = scoreRow e.routeK e.routeFb
          ((List.range e.routeE).map fun x => logit xs (bf16Vals e.routeD (Sparse.getRun s.mem
            (0xF000000000000 + (e.routeHub - 24) * 0x800000 + e.routeGoff + 2 * (x * e.routeD)) (2 * e.routeD))))
          ((List.range e.routeE).map fun x => BitVec.ofNat 32 (Memory.readLE s.mem (pa + 4 * x) 4)) →
        (∀ o, o ∈ e.routeOutputs e.next r →
          ∃ p, OutputPage s (canon o.1) (if o.2.1.isSome = true then .both else .write) 8 p) →
        d = canon (e.routeDst.toNat + 2 * e.routeD * e.next) → (∃ p, OutputPage s d .write (2 * e.routeD) p) →
        ∃ t g ws, exec .routeRowScored s = .next t ∧ t.hubs[e.routeHub - 24]? = some g ∧
          g.seen = (k, s.gcell, e.routeTok0 + e.next) :: h.seen ∧ g.snap = h.snap ∧
          (∀ x, x < 260 → Sparse.get g.live (512 * k + x) = Sparse.get h.live (512 * k + x) + BitVec.ofNat 64
            ((r.experts ++ (if r.fallback = true then [256] else []) ++ (if r.fault = true then [257] else [])).count x)) ∧
          t.sys.reqs = s.sys.reqs ++ ws ∧ (∀ o, o ∈ e.routeOutputs e.next r → ∃ q, q ∈ ws ∧ q.va = canon o.1 ∧
            q.die = e.routeHub) ∧
          HeadIs t s.actq { e with next := e.next + 1, waited := 0 } ∧ t.mem = s.mem ∧ t.core = s.core))

/-! ### Events at the homes -/

/-- R50, R112, R114, R115, R129, R252-R256, R312, R329, R359, R385, R395: writes, atomics and reads performed at their homes; frontiers; answers
and acknowledgements that return; renormalisation. That a frontier reaches all homes at once, and that renormalisation zeroes the stamps
held elsewhere too, is the model's choice (log 3). -/
def Obligations.HomeEvents : Prop :=
  ∀ s : State,
    (∀ r, DueFirst s r → inNotify r.pa = false →
      (∀ bs, r.op = .store bs → ∃ t, exec .writeAppliedAtHome s = .next t ∧ PerformedAt s t r ∧
        (∀ a, Sparse.get t.mem a = lastByte bs a (Sparse.get s.mem a)) ∧ t.sys.acks = s.sys.acks ++ [(r.queue, r.seq)] ∧
        t.core = s.core ∧ t.csr = s.csr ∧ t.cell = s.cell) ∧
      (∀ f n b old, r.op = .atomic f n b → n ≤ 8 → old = Memory.readLE s.mem r.pa n →
        ∃ t, exec .writeAppliedAtHome s = .next t ∧ PerformedAt s t r ∧
          MemHolds s t r.pa n (atomicFn f n old (b.toNat % 2 ^ (8 * n))) ∧
          Answers s t r (BitVec.ofNat 64 old) (fun a => a.size = n) ∧ t.core = s.core ∧ t.cell = s.cell) ∧
      (∀ n x v old, r.op = .cas n x v → n ≤ 8 → old = Memory.readLE s.mem r.pa n →
        ∃ t, exec .writeAppliedAtHome s = .next t ∧ t.sys.reqs = s.sys.reqs.filter (fun q => q.id != r.id) ∧
          (if old = x.toNat % 2 ^ (8 * n) then MemHolds s t r.pa n (v.toNat % 2 ^ (8 * n)) else t.mem = s.mem) ∧
          Answers s t r (BitVec.ofNat 64 old) (fun a => a.size = n) ∧ t.core = s.core ∧ t.cell = s.cell) ∧
      (∀ n, r.op = .load n → n ≤ 8 → ∃ t, exec .readAnsweredAtHome s = .next t ∧
        t.sys.reqs = s.sys.reqs.filter (fun q => q.id != r.id) ∧ t.mem = s.mem ∧ t.core = s.core ∧ t.cell = s.cell ∧
        Answers s t r (BitVec.ofNat 64 (Memory.readLE s.mem r.pa n)) fun a => a.size = n ∧
          ∀ e, e < 28 → a.clock[e]?.getD 0 = (Sparse.get s.sys.maxv (32 * r.home + e)).toNat)) ∧
    (∀ r i, Oldest s r → HomeHolds s r → s.reqPresent r = false → r.origin = .own → r.queue = 15 →
      (∀ n, r.dest ≠ .table n) → r.dest ≠ .vat → r.dest ≠ .mgr → inNotify r.pa = false → r.op.isVat = false →
      i = (if r.op.writes = true then Instr.writeAppliedAtHome else Instr.readAnsweredAtHome) →
      ∃ t, exec i s = .next t ∧ t.sys.reqs = s.sys.reqs.filter (fun q => q.id != r.id) ∧ t.mem = s.mem ∧
        t.core = { s.core with
          refusals := s.core.refusals ++ [{ va := r.va, why := 7, dev := s.devid }]
          far := s.core.far.filter fun f => f.id != r.id }) ∧
    (∀ d, s.actq = d → d < 28 → ∃ t n, exec .frontierSend s = .next t ∧
      t = { s with sys := { s.sys with front := t.sys.front } } ∧
      (∀ e, Sparse.get t.sys.front e = if e = d then BitVec.ofNat 40 n else Sparse.get s.sys.front e) ∧
      n ≤ (Sparse.get s.sys.vc (33 * d)).toNat ∧
      (∀ r, r ∈ s.sys.reqs ++ s.sys.held.map Held.req → r.die = d → r.op.writes = true → n ≤ r.stamp[d]?.getD 0 - 1) ∧
      (n < (Sparse.get s.sys.vc (33 * d)).toNat → ∃ r, r ∈ s.sys.reqs ++ s.sys.held.map Held.req ∧ r.die = d ∧
        r.op.writes = true ∧ n = r.stamp[d]?.getD 0 - 1)) ∧
    (∀ a rs, s.sys.replies = a :: rs → s.trace 3 = false →
      (∀ n, a.dest = .reg n → n < 32 → n ≠ 0 →
        (a.bad = false → ∃ t, exec .longLatencyReturn s = .next t ∧ t.sys.replies = rs ∧ Joins s t a.clock ∧
          (∀ m, m < 32 → t.g m = (if m = n then a.val else s.g m) ∧ t.emptyG m = (if m = n then false else s.emptyG m)) ∧
          t.cell = s.cell ∧ t.mem = s.mem ∧ t.csr = s.csr) ∧
        (a.bad = true → ∃ t m, exec .longLatencyReturn s = .next t ∧ t.sys.replies = rs ∧ t.core.g = s.core.g ∧
          t.core.gEmpty = s.core.gEmpty ∧ t.core.machines = s.core.machines ++ [m] ∧ m.addr = BitVec.ofNat 64 a.addr)) ∧
      (∀ off ls, a.dest = .vec off ls → a.bad = false → ∃ t, exec .longLatencyReturn s = .next t ∧ t.sys.replies = rs ∧
        Joins s t a.clock ∧ t.core = s.core ∧ t.mem = s.mem ∧
        ∀ w, (t.word w, t.emptyWord w) =
          if off / 4 ≤ w ∧ w < off / 4 + 64 ∧ ls.getLsbD (w - off / 4) = true then (a.lanes[w - off / 4]?.getD 0, false)
          else (s.word w, s.emptyWord w)) ∧
      (∀ n w, a.dest = .table n → s.core.latWait = some w → ∃ t g bs e, exec .longLatencyReturn s = .next t ∧
        t.sys.replies = rs ∧ Joins s t a.clock ∧ t.core = { s.core with latWait := some { w with got := g, bad := w.bad ++ e } } ∧
        t.cell = s.cell ∧ g.length = w.got.length + 1 ∧ (∀ x, x ∈ g ↔ x = (n, bs) ∨ x ∈ w.got) ∧
        (a.bad = false → e = [] ∧ bs = (a.row.map OqRow.bytes).getD []) ∧ (a.bad = true → e = [BitVec.ofNat 64 a.addr])) ∧
      (∀ q n o d u, a.dest = .row q n o → a.bad = false → a.row = some d → s.cell.oq[q]? = some u → q < 4 →
        ∃ t, exec .operandQueueRowLands s = .next t ∧ t.sys.replies = rs ∧ Joins s t a.clock ∧ t.core = s.core ∧
          t.mem = s.mem ∧ t.cell.oq[q]? = some (u.map fun x => if x.id = n then PartJoined x d else x) ∧
          ∀ p, p < 4 → p ≠ q → t.cell.oq[p]? = s.cell.oq[p]?)) ∧
    (∀ x as, s.sys.acks = x :: as →
      exec .writeAcknowledged s = .next { s with sys := { s.sys with acks := as } }) ∧
    (s.sys.hold = true → s.sys.reqs = [] → s.sys.held = [] → ∃ t, exec .clockRenormalisation s = .next t ∧
      t.sys.vc = [] ∧ t.sys.front = [] ∧ t.sys.maxv = [] ∧ t.sys.hold = false ∧ t.mem = s.mem ∧
      t.core = { s.core with readClk := [] } ∧
      t.cell = s.cell ∧ t.sys.parked = s.sys.parked.map fun r => { r with stamp := List.replicate 28 0 }) ∧
    (s.sys.hold = false → (∃ k v, (k, v) ∈ s.sys.vc ∧ 2 ^ 39 ≤ v.toNat) →
      exec .clockRenormalisation s = .next { s with sys := { s.sys with hold := true } })

/-! ### Events of vats -/

/-- R116-R118, R263-R267: vat operations at their homes, at pairing points, and answered. -/
def Obligations.VatEvents : Prop :=
  ∀ s : State,
    (∀ r op pair v c n k, VatFirst s r → r.op = .vat op pair v → c = vatField s r.pa 8 8 → n = vatField s r.pa 16 8 →
      k = vatField s r.pa 0 1 →
      (¬ VatFine s r.pa ∨ pair = true ∧ k = 2 → ∃ t, exec .vatHomeOperation s = .next t ∧ VatAnswers s t r 0 0 2 ∧
        t.mem = s.mem ∧ t.core = s.core) ∧
      (VatFine s r.pa → ¬ (pair = true ∧ k = 2) →
        (op = .push → n < c → ∀ i, i = (if k = 2 then (vatField s r.pa 24 8 + n) % c else n) →
          ∃ t, exec .vatHomeOperation s = .next t ∧ VatAnswers s t r 0 0 0 ∧ PerformedAt s t r ∧ t.core = s.core ∧
            t.cell = s.cell ∧ ∀ b, Sparse.get t.mem b =
              if r.pa + 16 ≤ b ∧ b < r.pa + 24 then BitVec.ofNat 8 ((n + 1) / 256 ^ (b - (r.pa + 16)))
              else if r.pa + 64 + 8 * i ≤ b ∧ b < r.pa + 72 + 8 * i
              then BitVec.ofNat 8 (v.toNat / 256 ^ (b - (r.pa + 64 + 8 * i))) else Sparse.get s.mem b) ∧
        (op = .push → n = c → ∃ t, exec .vatHomeOperation s = .next t ∧ VatAnswers s t r 0 1 0 ∧ t.mem = s.mem ∧
          t.core = s.core) ∧
        (op ≠ .push → 0 < n → ∃ t, exec .vatHomeOperation s = .next t ∧ PerformedAt s t r ∧ t.core = s.core ∧
          VatAnswers s t r (BitVec.ofNat 64 (vatField s r.pa (64 + 8 * if k = 2 then vatField s r.pa 24 8 else n - 1) 8)) 0 0 ∧
          vatField t r.pa 16 8 = n - 1 ∧ (k = 2 → vatField t r.pa 24 8 = (vatField s r.pa 24 8 + 1) % c) ∧
          ∀ b, b < r.pa + 16 ∨ r.pa + 32 ≤ b → Sparse.get t.mem b = Sparse.get s.mem b) ∧
        (op = .pop → n = 0 → ∃ t, exec .vatHomeOperation s = .next t ∧ t.sys.parked = s.sys.parked ++ [r] ∧
          t.sys.replies = s.sys.replies ∧ t.mem = s.mem ∧ t.core = { s.core with vat := .parked r.id }) ∧
        (op = .popNb → n = 0 → ∃ t, exec .vatHomeOperation s = .next t ∧ VatAnswers s t r 0 1 0 ∧ t.mem = s.mem ∧
          t.core = s.core))) ∧
    (∀ r p, s.vatReqs.find? (fun x => (s.nextPoint x).isSome) = some r → s.nextPoint r = some p →
      (∀ h, s.sys.held = [h] → h.point = p → s.window p ≠ 0 → h.req.matches r = true → r.origin = .own → r.isPush = false →
        h.req.origin ≠ .own → (∀ d c, h.req.origin ≠ .module d c) →
        ∃ t, exec .vatArrivalAtPairingPoint s = .next t ∧ t.sys.held = [] ∧ VatAnswers s t r h.req.pushed 0 1 ∧
          (∀ q, q ∈ t.sys.reqs → q.id ≠ r.id) ∧ t.mem = s.mem ∧ t.core = s.core) ∧
      (s.sys.held = [] → s.window p ≠ 0 → ∃ t h, exec .vatArrivalAtPairingPoint s = .next t ∧ t.sys.held = [h] ∧
        h.point = p ∧ h.req = r ∧ h.until' = s.clk + 2 * s.window p ∧ (∀ q, q ∈ t.sys.reqs → q.id ≠ r.id) ∧
        t.core = s.core ∧ t.mem = s.mem) ∧
      (s.window p = 0 → r.dev = none → ∃ t, exec .vatArrivalAtPairingPoint s = .next t ∧ PassesOn s t r p ∧
        t.sys.fullPass = s.sys.fullPass) ∧
      (s.window p ≠ 0 → r.dev = none → r.origin = .own → 64 ≤ (s.sys.held.filter fun h => h.point == p).length →
        (∀ h, h ∈ s.sys.held → h.point = p → h.req.matches r = false) →
        (∀ q, q ∈ s.vatReqs → q.id ≠ r.id → s.nextPoint q = some p → q.matches r = false) →
        ∃ t, exec .vatArrivalAtPairingPoint s = .next t ∧ PassesOn s t r p ∧ t.sys.fullPass = s.sys.fullPass ++ [r.id])) ∧
    (∀ h hs, s.sys.held = h :: hs → h.until' ≤ s.clk → h.req.dev = none → ∃ t, exec .pairingWindowExpiry s = .next t ∧
      t.sys.held = hs.filter (fun x => x.req.id != h.req.id) ∧ t.sys.reqs = s.sys.reqs ++ [h.req] ∧
      t.sys.passed = (h.req.id, h.point) :: s.sys.passed ∧ t.core = s.core ∧ t.mem = s.mem) ∧
    (∀ a rs h, s.sys.replies = a :: rs → a.dest = .vat → h = (a.lanes[1]?.getD 0).toNat →
      ∃ t v, exec .vatReply s = .next t ∧ t.sys.replies = rs ∧ Joins s t a.clock ∧
        t.readCsr 0x160 = s.readCsr 0x160 + (if h = 1 then 1 else 0) ∧
        t.readCsr 0x161 = s.readCsr 0x161 + (if h = 0 then 1 else 0) ∧
        t.readCsr 0x162 = s.readCsr 0x162 + BitVec.ofNat 64 (s.sys.fullPass.count a.id) ∧
        (∀ n, n ≠ 0x160 → n ≠ 0x161 → n ≠ 0x162 → t.readCsr n = s.readCsr n) ∧ t.core = { s.core with vat := v } ∧
        (h = 2 → v = .bad 0x15) ∧ (h = 3 → v = .bad 0x13) ∧
        (h < 2 → v = .done { val := a.val, status := (a.lanes[0]?.getD 0).setWidth 64 }) ∧ t.mem = s.mem)

/-! ### Events of launches -/

/-- R294-R297, R300, R301, R308, R309: notifies of both kinds; the mapper; the packet at the head; the placement of a troupe. -/
def Obligations.LaunchEvents : Prop :=
  ∀ s : State,
    (∀ r tb q v, DueFirst s r → QueueOn s tb q → v < 2 ^ 32 → r.op = .store (bytesAt (0xF000100000000 + 8 * q) 8 v) →
      r.pa = 0xF000100000000 + 8 * q →
      (TailFits s tb q v → ∃ t, exec .notify s = .next t ∧ PerformedAt s t r ∧ MemHolds s t (tb + 64 * q + 28) 4 v ∧
        t.sys.acks = s.sys.acks ++ [(r.queue, r.seq)] ∧ t.lq.notifyBad = s.lq.notifyBad ∧ t.core = s.core) ∧
      (¬ TailFits s tb q v → ∃ t, exec .notify s = .next t ∧ PerformedAt s t r ∧ t.mem = s.mem ∧
        t.sys.acks = s.sys.acks ++ [(r.queue, r.seq)] ∧ t.core = s.core ∧
        ∀ p, Sparse.get t.lq.notifyBad p = if p = q then Sparse.get s.lq.notifyBad p + 1 else Sparse.get s.lq.notifyBad p)) ∧
    (∀ r d h q v tb, PeerFirst s r d → r.die = h → QueueOn s tb q → v < 2 ^ 32 →
      r.op = .store (bytesAt (0xF000100000000 + 8 * q) 8 v) → r.pa = 0xF000100000000 + 8 * q →
      (r.key = s.qKey q → (∃ i, i < 4 ∧ aclAdmits (s.qAcl q i) d = true) → TailFits s tb q v →
        ∃ t, exec .remoteNotify s = .next t ∧ PerformedAt s t r ∧ MemHolds s t (tb + 64 * q + 28) 4 v ∧
          RepliesTo s t d 0 0 ∧ t.lq.peerDrop = s.lq.peerDrop ∧ t.core = s.core) ∧
      (r.key ≠ s.qKey q ∨ (∀ i, i < 4 → aclAdmits (s.qAcl q i) d = false) → ∃ t why, exec .remoteNotify s = .next t ∧
        t.sys.reqs = s.sys.reqs.filter (fun x => x.id != r.id) ∧ t.mem = s.mem ∧ RepliesTo s t d why 0 ∧
        why = (if r.key ≠ s.qKey q then 2 else 6) ∧ t.core = s.core ∧
        ∀ x, Sparse.get t.lq.peerDrop x = if x = h then Sparse.get s.lq.peerDrop x + 1 else Sparse.get s.lq.peerDrop x)) ∧
    (∀ q, s.lq.slots = List.replicate 32 none → s.qWaiting = [q] → (∀ p, p ∈ s.qUsed → (s.headPacket p).1 = s) →
      ∃ t, exec .mapperRun s = .next t ∧ Sparse.get t.lq.age q = 0 ∧
        t.lq.slots = setAt s.lq.slots (if s.qClass q = 0 then 0 else 8) (some (q, s.clk)) ∧
        (∀ p, p ∈ t.lq.ready ↔ p ∈ s.qUsed ∧ s.qReady p = true) ∧
        t = { s with lq := { s.lq with slots := t.lq.slots, age := t.lq.age, spent := [], ready := t.lq.ready } }) ∧
    (∀ q qs tb p j, s.readable = q :: qs → s.mgr.qtable = some tb → s.headPacket q = (s, .ok p) →
      j = queueWord s tb q 24 → (∀ x, x ∈ s.lq.released → x.1 ≠ q) →
      packetBad p = true ∨ packetBad p = false ∧ field (p[0]?.getD 0) 56 4 = 0 →
      ∃ t c, exec .packetRead s = .next t ∧ MemHolds s t (tb + 64 * q + 24) 4 ((j + 1) % 2 ^ 32) ∧
        t.lq.scenes = s.lq.scenes ++ [c] ∧ c.queue = q ∧ c.index = j ∧ c.packet = p ∧ c.walk = none ∧
        c.status = (if packetBad p = true then 4 else 0) ∧ c.release = (s.readCsr 0x180).toNat % 2 ^ 48 ∧ t.core = s.core) ∧
    (∀ q qs tb p j u a, s.readable = q :: qs → s.mgr.qtable = some tb → s.headPacket q = (s, .ok p) →
      j = queueWord s tb q 24 → (∀ x, x ∈ s.lq.released → x.1 ≠ q) → packetBad p = false →
      field (p[0]?.getD 0) 56 4 = 1 → s.acceptRecord q (canon (field (p[0]?.getD 0) 0 56)) = (u, a) →
      (a = .later → exec .packetRead s = .next u) ∧
      (u = s → a = .refused → ∃ t c, exec .packetRead s = .next t ∧ MemHolds s t (tb + 64 * q + 24) 4 ((j + 1) % 2 ^ 32) ∧
        t.lq.scenes = s.lq.scenes ++ [c] ∧ c.queue = q ∧ c.index = j ∧ c.status = 4 ∧ c.walk = none ∧ t.core = s.core) ∧
      (∀ r w x n, u = s → a = .scene r w x → n = field (r[0]?.getD 0) 56 3 → ∃ t c, exec .packetRead s = .next t ∧
        MemHolds s t (tb + 64 * q + 24) 4 ((j + 1) % 2 ^ 32) ∧ t.lq.scenes = s.lq.scenes ++ [c] ∧ c.queue = q ∧
        c.index = j ∧ c.status = 0 ∧ c.record = r ∧ c.templ = w ∧ c.ext = x ∧ c.placed = 0 ∧ t.core = s.core ∧
        c.walk = if ((x.take n).any fun k => k == 0) = true then none else some (List.replicate n (0, true)))) ∧
    (∀ c cs v cells, s.walkers = c :: cs → recGang c.record = false → c.walk = some v → s.fit c = some cells →
      s.core.status ≠ .away → ∃ t, exec .troupePlacement s = .next t ∧
        t.lq.troupes = s.lq.troupes ++ [{ queue := c.queue, index := c.index, cells := cells, first := s.clk
                                          wdog := field (c.packet[4]?.getD 0) 0 32, done := [], away := false }] ∧
        (∀ d, d ∈ t.lq.scenes → d.queue = c.queue → d.index = c.index →
          d.placed = c.placed + 1 ∧ d.walk = c.advance ∧ d.since = s.clk) ∧ t.mem = s.mem ∧
        (s.gcell ∉ cells → t.core = s.core ∧ t.cell = s.cell) ∧
        (∀ k, cells.findIdx? (· == s.gcell) = some k → t.core.status = .running ∧
          t.core.pc = ((c.record[0]?.getD 0).setWidth 56).signExtend 64 ∧ t.cell.troupeSize = cells.length ∧ t.cell.rank = k ∧
          (∀ n, recRank c.record = n → n < 32 → n ≠ 0 → t.g n = BitVec.ofNat 64 k) ∧
          (∀ n i, 0 < n → n < 32 → n ≠ recRank c.record → v[n - 1]? = some i → t.g n = BitVec.ofNat 64 i.1) ∧
          t.readCsr 0x103 = BitVec.ofNat 64 (s.qKey c.queue)))

/-! ### Events of ticks and completions -/

/-- R221-R223, R298, R299, R302, R305: the tick edge; deadlines; watchdogs; the completion of a cell and of a scene. -/
def Obligations.CompletionEvents : Prop :=
  ∀ s : State,
    (s.clk = s.mgr.nextTick → ∃ t, exec .tickEdge s = .next t ∧
      t.readCsr 0x180 = BitVec.ofNat 64 (((s.readCsr 0x180).toNat % 2 ^ 48 + 1) % 2 ^ 48) ∧
      (s.resident = true → t.readCsr 0x100 = s.readCsr 0x100 ||| 0x40000) ∧
      (∀ n, n ≠ 0x180 → n ≠ 0x100 → t.readCsr n = s.readCsr n) ∧
      t.mgr.nextTick = s.clk + (s.readCsr 0x181).toNat % 2 ^ 40 ∧ t.core = s.core ∧ t.cell = s.cell ∧ t.mem = s.mem) ∧
    (∃ t, exec .deadlineExpiry s = .next t ∧ t.core = s.core ∧ t.mem = s.mem ∧
      t.lq.scenes = s.lq.scenes.map fun c =>
        if 0 < field (c.packet[3]?.getD 0) 48 16 ∧ c.late = false ∧
          c.release + field (c.packet[3]?.getD 0) 48 16 ≤ (s.readCsr 0x180).toNat % 2 ^ 48 then
          (if (c.packet[4]?.getD 0).getLsbD 32 = true ∧ c.walk.isSome = true then
            { c with late := true, walk := none, dropped := troupes c.record c.ext - c.placed } else { c with late := true })
        else c) ∧
    (∃ t, exec .watchdogExpiry s = .next t ∧ t.mem = s.mem ∧ (∀ x, x ∈ t.lq.troupes → ¬ Expired s x) ∧
      (∀ x, x ∈ s.lq.troupes → Expired s x → s.gcell ∈ x.cells → x.away = s.isAway → (∀ d, d ∈ x.done → d.1 ≠ s.gcell) →
        t.core.status = .completed) ∧
      ((∀ x, x ∈ s.lq.troupes → Expired s x → s.gcell ∉ x.cells) → t.core = s.core ∧ t.cell = s.cell) ∧
      (∀ x, s.lq.troupes = [x] → Expired s x → s.gcell ∉ x.cells → NoneUnderWay s → t.lq.troupes = [] ∧
        ∀ c, c ∈ t.lq.scenes → c.queue = x.queue → c.index = x.index → 3 ≤ c.status)) ∧
    (s.cellDone = true → ∃ t, exec .cellCompletion s = .next t ∧ t.core.status = .completed ∧ t.core.inflight = [] ∧
      t.inp = { s.inp with completions := [] } ∧
      ∀ x, s.lq.troupes = [x] → x.cells = [s.gcell] → x.away = false → s.inp.completions = [] → NoneUnderWay s →
        t.lq.troupes = [] ∧ ∀ c, s.lq.scenes = [c] → c.queue = x.queue → c.index = x.index → c.status = 0 → x.done = [] →
          s.cell.endStatus ≠ 3 →
          ∃ d, t.lq.scenes = [d] ∧ d.status = s.cell.endStatus ∧
            (s.cell.endStatus ≠ 0 → d.fcell = s.gcell ∧ d.fcause = s.cell.endCause)) ∧
    (∀ c cs tb a, s.lq.scenes = c :: cs → s.mgr.qtable = some tb → c.walk = none → c.index = queueWord s tb c.queue 32 →
      (∀ x, x ∈ s.lq.troupes → ¬ (x.queue = c.queue ∧ x.index = c.index)) → a = field (c.packet[1]?.getD 0) 0 56 →
      (∀ p d, s.mgrPage ((BitVec.ofNat 56 a).signExtend 64) .write = some p → isLocal s p = some d → a ≠ 0 → a % 32 = 0 →
        c.status < 5 → c.sent = none → ∃ t r, exec .sceneCompletion s = .next t ∧ t.fab.out = s.fab.out ++ [r] ∧
          r.dev = some d ∧ r.va = (BitVec.ofNat 56 a).signExtend 64 ∧ t.mem = s.mem ∧ t.mgr = s.mgr ∧ t.core = s.core ∧
          ∀ x, x ∈ t.lq.scenes → x.queue = c.queue → x.index = c.index → x = { c with sent := some r.id }) ∧
      ((∀ p, s.mgrPage ((BitVec.ofNat 56 a).signExtend 64) .write = some p → isLocal s p = none) → c.sent = none →
      ∃ t, exec .sceneCompletion s = .next t ∧ queueWord t tb c.queue 32 = (c.index + 1) % 2 ^ 32 ∧
        (∀ x, x ∈ t.lq.scenes ↔ x ∈ s.lq.scenes ∧ ¬ (x.queue = c.queue ∧ x.index = c.index)) ∧ t.core = s.core ∧
        t.mgr.msix = s.mgr.msix ++ (if (c.packet[1]?.getD 0).getLsbD 56 = true ∧ c.status ≠ 5 then [c.queue] else []) ∧
        (a = 0 → MemHolds s t (tb + 64 * c.queue + 32) 4 ((c.index + 1) % 2 ^ 32)) ∧
        (∀ p pa, a ≠ 0 → a % 32 = 0 → c.status < 5 → s.mgrPage ((BitVec.ofNat 56 a).signExtend 64) .write = some p →
          pa = p.frame + (va56 ((BitVec.ofNat 56 a).signExtend 64) - p.base) →
          (∀ b, pa ≤ b → b < pa + 32 → b < tb + 64 * c.queue + 32 ∨ tb + 64 * c.queue + 36 ≤ b) →
          Memory.readLE t.mem pa 8 = c.index + 2 ^ 32 * c.status + 2 ^ 36 * bit c.late)))

/-! ### Events of contexts, stops and traces -/

/-- R96, R288, R331, R333-R338, R340, R366, R367, R371, R372, R374, R375: pre-emption and its deadline; a context saved and restored; a
debugger halt and its stop; watch reports; samples. -/
def Obligations.ContextEvents : Prop :=
  ∀ s : State,
    (∀ i st, (i = Instr.preempt ∧ st = Status.preempted ∧ s.inp.preempt = true) ∨
        (i = Instr.debughalt ∧ st = Status.halted ∧ s.inp.halt = true) → s.mayStop = true →
      ∃ t, exec i s = .next t ∧ t.core.status = st ∧ t.core.pc = (if s.core.wfi = true then s.core.pc + 4 else s.core.pc) ∧
        t.core.g = s.core.g ∧ t.csr = s.csr ∧ t.cell.rsp = s.cell.rsp ∧ t.mem = s.mem ∧
        (∀ (q : Nat) v, s.cell.queues[q]? = some v → t.cell.queues[q]? = some { v with
          run := v.run.map fun e => if Instr.isControl e.op = true ∧ e.fin = none then { e with waited := 0 } else e }) ∧
        (s.core.reinject = [] → t.core.preLatch.map Latch.target =
          ((s.core.inflight.filter fun l => decide (s.clk < l.visible)).take 12).map Latch.target) ∧
        (st = .preempted → t.inp = { s.inp with preempt := false } ∧ t.mgr = s.mgr) ∧
        (st = .halted → t.inp = { s.inp with halt := false } ∧ t.mgr = { s.mgr with stop := [] })) ∧
    (s.inp.preempt = true → s.core.status = .halted → exec .preempt s = .next { s with
      core := { s.core with status := .preempted }, mgr := { s.mgr with heldHalted := true }
      inp := { s.inp with preempt := false } }) ∧
    (∀ c, s.mgr.preemptAt = some c → s.core.status = .preempted → c + s.mgr.deadline ≤ s.clk →
      ∃ t, exec .hardStop s = .next t ∧ t = { s with
          cell := { s.cell with queues := t.cell.queues }
          sys := { s.sys with replies := t.sys.replies, readClks := t.sys.readClks, missed := t.sys.missed } } ∧
        (∀ q v, q < 13 → s.cell.queues[q]? = some v →
          t.cell.queues[q]? = some { v with stopped := v.stopped || s.queueMoves q }) ∧
        ∀ r, r ∈ t.sys.replies ↔ r ∈ s.sys.replies ∧ ¬ ReadAhead s r) ∧
    (s.mayDepart = true → ∃ t, exec .contextSave s = .next t ∧ t.core.status = .away ∧ t.mgr.images = s.image ∧
      t.mgr.departed = s.clk - 1 ∧ t.mgr.preemptAt = none ∧ t.core.g = s.core.g ∧ t.core.pc = s.core.pc ∧
      t.cell.rsp = s.cell.rsp ∧ t.cell.queues = s.cell.queues ∧ (∀ r, r ∈ t.sys.reqs → r.origin ≠ .own) ∧
      ∀ x, x ∈ s.lq.troupes → s.gcell ∈ x.cells → x.away = false → { x with away := true } ∈ t.lq.troupes) ∧
    (s.mayDepart = false → exec .contextSave s = .next s) ∧
    (s.mgr.restoreAt = none → s.inp.restore = true → s.core.status = .away → s.placeFree = true →
      (s.mgr.images.all sectionOk = true → 0 < s.inp.restoreClk → s.trace 0 = false → ∃ t, exec .contextRestore s = .next t ∧
        s.inp.place[s.cell.rank]?.getD s.gcell = t.gcell ∧ t.core = { s.core with status := .preempted } ∧
        t.mgr = { s.mgr with restoreAt := some (s.clk + s.inp.restoreClk) } ∧ t.inp = { s.inp with restore := false } ∧
        t.sys.tlb = [] ∧ t.sys.ctlb = [] ∧ t.cell.rspErr = [] ∧ t.cell.storeErr = [] ∧
        (∀ w, t.word w = if s.cell.dirtyBanks.getLsbD (w / 4096) = true then s.word w else 0) ∧
        (∀ a, Sparse.get t.cell.store0 a = if Sparse.get s.cell.dirtyGran (a / 4096) = 1 then Sparse.get s.cell.store0 a
          else 0) ∧
        (∀ x, x ∈ s.lq.troupes → s.gcell ∈ x.cells → x.away = true →
          ∃ y, y ∈ t.lq.troupes ∧ y.cells = s.inp.place ∧ y.away = false) ∧
        ∀ e, e < 28 → Sparse.get t.sys.vc (32 * (t.gcell / 64) + e) = BitVec.ofNat 40 (max
          (Sparse.get s.sys.vc (32 * (t.gcell / 64) + e)).toNat (Sparse.get s.sys.vc (32 * (s.gcell / 64) + e)).toNat)) ∧
      (s.mgr.images.all sectionOk = false → exec .contextRestore s = .next { s with
        mgr := { s.mgr with reports := s.mgr.reports ++ [(6, none)] }, inp := { s.inp with restore := false } })) ∧
    (∀ c, s.mgr.restoreAt = some c → c ≤ s.clk → s.coll.parked = [] → ∃ t, exec .contextRestore s = .next t ∧
      t.mgr = { s.mgr with restoreAt := none, heldHalted := false } ∧
      (s.mgr.heldHalted = true → t.core = { s.core with status := .halted }) ∧
      (s.mgr.heldHalted = false → t.core.status = s.goesOn ∧ t.core.reinject = s.core.preLatch ∧ t.core.preLatch = [] ∧
        t.core.pc = s.core.pc ∧ t.core.g = s.core.g ∧ t.mem = s.mem ∧
        ∀ (q : Nat) v, s.cell.queues[q]? = some v → t.cell.queues[q]? = some { v with
          stopped := false, waited := 0
          run := v.run.map fun e => { e with next := e.done }, armed := v.armed.map fun e => { e with next := e.done } })) ∧
    (s.core.status = .halted → s.mgr.stop = [] → s.allSettled = true → ∃ t ws, exec .stop s = .next t ∧
      t = { s with mgr := { s.mgr with stop := ws } } ∧ ws.length = 47 ∧
      ws[0]? = some (BitVec.ofNat 64 (s.core.pc.toNat % 2 ^ 56)) ∧ ws[46]? = some s.acct.elapsed ∧
      (∀ q, q < 13 → ws[1 + q]? = some (BitVec.ofNat 64 (s.oldestSeq q))) ∧
      ∀ n, n < 32 → ws[14 + n]? = some (BitVec.ofNat 64
        ((s.core.q[2 * n]?.getD 0).toNat + 2 ^ 32 * (s.core.q[2 * n + 1]?.getD 0).toNat))) ∧
    (∀ r rs, s.dbg.coming = r :: rs → s.resident = true → s.core.status ≠ .halted → Sparse.get s.csr 0x0C0 = 0 →
      (s.dbg.war.length < 8 → ∃ t, exec .watchReportEntry s = .next t ∧
        t.dbg = { s.dbg with coming := rs, war := s.dbg.war ++ [{ r with at' := min 255 (s.clk - r.at') }] } ∧
        t.readCsr 0x100 = s.readCsr 0x100 ||| 0x80000 ∧ (∀ n, n ≠ 0x100 → t.readCsr n = s.readCsr n) ∧ t.core = s.core) ∧
      (8 ≤ s.dbg.war.length → exec .watchReportEntry s = .next { s with
        dbg := { s.dbg with coming := rs, warLost := min 0xFFFF (s.dbg.warLost + 1) } })) ∧
    (∀ b h, s.core.status = .running → s.cell.endedRanks.getLsbD s.cell.rank = false → s.trace 0 = true →
      b = 64 * field (s.readCsr 0x0C1) 6 50 → h = 16 * field (s.readCsr 0x0C3) 4 36 →
      h + 160 ≤ 64 * field (s.readCsr 0x0C2) 6 34 →
      (∀ j, j < 10 → ∃ p, OutputPage s (canon (b + (h + 16 * j))) .write 16 p) →
      ∃ t ws, exec .sample s = .next t ∧ t.readCsr 0x0C3 = BitVec.ofNat 64 (h + 160) ∧
        (∀ n, n ≠ 0x0C3 → t.readCsr n = s.readCsr n) ∧ t.sys.reqs = s.sys.reqs ++ ws ∧ ws.length = 10 ∧ t.core = s.core ∧
        t.cell = s.cell ∧ t.mem = s.mem) ∧
    (s.trace 0 = false → exec .sample s = .next s)

/-! ### Events of the fabric -/

/-- R328, R329, R352-R357, R391, R392: refusals; packets and requests that arrive; flits; links that retry, go down and are retired;
routing tables. -/
def Obligations.FabricEvents : Prop :=
  ∀ s : State,
    (∀ r rs, s.fab.out = r :: rs → s.toRoute r = true → r.origin = .own → r.queue = 15 → r.dest ≠ .vat → r.dest ≠ .mgr →
      (∀ n, r.dest ≠ .table n) →
      (∀ w, s.stuck r = some w → ∃ t, exec .fabricRefusalArrives s = .next t ∧ RefusedTo s t r w s.devid ∧
        t.fab.out = rs.filter (fun q => q.id != r.id)) ∧
      (∀ x xs, s.stuck r = none → rs = [] → s.inp.refusals = (r.id, x) :: xs → ∃ t, exec .fabricRefusalArrives s = .next t ∧
        RefusedTo s t r x.why x.dev ∧ t.fab.out = [] ∧ t.inp = { s.inp with refusals := xs })) ∧
    (∀ x xs, s.inp.transit = x :: xs →
      (∀ i p, s.member x.port x.key = true → s.hopTo x.goal = some i → s.member i x.key = true → s.fab.ports[i]? = some p →
        ∃ t, exec .ingressRequestArrival s = .next t ∧ t.inp = { s.inp with transit := xs } ∧
          t.fab.ports[i]? = some (withFlits p { n := x.flits, cls := x.cls, dev := x.goal, id := none, own := false }) ∧
          t.core = s.core ∧ t.sys = s.sys) ∧
      (s.member x.port x.key = false → (∃ i, s.hopTo x.dev = some i) → ∃ t, exec .ingressRequestArrival s = .next t ∧
        t.inp = { s.inp with transit := xs } ∧ CountsDrop s t x.port ∧ t.core = s.core ∧ t.sys = s.sys ∧
        t.fab.back = s.fab.back ++ if x.reply = true then [] else [(x.dev, 1, 0)])) ∧
    (∀ g gs, s.inp.transit = [] → s.fab.waiting = [] → s.inp.ingress = g :: gs → g.void = false → (∃ i, s.hopTo g.dev = some i) →
      (∀ i w, (s.member g.port g.key = false ∧ i = g.port ∧ w = 1) ∨
          (s.member g.port g.key = true ∧ s.member 36 g.key = false ∧ i = 36 ∧ w = 2) →
        ∃ t, exec .ingressRequestArrival s = .next t ∧ t.inp = { s.inp with ingress := gs } ∧ RepliesTo s t g.dev w 0 ∧
          t.sys = s.sys ∧ t.core = s.core ∧ CountsDrop s t i ∧ (g.seq = s.expected g → t.expected g = g.seq + 1)) ∧
      (s.member g.port g.key = true → s.member 36 g.key = true →
        (g.seq < s.expected g →
          exec .ingressRequestArrival s = .next { s with inp := { s.inp with ingress := gs } }) ∧
        (s.expected g < g.seq ∨ s.sys.hold = true ∧ s.expected g ≤ g.seq → exec .ingressRequestArrival s = .next { s with
          inp := { s.inp with ingress := gs }, fab := { s.fab with waiting := [g] } }) ∧
        (g.seq = s.expected g → s.ingressHeld g = false →
          (∀ w, ((∃ a, g.casid = some a) ∧ s.fab.compat = false ∧ w = 4) ∨
              (g.casid = none ∧ (∀ c, g.op ≠ .contrib c) ∧ s.presentPa g.pa = false ∧ w = 7) →
            ∃ t, exec .ingressRequestArrival s = .next t ∧ RepliesTo s t g.dev w 0 ∧ t.sys = s.sys ∧ t.core = s.core ∧
              t.expected g = g.seq + 1) ∧
          (∀ a, g.casid = none → ((∀ c, g.op ≠ .contrib c) ∧ s.presentPa g.pa = true ∧ a = g.pa) ∨
              (∃ c, g.op = .contrib c ∧ a = c.tcell / 64 * 2 ^ 37) →
            ∃ t r, exec .ingressRequestArrival s = .next t ∧ t.sys.reqs = s.sys.reqs ++ [r] ∧
              r.op = g.op ∧ r.pa = a ∧ r.home = homeOf a ∧ r.die = g.hub ∧ r.origin = .module g.dev g.cell ∧
              r.key = g.key ∧ r.cls = g.cls ∧ r.id = s.sys.nextId ∧ (g.op.writes = true → g.hub ∈ t.sys.wrote) ∧
              (g.op.writes = true → ∀ e, e < 28 → r.stamp[e]?.getD 0 =
                (Sparse.get s.sys.vc (32 * g.hub + e)).toNat + if e = g.hub then 1 else 0) ∧
              (∀ e, e < 28 → r.rclk[e]?.getD 0 = (Sparse.get s.sys.vc (32 * g.hub + e)).toNat) ∧
              t.inp = { s.inp with ingress := gs } ∧ t.core = s.core ∧ t.expected g = g.seq + 1)))) ∧
    (∀ i p, s.actq = i → s.fab.ports[i]? = some p → p.up = true → p.window = s.clk / 2000 → s.fab.out = [] →
      (∀ f fs ns, p.queues = (f :: fs) :: ns → 0 < f.n → p.used0 ≤ 3125 → ∃ t, exec .flitArbitration s = .next t ∧
        t.fab.ports[i]? = some { p with
          queues := (if f.n = 1 then fs else { f with n := f.n - 1 } :: fs) :: ns, used0 := p.used0 + 1
          nextSeq := p.nextSeq + 1, unacked := p.unacked ++ [(p.nextSeq, { f with n := 1 })] } ∧
        t.core = s.core ∧ t.cell = s.cell) ∧
      (∀ f fs c d, p.queues = [[], [], f :: fs, []] → 0 < f.n → p.turn = 2 → p.deficit = [0, 0, d + 1, c] →
        ∃ t, exec .flitArbitration s = .next t ∧ t.fab.ports[i]? = some { p with
          queues := [[], [], if f.n = 1 then fs else { f with n := f.n - 1 } :: fs, []], deficit := [0, 0, d, c]
          nextSeq := p.nextSeq + 1, unacked := p.unacked ++ [(p.nextSeq, { f with n := 1 })] } ∧ t.core = s.core) ∧
      (p.queues = [[], [], [], []] → exec .flitArbitration s = .next s)) ∧
    (∀ i n p as, s.inp.flitAcks = (i, n) :: as → s.fab.ports[i]? = some p → ∃ t, exec .linkRetry s = .next t ∧
      t.fab.ports[i]? = some { p with unacked := p.unacked.filter (fun k => decide (n < k.1)), retries := 0 } ∧
      t.inp = { s.inp with flitAcks := as } ∧ t.core = s.core) ∧
    (∀ i p is, s.inp.flitAcks = [] → s.inp.flitFail = i :: is → s.fab.ports[i]? = some p →
      ∃ t, exec .linkRetry s = .next t ∧ t.fab.ports[i]? = some { p with retries := p.retries + 1 } ∧
        t.inp = { s.inp with flitFail := is } ∧ t.core = s.core) ∧
    (∀ i p, s.fab.ports[i]? = some p → p.up = true → 16 ≤ p.retries →
      (∀ j q, j < i → s.fab.ports[j]? = some q → ¬ (q.up = true ∧ 16 ≤ q.retries)) →
      ∃ t, exec .linkDown s = .next t ∧ TakenDown s t i p ∧ t.fab.out = s.fab.out ∧ t.core = s.core ∧ t.inp = s.inp ∧
        (s.mgr.phase ≠ 15 → t.mgr = { s.mgr with err := 0x12, msix := s.mgr.msix ++ [1025] })) ∧
    (∀ i p is, s.inp.linkFail = i :: is → s.fab.ports[i]? = some p → s.mgr.phase ≠ 15 →
      ∃ t, exec .linkRetirement s = .next t ∧ TakenDown s t i p ∧ t.inp = { s.inp with linkFail := is } ∧
        t.mgr = { s.mgr with err := 0x12, msix := s.mgr.msix ++ [1025] } ∧ t.core = s.core) ∧
    (∀ k v, s.inp.routes = [(k, v)] → s.inp.spares = [] → ∃ t, exec .routingTableRewrite s = .next t ∧
      (∀ d w, w < 4 → t.route d w = if 4 * d + w = k
        then v &&& (if w = 0 then 0x7FF else if w = 3 then 0 else 0x07FF07FF07FF07FF) else s.route d w) ∧ t.inp.routes = [] ∧
      t.core = s.core ∧ ∀ i p, s.fab.ports[i]? = some p → (mapOf t.mgr.portmap (24 + i / 9)).getLsbD (i % 9) =
        ((mapOf s.mgr.portmap (24 + i / 9)).getLsbD (i % 9) && p.up)) ∧
    (∀ i p, s.inp.spares = [i] → s.fab.ports[i]? = some p → ∃ t, exec .routingTableRewrite s = .next t ∧
      t.fab.ports[i]? = some { p with up := true, retries := 0 } ∧ t.inp.spares = [] ∧
      (mapOf t.mgr.portmap (24 + i / 9)).getLsbD (i % 9) = true ∧
      (mapOf t.mgr.portmap (24 + i / 9)).getLsbD (9 + i % 9) = true ∧
      (s.mgr.phase ≠ 15 → t.mgr.err = 0x12 ∧ t.mgr.msix = s.mgr.msix ++ [1025]))

/-! ### Events of the host, resets and repair -/

/-- R294, R302, R352, R360, R361, R372, R375, R384, R393, R402, R405-R408: the mailbox and its commands; host writes and reads; resets; bring-up; scrubbing; a cell
retired. -/
def Obligations.HostEvents : Prop :=
  ∀ s : State,
    (∀ bar off n v ws, s.inp.hostWrites = (bar, off, n, v) :: ws → s.mgr.linkUp = true →
      (∀ i, bar = 2 → i < 8 → off = 0x10 + 8 * i → ∃ t, exec .hostWrite s = .next t ∧
        t.inp = { s.inp with hostWrites := ws } ∧
        (∀ j, j < 8 → t.mgr.args[j]? = if j = i then some v else s.mgr.args[j]?) ∧ t.mgr.cmd = s.mgr.cmd ∧
        t.core = s.core ∧ t.mem = s.mem) ∧
      (∀ c, bar = 2 → off = 8 → v = BitVec.ofNat 64 c → 1 ≤ c → c ≤ 7 → s.mgr.phase = 5 ∨ c = 7 →
        (s.mgr.busy = false → exec .hostWrite s = .next { s with
          inp := { s.inp with hostWrites := ws }, mgr := { s.mgr with busy := true, cmd := some c } }) ∧
        (s.mgr.busy = true → exec .hostWrite s = .next { s with inp := { s.inp with hostWrites := ws } })) ∧
      (bar = 4 → s.mgr.phase = 5 → inNotify (s.mgr.aperture + off) = false → 0 < n →
        (∀ i, i < n → s.presentPa (s.mgr.aperture + off + i) = true) →
        (HostFree s → s.dieHeld 24 true = false → ∃ t r bs, exec .hostWrite s = .next t ∧ t.sys.reqs = s.sys.reqs ++ [r] ∧
          r.op = .store bs ∧ bs.length = n ∧ (∀ i, i < n →
            bs[i]? = some (s.mgr.aperture + off + i, BitVec.ofNat 8 (v.toNat / 256 ^ i))) ∧
          r.pa = s.mgr.aperture + off ∧ r.home = homeOf (s.mgr.aperture + off) ∧ r.die = 24 ∧ r.origin = .hub 24 ∧
          r.queue = 15 ∧ (∀ e, e < 28 → r.stamp[e]?.getD 0 =
            (Sparse.get s.sys.vc (32 * 24 + e)).toNat + if e = 24 then 1 else 0) ∧
          t.inp = { s.inp with hostWrites := ws } ∧ t.mem = s.mem ∧ t.core = s.core ∧ t.cell = s.cell) ∧
        (¬ HostFree s → exec .hostWrite s = .next s))) ∧
    (∀ bar off n rs, s.inp.hostReads = (bar, off, n) :: rs → s.mgr.linkUp = true →
      (bar = 2 → off = 0 → exec .hostRead s = .next { s with inp := { s.inp with
        hostReads := rs, hostData := s.inp.hostData ++
          [BitVec.ofNat 64 (s.mgr.phase + 2 ^ 8 * s.mgr.err + 2 ^ 16 * bit s.mgr.busy)] } }) ∧
      (bar ≠ 2 → s.mgr.phase ≠ 5 → exec .hostRead s = .next { s with inp := { s.inp with
        hostReads := rs, hostData := s.inp.hostData ++ [BitVec.ofNat 64 (2 ^ (8 * n) - 1)] } }) ∧
      (bar = 4 → s.mgr.phase = 5 → s.mgr.memErr = [] → inNotify (s.mgr.aperture + off) = false →
        s.presentPa (s.mgr.aperture + off) = true →
        (HostFree s → s.dieHeld 24 false = false →
          (∀ e, e < 28 → (Sparse.get s.sys.vc (32 * 24 + e)).toNat ≤ (Sparse.get s.sys.front e).toNat) →
          ∃ t, exec .hostRead s = .next t ∧ t.mem = s.mem ∧ t.core = s.core ∧
            t.inp = { s.inp with hostReads := rs, hostData := s.inp.hostData ++
              [BitVec.ofNat 64 (Memory.readLE s.mem (s.mgr.aperture + off) n)] } ∧
            ∀ e, e < 28 → Sparse.get t.sys.vc (32 * 24 + e) = BitVec.ofNat 40 (max (Sparse.get s.sys.vc (32 * 24 + e)).toNat
              (Sparse.get s.sys.maxv (32 * homeOf (s.mgr.aperture + off) + e)).toNat)) ∧
        (¬ HostFree s → exec .hostRead s = .next s))) ∧
    (∀ a, a = (s.mgr.args[0]?.getD 0).toNat →
      (s.mgr.cmd = some 1 → ∃ t, exec .aperture s = .next t ∧ Ended s t (if a % 2 ^ 36 = 0 then 0 else 1) ∧
        t.mgr.aperture = (if a % 2 ^ 36 = 0 then a else s.mgr.aperture) ∧ t.core = s.core ∧ t.csr = s.csr) ∧
      (s.mgr.cmd = some 2 → (a % 65536 = 0 → s.mgr.qtable = none → ∃ t, exec .qtable s = .next t ∧ Ended s t 0 ∧
          t.mgr.qtable = some a ∧ t.mem = s.mem) ∧
        (a % 65536 ≠ 0 ∨ (∃ q, q ∈ s.qUsed) → ∃ t, exec .qtable s = .next t ∧ Ended s t 1 ∧
          t.mgr.qtable = s.mgr.qtable)) ∧
      (∀ i n lo hi, (i = Instr.cap ∧ s.mgr.cmd = some 3 ∧ n = 0x1D1 ∧ lo = 6000 ∧ hi = 18000) ∨
          (i = Instr.tickper ∧ s.mgr.cmd = some 4 ∧ n = 0x181 ∧ lo = 2000 ∧ hi = 2 ^ 40 - 1) →
        ∃ t, exec i s = .next t ∧ Ended s t (if lo ≤ a ∧ a ≤ hi then 0 else 1) ∧
          t.readCsr n = (if lo ≤ a ∧ a ≤ hi then BitVec.ofNat 64 a else s.readCsr n) ∧
          (∀ m, m ≠ n → t.readCsr m = s.readCsr m) ∧ t.core = s.core) ∧
      (s.mgr.cmd = some 5 → s.mgr.haltAsked = false →
        (∀ x, s.argTroupe = some x → s.gcell ∈ x.cells → x.away = false → s.core.status = .running → exec .halt s = .next { s with
          mgr := { s.mgr with haltAsked := true }, inp := { s.inp with halt := true } }) ∧
        (s.argTroupe = none → ∃ t, exec .halt s = .next t ∧ Ended s t 1 ∧ t.inp = s.inp ∧ t.core = s.core)) ∧
      (s.mgr.cmd = some 5 → s.mgr.haltAsked = true → s.core.status = .halted → s.mgr.stop ≠ [] →
        ∃ t, exec .halt s = .next t ∧ Ended s t 0 ∧ t.mgr.res[1]? = some (BitVec.ofNat 64 s.cell.troupeSize) ∧
          t.mgr.haltAsked = false ∧ t.core = s.core) ∧
      (s.mgr.cmd = some 6 → ∀ x, s.argTroupe = some x → s.gcell ∈ x.cells → x.away = false → s.core.status = .halted →
        ∃ t, exec .resume s = .next t ∧ Ended s t 0 ∧ t.core.status = s.goesOn ∧ t.core.pc = s.core.pc ∧
          t.core.g = s.core.g ∧ t.core.reinject = s.core.preLatch ∧ t.core.skipBkpt = true ∧ t.mgr.stop = [] ∧
          ∀ q v, q < 13 → t.cell.queues[q]? = some v → v.stopped = false) ∧
      (s.mgr.cmd = some 7 → ∃ t, exec .warmreset s = .next t ∧
        (∀ x, Sparse.get t.mem x = if x < 0x2000000000000 then Sparse.get s.mem x else 0) ∧
        (∀ l, Sparse.get t.mgr.memErr l = if 64 * l < 0x2000000000000 then Sparse.get s.mgr.memErr l else 0) ∧
        t.mgr.chanmap = s.mgr.chanmap ∧ t.mgr.warm = true ∧ t.mgr.phase = 0 ∧ t.mgr.qtable = none ∧ t.core = Core.reset ∧
        t.cell = Cell.reset ∧ t.sys = MemSys.reset ∧ ∀ n, partCsr n = false → t.readCsr n = State.reset.readCsr n)) ∧
    (s.inp.cold = true → ∃ t, exec .coldReset s = .next t ∧ t.mem = [] ∧ t.core = Core.reset ∧ t.cell = Cell.reset ∧
      t.sys = MemSys.reset ∧ t.mgr = Manager.reset ∧ t.clk = 0 ∧ t.inp = { s.inp with cold := false } ∧
      ∀ n, partCsr n = false → t.readCsr n = State.reset.readCsr n) ∧
    (s.inp.linkReset = true → exec .linkReset s = .next { s with
      mgr := { s.mgr with linkUp := true }, inp := { s.inp with linkReset := false } }) ∧
    (0 < s.inp.phasesDone → s.mgr.phase ≠ 5 → s.mgr.phase ≠ 15 →
      (∀ e, s.inp.bringErr = e → (e = 10 ∨ (s.mgr.phase = 0 ∧ (e = 2 ∨ e = 3 ∨ e = 4)) ∨ (s.mgr.phase = 1 ∧ e = 5) ∨
          (s.mgr.phase = 2 ∧ (e = 6 ∨ e = 7)) ∨ (s.mgr.phase = 3 ∧ (e = 8 ∨ e = 9))) → ∃ t, exec .bringUpPhase s = .next t ∧ t.mgr.phase = 15 ∧ t.mgr.err = e ∧
        t.mgr.msix = s.mgr.msix ++ [1025] ∧ t.core = s.core) ∧
      (s.inp.bringErr = 0 → s.mgr.phase = 0 → ∃ t, exec .bringUpPhase s = .next t ∧ t.mgr.phase = 1 ∧
        t.mgr.linkUp = true ∧ t.core = s.core) ∧
      (s.inp.bringErr = 0 → s.mgr.phase = 3 → s.inp.maps = [] →
        (∀ i, i < 36 → (mapOf s.mgr.portmap (24 + i / 9)).getLsbD (9 + i % 9) = false) →
        ((∀ i, i < 36 → PortTrained s i = false) → ∃ t, exec .bringUpPhase s = .next t ∧ Ready s t ∧
          t.readCsr 0x1B0 = (if field (s.readCsr 0x1C0) 0 8 = 2 then 0x1111000 else 0x4210000) ∧
          ∀ d w, t.route d w = if w = 0 then (if d = 0 then 0x43F else 63) else 0) ∧
        (∀ i, i < 36 → PortTrained s i = true →
          ((i, field s.inp.devid 0 11) ∈ s.inp.cabled → ∃ t, exec .bringUpPhase s = .next t ∧ t.mgr.phase = 15 ∧
            t.mgr.err = 9 ∧ t.mgr.msix = s.mgr.msix ++ [1025] ∧ t.core = s.core) ∧
          ((∀ j, (j, field s.inp.devid 0 11) ∉ s.inp.cabled) →
            (∀ g, g = field s.inp.devid 12 1 → Cabled s g → ∃ t, exec .bringUpPhase s = .next t ∧ Ready s t ∧
              t.readCsr 0x1B0 = BitVec.ofNat 64 (field s.inp.devid 0 11 + 2 ^ 12 * g +
                2 ^ 16 * if g = 0 then 1057 else 273)) ∧
            (¬ Cabled s 0 → ¬ Cabled s 1 → ∃ t, exec .bringUpPhase s = .next t ∧ t.mgr.phase = 15 ∧ t.mgr.err = 8 ∧
              t.mgr.msix = s.mgr.msix ++ [1025] ∧ t.core = s.core))))) ∧
    (∀ w, s.clk % 16 = 0 → w = s.clk / 16 % 49152 → s.inp.scrub = [] → s.cell.storeErr = [] →
      (Sparse.get s.cell.rspErr w = 1 → ∃ t, exec .scrubStep s = .next t ∧
        (∀ x, Sparse.get t.cell.rspErr x = if x = w then 0 else Sparse.get s.cell.rspErr x) ∧ t.mgr.badAddrs = s.mgr.badAddrs ∧
        t.cell.rsp = s.cell.rsp ∧ t.core = s.core) ∧
      (2 ≤ (Sparse.get s.cell.rspErr w).toNat → ∃ t, exec .scrubStep s = .next t ∧
        t.mgr.badAddrs = s.mgr.badAddrs ++ [(1, 4 * w)] ∧ t.cell = s.cell ∧ t.core = s.core)) ∧
    (∀ c cs, s.inp.retire = c :: cs → c < 1536 → ∃ t, exec .cellRetirement s = .next t ∧
      (∀ d b, d < 28 → b < 64 → (mapOf t.mgr.cellmap d).getLsbD b =
        ((mapOf s.mgr.cellmap d).getLsbD b && !decide (64 * d + b = c))) ∧ t.core = s.core ∧ t.cell = s.cell ∧
      (c = s.gcell → s.resident = true → t.inp.preempt = true ∧ t.inp.restore = true) ∧ t.inp.retire = cs)

/-! ### Events of power and temperature -/

/-- R399, R401-R403: junction readings, the trip, the power cap, changes of ratio. -/
def Obligations.PowerEvents : Prop :=
  ∀ s : State,
    (∀ i d, s.inp.sensors = [(i, d)] → i ∈ s.islands → d < 2 ^ 16 → s.pwr.temps = [] → s.pwr.hot = [] →
      s.pwr.capped = [] →
      (100 ≤ d → ∃ t n, exec .junctionSensorRead s = .next t ∧ n = (if 110 ≤ d then 1 else 15) ∧ t.pwr.hot = [(i, n)] ∧
        t.pwr.pending = s.pwr.pending.filter (fun p => p.1 != i) ++ [(i, n)] ∧
        (s.mgr.phase ≠ 15 → t.mgr.err = 0x13 ∧ t.mgr.msix = s.mgr.msix ++ [1025]) ∧ t.core = s.core) ∧
      (d < 100 → ∃ t, exec .junctionSensorRead s = .next t ∧ t.pwr.hot = [] ∧ t.pwr.pending = s.pwr.pending ∧
        Sparse.get t.pwr.temps i = BitVec.ofNat 16 d ∧ t.mgr = s.mgr ∧ t.core = s.core)) ∧
    (s.trips = true → ∃ t, exec .thermalTrip s = .next t ∧ t.mem = [] ∧ t.core = Core.reset ∧ t.cell = Cell.reset ∧
      t.mgr = { Manager.reset with err := 1, linkUp := false } ∧ t.inp.coolantLost = false ∧ t.inp.sensors = []) ∧
    (∀ c, c = (s.readCsr 0x1D1).toNat % 2 ^ 16 →
      (∀ i, c < s.inp.power → s.nextLower = some i → ∃ t, exec .powerCapStep s = .next t ∧
        t.pwr.capped = i :: s.pwr.capped ∧ (∃ n, (i, n) ∈ t.pwr.pending) ∧
        t.readCsr 0x1D2 = BitVec.ofNat 64 (min 0xFFFF s.inp.power) ∧ t.core = s.core) ∧
      (∀ i is, s.inp.power < c → s.pwr.capped = i :: is → ∃ t, exec .powerCapStep s = .next t ∧ t.pwr.capped = is ∧
        (∃ n, (i, n) ∈ t.pwr.pending) ∧ t.readCsr 0x1D2 = BitVec.ofNat 64 (min 0xFFFF s.inp.power) ∧ t.core = s.core) ∧
      (c = s.inp.power → ∃ t, exec .powerCapStep s = .next t ∧ t.pwr = s.pwr ∧ t.readCsr 0x1D2 = BitVec.ofNat 64 c ∧
        t.core = s.core)) ∧
    (s.clk % 16 = 0 → (∀ i n, s.pwr.pending = [(i, n)] → s.inp.ratios = [] → 1 ≤ n → n ≤ 16 →
        ∃ t, exec .ratioChange s = .next t ∧ t = { s with pwr := { s.pwr with slow := t.pwr.slow, pending := [] } } ∧
          ∀ j, 16 - (Sparse.get t.pwr.slow j).toNat = if j = i then n else 16 - (Sparse.get s.pwr.slow j).toNat)) ∧
    (s.clk % 16 ≠ 0 → exec .ratioChange s = .next s)

/-! ### Encodings -/

/-- R57-R74, R162-R185: what the encoder writes, the decoder reads back: a unit with its prefixes, whatever words follow it; an engine
word on its engine. -/
def Obligations.DecodeEncode : Prop :=
  (∀ i ws, i.isCore = true → i.wellFormed = true → decode (encode i ++ ws) = .unit i i.words) ∧
    ∀ e i, i.onEngine e = true → decodeEngine e (encodeEngine i) = some i

/-- R57-R70: words written out from their encodings decode to their instructions. -/
def Obligations.DecodedWords : Prop :=
  decode [0x21350046] = .unit (.shri 9 21 6) 1 ∧ decode [0x60000001] = .unit .rett 1 ∧
    decode [0x64A00001] = .unit (.csrr 5 0x001) 1 ∧ decode [0x0E0A5803] = .unit (.rank 16 10 11 false false) 1 ∧
    decode [0xC4050003] = .unit (.qadd 5 3) 1 ∧ decodeEngine .matrix 0xA000 = some .dup ∧
    decodeEngine .copy 0xC200 = some .cfill ∧ decodeEngine .transfer 0xC300 = some .xroute

/-! ### Steps -/

/-- R57, R65, R71, R154, R191: a step runs the unit at the pc, with its energy counted and the work of the clk planned; the head word of the
queue whose turn it is; the event whose turn it is. The agenda that says whose turn it is is the model's choice (log 2). -/
def Obligations.StepRuns : Prop :=
  ∀ s : State,
    (∀ i ws, ComesToIssue s → UnitAtPc s i ws → step s = after (exec i s) fun t => (t.countIssued s i).withWork s) ∧
    (∀ q rest v w i, s.agenda = .word q :: rest → s.cell.queues[q]? = some v → v.words.head? = some w →
      decodeEngine (if q = 0 ∨ v.inChain = true then .matrix else if q ≤ 8 then .copy else .transfer) w.w.toNat = some i →
      step s = after (exec i { s with agenda := rest, actq := q }) (State.keepRest rest)) ∧
    (∀ q i rest, s.agenda = .event q i :: rest →
      step s = after (exec i { s with agenda := rest, actq := q }) (State.keepRest rest)) ∧
    (∀ (t : State) (i : Instr), (t.countIssued s i).withWork s =
      { t with agenda := clkWork s (t.countIssued s i), acct := { t.acct with occur := (t.countIssued s i).acct.occur } })

/-! ### Invariants -/

/-- R43, R105, R252: every step keeps memory and the three stores in their canonical form. -/
def Obligations.KeepsMemories : Prop := ∀ s t : State, s.memoriesWf = true → step s = .next t → t.memoriesWf = true

/-- R151, R154: every step keeps the order of a clk: its end comes once and last, and each queue issues at most one word
before it. The agenda is the model's choice (log 2). -/
def Obligations.KeepsClkOrder : Prop := ∀ s t : State, clkOrdered s.agenda = true → step s = .next t → clkOrdered t.agenda = true

/-- R405: the machine right after reset is well-formed. -/
def Obligations.ResetWellFormed : Prop := State.reset.wf = true
end

