-- ==== Sys2Proof/Laws/Arms.lean ====
section
/-!
SUPPORT. What `exec` does with each instruction: one equation per arm.
-/

namespace Sys2Proof.Machine

theorem exec_add {d a b x y} (s : State) : exec (.add d a b x y) s = execAdd d a b x y s := rfl
theorem exec_sub {d a b x y} (s : State) : exec (.sub d a b x y) s = execSub d a b x y s := rfl
theorem exec_and {d a b x y} (s : State) : exec (.and d a b x y) s = execAnd d a b x y s := rfl
theorem exec_or {d a b x y} (s : State) : exec (.or d a b x y) s = execOr d a b x y s := rfl
theorem exec_xor {d a b x y} (s : State) : exec (.xor d a b x y) s = execXor d a b x y s := rfl
theorem exec_andn {d a b x y} (s : State) : exec (.andn d a b x y) s = execAndn d a b x y s := rfl
theorem exec_shl {d a b x y} (s : State) : exec (.shl d a b x y) s = execShl d a b x y s := rfl
theorem exec_shr {d a b x y} (s : State) : exec (.shr d a b x y) s = execShr d a b x y s := rfl
theorem exec_sar {d a b x y} (s : State) : exec (.sar d a b x y) s = execSar d a b x y s := rfl
theorem exec_mul {d a b x y} (s : State) : exec (.mul d a b x y) s = execMul d a b x y s := rfl
theorem exec_mulh {d a b x y} (s : State) : exec (.mulh d a b x y) s = execMulh d a b x y s := rfl
theorem exec_mulhu {d a b x y} (s : State) : exec (.mulhu d a b x y) s = execMulhu d a b x y s := rfl
theorem exec_div {d a b x y} (s : State) : exec (.div d a b x y) s = execDiv d a b x y s := rfl
theorem exec_divu {d a b x y} (s : State) : exec (.divu d a b x y) s = execDivu d a b x y s := rfl
theorem exec_rem {d a b x y} (s : State) : exec (.rem d a b x y) s = execRem d a b x y s := rfl
theorem exec_remu {d a b x y} (s : State) : exec (.remu d a b x y) s = execRemu d a b x y s := rfl
theorem exec_min {d a b x y} (s : State) : exec (.min d a b x y) s = execMin d a b x y s := rfl
theorem exec_max {d a b x y} (s : State) : exec (.max d a b x y) s = execMax d a b x y s := rfl
theorem exec_minu {d a b x y} (s : State) : exec (.minu d a b x y) s = execMinu d a b x y s := rfl
theorem exec_maxu {d a b x y} (s : State) : exec (.maxu d a b x y) s = execMaxu d a b x y s := rfl
theorem exec_ceq {d a b x y} (s : State) : exec (.ceq d a b x y) s = execCeq d a b x y s := rfl
theorem exec_cne {d a b x y} (s : State) : exec (.cne d a b x y) s = execCne d a b x y s := rfl
theorem exec_clt {d a b x y} (s : State) : exec (.clt d a b x y) s = execClt d a b x y s := rfl
theorem exec_cltu {d a b x y} (s : State) : exec (.cltu d a b x y) s = execCltu d a b x y s := rfl
theorem exec_cle {d a b x y} (s : State) : exec (.cle d a b x y) s = execCle d a b x y s := rfl
theorem exec_cleu {d a b x y} (s : State) : exec (.cleu d a b x y) s = execCleu d a b x y s := rfl
theorem exec_sel {d a b x y} (s : State) : exec (.sel d a b x y) s = execSel d a b x y s := rfl
theorem exec_popc {d a x} (s : State) : exec (.popc d a x) s = execPopc d a x s := rfl
theorem exec_clz {d a x} (s : State) : exec (.clz d a x) s = execClz d a x s := rfl
theorem exec_ctz {d a x} (s : State) : exec (.ctz d a x) s = execCtz d a x s := rfl
theorem exec_rank {d a b x y} (s : State) : exec (.rank d a b x y) s = execRank d a b x y s := rfl
theorem exec_select {d a b x y} (s : State) : exec (.select d a b x y) s = execSelect d a b x y s := rfl
theorem exec_sext {d a b x y} (s : State) : exec (.sext d a b x y) s = execSext d a b x y s := rfl
theorem exec_bext {d a b x y} (s : State) : exec (.bext d a b x y) s = execBext d a b x y s := rfl
theorem exec_brev {d a x} (s : State) : exec (.brev d a x) s = execBrev d a x s := rfl
theorem exec_addi {d a i1} (s : State) : exec (.addi d a i1) s = execAddi d a i1 s := rfl
theorem exec_andi {d a i1} (s : State) : exec (.andi d a i1) s = execAndi d a i1 s := rfl
theorem exec_ori {d a i1} (s : State) : exec (.ori d a i1) s = execOri d a i1 s := rfl
theorem exec_xori {d a i1} (s : State) : exec (.xori d a i1) s = execXori d a i1 s := rfl
theorem exec_shli {d a n} (s : State) : exec (.shli d a n) s = execShli d a n s := rfl
theorem exec_shri {d a n} (s : State) : exec (.shri d a n) s = execShri d a n s := rfl
theorem exec_sari {d a n} (s : State) : exec (.sari d a n) s = execSari d a n s := rfl
theorem exec_slti {d a i1} (s : State) : exec (.slti d a i1) s = execSlti d a i1 s := rfl
theorem exec_sltiu {d a i1} (s : State) : exec (.sltiu d a i1) s = execSltiu d a i1 s := rfl
theorem exec_addpc {d i1} (s : State) : exec (.addpc d i1) s = execAddpc d i1 s := rfl
theorem exec_muli {d a i1} (s : State) : exec (.muli d a i1) s = execMuli d a i1 s := rfl
theorem exec_j {p} (s : State) : exec (.j p) s = execJ p s := rfl
theorem exec_call {p} (s : State) : exec (.call p) s = execCall p s := rfl
theorem exec_bez {a p} (s : State) : exec (.bez a p) s = execBez a p s := rfl
theorem exec_bnz {a p} (s : State) : exec (.bnz a p) s = execBnz a p s := rfl
theorem exec_bltz {a p} (s : State) : exec (.bltz a p) s = execBltz a p s := rfl
theorem exec_bknone {p} (s : State) : exec (.bknone p) s = execBknone p s := rfl
theorem exec_bkany {p} (s : State) : exec (.bkany p) s = execBkany p s := rfl
theorem exec_bkall {p} (s : State) : exec (.bkall p) s = execBkall p s := rfl
theorem exec_loop {a p} (s : State) : exec (.loop a p) s = execLoop a p s := rfl
theorem exec_jr {a x} (s : State) : exec (.jr a x) s = execJr a x s := rfl
theorem exec_callr {a x} (s : State) : exec (.callr a x) s = execCallr a x s := rfl
theorem exec_endI (s : State) : exec (.endI) s = execEndI s := rfl
theorem exec_nop (s : State) : exec (.nop) s = execNop s := rfl
theorem exec_syscall (s : State) : exec (.syscall) s = execSyscall s := rfl
theorem exec_rett (s : State) : exec (.rett) s = execRett s := rfl
theorem exec_ien (s : State) : exec (.ien) s = execIen s := rfl
theorem exec_idis (s : State) : exec (.idis) s = execIdis s := rfl
theorem exec_wfi (s : State) : exec (.wfi) s = execWfi s := rfl
theorem exec_csrr {d c} (s : State) : exec (.csrr d c) s = execCsrr d c s := rfl
theorem exec_csrw {d a c} (s : State) : exec (.csrw d a c) s = execCsrw d a c s := rfl
theorem exec_csrs {d a c} (s : State) : exec (.csrs d a c) s = execCsrs d a c s := rfl
theorem exec_csrc {d a c} (s : State) : exec (.csrc d a c) s = execCsrc d a c s := rfl
theorem exec_csrx {d a c} (s : State) : exec (.csrx d a c) s = execCsrx d a c s := rfl
theorem exec_zset {d a x} (s : State) : exec (.zset d a x) s = execZset d a x s := rfl
theorem exec_zsetW {d a x} (s : State) : exec (.zsetW d a x) s = execZsetW d a x s := rfl
theorem exec_zget {d a} (s : State) : exec (.zget d a) s = execZget d a s := rfl
theorem exec_zpend {d a} (s : State) : exec (.zpend d a) s = execZpend d a s := rfl
theorem exec_ld {d m od} (s : State) : exec (.ld d m od) s = execLd d m od s := rfl
theorem exec_ldw {d m od} (s : State) : exec (.ldw d m od) s = execLdw d m od s := rfl
theorem exec_st {d m od} (s : State) : exec (.st d m od) s = execSt d m od s := rfl
theorem exec_stw {d m od} (s : State) : exec (.stw d m od) s = execStw d m od s := rfl
theorem exec_vld {d m od} (s : State) : exec (.vld d m od) s = execVld d m od s := rfl
theorem exec_vst {d m od} (s : State) : exec (.vst d m od) s = execVst d m od s := rfl
theorem exec_oqld {d m od} (s : State) : exec (.oqld d m od) s = execOqld d m od s := rfl
theorem exec_aadd {d a b x y od} (s : State) : exec (.aadd d a b x y od) s = execAadd d a b x y od s := rfl
theorem exec_aand {d a b x y od} (s : State) : exec (.aand d a b x y od) s = execAand d a b x y od s := rfl
theorem exec_aor {d a b x y od} (s : State) : exec (.aor d a b x y od) s = execAor d a b x y od s := rfl
theorem exec_axor {d a b x y od} (s : State) : exec (.axor d a b x y od) s = execAxor d a b x y od s := rfl
theorem exec_amin {d a b x y od} (s : State) : exec (.amin d a b x y od) s = execAmin d a b x y od s := rfl
theorem exec_amax {d a b x y od} (s : State) : exec (.amax d a b x y od) s = execAmax d a b x y od s := rfl
theorem exec_aminu {d a b x y od} (s : State) : exec (.aminu d a b x y od) s = execAminu d a b x y od s := rfl
theorem exec_amaxu {d a b x y od} (s : State) : exec (.amaxu d a b x y od) s = execAmaxu d a b x y od s := rfl
theorem exec_aswap {d a b x y od} (s : State) : exec (.aswap d a b x y od) s = execAswap d a b x y od s := rfl
theorem exec_aaddW {d a b x y od} (s : State) : exec (.aaddW d a b x y od) s = execAaddW d a b x y od s := rfl
theorem exec_aandW {d a b x y od} (s : State) : exec (.aandW d a b x y od) s = execAandW d a b x y od s := rfl
theorem exec_aorW {d a b x y od} (s : State) : exec (.aorW d a b x y od) s = execAorW d a b x y od s := rfl
theorem exec_axorW {d a b x y od} (s : State) : exec (.axorW d a b x y od) s = execAxorW d a b x y od s := rfl
theorem exec_aminW {d a b x y od} (s : State) : exec (.aminW d a b x y od) s = execAminW d a b x y od s := rfl
theorem exec_amaxW {d a b x y od} (s : State) : exec (.amaxW d a b x y od) s = execAmaxW d a b x y od s := rfl
theorem exec_aminuW {d a b x y od} (s : State) : exec (.aminuW d a b x y od) s = execAminuW d a b x y od s := rfl
theorem exec_amaxuW {d a b x y od} (s : State) : exec (.amaxuW d a b x y od) s = execAmaxuW d a b x y od s := rfl
theorem exec_aswapW {d a b x y od} (s : State) : exec (.aswapW d a b x y od) s = execAswapW d a b x y od s := rfl
theorem exec_afaddW {d a b x y od} (s : State) : exec (.afaddW d a b x y od) s = execAfaddW d a b x y od s := rfl
theorem exec_cas {d a b x y od} (s : State) : exec (.cas d a b x y od) s = execCas d a b x y od s := rfl
theorem exec_casW {d a b x y od} (s : State) : exec (.casW d a b x y od) s = execCasW d a b x y od s := rfl
theorem exec_vpush {d a b x y od} (s : State) : exec (.vpush d a b x y od) s = execVpush d a b x y od s := rfl
theorem exec_vpop {d a x od} (s : State) : exec (.vpop d a x od) s = execVpop d a x od s := rfl
theorem exec_vpopnb {d a b x od} (s : State) : exec (.vpopnb d a b x od) s = execVpopnb d a b x od s := rfl
theorem exec_rcsnap {d a x od} (s : State) : exec (.rcsnap d a x od) s = execRcsnap d a x od s := rfl
theorem exec_rcread {d a b x y od} (s : State) : exec (.rcread d a b x y od) s = execRcread d a b x y od s := rfl
theorem exec_tnew {a b x y} (s : State) : exec (.tnew a b x y) s = execTnew a b x y s := rfl
theorem exec_tfree {a x} (s : State) : exec (.tfree a x) s = execTfree a x s := rfl
theorem exec_tstate {d a x} (s : State) : exec (.tstate d a x) s = execTstate d a x s := rfl
theorem exec_tsetrdy {a x} (s : State) : exec (.tsetrdy a x) s = execTsetrdy a x s := rfl
theorem exec_twait {a b x y} (s : State) : exec (.twait a b x y) s = execTwait a b x y s := rfl
theorem exec_rgset {n b y} (s : State) : exec (.rgset n b y) s = execRgset n b y s := rfl
theorem exec_rwfill {d n} (s : State) : exec (.rwfill d n) s = execRwfill d n s := rfl
theorem exec_rwfree {d n} (s : State) : exec (.rwfree d n) s = execRwfree d n s := rfl
theorem exec_rclaim {d n s1} (s : State) : exec (.rclaim d n s1) s = execRclaim d n s1 s := rfl
theorem exec_rrelease {n s1} (s : State) : exec (.rrelease n s1) s = execRrelease n s1 s := rfl
theorem exec_abump {d s1 b y} (s : State) : exec (.abump d s1 b y) s = execAbump d s1 b y s := rfl
theorem exec_amark {d s1} (s : State) : exec (.amark d s1) s = execAmark d s1 s := rfl
theorem exec_arelmark {s1 b y} (s : State) : exec (.arelmark s1 b y) s = execArelmark s1 b y s := rfl
theorem exec_aring {d s1 b y} (s : State) : exec (.aring d s1 b y) s = execAring d s1 b y s := rfl
theorem exec_afree {s1 b y} (s : State) : exec (.afree s1 b y) s = execAfree s1 b y s := rfl
theorem exec_astate {d s1 w} (s : State) : exec (.astate d s1 w) s = execAstate d s1 w s := rfl
theorem exec_fence {od} (s : State) : exec (.fence od) s = execFence od s := rfl
theorem exec_bararr {d n od} (s : State) : exec (.bararr d n od) s = execBararr d n od s := rfl
theorem exec_barwait {n b y od} (s : State) : exec (.barwait n b y od) s = execBarwait n b y od s := rfl
theorem exec_barsync {n od} (s : State) : exec (.barsync n od) s = execBarsync n od s := rfl
theorem exec_lend {k s1} (s : State) : exec (.lend k s1) s = execLend k s1 s := rfl
theorem exec_latld {a s1 x} (s : State) : exec (.latld a s1 x) s = execLatld a s1 x s := rfl
theorem exec_qadd {a n} (s : State) : exec (.qadd a n) s = execQadd a n s := rfl
theorem exec_qread {d n} (s : State) : exec (.qread d n) s = execQread d n s := rfl
theorem exec_qwait {a n} (s : State) : exec (.qwait a n) s = execQwait a n s := rfl
theorem exec_qterm {a t} (s : State) : exec (.qterm a t) s = execQterm a t s := rfl
theorem exec_vfadd {d a b x y l} (s : State) : exec (.vfadd d a b x y l) s = execVfadd d a b x y l s := rfl
theorem exec_vfsub {d a b x y l} (s : State) : exec (.vfsub d a b x y l) s = execVfsub d a b x y l s := rfl
theorem exec_vfmul {d a b x y l} (s : State) : exec (.vfmul d a b x y l) s = execVfmul d a b x y l s := rfl
theorem exec_vfma {d a b x y l} (s : State) : exec (.vfma d a b x y l) s = execVfma d a b x y l s := rfl
theorem exec_vfms {d a b x y l} (s : State) : exec (.vfms d a b x y l) s = execVfms d a b x y l s := rfl
theorem exec_vfnma {d a b x y l} (s : State) : exec (.vfnma d a b x y l) s = execVfnma d a b x y l s := rfl
theorem exec_vfmin {d a b x y l} (s : State) : exec (.vfmin d a b x y l) s = execVfmin d a b x y l s := rfl
theorem exec_vfmax {d a b x y l} (s : State) : exec (.vfmax d a b x y l) s = execVfmax d a b x y l s := rfl
theorem exec_vfabs {d a x l} (s : State) : exec (.vfabs d a x l) s = execVfabs d a x l s := rfl
theorem exec_vfneg {d a x l} (s : State) : exec (.vfneg d a x l) s = execVfneg d a x l s := rfl
theorem exec_vbadd {d a b x y l} (s : State) : exec (.vbadd d a b x y l) s = execVbadd d a b x y l s := rfl
theorem exec_vbsub {d a b x y l} (s : State) : exec (.vbsub d a b x y l) s = execVbsub d a b x y l s := rfl
theorem exec_vbmul {d a b x y l} (s : State) : exec (.vbmul d a b x y l) s = execVbmul d a b x y l s := rfl
theorem exec_vbfma {d a b x y l} (s : State) : exec (.vbfma d a b x y l) s = execVbfma d a b x y l s := rfl
theorem exec_vbmin {d a b x y l} (s : State) : exec (.vbmin d a b x y l) s = execVbmin d a b x y l s := rfl
theorem exec_vbmax {d a b x y l} (s : State) : exec (.vbmax d a b x y l) s = execVbmax d a b x y l s := rfl
theorem exec_viadd {d a b x y l} (s : State) : exec (.viadd d a b x y l) s = execViadd d a b x y l s := rfl
theorem exec_visub {d a b x y l} (s : State) : exec (.visub d a b x y l) s = execVisub d a b x y l s := rfl
theorem exec_vimul {d a b x y l} (s : State) : exec (.vimul d a b x y l) s = execVimul d a b x y l s := rfl
theorem exec_vimulh {d a b x y l} (s : State) : exec (.vimulh d a b x y l) s = execVimulh d a b x y l s := rfl
theorem exec_vimin {d a b x y l} (s : State) : exec (.vimin d a b x y l) s = execVimin d a b x y l s := rfl
theorem exec_vimax {d a b x y l} (s : State) : exec (.vimax d a b x y l) s = execVimax d a b x y l s := rfl
theorem exec_viminu {d a b x y l} (s : State) : exec (.viminu d a b x y l) s = execViminu d a b x y l s := rfl
theorem exec_vimaxu {d a b x y l} (s : State) : exec (.vimaxu d a b x y l) s = execVimaxu d a b x y l s := rfl
theorem exec_viabs {d a x l} (s : State) : exec (.viabs d a x l) s = execViabs d a x l s := rfl
theorem exec_viadds {d a b x y l} (s : State) : exec (.viadds d a b x y l) s = execViadds d a b x y l s := rfl
theorem exec_visubs {d a b x y l} (s : State) : exec (.visubs d a b x y l) s = execVisubs d a b x y l s := rfl
theorem exec_vand {d a b x y l} (s : State) : exec (.vand d a b x y l) s = execVand d a b x y l s := rfl
theorem exec_vor {d a b x y l} (s : State) : exec (.vor d a b x y l) s = execVor d a b x y l s := rfl
theorem exec_vxor {d a b x y l} (s : State) : exec (.vxor d a b x y l) s = execVxor d a b x y l s := rfl
theorem exec_vandn {d a b x y l} (s : State) : exec (.vandn d a b x y l) s = execVandn d a b x y l s := rfl
theorem exec_vshl {d a b x y l} (s : State) : exec (.vshl d a b x y l) s = execVshl d a b x y l s := rfl
theorem exec_vshr {d a b x y l} (s : State) : exec (.vshr d a b x y l) s = execVshr d a b x y l s := rfl
theorem exec_vsar {d a b x y l} (s : State) : exec (.vsar d a b x y l) s = execVsar d a b x y l s := rfl
theorem exec_vnot {d a x l} (s : State) : exec (.vnot d a x l) s = execVnot d a x l s := rfl
theorem exec_vpopc {d a x l} (s : State) : exec (.vpopc d a x l) s = execVpopc d a x l s := rfl
theorem exec_vclz {d a x l} (s : State) : exec (.vclz d a x l) s = execVclz d a x l s := rfl
theorem exec_frcp {d a x l} (s : State) : exec (.frcp d a x l) s = execFrcp d a x l s := rfl
theorem exec_frsq {d a x l} (s : State) : exec (.frsq d a x l) s = execFrsq d a x l s := rfl
theorem exec_fexp2 {d a x l} (s : State) : exec (.fexp2 d a x l) s = execFexp2 d a x l s := rfl
theorem exec_flog2 {d a x l} (s : State) : exec (.flog2 d a x l) s = execFlog2 d a x l s := rfl
theorem exec_vcvtfh {d a f m x l} (s : State) : exec (.vcvtfh d a f m x l) s = execVcvtfh d a f m x l s := rfl
theorem exec_vcvthf {d a f m x l} (s : State) : exec (.vcvthf d a f m x l) s = execVcvthf d a f m x l s := rfl
theorem exec_vcvtfs {d a f m x l} (s : State) : exec (.vcvtfs d a f m x l) s = execVcvtfs d a f m x l s := rfl
theorem exec_vcvtsf {d a f m x l} (s : State) : exec (.vcvtsf d a f m x l) s = execVcvtsf d a f m x l s := rfl
theorem exec_vcvtfi {d a f m x l} (s : State) : exec (.vcvtfi d a f m x l) s = execVcvtfi d a f m x l s := rfl
theorem exec_vcvtif {d a f m x l} (s : State) : exec (.vcvtif d a f m x l) s = execVcvtif d a f m x l s := rfl
theorem exec_vcvtfu {d a f m x l} (s : State) : exec (.vcvtfu d a f m x l) s = execVcvtfu d a f m x l s := rfl
theorem exec_vcvtuf {d a f m x l} (s : State) : exec (.vcvtuf d a f m x l) s = execVcvtuf d a f m x l s := rfl
theorem exec_vrnd {d a f m x l} (s : State) : exec (.vrnd d a f m x l) s = execVrnd d a f m x l s := rfl
theorem exec_vfceq {d a b x y l} (s : State) : exec (.vfceq d a b x y l) s = execVfceq d a b x y l s := rfl
theorem exec_vfclt {d a b x y l} (s : State) : exec (.vfclt d a b x y l) s = execVfclt d a b x y l s := rfl
theorem exec_vfcle {d a b x y l} (s : State) : exec (.vfcle d a b x y l) s = execVfcle d a b x y l s := rfl
theorem exec_viceq {d a b x y l} (s : State) : exec (.viceq d a b x y l) s = execViceq d a b x y l s := rfl
theorem exec_viclt {d a b x y l} (s : State) : exec (.viclt d a b x y l) s = execViclt d a b x y l s := rfl
theorem exec_vicltu {d a b x y l} (s : State) : exec (.vicltu d a b x y l) s = execVicltu d a b x y l s := rfl
theorem exec_mpush {a x l} (s : State) : exec (.mpush a x l) s = execMpush a x l s := rfl
theorem exec_minv {l} (s : State) : exec (.minv l) s = execMinv l s := rfl
theorem exec_mpop {l} (s : State) : exec (.mpop l) s = execMpop l s := rfl
theorem exec_vfrsum {d a x l} (s : State) : exec (.vfrsum d a x l) s = execVfrsum d a x l s := rfl
theorem exec_vfrmax {d a x l} (s : State) : exec (.vfrmax d a x l) s = execVfrmax d a x l s := rfl
theorem exec_vfrmin {d a x l} (s : State) : exec (.vfrmin d a x l) s = execVfrmin d a x l s := rfl
theorem exec_virsum {d a x l} (s : State) : exec (.virsum d a x l) s = execVirsum d a x l s := rfl
theorem exec_virmax {d a x l} (s : State) : exec (.virmax d a x l) s = execVirmax d a x l s := rfl
theorem exec_virmin {d a x l} (s : State) : exec (.virmin d a x l) s = execVirmin d a x l s := rfl
theorem exec_vrand {d a x l} (s : State) : exec (.vrand d a x l) s = execVrand d a x l s := rfl
theorem exec_vror {d a x l} (s : State) : exec (.vror d a x l) s = execVror d a x l s := rfl
theorem exec_vperm {d a b x y l} (s : State) : exec (.vperm d a b x y l) s = execVperm d a b x y l s := rfl
theorem exec_vbcast {d a n x l} (s : State) : exec (.vbcast d a n x l) s = execVbcast d a n x l s := rfl
theorem exec_vrot {d a n x l} (s : State) : exec (.vrot d a n x l) s = execVrot d a n x l s := rfl
theorem exec_vslup {d a n x l} (s : State) : exec (.vslup d a n x l) s = execVslup d a n x l s := rfl
theorem exec_vsldn {d a n x l} (s : State) : exec (.vsldn d a n x l) s = execVsldn d a n x l s := rfl
theorem exec_vzip {d a b x y l} (s : State) : exec (.vzip d a b x y l) s = execVzip d a b x y l s := rfl
theorem exec_vunzip {d a b x y l} (s : State) : exec (.vunzip d a b x y l) s = execVunzip d a b x y l s := rfl
theorem exec_vcompress {d a b x y l} (s : State) : exec (.vcompress d a b x y l) s = execVcompress d a b x y l s := rfl
theorem exec_vexpand {d a b x y l} (s : State) : exec (.vexpand d a b x y l) s = execVexpand d a b x y l s := rfl
theorem exec_vmov {d a x l} (s : State) : exec (.vmov d a x l) s = execVmov d a x l s := rfl
theorem exec_vsplat {d g x l} (s : State) : exec (.vsplat d g x l) s = execVsplat d g x l s := rfl
theorem exec_vins {d g n x l} (s : State) : exec (.vins d g n x l) s = execVins d g n x l s := rfl
theorem exec_vext {g a n x l} (s : State) : exec (.vext g a n x l) s = execVext g a n x l s := rfl
theorem exec_viota {d l} (s : State) : exec (.viota d l) s = execViota d l s := rfl
theorem exec_vsel {d a b x y l} (s : State) : exec (.vsel d a b x y l) s = execVsel d a b x y l s := rfl
theorem exec_vmaskrd {g l} (s : State) : exec (.vmaskrd g l) s = execVmaskrd g l s := rfl
theorem exec_vmaskwr {g x l} (s : State) : exec (.vmaskwr g x l) s = execVmaskwr g x l s := rfl
theorem exec_enqw {q w} (s : State) : exec (.enqw q w) s = execEnqw q w s := rfl
theorem exec_enqg {q n a} (s : State) : exec (.enqg q n a) s = execEnqg q n a s := rfl
theorem exec_enqm {q n s1 a} (s : State) : exec (.enqm q n s1 a) s = execEnqm q n s1 a s := rfl
theorem exec_brk (s : State) : exec (.brk) s = execBrk s := rfl
theorem exec_tmark {a x} (s : State) : exec (.tmark a x) s = execTmark a x s := rfl
theorem exec_accrd {d a x} (s : State) : exec (.accrd d a x) s = execAccrd d a x s := rfl
theorem exec_enrgrd {d a x} (s : State) : exec (.enrgrd d a x) s = execEnrgrd d a x s := rfl
theorem exec_lit {v} (s : State) : exec (.lit v) s = execLit v s := rfl
theorem exec_ext {v} (s : State) : exec (.ext v) s = execExt v s := rfl
theorem exec_dup (s : State) : exec (.dup) s = execDup s := rfl
theorem exec_drop (s : State) : exec (.drop) s = execDrop s := rfl
theorem exec_swap (s : State) : exec (.swap) s = execSwap s := rfl
theorem exec_overI (s : State) : exec (.overI) s = execOverI s := rfl
theorem exec_eadd (s : State) : exec (.eadd) s = execEadd s := rfl
theorem exec_esub (s : State) : exec (.esub) s = execEsub s := rfl
theorem exec_emul (s : State) : exec (.emul) s = execEmul s := rfl
theorem exec_eshl {n} (s : State) : exec (.eshl n) s = execEshl n s := rfl
theorem exec_eor (s : State) : exec (.eor) s = execEor s := rfl
theorem exec_zpush {z} (s : State) : exec (.zpush z) s = execZpush z s := rfl
theorem exec_mpass {g f z b a} (s : State) : exec (.mpass g f z b a) s = execMpass g f z b a s := rfl
theorem exec_mpassseg {g f z b a} (s : State) : exec (.mpassseg g f z b a) s = execMpassseg g f z b a s := rfl
theorem exec_mpassgrp {z b a} (s : State) : exec (.mpassgrp z b a) s = execMpassgrp z b a s := rfl
theorem exec_mdrain {c d m} (s : State) : exec (.mdrain c d m) s = execMdrain c d m s := rfl
theorem exec_mzero (s : State) : exec (.mzero) s = execMzero s := rfl
theorem exec_ccopy {f c r m} (s : State) : exec (.ccopy f c r m) s = execCcopy f c r m s := rfl
theorem exec_cgather {c m} (s : State) : exec (.cgather c m) s = execCgather c m s := rfl
theorem exec_cfill (s : State) : exec (.cfill) s = execCfill s := rfl
theorem exec_chint (s : State) : exec (.chint) s = execChint s := rfl
theorem exec_xwrite {f} (s : State) : exec (.xwrite f) s = execXwrite f s := rfl
theorem exec_xread (s : State) : exec (.xread) s = execXread s := rfl
theorem exec_xcoll {r} (s : State) : exec (.xcoll r) s = execXcoll r s := rfl
theorem exec_xroute (s : State) : exec (.xroute) s = execXroute s := rfl
theorem exec_xrlinv (s : State) : exec (.xrlinv) s = execXrlinv s := rfl
theorem exec_controlNop (s : State) : exec (.controlNop) s = execControlNop s := rfl
theorem exec_fenceq (s : State) : exec (.fenceq) s = execFenceq s := rfl
theorem exec_gate {t} (s : State) : exec (.gate t) s = execGate t s := rfl
theorem exec_qgate {n} (s : State) : exec (.qgate n) s = execQgate n s := rfl
theorem exec_signal {n} (s : State) : exec (.signal n) s = execSignal n s := rfl
theorem exec_mark (s : State) : exec (.mark) s = execMark s := rfl
theorem exec_capstart {s1} (s : State) : exec (.capstart s1) s = execCapstart s1 s := rfl
theorem exec_capstop {s1} (s : State) : exec (.capstop s1) s = execCapstop s1 s := rfl
theorem exec_resultLands (s : State) : exec (.resultLands) s = execResultLands s := rfl
theorem exec_storeLoadDataArrival (s : State) : exec (.storeLoadDataArrival) s = execStoreLoadDataArrival s := rfl
theorem exec_longLatencyReturn (s : State) : exec (.longLatencyReturn) s = execLongLatencyReturn s := rfl
theorem exec_vatReply (s : State) : exec (.vatReply) s = execVatReply s := rfl
theorem exec_trapEntry (s : State) : exec (.trapEntry) s = execTrapEntry s := rfl
theorem exec_interruptEntry (s : State) : exec (.interruptEntry) s = execInterruptEntry s := rfl
theorem exec_timerExpiry (s : State) : exec (.timerExpiry) s = execTimerExpiry s := rfl
theorem exec_tmrcntWrite (s : State) : exec (.tmrcntWrite) s = execTmrcntWrite s := rfl
theorem exec_bankbindWrite (s : State) : exec (.bankbindWrite) s = execBankbindWrite s := rfl
theorem exec_fxdata (s : State) : exec (.fxdata) s = execFxdata s := rfl
theorem exec_capdata (s : State) : exec (.capdata) s = execCapdata s := rfl
theorem exec_capclr (s : State) : exec (.capclr) s = execCapclr s := rfl
theorem exec_cueirqClear (s : State) : exec (.cueirqClear) s = execCueirqClear s := rfl
theorem exec_qcmdResume (s : State) : exec (.qcmdResume) s = execQcmdResume s := rfl
theorem exec_qcmdDiscard (s : State) : exec (.qcmdDiscard) s = execQcmdDiscard s := rfl
theorem exec_qcmdReset (s : State) : exec (.qcmdReset) s = execQcmdReset s := rfl
theorem exec_xinvPage (s : State) : exec (.xinvPage) s = execXinvPage s := rfl
theorem exec_xinvAsid (s : State) : exec (.xinvAsid) s = execXinvAsid s := rfl
theorem exec_xinvAll (s : State) : exec (.xinvAll) s = execXinvAll s := rfl
theorem exec_watchpointChange (s : State) : exec (.watchpointChange) s = execWatchpointChange s := rfl
theorem exec_warpop (s : State) : exec (.warpop) s = execWarpop s := rfl
theorem exec_registerWrite (s : State) : exec (.registerWrite) s = execRegisterWrite s := rfl
theorem exec_matrixChunk (s : State) : exec (.matrixChunk) s = execMatrixChunk s := rfl
theorem exec_entryCompletion (s : State) : exec (.entryCompletion) s = execEntryCompletion s := rfl
theorem exec_chainedEntryStart (s : State) : exec (.chainedEntryStart) s = execChainedEntryStart s := rfl
theorem exec_copyTurn (s : State) : exec (.copyTurn) s = execCopyTurn s := rfl
theorem exec_transferChunk (s : State) : exec (.transferChunk) s = execTransferChunk s := rfl
theorem exec_signalCompletion (s : State) : exec (.signalCompletion) s = execSignalCompletion s := rfl
theorem exec_controlEntryCompletion (s : State) : exec (.controlEntryCompletion) s = execControlEntryCompletion s := rfl
theorem exec_deferredReadiness (s : State) : exec (.deferredReadiness) s = execDeferredReadiness s := rfl
theorem exec_cueTermEvaluation (s : State) : exec (.cueTermEvaluation) s = execCueTermEvaluation s := rfl
theorem exec_xcollFiring (s : State) : exec (.xcollFiring) s = execXcollFiring s := rfl
theorem exec_posting (s : State) : exec (.posting) s = execPosting s := rfl
theorem exec_contributionArrival (s : State) : exec (.contributionArrival) s = execContributionArrival s := rfl
theorem exec_receptionCueIncrement (s : State) : exec (.receptionCueIncrement) s = execReceptionCueIncrement s := rfl
theorem exec_backPressureRelease (s : State) : exec (.backPressureRelease) s = execBackPressureRelease s := rfl
theorem exec_routeRowScored (s : State) : exec (.routeRowScored) s = execRouteRowScored s := rfl
theorem exec_writeAppliedAtHome (s : State) : exec (.writeAppliedAtHome) s = execWriteAppliedAtHome s := rfl
theorem exec_readAnsweredAtHome (s : State) : exec (.readAnsweredAtHome) s = execReadAnsweredAtHome s := rfl
theorem exec_frontierSend (s : State) : exec (.frontierSend) s = execFrontierSend s := rfl
theorem exec_vatHomeOperation (s : State) : exec (.vatHomeOperation) s = execVatHomeOperation s := rfl
theorem exec_vatArrivalAtPairingPoint (s : State) : exec (.vatArrivalAtPairingPoint) s = execVatArrivalAtPairingPoint s := rfl
theorem exec_pairingWindowExpiry (s : State) : exec (.pairingWindowExpiry) s = execPairingWindowExpiry s := rfl
theorem exec_clockRenormalisation (s : State) : exec (.clockRenormalisation) s = execClockRenormalisation s := rfl
theorem exec_pageWalk (s : State) : exec (.pageWalk) s = execPageWalk s := rfl
theorem exec_notify (s : State) : exec (.notify) s = execNotify s := rfl
theorem exec_remoteNotify (s : State) : exec (.remoteNotify) s = execRemoteNotify s := rfl
theorem exec_mapperRun (s : State) : exec (.mapperRun) s = execMapperRun s := rfl
theorem exec_packetRead (s : State) : exec (.packetRead) s = execPacketRead s := rfl
theorem exec_troupePlacement (s : State) : exec (.troupePlacement) s = execTroupePlacement s := rfl
theorem exec_tickEdge (s : State) : exec (.tickEdge) s = execTickEdge s := rfl
theorem exec_deadlineExpiry (s : State) : exec (.deadlineExpiry) s = execDeadlineExpiry s := rfl
theorem exec_watchdogExpiry (s : State) : exec (.watchdogExpiry) s = execWatchdogExpiry s := rfl
theorem exec_cellCompletion (s : State) : exec (.cellCompletion) s = execCellCompletion s := rfl
theorem exec_sceneCompletion (s : State) : exec (.sceneCompletion) s = execSceneCompletion s := rfl
theorem exec_preempt (s : State) : exec (.preempt) s = execPreempt s := rfl
theorem exec_hardStop (s : State) : exec (.hardStop) s = execHardStop s := rfl
theorem exec_contextSave (s : State) : exec (.contextSave) s = execContextSave s := rfl
theorem exec_contextRestore (s : State) : exec (.contextRestore) s = execContextRestore s := rfl
theorem exec_debughalt (s : State) : exec (.debughalt) s = execDebughalt s := rfl
theorem exec_stop (s : State) : exec (.stop) s = execStop s := rfl
theorem exec_watchReportEntry (s : State) : exec (.watchReportEntry) s = execWatchReportEntry s := rfl
theorem exec_sample (s : State) : exec (.sample) s = execSample s := rfl
theorem exec_fabricRefusalArrives (s : State) : exec (.fabricRefusalArrives) s = execFabricRefusalArrives s := rfl
theorem exec_ingressRequestArrival (s : State) : exec (.ingressRequestArrival) s = execIngressRequestArrival s := rfl
theorem exec_flitArbitration (s : State) : exec (.flitArbitration) s = execFlitArbitration s := rfl
theorem exec_linkRetry (s : State) : exec (.linkRetry) s = execLinkRetry s := rfl
theorem exec_linkDown (s : State) : exec (.linkDown) s = execLinkDown s := rfl
theorem exec_linkRetirement (s : State) : exec (.linkRetirement) s = execLinkRetirement s := rfl
theorem exec_routingTableRewrite (s : State) : exec (.routingTableRewrite) s = execRoutingTableRewrite s := rfl
theorem exec_hostWrite (s : State) : exec (.hostWrite) s = execHostWrite s := rfl
theorem exec_hostRead (s : State) : exec (.hostRead) s = execHostRead s := rfl
theorem exec_scrubStep (s : State) : exec (.scrubStep) s = execScrubStep s := rfl
theorem exec_cellRetirement (s : State) : exec (.cellRetirement) s = execCellRetirement s := rfl
theorem exec_aperture (s : State) : exec (.aperture) s = execAperture s := rfl
theorem exec_qtable (s : State) : exec (.qtable) s = execQtable s := rfl
theorem exec_cap (s : State) : exec (.cap) s = execCap s := rfl
theorem exec_tickper (s : State) : exec (.tickper) s = execTickper s := rfl
theorem exec_halt (s : State) : exec (.halt) s = execHalt s := rfl
theorem exec_resume (s : State) : exec (.resume) s = execResume s := rfl
theorem exec_warmreset (s : State) : exec (.warmreset) s = execWarmreset s := rfl
theorem exec_coldReset (s : State) : exec (.coldReset) s = execColdReset s := rfl
theorem exec_linkReset (s : State) : exec (.linkReset) s = execLinkReset s := rfl
theorem exec_bringUpPhase (s : State) : exec (.bringUpPhase) s = execBringUpPhase s := rfl
theorem exec_junctionSensorRead (s : State) : exec (.junctionSensorRead) s = execJunctionSensorRead s := rfl
theorem exec_thermalTrip (s : State) : exec (.thermalTrip) s = execThermalTrip s := rfl
theorem exec_powerCapStep (s : State) : exec (.powerCapStep) s = execPowerCapStep s := rfl
theorem exec_ratioChange (s : State) : exec (.ratioChange) s = execRatioChange s := rfl
theorem exec_writeAcknowledged (s : State) : exec (.writeAcknowledged) s = execWriteAcknowledged s := rfl
theorem exec_operandQueueRowLands (s : State) : exec (.operandQueueRowLands) s = execOperandQueueRowLands s := rfl

end Sys2Proof.Machine
end

