-- ==== Sys2Proof/Laws/State.lean ====
section
/-!
SUPPORT. One lemma per field per update of the state, and what the register operations read and leave alone.
-/

namespace Sys2Proof.Machine

variable (s : State)

/-! ### Whole components -/


@[simp] theorem State.setCore_clk (c : Core) : (s.setCore c).clk = s.clk := rfl
@[simp] theorem State.setCore_gcell (c : Core) : (s.setCore c).gcell = s.gcell := rfl
@[simp] theorem State.setCore_core (c : Core) : (s.setCore c).core = c := rfl
@[simp] theorem State.setCore_csr (c : Core) : (s.setCore c).csr = s.csr := rfl
@[simp] theorem State.setCore_cell (c : Core) : (s.setCore c).cell = s.cell := rfl
@[simp] theorem State.setCore_mem (c : Core) : (s.setCore c).mem = s.mem := rfl
@[simp] theorem State.setCore_sys (c : Core) : (s.setCore c).sys = s.sys := rfl
@[simp] theorem State.setCore_coll (c : Core) : (s.setCore c).coll = s.coll := rfl
@[simp] theorem State.setCore_hubs (c : Core) : (s.setCore c).hubs = s.hubs := rfl
@[simp] theorem State.setCore_acct (c : Core) : (s.setCore c).acct = s.acct := rfl
@[simp] theorem State.setCore_dbg (c : Core) : (s.setCore c).dbg = s.dbg := rfl
@[simp] theorem State.setCore_mgr (c : Core) : (s.setCore c).mgr = s.mgr := rfl
@[simp] theorem State.setCore_lq (c : Core) : (s.setCore c).lq = s.lq := rfl
@[simp] theorem State.setCore_fab (c : Core) : (s.setCore c).fab = s.fab := rfl
@[simp] theorem State.setCore_pwr (c : Core) : (s.setCore c).pwr = s.pwr := rfl
@[simp] theorem State.setCore_inp (c : Core) : (s.setCore c).inp = s.inp := rfl
@[simp] theorem State.setCore_agenda (c : Core) : (s.setCore c).agenda = s.agenda := rfl
@[simp] theorem State.setCore_actq (c : Core) : (s.setCore c).actq = s.actq := rfl

@[simp] theorem State.setCell_clk (c : Cell) : (s.setCell c).clk = s.clk := rfl
@[simp] theorem State.setCell_gcell (c : Cell) : (s.setCell c).gcell = s.gcell := rfl
@[simp] theorem State.setCell_core (c : Cell) : (s.setCell c).core = s.core := rfl
@[simp] theorem State.setCell_csr (c : Cell) : (s.setCell c).csr = s.csr := rfl
@[simp] theorem State.setCell_cell (c : Cell) : (s.setCell c).cell = c := rfl
@[simp] theorem State.setCell_mem (c : Cell) : (s.setCell c).mem = s.mem := rfl
@[simp] theorem State.setCell_sys (c : Cell) : (s.setCell c).sys = s.sys := rfl
@[simp] theorem State.setCell_coll (c : Cell) : (s.setCell c).coll = s.coll := rfl
@[simp] theorem State.setCell_hubs (c : Cell) : (s.setCell c).hubs = s.hubs := rfl
@[simp] theorem State.setCell_acct (c : Cell) : (s.setCell c).acct = s.acct := rfl
@[simp] theorem State.setCell_dbg (c : Cell) : (s.setCell c).dbg = s.dbg := rfl
@[simp] theorem State.setCell_mgr (c : Cell) : (s.setCell c).mgr = s.mgr := rfl
@[simp] theorem State.setCell_lq (c : Cell) : (s.setCell c).lq = s.lq := rfl
@[simp] theorem State.setCell_fab (c : Cell) : (s.setCell c).fab = s.fab := rfl
@[simp] theorem State.setCell_pwr (c : Cell) : (s.setCell c).pwr = s.pwr := rfl
@[simp] theorem State.setCell_inp (c : Cell) : (s.setCell c).inp = s.inp := rfl
@[simp] theorem State.setCell_agenda (c : Cell) : (s.setCell c).agenda = s.agenda := rfl
@[simp] theorem State.setCell_actq (c : Cell) : (s.setCell c).actq = s.actq := rfl

@[simp] theorem State.setCsr_clk (n : Nat) (v : Word) : (s.setCsr n v).clk = s.clk := rfl
@[simp] theorem State.setCsr_gcell (n : Nat) (v : Word) : (s.setCsr n v).gcell = s.gcell := rfl
@[simp] theorem State.setCsr_core (n : Nat) (v : Word) : (s.setCsr n v).core = s.core := rfl
@[simp] theorem State.setCsr_csr (n : Nat) (v : Word) : (s.setCsr n v).csr = Sparse.set s.csr n v := rfl
@[simp] theorem State.setCsr_cell (n : Nat) (v : Word) : (s.setCsr n v).cell = s.cell := rfl
@[simp] theorem State.setCsr_mem (n : Nat) (v : Word) : (s.setCsr n v).mem = s.mem := rfl
@[simp] theorem State.setCsr_sys (n : Nat) (v : Word) : (s.setCsr n v).sys = s.sys := rfl
@[simp] theorem State.setCsr_coll (n : Nat) (v : Word) : (s.setCsr n v).coll = s.coll := rfl
@[simp] theorem State.setCsr_hubs (n : Nat) (v : Word) : (s.setCsr n v).hubs = s.hubs := rfl
@[simp] theorem State.setCsr_acct (n : Nat) (v : Word) : (s.setCsr n v).acct = s.acct := rfl
@[simp] theorem State.setCsr_dbg (n : Nat) (v : Word) : (s.setCsr n v).dbg = s.dbg := rfl
@[simp] theorem State.setCsr_mgr (n : Nat) (v : Word) : (s.setCsr n v).mgr = s.mgr := rfl
@[simp] theorem State.setCsr_lq (n : Nat) (v : Word) : (s.setCsr n v).lq = s.lq := rfl
@[simp] theorem State.setCsr_fab (n : Nat) (v : Word) : (s.setCsr n v).fab = s.fab := rfl
@[simp] theorem State.setCsr_pwr (n : Nat) (v : Word) : (s.setCsr n v).pwr = s.pwr := rfl
@[simp] theorem State.setCsr_inp (n : Nat) (v : Word) : (s.setCsr n v).inp = s.inp := rfl
@[simp] theorem State.setCsr_agenda (n : Nat) (v : Word) : (s.setCsr n v).agenda = s.agenda := rfl
@[simp] theorem State.setCsr_actq (n : Nat) (v : Word) : (s.setCsr n v).actq = s.actq := rfl

@[simp] theorem State.setCore_core_self : s.setCore s.core = s := rfl

@[simp] theorem State.setCell_cell_self : s.setCell s.cell = s := rfl

/-! ### Registers -/

/-- g0 reads zero (R39). -/
@[simp] theorem State.g_zero : s.g 0 = 0 := rfl

theorem State.g_of_ne {r : Nat} (h : r ≠ 0) : s.g r = s.core.g[r]?.getD 0 := if_neg h

theorem State.g_congr {t : State} (h : t.core.g = s.core.g) (r : Nat) : t.g r = s.g r := by
  unfold State.g; rw [h]

theorem State.readCsr_congr {t : State} (h : t.csr = s.csr) (n : Nat) : t.readCsr n = s.readCsr n := by
  unfold State.readCsr; rw [h]

@[simp] theorem State.putG_clk (r : Nat) (v : Word) : (s.putG r v).clk = s.clk := rfl
@[simp] theorem State.putG_gcell (r : Nat) (v : Word) : (s.putG r v).gcell = s.gcell := rfl
@[simp] theorem State.putG_csr (r : Nat) (v : Word) : (s.putG r v).csr = s.csr := rfl
@[simp] theorem State.putG_cell (r : Nat) (v : Word) : (s.putG r v).cell = s.cell := rfl
@[simp] theorem State.putG_mem (r : Nat) (v : Word) : (s.putG r v).mem = s.mem := rfl
@[simp] theorem State.putG_sys (r : Nat) (v : Word) : (s.putG r v).sys = s.sys := rfl
@[simp] theorem State.putG_coll (r : Nat) (v : Word) : (s.putG r v).coll = s.coll := rfl
@[simp] theorem State.putG_hubs (r : Nat) (v : Word) : (s.putG r v).hubs = s.hubs := rfl
@[simp] theorem State.putG_acct (r : Nat) (v : Word) : (s.putG r v).acct = s.acct := rfl
@[simp] theorem State.putG_dbg (r : Nat) (v : Word) : (s.putG r v).dbg = s.dbg := rfl
@[simp] theorem State.putG_mgr (r : Nat) (v : Word) : (s.putG r v).mgr = s.mgr := rfl
@[simp] theorem State.putG_lq (r : Nat) (v : Word) : (s.putG r v).lq = s.lq := rfl
@[simp] theorem State.putG_fab (r : Nat) (v : Word) : (s.putG r v).fab = s.fab := rfl
@[simp] theorem State.putG_pwr (r : Nat) (v : Word) : (s.putG r v).pwr = s.pwr := rfl
@[simp] theorem State.putG_inp (r : Nat) (v : Word) : (s.putG r v).inp = s.inp := rfl
@[simp] theorem State.putG_agenda (r : Nat) (v : Word) : (s.putG r v).agenda = s.agenda := rfl
@[simp] theorem State.putG_actq (r : Nat) (v : Word) : (s.putG r v).actq = s.actq := rfl

@[simp] theorem Core.putG_zero (c : Core) (v : Word) : c.putG 0 v = c := rfl

@[simp] theorem Core.putG_pc (c : Core) (r : Nat) (v : Word) : (c.putG r v).pc = c.pc := by
  unfold Core.putG; split <;> rfl
@[simp] theorem Core.putG_m (c : Core) (r : Nat) (v : Word) : (c.putG r v).m = c.m := by
  unfold Core.putG; split <;> rfl
@[simp] theorem Core.putG_z (c : Core) (r : Nat) (v : Word) : (c.putG r v).z = c.z := by
  unfold Core.putG; split <;> rfl
@[simp] theorem Core.putG_zpend (c : Core) (r : Nat) (v : Word) : (c.putG r v).zpend = c.zpend := by
  unfold Core.putG; split <;> rfl
@[simp] theorem Core.putG_q (c : Core) (r : Nat) (v : Word) : (c.putG r v).q = c.q := by
  unfold Core.putG; split <;> rfl
@[simp] theorem Core.putG_mask (c : Core) (r : Nat) (v : Word) : (c.putG r v).mask = c.mask := by
  unfold Core.putG; split <;> rfl
@[simp] theorem Core.putG_status (c : Core) (r : Nat) (v : Word) : (c.putG r v).status = c.status := by
  unfold Core.putG; split <;> rfl
@[simp] theorem Core.putG_inflight (c : Core) (r : Nat) (v : Word) : (c.putG r v).inflight = c.inflight := by
  unfold Core.putG; split <;> rfl
@[simp] theorem Core.putG_reinject (c : Core) (r : Nat) (v : Word) : (c.putG r v).reinject = c.reinject := by
  unfold Core.putG; split <;> rfl
@[simp] theorem Core.putG_busy (c : Core) (r : Nat) (v : Word) : (c.putG r v).busy = c.busy := by
  unfold Core.putG; split <;> rfl
@[simp] theorem Core.putG_fetchClk (c : Core) (r : Nat) (v : Word) : (c.putG r v).fetchClk = c.fetchClk := by
  unfold Core.putG; split <;> rfl
@[simp] theorem Core.putG_delayClk (c : Core) (r : Nat) (v : Word) : (c.putG r v).delayClk = c.delayClk := by
  unfold Core.putG; split <;> rfl
@[simp] theorem Core.putG_vat (c : Core) (r : Nat) (v : Word) : (c.putG r v).vat = c.vat := by
  unfold Core.putG; split <;> rfl
@[simp] theorem Core.putG_barsync (c : Core) (r : Nat) (v : Word) : (c.putG r v).barsync = c.barsync := by
  unfold Core.putG; split <;> rfl
@[simp] theorem State.putG_core_pc (r : Nat) (v : Word) : (s.putG r v).core.pc = s.core.pc :=
  Core.putG_pc ..
@[simp] theorem State.putG_core_m (r : Nat) (v : Word) : (s.putG r v).core.m = s.core.m :=
  Core.putG_m ..
@[simp] theorem State.putG_core_z (r : Nat) (v : Word) : (s.putG r v).core.z = s.core.z :=
  Core.putG_z ..
@[simp] theorem State.putG_core_zpend (r : Nat) (v : Word) : (s.putG r v).core.zpend = s.core.zpend :=
  Core.putG_zpend ..
@[simp] theorem State.putG_core_q (r : Nat) (v : Word) : (s.putG r v).core.q = s.core.q :=
  Core.putG_q ..
@[simp] theorem State.putG_core_mask (r : Nat) (v : Word) : (s.putG r v).core.mask = s.core.mask :=
  Core.putG_mask ..
@[simp] theorem State.putG_core_status (r : Nat) (v : Word) : (s.putG r v).core.status = s.core.status :=
  Core.putG_status ..
@[simp] theorem State.putG_core_reinject (r : Nat) (v : Word) : (s.putG r v).core.reinject = s.core.reinject :=
  Core.putG_reinject ..
@[simp] theorem State.putG_core_busy (r : Nat) (v : Word) : (s.putG r v).core.busy = s.core.busy :=
  Core.putG_busy ..
@[simp] theorem State.putG_core_fetchClk (r : Nat) (v : Word) : (s.putG r v).core.fetchClk = s.core.fetchClk :=
  Core.putG_fetchClk ..
@[simp] theorem State.putG_core_delayClk (r : Nat) (v : Word) : (s.putG r v).core.delayClk = s.core.delayClk :=
  Core.putG_delayClk ..
@[simp] theorem State.putG_core_vat (r : Nat) (v : Word) : (s.putG r v).core.vat = s.core.vat :=
  Core.putG_vat ..
@[simp] theorem State.putG_core_barsync (r : Nat) (v : Word) : (s.putG r v).core.barsync = s.core.barsync :=
  Core.putG_barsync ..

@[simp] theorem Core.putG_zOld (c : Core) (r : Nat) (v : Word) : (c.putG r v).zOld = c.zOld := by
  unfold Core.putG; split <;> rfl
@[simp] theorem State.putG_core_zOld (r : Nat) (v : Word) : (s.putG r v).core.zOld = s.core.zOld :=
  Core.putG_zOld ..
@[simp] theorem Core.putG_qOld (c : Core) (r : Nat) (v : Word) : (c.putG r v).qOld = c.qOld := by
  unfold Core.putG; split <;> rfl
@[simp] theorem State.putG_core_qOld (r : Nat) (v : Word) : (s.putG r v).core.qOld = s.core.qOld :=
  Core.putG_qOld ..
@[simp] theorem Core.putG_termOld (c : Core) (r : Nat) (v : Word) : (c.putG r v).termOld = c.termOld := by
  unfold Core.putG; split <;> rfl
@[simp] theorem State.putG_core_termOld (r : Nat) (v : Word) : (s.putG r v).core.termOld = s.core.termOld :=
  Core.putG_termOld ..
@[simp] theorem Core.putG_reinjectAt (c : Core) (r : Nat) (v : Word) : (c.putG r v).reinjectAt = c.reinjectAt := by
  unfold Core.putG; split <;> rfl
@[simp] theorem State.putG_core_reinjectAt (r : Nat) (v : Word) : (s.putG r v).core.reinjectAt = s.core.reinjectAt :=
  Core.putG_reinjectAt ..
@[simp] theorem Core.putG_posted (c : Core) (r : Nat) (v : Word) : (c.putG r v).posted = c.posted := by
  unfold Core.putG; split <;> rfl
@[simp] theorem State.putG_core_posted (r : Nat) (v : Word) : (s.putG r v).core.posted = s.core.posted :=
  Core.putG_posted ..
@[simp] theorem Core.putG_preLatch (c : Core) (r : Nat) (v : Word) : (c.putG r v).preLatch = c.preLatch := by
  unfold Core.putG; split <;> rfl
@[simp] theorem State.putG_core_preLatch (r : Nat) (v : Word) : (s.putG r v).core.preLatch = s.core.preLatch :=
  Core.putG_preLatch ..
@[simp] theorem Core.putG_tmrSet (c : Core) (r : Nat) (v : Word) : (c.putG r v).tmrSet = c.tmrSet := by
  unfold Core.putG; split <;> rfl
@[simp] theorem State.putG_core_tmrSet (r : Nat) (v : Word) : (s.putG r v).core.tmrSet = s.core.tmrSet :=
  Core.putG_tmrSet ..
@[simp] theorem Core.putG_acqUntil (c : Core) (r : Nat) (v : Word) : (c.putG r v).acqUntil = c.acqUntil := by
  unfold Core.putG; split <;> rfl
@[simp] theorem State.putG_core_acqUntil (r : Nat) (v : Word) : (s.putG r v).core.acqUntil = s.core.acqUntil :=
  Core.putG_acqUntil ..
@[simp] theorem Core.putG_wfi (c : Core) (r : Nat) (v : Word) : (c.putG r v).wfi = c.wfi := by
  unfold Core.putG; split <;> rfl
@[simp] theorem State.putG_core_wfi (r : Nat) (v : Word) : (s.putG r v).core.wfi = s.core.wfi :=
  Core.putG_wfi ..
@[simp] theorem Core.putG_frameBar (c : Core) (r : Nat) (v : Word) : (c.putG r v).frameBar = c.frameBar := by
  unfold Core.putG; split <;> rfl
@[simp] theorem State.putG_core_frameBar (r : Nat) (v : Word) : (s.putG r v).core.frameBar = s.core.frameBar :=
  Core.putG_frameBar ..
@[simp] theorem Core.putG_fenceId (c : Core) (r : Nat) (v : Word) : (c.putG r v).fenceId = c.fenceId := by
  unfold Core.putG; split <;> rfl
@[simp] theorem State.putG_core_fenceId (r : Nat) (v : Word) : (s.putG r v).core.fenceId = s.core.fenceId :=
  Core.putG_fenceId ..
@[simp] theorem Core.putG_win (c : Core) (r : Nat) (v : Word) : (c.putG r v).win = c.win := by
  unfold Core.putG; split <;> rfl
@[simp] theorem State.putG_core_win (r : Nat) (v : Word) : (s.putG r v).core.win = s.core.win :=
  Core.putG_win ..
@[simp] theorem Core.putG_latWait (c : Core) (r : Nat) (v : Word) : (c.putG r v).latWait = c.latWait := by
  unfold Core.putG; split <;> rfl
@[simp] theorem State.putG_core_latWait (r : Nat) (v : Word) : (s.putG r v).core.latWait = s.core.latWait :=
  Core.putG_latWait ..
@[simp] theorem Core.putG_far (c : Core) (r : Nat) (v : Word) : (c.putG r v).far = c.far := by
  unfold Core.putG; split <;> rfl
@[simp] theorem State.putG_core_far (r : Nat) (v : Word) : (s.putG r v).core.far = s.core.far :=
  Core.putG_far ..
@[simp] theorem Core.putG_relFences (c : Core) (r : Nat) (v : Word) : (c.putG r v).relFences = c.relFences := by
  unfold Core.putG; split <;> rfl
@[simp] theorem State.putG_core_relFences (r : Nat) (v : Word) : (s.putG r v).core.relFences = s.core.relFences :=
  Core.putG_relFences ..
@[simp] theorem Core.putG_wpSent (c : Core) (r : Nat) (v : Word) : (c.putG r v).wpSent = c.wpSent := by
  unfold Core.putG; split <;> rfl
@[simp] theorem State.putG_core_wpSent (r : Nat) (v : Word) : (s.putG r v).core.wpSent = s.core.wpSent :=
  Core.putG_wpSent ..
@[simp] theorem Core.putG_readClk (c : Core) (r : Nat) (v : Word) : (c.putG r v).readClk = c.readClk := by
  unfold Core.putG; split <;> rfl
@[simp] theorem State.putG_core_readClk (r : Nat) (v : Word) : (s.putG r v).core.readClk = s.core.readClk :=
  Core.putG_readClk ..
@[simp] theorem Core.putG_walkFault (c : Core) (r : Nat) (v : Word) : (c.putG r v).walkFault = c.walkFault := by
  unfold Core.putG; split <;> rfl
@[simp] theorem State.putG_core_walkFault (r : Nat) (v : Word) : (s.putG r v).core.walkFault = s.core.walkFault :=
  Core.putG_walkFault ..
@[simp] theorem Core.putG_skipBkpt (c : Core) (r : Nat) (v : Word) : (c.putG r v).skipBkpt = c.skipBkpt := by
  unfold Core.putG; split <;> rfl
@[simp] theorem State.putG_core_skipBkpt (r : Nat) (v : Word) : (s.putG r v).core.skipBkpt = s.core.skipBkpt :=
  Core.putG_skipBkpt ..
@[simp] theorem Core.putG_trapPend (c : Core) (r : Nat) (v : Word) : (c.putG r v).trapPend = c.trapPend := by
  unfold Core.putG; split <;> rfl
@[simp] theorem State.putG_core_trapPend (r : Nat) (v : Word) : (s.putG r v).core.trapPend = s.core.trapPend :=
  Core.putG_trapPend ..
@[simp] theorem Core.putG_entering (c : Core) (r : Nat) (v : Word) : (c.putG r v).entering = c.entering := by
  unfold Core.putG; split <;> rfl
@[simp] theorem State.putG_core_entering (r : Nat) (v : Word) : (s.putG r v).core.entering = s.core.entering :=
  Core.putG_entering ..
@[simp] theorem Core.putG_engPend (c : Core) (r : Nat) (v : Word) : (c.putG r v).engPend = c.engPend := by
  unfold Core.putG; split <;> rfl
@[simp] theorem State.putG_core_engPend (r : Nat) (v : Word) : (s.putG r v).core.engPend = s.core.engPend :=
  Core.putG_engPend ..
@[simp] theorem Core.putG_refusals (c : Core) (r : Nat) (v : Word) : (c.putG r v).refusals = c.refusals := by
  unfold Core.putG; split <;> rfl
@[simp] theorem State.putG_core_refusals (r : Nat) (v : Word) : (s.putG r v).core.refusals = s.core.refusals :=
  Core.putG_refusals ..
@[simp] theorem Core.putG_machines (c : Core) (r : Nat) (v : Word) : (c.putG r v).machines = c.machines := by
  unfold Core.putG; split <;> rfl
@[simp] theorem State.putG_core_machines (r : Nat) (v : Word) : (s.putG r v).core.machines = s.core.machines :=
  Core.putG_machines ..
@[simp] theorem Core.putG_charge (c : Core) (r : Nat) (v : Word) : (c.putG r v).charge = c.charge := by
  unfold Core.putG; split <;> rfl
@[simp] theorem State.putG_core_charge (r : Nat) (v : Word) : (s.putG r v).core.charge = s.core.charge :=
  Core.putG_charge ..
@[simp] theorem Core.putG_chargeV (c : Core) (r : Nat) (v : Word) : (c.putG r v).chargeV = c.chargeV := by
  unfold Core.putG; split <;> rfl
@[simp] theorem State.putG_core_chargeV (r : Nat) (v : Word) : (s.putG r v).core.chargeV = s.core.chargeV :=
  Core.putG_chargeV ..
@[simp] theorem Core.putG_chargePc (c : Core) (r : Nat) (v : Word) : (c.putG r v).chargePc = c.chargePc := by
  unfold Core.putG; split <;> rfl
@[simp] theorem State.putG_core_chargePc (r : Nat) (v : Word) : (s.putG r v).core.chargePc = s.core.chargePc :=
  Core.putG_chargePc ..
@[simp] theorem Core.putG_waited (c : Core) (r : Nat) (v : Word) : (c.putG r v).waited = c.waited := by
  unfold Core.putG; split <;> rfl
@[simp] theorem State.putG_core_waited (r : Nat) (v : Word) : (s.putG r v).core.waited = s.core.waited :=
  Core.putG_waited ..
/-- A register reads what was written to it. -/
theorem State.g_putG_self {r : Nat} (v : Word) (h0 : r ≠ 0) (h : r < 32) : (s.putG r v).g r = v := by
  simp [State.putG, State.g, Core.putG, h0, h]

/-- Writing a register leaves every other register alone. -/
theorem State.g_putG_ne {r n : Nat} (v : Word) (h : n ≠ r) : (s.putG r v).g n = s.g n := by
  unfold State.g State.putG Core.putG
  split
  · rfl
  · split
    · rfl
    · simp [Ne.symm h]

/-- A register that has been written is full (R50). -/
theorem State.emptyG_putG_self {r : Nat} (v : Word) (h : r < 32) : (s.putG r v).emptyG r = false := by
  by_cases h0 : r = 0
  · simp [State.emptyG, h0]
  · simp [State.emptyG, State.putG, Core.putG, h0, h]

/-! ### Results in flight -/

@[simp] theorem State.later_clk (l : Nat) (t : Target) (b : Bool) : (s.later l t b).clk = s.clk := rfl
@[simp] theorem State.later_gcell (l : Nat) (t : Target) (b : Bool) : (s.later l t b).gcell = s.gcell := rfl
@[simp] theorem State.later_csr (l : Nat) (t : Target) (b : Bool) : (s.later l t b).csr = s.csr := rfl
@[simp] theorem State.later_cell (l : Nat) (t : Target) (b : Bool) : (s.later l t b).cell = s.cell := rfl
@[simp] theorem State.later_mem (l : Nat) (t : Target) (b : Bool) : (s.later l t b).mem = s.mem := rfl
@[simp] theorem State.later_sys (l : Nat) (t : Target) (b : Bool) : (s.later l t b).sys = s.sys := rfl
@[simp] theorem State.later_coll (l : Nat) (t : Target) (b : Bool) : (s.later l t b).coll = s.coll := rfl
@[simp] theorem State.later_hubs (l : Nat) (t : Target) (b : Bool) : (s.later l t b).hubs = s.hubs := rfl
@[simp] theorem State.later_acct (l : Nat) (t : Target) (b : Bool) : (s.later l t b).acct = s.acct := rfl
@[simp] theorem State.later_dbg (l : Nat) (t : Target) (b : Bool) : (s.later l t b).dbg = s.dbg := rfl
@[simp] theorem State.later_mgr (l : Nat) (t : Target) (b : Bool) : (s.later l t b).mgr = s.mgr := rfl
@[simp] theorem State.later_lq (l : Nat) (t : Target) (b : Bool) : (s.later l t b).lq = s.lq := rfl
@[simp] theorem State.later_fab (l : Nat) (t : Target) (b : Bool) : (s.later l t b).fab = s.fab := rfl
@[simp] theorem State.later_pwr (l : Nat) (t : Target) (b : Bool) : (s.later l t b).pwr = s.pwr := rfl
@[simp] theorem State.later_inp (l : Nat) (t : Target) (b : Bool) : (s.later l t b).inp = s.inp := rfl
@[simp] theorem State.later_agenda (l : Nat) (t : Target) (b : Bool) : (s.later l t b).agenda = s.agenda := rfl
@[simp] theorem State.later_actq (l : Nat) (t : Target) (b : Bool) : (s.later l t b).actq = s.actq := rfl
@[simp] theorem State.later_core_pc (l : Nat) (t : Target) (b : Bool) : (s.later l t b).core.pc = s.core.pc := rfl
@[simp] theorem State.later_core_g (l : Nat) (t : Target) (b : Bool) : (s.later l t b).core.g = s.core.g := rfl
@[simp] theorem State.later_core_gEmpty (l : Nat) (t : Target) (b : Bool) : (s.later l t b).core.gEmpty = s.core.gEmpty := rfl
@[simp] theorem State.later_core_m (l : Nat) (t : Target) (b : Bool) : (s.later l t b).core.m = s.core.m := rfl
@[simp] theorem State.later_core_z (l : Nat) (t : Target) (b : Bool) : (s.later l t b).core.z = s.core.z := rfl
@[simp] theorem State.later_core_zpend (l : Nat) (t : Target) (b : Bool) : (s.later l t b).core.zpend = s.core.zpend := rfl
@[simp] theorem State.later_core_q (l : Nat) (t : Target) (b : Bool) : (s.later l t b).core.q = s.core.q := rfl
@[simp] theorem State.later_core_mask (l : Nat) (t : Target) (b : Bool) : (s.later l t b).core.mask = s.core.mask := rfl
@[simp] theorem State.later_core_status (l : Nat) (t : Target) (b : Bool) : (s.later l t b).core.status = s.core.status := rfl
@[simp] theorem State.later_core_reinject (l : Nat) (t : Target) (b : Bool) : (s.later l t b).core.reinject = s.core.reinject := rfl
@[simp] theorem State.later_core_busy (l : Nat) (t : Target) (b : Bool) : (s.later l t b).core.busy = s.core.busy := rfl
@[simp] theorem State.later_core_fetchClk (l : Nat) (t : Target) (b : Bool) : (s.later l t b).core.fetchClk = s.core.fetchClk := rfl
@[simp] theorem State.later_core_delayClk (l : Nat) (t : Target) (b : Bool) : (s.later l t b).core.delayClk = s.core.delayClk := rfl
@[simp] theorem State.later_core_vat (l : Nat) (t : Target) (b : Bool) : (s.later l t b).core.vat = s.core.vat := rfl
@[simp] theorem State.later_core_barsync (l : Nat) (t : Target) (b : Bool) : (s.later l t b).core.barsync = s.core.barsync := rfl
@[simp] theorem State.later_core_zOld (l : Nat) (t : Target) (b : Bool) : (s.later l t b).core.zOld = s.core.zOld := rfl
@[simp] theorem State.later_core_qOld (l : Nat) (t : Target) (b : Bool) : (s.later l t b).core.qOld = s.core.qOld := rfl
@[simp] theorem State.later_core_termOld (l : Nat) (t : Target) (b : Bool) : (s.later l t b).core.termOld = s.core.termOld := rfl
@[simp] theorem State.later_core_reinjectAt (l : Nat) (t : Target) (b : Bool) : (s.later l t b).core.reinjectAt = s.core.reinjectAt := rfl
@[simp] theorem State.later_core_posted (l : Nat) (t : Target) (b : Bool) : (s.later l t b).core.posted = s.core.posted := rfl
@[simp] theorem State.later_core_preLatch (l : Nat) (t : Target) (b : Bool) : (s.later l t b).core.preLatch = s.core.preLatch := rfl
@[simp] theorem State.later_core_tmrSet (l : Nat) (t : Target) (b : Bool) : (s.later l t b).core.tmrSet = s.core.tmrSet := rfl
@[simp] theorem State.later_core_acqUntil (l : Nat) (t : Target) (b : Bool) : (s.later l t b).core.acqUntil = s.core.acqUntil := rfl
@[simp] theorem State.later_core_wfi (l : Nat) (t : Target) (b : Bool) : (s.later l t b).core.wfi = s.core.wfi := rfl
@[simp] theorem State.later_core_frameBar (l : Nat) (t : Target) (b : Bool) : (s.later l t b).core.frameBar = s.core.frameBar := rfl
@[simp] theorem State.later_core_fenceId (l : Nat) (t : Target) (b : Bool) : (s.later l t b).core.fenceId = s.core.fenceId := rfl
@[simp] theorem State.later_core_win (l : Nat) (t : Target) (b : Bool) : (s.later l t b).core.win = s.core.win := rfl
@[simp] theorem State.later_core_latWait (l : Nat) (t : Target) (b : Bool) : (s.later l t b).core.latWait = s.core.latWait := rfl
@[simp] theorem State.later_core_far (l : Nat) (t : Target) (b : Bool) : (s.later l t b).core.far = s.core.far := rfl
@[simp] theorem State.later_core_relFences (l : Nat) (t : Target) (b : Bool) : (s.later l t b).core.relFences = s.core.relFences := rfl
@[simp] theorem State.later_core_wpSent (l : Nat) (t : Target) (b : Bool) : (s.later l t b).core.wpSent = s.core.wpSent := rfl
@[simp] theorem State.later_core_readClk (l : Nat) (t : Target) (b : Bool) : (s.later l t b).core.readClk = s.core.readClk := rfl
@[simp] theorem State.later_core_walkFault (l : Nat) (t : Target) (b : Bool) : (s.later l t b).core.walkFault = s.core.walkFault := rfl
@[simp] theorem State.later_core_skipBkpt (l : Nat) (t : Target) (b : Bool) : (s.later l t b).core.skipBkpt = s.core.skipBkpt := rfl
@[simp] theorem State.later_core_trapPend (l : Nat) (t : Target) (b : Bool) : (s.later l t b).core.trapPend = s.core.trapPend := rfl
@[simp] theorem State.later_core_entering (l : Nat) (t : Target) (b : Bool) : (s.later l t b).core.entering = s.core.entering := rfl
@[simp] theorem State.later_core_engPend (l : Nat) (t : Target) (b : Bool) : (s.later l t b).core.engPend = s.core.engPend := rfl
@[simp] theorem State.later_core_refusals (l : Nat) (t : Target) (b : Bool) : (s.later l t b).core.refusals = s.core.refusals := rfl
@[simp] theorem State.later_core_machines (l : Nat) (t : Target) (b : Bool) : (s.later l t b).core.machines = s.core.machines := rfl
@[simp] theorem State.later_core_charge (l : Nat) (t : Target) (b : Bool) : (s.later l t b).core.charge = s.core.charge := rfl
@[simp] theorem State.later_core_chargeV (l : Nat) (t : Target) (b : Bool) : (s.later l t b).core.chargeV = s.core.chargeV := rfl
@[simp] theorem State.later_core_chargePc (l : Nat) (t : Target) (b : Bool) : (s.later l t b).core.chargePc = s.core.chargePc := rfl
@[simp] theorem State.later_core_waited (l : Nat) (t : Target) (b : Bool) : (s.later l t b).core.waited = s.core.waited := rfl

/-- A result either is discarded, is written at once, or is a latch visible from its clk (R39, R192). -/
theorem State.result_cases (l r : Nat) (v : Word) :
    (r = 0 ∧ s.result l r v = s) ∨ (r ≠ 0 ∧ l ≤ 1 ∧ s.result l r v = s.putG r v) ∨
      (r ≠ 0 ∧ 1 < l ∧ s.result l r v = s.later l (.reg r v) true) := by
  unfold State.result
  by_cases h : r = 0
  · exact .inl ⟨h, if_pos h⟩
  · rw [if_neg h]
    by_cases hl : l ≤ 1
    · exact .inr (.inl ⟨h, hl, if_pos hl⟩)
    · exact .inr (.inr ⟨h, Nat.lt_of_not_le hl, if_neg hl⟩)

@[simp] theorem State.result_clk (l r : Nat) (v : Word) : (s.result l r v).clk = s.clk := by
  rcases s.result_cases l r v with ⟨_, h⟩ | ⟨_, _, h⟩ | ⟨_, _, h⟩ <;> rw [h] <;> rfl
@[simp] theorem State.result_gcell (l r : Nat) (v : Word) : (s.result l r v).gcell = s.gcell := by
  rcases s.result_cases l r v with ⟨_, h⟩ | ⟨_, _, h⟩ | ⟨_, _, h⟩ <;> rw [h] <;> rfl
@[simp] theorem State.result_csr (l r : Nat) (v : Word) : (s.result l r v).csr = s.csr := by
  rcases s.result_cases l r v with ⟨_, h⟩ | ⟨_, _, h⟩ | ⟨_, _, h⟩ <;> rw [h] <;> rfl
@[simp] theorem State.result_cell (l r : Nat) (v : Word) : (s.result l r v).cell = s.cell := by
  rcases s.result_cases l r v with ⟨_, h⟩ | ⟨_, _, h⟩ | ⟨_, _, h⟩ <;> rw [h] <;> rfl
@[simp] theorem State.result_mem (l r : Nat) (v : Word) : (s.result l r v).mem = s.mem := by
  rcases s.result_cases l r v with ⟨_, h⟩ | ⟨_, _, h⟩ | ⟨_, _, h⟩ <;> rw [h] <;> rfl
@[simp] theorem State.result_sys (l r : Nat) (v : Word) : (s.result l r v).sys = s.sys := by
  rcases s.result_cases l r v with ⟨_, h⟩ | ⟨_, _, h⟩ | ⟨_, _, h⟩ <;> rw [h] <;> rfl
@[simp] theorem State.result_coll (l r : Nat) (v : Word) : (s.result l r v).coll = s.coll := by
  rcases s.result_cases l r v with ⟨_, h⟩ | ⟨_, _, h⟩ | ⟨_, _, h⟩ <;> rw [h] <;> rfl
@[simp] theorem State.result_hubs (l r : Nat) (v : Word) : (s.result l r v).hubs = s.hubs := by
  rcases s.result_cases l r v with ⟨_, h⟩ | ⟨_, _, h⟩ | ⟨_, _, h⟩ <;> rw [h] <;> rfl
@[simp] theorem State.result_acct (l r : Nat) (v : Word) : (s.result l r v).acct = s.acct := by
  rcases s.result_cases l r v with ⟨_, h⟩ | ⟨_, _, h⟩ | ⟨_, _, h⟩ <;> rw [h] <;> rfl
@[simp] theorem State.result_dbg (l r : Nat) (v : Word) : (s.result l r v).dbg = s.dbg := by
  rcases s.result_cases l r v with ⟨_, h⟩ | ⟨_, _, h⟩ | ⟨_, _, h⟩ <;> rw [h] <;> rfl
@[simp] theorem State.result_mgr (l r : Nat) (v : Word) : (s.result l r v).mgr = s.mgr := by
  rcases s.result_cases l r v with ⟨_, h⟩ | ⟨_, _, h⟩ | ⟨_, _, h⟩ <;> rw [h] <;> rfl
@[simp] theorem State.result_lq (l r : Nat) (v : Word) : (s.result l r v).lq = s.lq := by
  rcases s.result_cases l r v with ⟨_, h⟩ | ⟨_, _, h⟩ | ⟨_, _, h⟩ <;> rw [h] <;> rfl
@[simp] theorem State.result_fab (l r : Nat) (v : Word) : (s.result l r v).fab = s.fab := by
  rcases s.result_cases l r v with ⟨_, h⟩ | ⟨_, _, h⟩ | ⟨_, _, h⟩ <;> rw [h] <;> rfl
@[simp] theorem State.result_pwr (l r : Nat) (v : Word) : (s.result l r v).pwr = s.pwr := by
  rcases s.result_cases l r v with ⟨_, h⟩ | ⟨_, _, h⟩ | ⟨_, _, h⟩ <;> rw [h] <;> rfl
@[simp] theorem State.result_inp (l r : Nat) (v : Word) : (s.result l r v).inp = s.inp := by
  rcases s.result_cases l r v with ⟨_, h⟩ | ⟨_, _, h⟩ | ⟨_, _, h⟩ <;> rw [h] <;> rfl
@[simp] theorem State.result_agenda (l r : Nat) (v : Word) : (s.result l r v).agenda = s.agenda := by
  rcases s.result_cases l r v with ⟨_, h⟩ | ⟨_, _, h⟩ | ⟨_, _, h⟩ <;> rw [h] <;> rfl
@[simp] theorem State.result_actq (l r : Nat) (v : Word) : (s.result l r v).actq = s.actq := by
  rcases s.result_cases l r v with ⟨_, h⟩ | ⟨_, _, h⟩ | ⟨_, _, h⟩ <;> rw [h] <;> rfl
@[simp] theorem State.result_core_pc (l r : Nat) (v : Word) : (s.result l r v).core.pc = s.core.pc := by
  rcases s.result_cases l r v with ⟨_, h⟩ | ⟨_, _, h⟩ | ⟨_, _, h⟩ <;> rw [h] <;> simp
@[simp] theorem State.result_core_m (l r : Nat) (v : Word) : (s.result l r v).core.m = s.core.m := by
  rcases s.result_cases l r v with ⟨_, h⟩ | ⟨_, _, h⟩ | ⟨_, _, h⟩ <;> rw [h] <;> simp
@[simp] theorem State.result_core_z (l r : Nat) (v : Word) : (s.result l r v).core.z = s.core.z := by
  rcases s.result_cases l r v with ⟨_, h⟩ | ⟨_, _, h⟩ | ⟨_, _, h⟩ <;> rw [h] <;> simp
@[simp] theorem State.result_core_zpend (l r : Nat) (v : Word) : (s.result l r v).core.zpend = s.core.zpend := by
  rcases s.result_cases l r v with ⟨_, h⟩ | ⟨_, _, h⟩ | ⟨_, _, h⟩ <;> rw [h] <;> simp
@[simp] theorem State.result_core_q (l r : Nat) (v : Word) : (s.result l r v).core.q = s.core.q := by
  rcases s.result_cases l r v with ⟨_, h⟩ | ⟨_, _, h⟩ | ⟨_, _, h⟩ <;> rw [h] <;> simp
@[simp] theorem State.result_core_mask (l r : Nat) (v : Word) : (s.result l r v).core.mask = s.core.mask := by
  rcases s.result_cases l r v with ⟨_, h⟩ | ⟨_, _, h⟩ | ⟨_, _, h⟩ <;> rw [h] <;> simp
@[simp] theorem State.result_core_status (l r : Nat) (v : Word) : (s.result l r v).core.status = s.core.status := by
  rcases s.result_cases l r v with ⟨_, h⟩ | ⟨_, _, h⟩ | ⟨_, _, h⟩ <;> rw [h] <;> simp
@[simp] theorem State.result_core_reinject (l r : Nat) (v : Word) : (s.result l r v).core.reinject = s.core.reinject := by
  rcases s.result_cases l r v with ⟨_, h⟩ | ⟨_, _, h⟩ | ⟨_, _, h⟩ <;> rw [h] <;> simp
@[simp] theorem State.result_core_busy (l r : Nat) (v : Word) : (s.result l r v).core.busy = s.core.busy := by
  rcases s.result_cases l r v with ⟨_, h⟩ | ⟨_, _, h⟩ | ⟨_, _, h⟩ <;> rw [h] <;> simp
@[simp] theorem State.result_core_fetchClk (l r : Nat) (v : Word) : (s.result l r v).core.fetchClk = s.core.fetchClk := by
  rcases s.result_cases l r v with ⟨_, h⟩ | ⟨_, _, h⟩ | ⟨_, _, h⟩ <;> rw [h] <;> simp
@[simp] theorem State.result_core_delayClk (l r : Nat) (v : Word) : (s.result l r v).core.delayClk = s.core.delayClk := by
  rcases s.result_cases l r v with ⟨_, h⟩ | ⟨_, _, h⟩ | ⟨_, _, h⟩ <;> rw [h] <;> simp
@[simp] theorem State.result_core_vat (l r : Nat) (v : Word) : (s.result l r v).core.vat = s.core.vat := by
  rcases s.result_cases l r v with ⟨_, h⟩ | ⟨_, _, h⟩ | ⟨_, _, h⟩ <;> rw [h] <;> simp
@[simp] theorem State.result_core_barsync (l r : Nat) (v : Word) : (s.result l r v).core.barsync = s.core.barsync := by
  rcases s.result_cases l r v with ⟨_, h⟩ | ⟨_, _, h⟩ | ⟨_, _, h⟩ <;> rw [h] <;> simp
@[simp] theorem State.result_core_zOld (l r : Nat) (v : Word) : (s.result l r v).core.zOld = s.core.zOld := by
  rcases s.result_cases l r v with ⟨_, h⟩ | ⟨_, _, h⟩ | ⟨_, _, h⟩ <;> rw [h] <;> simp
@[simp] theorem State.result_core_qOld (l r : Nat) (v : Word) : (s.result l r v).core.qOld = s.core.qOld := by
  rcases s.result_cases l r v with ⟨_, h⟩ | ⟨_, _, h⟩ | ⟨_, _, h⟩ <;> rw [h] <;> simp
@[simp] theorem State.result_core_termOld (l r : Nat) (v : Word) : (s.result l r v).core.termOld = s.core.termOld := by
  rcases s.result_cases l r v with ⟨_, h⟩ | ⟨_, _, h⟩ | ⟨_, _, h⟩ <;> rw [h] <;> simp
@[simp] theorem State.result_core_reinjectAt (l r : Nat) (v : Word) : (s.result l r v).core.reinjectAt = s.core.reinjectAt := by
  rcases s.result_cases l r v with ⟨_, h⟩ | ⟨_, _, h⟩ | ⟨_, _, h⟩ <;> rw [h] <;> simp
@[simp] theorem State.result_core_posted (l r : Nat) (v : Word) : (s.result l r v).core.posted = s.core.posted := by
  rcases s.result_cases l r v with ⟨_, h⟩ | ⟨_, _, h⟩ | ⟨_, _, h⟩ <;> rw [h] <;> simp
@[simp] theorem State.result_core_preLatch (l r : Nat) (v : Word) : (s.result l r v).core.preLatch = s.core.preLatch := by
  rcases s.result_cases l r v with ⟨_, h⟩ | ⟨_, _, h⟩ | ⟨_, _, h⟩ <;> rw [h] <;> simp
@[simp] theorem State.result_core_tmrSet (l r : Nat) (v : Word) : (s.result l r v).core.tmrSet = s.core.tmrSet := by
  rcases s.result_cases l r v with ⟨_, h⟩ | ⟨_, _, h⟩ | ⟨_, _, h⟩ <;> rw [h] <;> simp
@[simp] theorem State.result_core_acqUntil (l r : Nat) (v : Word) : (s.result l r v).core.acqUntil = s.core.acqUntil := by
  rcases s.result_cases l r v with ⟨_, h⟩ | ⟨_, _, h⟩ | ⟨_, _, h⟩ <;> rw [h] <;> simp
@[simp] theorem State.result_core_wfi (l r : Nat) (v : Word) : (s.result l r v).core.wfi = s.core.wfi := by
  rcases s.result_cases l r v with ⟨_, h⟩ | ⟨_, _, h⟩ | ⟨_, _, h⟩ <;> rw [h] <;> simp
@[simp] theorem State.result_core_frameBar (l r : Nat) (v : Word) : (s.result l r v).core.frameBar = s.core.frameBar := by
  rcases s.result_cases l r v with ⟨_, h⟩ | ⟨_, _, h⟩ | ⟨_, _, h⟩ <;> rw [h] <;> simp
@[simp] theorem State.result_core_fenceId (l r : Nat) (v : Word) : (s.result l r v).core.fenceId = s.core.fenceId := by
  rcases s.result_cases l r v with ⟨_, h⟩ | ⟨_, _, h⟩ | ⟨_, _, h⟩ <;> rw [h] <;> simp
@[simp] theorem State.result_core_win (l r : Nat) (v : Word) : (s.result l r v).core.win = s.core.win := by
  rcases s.result_cases l r v with ⟨_, h⟩ | ⟨_, _, h⟩ | ⟨_, _, h⟩ <;> rw [h] <;> simp
@[simp] theorem State.result_core_latWait (l r : Nat) (v : Word) : (s.result l r v).core.latWait = s.core.latWait := by
  rcases s.result_cases l r v with ⟨_, h⟩ | ⟨_, _, h⟩ | ⟨_, _, h⟩ <;> rw [h] <;> simp
@[simp] theorem State.result_core_far (l r : Nat) (v : Word) : (s.result l r v).core.far = s.core.far := by
  rcases s.result_cases l r v with ⟨_, h⟩ | ⟨_, _, h⟩ | ⟨_, _, h⟩ <;> rw [h] <;> simp
@[simp] theorem State.result_core_relFences (l r : Nat) (v : Word) : (s.result l r v).core.relFences = s.core.relFences := by
  rcases s.result_cases l r v with ⟨_, h⟩ | ⟨_, _, h⟩ | ⟨_, _, h⟩ <;> rw [h] <;> simp
@[simp] theorem State.result_core_wpSent (l r : Nat) (v : Word) : (s.result l r v).core.wpSent = s.core.wpSent := by
  rcases s.result_cases l r v with ⟨_, h⟩ | ⟨_, _, h⟩ | ⟨_, _, h⟩ <;> rw [h] <;> simp
@[simp] theorem State.result_core_readClk (l r : Nat) (v : Word) : (s.result l r v).core.readClk = s.core.readClk := by
  rcases s.result_cases l r v with ⟨_, h⟩ | ⟨_, _, h⟩ | ⟨_, _, h⟩ <;> rw [h] <;> simp
@[simp] theorem State.result_core_walkFault (l r : Nat) (v : Word) : (s.result l r v).core.walkFault = s.core.walkFault := by
  rcases s.result_cases l r v with ⟨_, h⟩ | ⟨_, _, h⟩ | ⟨_, _, h⟩ <;> rw [h] <;> simp
@[simp] theorem State.result_core_skipBkpt (l r : Nat) (v : Word) : (s.result l r v).core.skipBkpt = s.core.skipBkpt := by
  rcases s.result_cases l r v with ⟨_, h⟩ | ⟨_, _, h⟩ | ⟨_, _, h⟩ <;> rw [h] <;> simp
@[simp] theorem State.result_core_trapPend (l r : Nat) (v : Word) : (s.result l r v).core.trapPend = s.core.trapPend := by
  rcases s.result_cases l r v with ⟨_, h⟩ | ⟨_, _, h⟩ | ⟨_, _, h⟩ <;> rw [h] <;> simp
@[simp] theorem State.result_core_entering (l r : Nat) (v : Word) : (s.result l r v).core.entering = s.core.entering := by
  rcases s.result_cases l r v with ⟨_, h⟩ | ⟨_, _, h⟩ | ⟨_, _, h⟩ <;> rw [h] <;> simp
@[simp] theorem State.result_core_engPend (l r : Nat) (v : Word) : (s.result l r v).core.engPend = s.core.engPend := by
  rcases s.result_cases l r v with ⟨_, h⟩ | ⟨_, _, h⟩ | ⟨_, _, h⟩ <;> rw [h] <;> simp
@[simp] theorem State.result_core_refusals (l r : Nat) (v : Word) : (s.result l r v).core.refusals = s.core.refusals := by
  rcases s.result_cases l r v with ⟨_, h⟩ | ⟨_, _, h⟩ | ⟨_, _, h⟩ <;> rw [h] <;> simp
@[simp] theorem State.result_core_machines (l r : Nat) (v : Word) : (s.result l r v).core.machines = s.core.machines := by
  rcases s.result_cases l r v with ⟨_, h⟩ | ⟨_, _, h⟩ | ⟨_, _, h⟩ <;> rw [h] <;> simp
@[simp] theorem State.result_core_charge (l r : Nat) (v : Word) : (s.result l r v).core.charge = s.core.charge := by
  rcases s.result_cases l r v with ⟨_, h⟩ | ⟨_, _, h⟩ | ⟨_, _, h⟩ <;> rw [h] <;> simp
@[simp] theorem State.result_core_chargeV (l r : Nat) (v : Word) : (s.result l r v).core.chargeV = s.core.chargeV := by
  rcases s.result_cases l r v with ⟨_, h⟩ | ⟨_, _, h⟩ | ⟨_, _, h⟩ <;> rw [h] <;> simp
@[simp] theorem State.result_core_chargePc (l r : Nat) (v : Word) : (s.result l r v).core.chargePc = s.core.chargePc := by
  rcases s.result_cases l r v with ⟨_, h⟩ | ⟨_, _, h⟩ | ⟨_, _, h⟩ <;> rw [h] <;> simp
@[simp] theorem State.result_core_waited (l r : Nat) (v : Word) : (s.result l r v).core.waited = s.core.waited := by
  rcases s.result_cases l r v with ⟨_, h⟩ | ⟨_, _, h⟩ | ⟨_, _, h⟩ <;> rw [h] <;> simp

/-- A result leaves every register but its own alone. -/
theorem State.g_result_ne {l r n : Nat} (v : Word) (h : n ≠ r) : (s.result l r v).g n = s.g n := by
  rcases s.result_cases l r v with ⟨_, e⟩ | ⟨_, _, e⟩ | ⟨_, _, e⟩ <;> rw [e]
  · exact s.g_putG_ne v h
  · exact s.g_congr rfl n

/-! ### Leaving the head, and waiting there -/

@[simp] theorem State.goto_clk (i : Instr) (pc : Word) : (s.goto i pc).clk = s.clk := rfl
@[simp] theorem State.goto_gcell (i : Instr) (pc : Word) : (s.goto i pc).gcell = s.gcell := rfl
@[simp] theorem State.goto_csr (i : Instr) (pc : Word) : (s.goto i pc).csr = s.csr := rfl
@[simp] theorem State.goto_cell (i : Instr) (pc : Word) : (s.goto i pc).cell = s.cell := rfl
@[simp] theorem State.goto_mem (i : Instr) (pc : Word) : (s.goto i pc).mem = s.mem := rfl
@[simp] theorem State.goto_sys (i : Instr) (pc : Word) : (s.goto i pc).sys = s.sys := rfl
@[simp] theorem State.goto_coll (i : Instr) (pc : Word) : (s.goto i pc).coll = s.coll := rfl
@[simp] theorem State.goto_hubs (i : Instr) (pc : Word) : (s.goto i pc).hubs = s.hubs := rfl
@[simp] theorem State.goto_acct (i : Instr) (pc : Word) : (s.goto i pc).acct = s.acct := rfl
@[simp] theorem State.goto_dbg (i : Instr) (pc : Word) : (s.goto i pc).dbg = s.dbg := rfl
@[simp] theorem State.goto_mgr (i : Instr) (pc : Word) : (s.goto i pc).mgr = s.mgr := rfl
@[simp] theorem State.goto_lq (i : Instr) (pc : Word) : (s.goto i pc).lq = s.lq := rfl
@[simp] theorem State.goto_fab (i : Instr) (pc : Word) : (s.goto i pc).fab = s.fab := rfl
@[simp] theorem State.goto_pwr (i : Instr) (pc : Word) : (s.goto i pc).pwr = s.pwr := rfl
@[simp] theorem State.goto_inp (i : Instr) (pc : Word) : (s.goto i pc).inp = s.inp := rfl
@[simp] theorem State.goto_agenda (i : Instr) (pc : Word) : (s.goto i pc).agenda = s.agenda := rfl
@[simp] theorem State.goto_actq (i : Instr) (pc : Word) : (s.goto i pc).actq = s.actq := rfl
@[simp] theorem State.goto_core_g (i : Instr) (pc : Word) : (s.goto i pc).core.g = s.core.g := rfl
@[simp] theorem State.goto_core_gEmpty (i : Instr) (pc : Word) : (s.goto i pc).core.gEmpty = s.core.gEmpty := rfl
@[simp] theorem State.goto_core_m (i : Instr) (pc : Word) : (s.goto i pc).core.m = s.core.m := rfl
@[simp] theorem State.goto_core_z (i : Instr) (pc : Word) : (s.goto i pc).core.z = s.core.z := rfl
@[simp] theorem State.goto_core_zpend (i : Instr) (pc : Word) : (s.goto i pc).core.zpend = s.core.zpend := rfl
@[simp] theorem State.goto_core_zOld (i : Instr) (pc : Word) : (s.goto i pc).core.zOld = s.core.zOld := rfl
@[simp] theorem State.goto_core_q (i : Instr) (pc : Word) : (s.goto i pc).core.q = s.core.q := rfl
@[simp] theorem State.goto_core_qOld (i : Instr) (pc : Word) : (s.goto i pc).core.qOld = s.core.qOld := rfl
@[simp] theorem State.goto_core_mask (i : Instr) (pc : Word) : (s.goto i pc).core.mask = s.core.mask := rfl
@[simp] theorem State.goto_core_status (i : Instr) (pc : Word) : (s.goto i pc).core.status = s.core.status := rfl
@[simp] theorem State.goto_core_inflight (i : Instr) (pc : Word) : (s.goto i pc).core.inflight = s.core.inflight := rfl
@[simp] theorem State.goto_core_reinject (i : Instr) (pc : Word) : (s.goto i pc).core.reinject = s.core.reinject := rfl
@[simp] theorem State.goto_core_busy (i : Instr) (pc : Word) : (s.goto i pc).core.busy = s.core.busy := rfl
@[simp] theorem State.goto_core_vat (i : Instr) (pc : Word) : (s.goto i pc).core.vat = s.core.vat := rfl
@[simp] theorem State.goto_core_pc (i : Instr) (pc : Word) : (s.goto i pc).core.pc = pc := rfl
@[simp] theorem State.goto_core_charge (i : Instr) (pc : Word) : (s.goto i pc).core.charge = .issued := rfl
@[simp] theorem State.goto_g (i : Instr) (pc : Word) (r : Nat) : (s.goto i pc).g r = s.g r := rfl
@[simp] theorem State.goto_core_termOld (i : Instr) (pc : Word) : (s.goto i pc).core.termOld = s.core.termOld := rfl
@[simp] theorem State.goto_core_reinjectAt (i : Instr) (pc : Word) : (s.goto i pc).core.reinjectAt = s.core.reinjectAt := rfl
@[simp] theorem State.goto_core_posted (i : Instr) (pc : Word) : (s.goto i pc).core.posted = s.core.posted := rfl
@[simp] theorem State.goto_core_preLatch (i : Instr) (pc : Word) : (s.goto i pc).core.preLatch = s.core.preLatch := rfl
@[simp] theorem State.goto_core_tmrSet (i : Instr) (pc : Word) : (s.goto i pc).core.tmrSet = s.core.tmrSet := rfl
@[simp] theorem State.goto_core_acqUntil (i : Instr) (pc : Word) : (s.goto i pc).core.acqUntil = s.core.acqUntil := rfl
@[simp] theorem State.goto_core_frameBar (i : Instr) (pc : Word) : (s.goto i pc).core.frameBar = s.core.frameBar := rfl
@[simp] theorem State.goto_core_win (i : Instr) (pc : Word) : (s.goto i pc).core.win = s.core.win := rfl
@[simp] theorem State.goto_core_latWait (i : Instr) (pc : Word) : (s.goto i pc).core.latWait = s.core.latWait := rfl
@[simp] theorem State.goto_core_relFences (i : Instr) (pc : Word) : (s.goto i pc).core.relFences = s.core.relFences := rfl
@[simp] theorem State.goto_core_wpSent (i : Instr) (pc : Word) : (s.goto i pc).core.wpSent = s.core.wpSent := rfl
@[simp] theorem State.goto_core_trapPend (i : Instr) (pc : Word) : (s.goto i pc).core.trapPend = s.core.trapPend := rfl
@[simp] theorem State.goto_core_entering (i : Instr) (pc : Word) : (s.goto i pc).core.entering = s.core.entering := rfl
@[simp] theorem State.goto_core_engPend (i : Instr) (pc : Word) : (s.goto i pc).core.engPend = s.core.engPend := rfl
@[simp] theorem State.goto_core_refusals (i : Instr) (pc : Word) : (s.goto i pc).core.refusals = s.core.refusals := rfl
@[simp] theorem State.goto_core_machines (i : Instr) (pc : Word) : (s.goto i pc).core.machines = s.core.machines := rfl
@[simp] theorem State.hold_clk (i : Instr) (c : Cause) : (s.hold i c).clk = s.clk := rfl
@[simp] theorem State.hold_gcell (i : Instr) (c : Cause) : (s.hold i c).gcell = s.gcell := rfl
@[simp] theorem State.hold_csr (i : Instr) (c : Cause) : (s.hold i c).csr = s.csr := rfl
@[simp] theorem State.hold_cell (i : Instr) (c : Cause) : (s.hold i c).cell = s.cell := rfl
@[simp] theorem State.hold_mem (i : Instr) (c : Cause) : (s.hold i c).mem = s.mem := rfl
@[simp] theorem State.hold_sys (i : Instr) (c : Cause) : (s.hold i c).sys = s.sys := rfl
@[simp] theorem State.hold_coll (i : Instr) (c : Cause) : (s.hold i c).coll = s.coll := rfl
@[simp] theorem State.hold_hubs (i : Instr) (c : Cause) : (s.hold i c).hubs = s.hubs := rfl
@[simp] theorem State.hold_acct (i : Instr) (c : Cause) : (s.hold i c).acct = s.acct := rfl
@[simp] theorem State.hold_dbg (i : Instr) (c : Cause) : (s.hold i c).dbg = s.dbg := rfl
@[simp] theorem State.hold_mgr (i : Instr) (c : Cause) : (s.hold i c).mgr = s.mgr := rfl
@[simp] theorem State.hold_lq (i : Instr) (c : Cause) : (s.hold i c).lq = s.lq := rfl
@[simp] theorem State.hold_fab (i : Instr) (c : Cause) : (s.hold i c).fab = s.fab := rfl
@[simp] theorem State.hold_pwr (i : Instr) (c : Cause) : (s.hold i c).pwr = s.pwr := rfl
@[simp] theorem State.hold_inp (i : Instr) (c : Cause) : (s.hold i c).inp = s.inp := rfl
@[simp] theorem State.hold_agenda (i : Instr) (c : Cause) : (s.hold i c).agenda = s.agenda := rfl
@[simp] theorem State.hold_actq (i : Instr) (c : Cause) : (s.hold i c).actq = s.actq := rfl
@[simp] theorem State.hold_core_pc (i : Instr) (c : Cause) : (s.hold i c).core.pc = s.core.pc := rfl
@[simp] theorem State.hold_core_g (i : Instr) (c : Cause) : (s.hold i c).core.g = s.core.g := rfl
@[simp] theorem State.hold_core_gEmpty (i : Instr) (c : Cause) : (s.hold i c).core.gEmpty = s.core.gEmpty := rfl
@[simp] theorem State.hold_core_m (i : Instr) (c : Cause) : (s.hold i c).core.m = s.core.m := rfl
@[simp] theorem State.hold_core_z (i : Instr) (c : Cause) : (s.hold i c).core.z = s.core.z := rfl
@[simp] theorem State.hold_core_zpend (i : Instr) (c : Cause) : (s.hold i c).core.zpend = s.core.zpend := rfl
@[simp] theorem State.hold_core_q (i : Instr) (c : Cause) : (s.hold i c).core.q = s.core.q := rfl
@[simp] theorem State.hold_core_mask (i : Instr) (c : Cause) : (s.hold i c).core.mask = s.core.mask := rfl
@[simp] theorem State.hold_core_status (i : Instr) (c : Cause) : (s.hold i c).core.status = s.core.status := rfl
@[simp] theorem State.hold_core_inflight (i : Instr) (c : Cause) : (s.hold i c).core.inflight = s.core.inflight := rfl
@[simp] theorem State.hold_core_reinject (i : Instr) (c : Cause) : (s.hold i c).core.reinject = s.core.reinject := rfl
@[simp] theorem State.hold_core_busy (i : Instr) (c : Cause) : (s.hold i c).core.busy = s.core.busy := rfl
@[simp] theorem State.hold_core_vat (i : Instr) (c : Cause) : (s.hold i c).core.vat = s.core.vat := rfl
@[simp] theorem State.hold_core_charge (i : Instr) (c : Cause) : (s.hold i c).core.charge = c := rfl
@[simp] theorem State.hold_core_zOld (i : Instr) (c : Cause) : (s.hold i c).core.zOld = s.core.zOld := rfl
@[simp] theorem State.hold_core_qOld (i : Instr) (c : Cause) : (s.hold i c).core.qOld = s.core.qOld := rfl
@[simp] theorem State.hold_core_termOld (i : Instr) (c : Cause) : (s.hold i c).core.termOld = s.core.termOld := rfl
@[simp] theorem State.hold_core_reinjectAt (i : Instr) (c : Cause) : (s.hold i c).core.reinjectAt = s.core.reinjectAt := rfl
@[simp] theorem State.hold_core_posted (i : Instr) (c : Cause) : (s.hold i c).core.posted = s.core.posted := rfl
@[simp] theorem State.hold_core_preLatch (i : Instr) (c : Cause) : (s.hold i c).core.preLatch = s.core.preLatch := rfl
@[simp] theorem State.hold_core_fetchClk (i : Instr) (c : Cause) : (s.hold i c).core.fetchClk = s.core.fetchClk := rfl
@[simp] theorem State.hold_core_delayClk (i : Instr) (c : Cause) : (s.hold i c).core.delayClk = s.core.delayClk := rfl
@[simp] theorem State.hold_core_tmrSet (i : Instr) (c : Cause) : (s.hold i c).core.tmrSet = s.core.tmrSet := rfl
@[simp] theorem State.hold_core_acqUntil (i : Instr) (c : Cause) : (s.hold i c).core.acqUntil = s.core.acqUntil := rfl
@[simp] theorem State.hold_core_wfi (i : Instr) (c : Cause) : (s.hold i c).core.wfi = s.core.wfi := rfl
@[simp] theorem State.hold_core_barsync (i : Instr) (c : Cause) : (s.hold i c).core.barsync = s.core.barsync := rfl
@[simp] theorem State.hold_core_frameBar (i : Instr) (c : Cause) : (s.hold i c).core.frameBar = s.core.frameBar := rfl
@[simp] theorem State.hold_core_fenceId (i : Instr) (c : Cause) : (s.hold i c).core.fenceId = s.core.fenceId := rfl
@[simp] theorem State.hold_core_win (i : Instr) (c : Cause) : (s.hold i c).core.win = s.core.win := rfl
@[simp] theorem State.hold_core_latWait (i : Instr) (c : Cause) : (s.hold i c).core.latWait = s.core.latWait := rfl
@[simp] theorem State.hold_core_far (i : Instr) (c : Cause) : (s.hold i c).core.far = s.core.far := rfl
@[simp] theorem State.hold_core_relFences (i : Instr) (c : Cause) : (s.hold i c).core.relFences = s.core.relFences := rfl
@[simp] theorem State.hold_core_wpSent (i : Instr) (c : Cause) : (s.hold i c).core.wpSent = s.core.wpSent := rfl
@[simp] theorem State.hold_core_readClk (i : Instr) (c : Cause) : (s.hold i c).core.readClk = s.core.readClk := rfl
@[simp] theorem State.hold_core_walkFault (i : Instr) (c : Cause) : (s.hold i c).core.walkFault = s.core.walkFault := rfl
@[simp] theorem State.hold_core_skipBkpt (i : Instr) (c : Cause) : (s.hold i c).core.skipBkpt = s.core.skipBkpt := rfl
@[simp] theorem State.hold_core_trapPend (i : Instr) (c : Cause) : (s.hold i c).core.trapPend = s.core.trapPend := rfl
@[simp] theorem State.hold_core_entering (i : Instr) (c : Cause) : (s.hold i c).core.entering = s.core.entering := rfl
@[simp] theorem State.hold_core_engPend (i : Instr) (c : Cause) : (s.hold i c).core.engPend = s.core.engPend := rfl
@[simp] theorem State.hold_core_refusals (i : Instr) (c : Cause) : (s.hold i c).core.refusals = s.core.refusals := rfl
@[simp] theorem State.hold_core_machines (i : Instr) (c : Cause) : (s.hold i c).core.machines = s.core.machines := rfl

/-! ### Parts of the components -/

@[simp] theorem State.setQueue_clk (q : Nat) (v : Queue) : (s.setQueue q v).clk = s.clk := rfl
@[simp] theorem State.setQueue_gcell (q : Nat) (v : Queue) : (s.setQueue q v).gcell = s.gcell := rfl
@[simp] theorem State.setQueue_core (q : Nat) (v : Queue) : (s.setQueue q v).core = s.core := rfl
@[simp] theorem State.setQueue_csr (q : Nat) (v : Queue) : (s.setQueue q v).csr = s.csr := rfl
@[simp] theorem State.setQueue_mem (q : Nat) (v : Queue) : (s.setQueue q v).mem = s.mem := rfl
@[simp] theorem State.setQueue_sys (q : Nat) (v : Queue) : (s.setQueue q v).sys = s.sys := rfl
@[simp] theorem State.setQueue_coll (q : Nat) (v : Queue) : (s.setQueue q v).coll = s.coll := rfl
@[simp] theorem State.setQueue_hubs (q : Nat) (v : Queue) : (s.setQueue q v).hubs = s.hubs := rfl
@[simp] theorem State.setQueue_acct (q : Nat) (v : Queue) : (s.setQueue q v).acct = s.acct := rfl
@[simp] theorem State.setQueue_dbg (q : Nat) (v : Queue) : (s.setQueue q v).dbg = s.dbg := rfl
@[simp] theorem State.setQueue_mgr (q : Nat) (v : Queue) : (s.setQueue q v).mgr = s.mgr := rfl
@[simp] theorem State.setQueue_lq (q : Nat) (v : Queue) : (s.setQueue q v).lq = s.lq := rfl
@[simp] theorem State.setQueue_fab (q : Nat) (v : Queue) : (s.setQueue q v).fab = s.fab := rfl
@[simp] theorem State.setQueue_pwr (q : Nat) (v : Queue) : (s.setQueue q v).pwr = s.pwr := rfl
@[simp] theorem State.setQueue_inp (q : Nat) (v : Queue) : (s.setQueue q v).inp = s.inp := rfl
@[simp] theorem State.setQueue_agenda (q : Nat) (v : Queue) : (s.setQueue q v).agenda = s.agenda := rfl
@[simp] theorem State.setQueue_actq (q : Nat) (v : Queue) : (s.setQueue q v).actq = s.actq := rfl
@[simp] theorem State.setStorePort_clk (st : Nat) (p : StorePort) : (s.setStorePort st p).clk = s.clk := rfl
@[simp] theorem State.setStorePort_gcell (st : Nat) (p : StorePort) : (s.setStorePort st p).gcell = s.gcell := rfl
@[simp] theorem State.setStorePort_core (st : Nat) (p : StorePort) : (s.setStorePort st p).core = s.core := rfl
@[simp] theorem State.setStorePort_csr (st : Nat) (p : StorePort) : (s.setStorePort st p).csr = s.csr := rfl
@[simp] theorem State.setStorePort_mem (st : Nat) (p : StorePort) : (s.setStorePort st p).mem = s.mem := rfl
@[simp] theorem State.setStorePort_sys (st : Nat) (p : StorePort) : (s.setStorePort st p).sys = s.sys := rfl
@[simp] theorem State.setStorePort_coll (st : Nat) (p : StorePort) : (s.setStorePort st p).coll = s.coll := rfl
@[simp] theorem State.setStorePort_hubs (st : Nat) (p : StorePort) : (s.setStorePort st p).hubs = s.hubs := rfl
@[simp] theorem State.setStorePort_acct (st : Nat) (p : StorePort) : (s.setStorePort st p).acct = s.acct := rfl
@[simp] theorem State.setStorePort_dbg (st : Nat) (p : StorePort) : (s.setStorePort st p).dbg = s.dbg := rfl
@[simp] theorem State.setStorePort_mgr (st : Nat) (p : StorePort) : (s.setStorePort st p).mgr = s.mgr := rfl
@[simp] theorem State.setStorePort_lq (st : Nat) (p : StorePort) : (s.setStorePort st p).lq = s.lq := rfl
@[simp] theorem State.setStorePort_fab (st : Nat) (p : StorePort) : (s.setStorePort st p).fab = s.fab := rfl
@[simp] theorem State.setStorePort_pwr (st : Nat) (p : StorePort) : (s.setStorePort st p).pwr = s.pwr := rfl
@[simp] theorem State.setStorePort_inp (st : Nat) (p : StorePort) : (s.setStorePort st p).inp = s.inp := rfl
@[simp] theorem State.setStorePort_agenda (st : Nat) (p : StorePort) : (s.setStorePort st p).agenda = s.agenda := rfl
@[simp] theorem State.setStorePort_actq (st : Nat) (p : StorePort) : (s.setStorePort st p).actq = s.actq := rfl
@[simp] theorem State.setRing_clk (n : Nat) (r : Ring) : (s.setRing n r).clk = s.clk := rfl
@[simp] theorem State.setRing_gcell (n : Nat) (r : Ring) : (s.setRing n r).gcell = s.gcell := rfl
@[simp] theorem State.setRing_core (n : Nat) (r : Ring) : (s.setRing n r).core = s.core := rfl
@[simp] theorem State.setRing_csr (n : Nat) (r : Ring) : (s.setRing n r).csr = s.csr := rfl
@[simp] theorem State.setRing_mem (n : Nat) (r : Ring) : (s.setRing n r).mem = s.mem := rfl
@[simp] theorem State.setRing_sys (n : Nat) (r : Ring) : (s.setRing n r).sys = s.sys := rfl
@[simp] theorem State.setRing_coll (n : Nat) (r : Ring) : (s.setRing n r).coll = s.coll := rfl
@[simp] theorem State.setRing_hubs (n : Nat) (r : Ring) : (s.setRing n r).hubs = s.hubs := rfl
@[simp] theorem State.setRing_acct (n : Nat) (r : Ring) : (s.setRing n r).acct = s.acct := rfl
@[simp] theorem State.setRing_dbg (n : Nat) (r : Ring) : (s.setRing n r).dbg = s.dbg := rfl
@[simp] theorem State.setRing_mgr (n : Nat) (r : Ring) : (s.setRing n r).mgr = s.mgr := rfl
@[simp] theorem State.setRing_lq (n : Nat) (r : Ring) : (s.setRing n r).lq = s.lq := rfl
@[simp] theorem State.setRing_fab (n : Nat) (r : Ring) : (s.setRing n r).fab = s.fab := rfl
@[simp] theorem State.setRing_pwr (n : Nat) (r : Ring) : (s.setRing n r).pwr = s.pwr := rfl
@[simp] theorem State.setRing_inp (n : Nat) (r : Ring) : (s.setRing n r).inp = s.inp := rfl
@[simp] theorem State.setRing_agenda (n : Nat) (r : Ring) : (s.setRing n r).agenda = s.agenda := rfl
@[simp] theorem State.setRing_actq (n : Nat) (r : Ring) : (s.setRing n r).actq = s.actq := rfl
@[simp] theorem State.setAlloc_clk (st : Nat) (a : Alloc) : (s.setAlloc st a).clk = s.clk := rfl
@[simp] theorem State.setAlloc_gcell (st : Nat) (a : Alloc) : (s.setAlloc st a).gcell = s.gcell := rfl
@[simp] theorem State.setAlloc_core (st : Nat) (a : Alloc) : (s.setAlloc st a).core = s.core := rfl
@[simp] theorem State.setAlloc_csr (st : Nat) (a : Alloc) : (s.setAlloc st a).csr = s.csr := rfl
@[simp] theorem State.setAlloc_mem (st : Nat) (a : Alloc) : (s.setAlloc st a).mem = s.mem := rfl
@[simp] theorem State.setAlloc_sys (st : Nat) (a : Alloc) : (s.setAlloc st a).sys = s.sys := rfl
@[simp] theorem State.setAlloc_coll (st : Nat) (a : Alloc) : (s.setAlloc st a).coll = s.coll := rfl
@[simp] theorem State.setAlloc_hubs (st : Nat) (a : Alloc) : (s.setAlloc st a).hubs = s.hubs := rfl
@[simp] theorem State.setAlloc_acct (st : Nat) (a : Alloc) : (s.setAlloc st a).acct = s.acct := rfl
@[simp] theorem State.setAlloc_dbg (st : Nat) (a : Alloc) : (s.setAlloc st a).dbg = s.dbg := rfl
@[simp] theorem State.setAlloc_mgr (st : Nat) (a : Alloc) : (s.setAlloc st a).mgr = s.mgr := rfl
@[simp] theorem State.setAlloc_lq (st : Nat) (a : Alloc) : (s.setAlloc st a).lq = s.lq := rfl
@[simp] theorem State.setAlloc_fab (st : Nat) (a : Alloc) : (s.setAlloc st a).fab = s.fab := rfl
@[simp] theorem State.setAlloc_pwr (st : Nat) (a : Alloc) : (s.setAlloc st a).pwr = s.pwr := rfl
@[simp] theorem State.setAlloc_inp (st : Nat) (a : Alloc) : (s.setAlloc st a).inp = s.inp := rfl
@[simp] theorem State.setAlloc_agenda (st : Nat) (a : Alloc) : (s.setAlloc st a).agenda = s.agenda := rfl
@[simp] theorem State.setAlloc_actq (st : Nat) (a : Alloc) : (s.setAlloc st a).actq = s.actq := rfl
@[simp] theorem State.setHub_clk (i : Nat) (h : Hub) : (s.setHub i h).clk = s.clk := rfl
@[simp] theorem State.setHub_gcell (i : Nat) (h : Hub) : (s.setHub i h).gcell = s.gcell := rfl
@[simp] theorem State.setHub_core (i : Nat) (h : Hub) : (s.setHub i h).core = s.core := rfl
@[simp] theorem State.setHub_csr (i : Nat) (h : Hub) : (s.setHub i h).csr = s.csr := rfl
@[simp] theorem State.setHub_cell (i : Nat) (h : Hub) : (s.setHub i h).cell = s.cell := rfl
@[simp] theorem State.setHub_mem (i : Nat) (h : Hub) : (s.setHub i h).mem = s.mem := rfl
@[simp] theorem State.setHub_sys (i : Nat) (h : Hub) : (s.setHub i h).sys = s.sys := rfl
@[simp] theorem State.setHub_coll (i : Nat) (h : Hub) : (s.setHub i h).coll = s.coll := rfl
@[simp] theorem State.setHub_acct (i : Nat) (h : Hub) : (s.setHub i h).acct = s.acct := rfl
@[simp] theorem State.setHub_dbg (i : Nat) (h : Hub) : (s.setHub i h).dbg = s.dbg := rfl
@[simp] theorem State.setHub_mgr (i : Nat) (h : Hub) : (s.setHub i h).mgr = s.mgr := rfl
@[simp] theorem State.setHub_lq (i : Nat) (h : Hub) : (s.setHub i h).lq = s.lq := rfl
@[simp] theorem State.setHub_fab (i : Nat) (h : Hub) : (s.setHub i h).fab = s.fab := rfl
@[simp] theorem State.setHub_pwr (i : Nat) (h : Hub) : (s.setHub i h).pwr = s.pwr := rfl
@[simp] theorem State.setHub_inp (i : Nat) (h : Hub) : (s.setHub i h).inp = s.inp := rfl
@[simp] theorem State.setHub_agenda (i : Nat) (h : Hub) : (s.setHub i h).agenda = s.agenda := rfl
@[simp] theorem State.setHub_actq (i : Nat) (h : Hub) : (s.setHub i h).actq = s.actq := rfl
@[simp] theorem State.setPort_clk (i : Nat) (p : Port) : (s.setPort i p).clk = s.clk := rfl
@[simp] theorem State.setPort_gcell (i : Nat) (p : Port) : (s.setPort i p).gcell = s.gcell := rfl
@[simp] theorem State.setPort_core (i : Nat) (p : Port) : (s.setPort i p).core = s.core := rfl
@[simp] theorem State.setPort_csr (i : Nat) (p : Port) : (s.setPort i p).csr = s.csr := rfl
@[simp] theorem State.setPort_cell (i : Nat) (p : Port) : (s.setPort i p).cell = s.cell := rfl
@[simp] theorem State.setPort_mem (i : Nat) (p : Port) : (s.setPort i p).mem = s.mem := rfl
@[simp] theorem State.setPort_sys (i : Nat) (p : Port) : (s.setPort i p).sys = s.sys := rfl
@[simp] theorem State.setPort_coll (i : Nat) (p : Port) : (s.setPort i p).coll = s.coll := rfl
@[simp] theorem State.setPort_hubs (i : Nat) (p : Port) : (s.setPort i p).hubs = s.hubs := rfl
@[simp] theorem State.setPort_acct (i : Nat) (p : Port) : (s.setPort i p).acct = s.acct := rfl
@[simp] theorem State.setPort_dbg (i : Nat) (p : Port) : (s.setPort i p).dbg = s.dbg := rfl
@[simp] theorem State.setPort_mgr (i : Nat) (p : Port) : (s.setPort i p).mgr = s.mgr := rfl
@[simp] theorem State.setPort_lq (i : Nat) (p : Port) : (s.setPort i p).lq = s.lq := rfl
@[simp] theorem State.setPort_pwr (i : Nat) (p : Port) : (s.setPort i p).pwr = s.pwr := rfl
@[simp] theorem State.setPort_inp (i : Nat) (p : Port) : (s.setPort i p).inp = s.inp := rfl
@[simp] theorem State.setPort_agenda (i : Nat) (p : Port) : (s.setPort i p).agenda = s.agenda := rfl
@[simp] theorem State.setPort_actq (i : Nat) (p : Port) : (s.setPort i p).actq = s.actq := rfl
@[simp] theorem State.setCap_clk (i : Nat) (c : CapSet) : (s.setCap i c).clk = s.clk := rfl
@[simp] theorem State.setCap_gcell (i : Nat) (c : CapSet) : (s.setCap i c).gcell = s.gcell := rfl
@[simp] theorem State.setCap_core (i : Nat) (c : CapSet) : (s.setCap i c).core = s.core := rfl
@[simp] theorem State.setCap_csr (i : Nat) (c : CapSet) : (s.setCap i c).csr = s.csr := rfl
@[simp] theorem State.setCap_cell (i : Nat) (c : CapSet) : (s.setCap i c).cell = s.cell := rfl
@[simp] theorem State.setCap_mem (i : Nat) (c : CapSet) : (s.setCap i c).mem = s.mem := rfl
@[simp] theorem State.setCap_sys (i : Nat) (c : CapSet) : (s.setCap i c).sys = s.sys := rfl
@[simp] theorem State.setCap_coll (i : Nat) (c : CapSet) : (s.setCap i c).coll = s.coll := rfl
@[simp] theorem State.setCap_hubs (i : Nat) (c : CapSet) : (s.setCap i c).hubs = s.hubs := rfl
@[simp] theorem State.setCap_dbg (i : Nat) (c : CapSet) : (s.setCap i c).dbg = s.dbg := rfl
@[simp] theorem State.setCap_mgr (i : Nat) (c : CapSet) : (s.setCap i c).mgr = s.mgr := rfl
@[simp] theorem State.setCap_lq (i : Nat) (c : CapSet) : (s.setCap i c).lq = s.lq := rfl
@[simp] theorem State.setCap_fab (i : Nat) (c : CapSet) : (s.setCap i c).fab = s.fab := rfl
@[simp] theorem State.setCap_pwr (i : Nat) (c : CapSet) : (s.setCap i c).pwr = s.pwr := rfl
@[simp] theorem State.setCap_inp (i : Nat) (c : CapSet) : (s.setCap i c).inp = s.inp := rfl
@[simp] theorem State.setCap_agenda (i : Nat) (c : CapSet) : (s.setCap i c).agenda = s.agenda := rfl
@[simp] theorem State.setCap_actq (i : Nat) (c : CapSet) : (s.setCap i c).actq = s.actq := rfl
@[simp] theorem State.putZ_clk (n : Nat) (v : Lane) : (s.putZ n v).clk = s.clk := rfl
@[simp] theorem State.putZ_gcell (n : Nat) (v : Lane) : (s.putZ n v).gcell = s.gcell := rfl
@[simp] theorem State.putZ_csr (n : Nat) (v : Lane) : (s.putZ n v).csr = s.csr := rfl
@[simp] theorem State.putZ_cell (n : Nat) (v : Lane) : (s.putZ n v).cell = s.cell := rfl
@[simp] theorem State.putZ_mem (n : Nat) (v : Lane) : (s.putZ n v).mem = s.mem := rfl
@[simp] theorem State.putZ_sys (n : Nat) (v : Lane) : (s.putZ n v).sys = s.sys := rfl
@[simp] theorem State.putZ_coll (n : Nat) (v : Lane) : (s.putZ n v).coll = s.coll := rfl
@[simp] theorem State.putZ_hubs (n : Nat) (v : Lane) : (s.putZ n v).hubs = s.hubs := rfl
@[simp] theorem State.putZ_acct (n : Nat) (v : Lane) : (s.putZ n v).acct = s.acct := rfl
@[simp] theorem State.putZ_dbg (n : Nat) (v : Lane) : (s.putZ n v).dbg = s.dbg := rfl
@[simp] theorem State.putZ_mgr (n : Nat) (v : Lane) : (s.putZ n v).mgr = s.mgr := rfl
@[simp] theorem State.putZ_lq (n : Nat) (v : Lane) : (s.putZ n v).lq = s.lq := rfl
@[simp] theorem State.putZ_fab (n : Nat) (v : Lane) : (s.putZ n v).fab = s.fab := rfl
@[simp] theorem State.putZ_pwr (n : Nat) (v : Lane) : (s.putZ n v).pwr = s.pwr := rfl
@[simp] theorem State.putZ_inp (n : Nat) (v : Lane) : (s.putZ n v).inp = s.inp := rfl
@[simp] theorem State.putZ_agenda (n : Nat) (v : Lane) : (s.putZ n v).agenda = s.agenda := rfl
@[simp] theorem State.putZ_actq (n : Nat) (v : Lane) : (s.putZ n v).actq = s.actq := rfl
@[simp] theorem State.setZpend_clk (n c : Nat) : (s.setZpend n c).clk = s.clk := rfl
@[simp] theorem State.setZpend_gcell (n c : Nat) : (s.setZpend n c).gcell = s.gcell := rfl
@[simp] theorem State.setZpend_csr (n c : Nat) : (s.setZpend n c).csr = s.csr := rfl
@[simp] theorem State.setZpend_cell (n c : Nat) : (s.setZpend n c).cell = s.cell := rfl
@[simp] theorem State.setZpend_mem (n c : Nat) : (s.setZpend n c).mem = s.mem := rfl
@[simp] theorem State.setZpend_sys (n c : Nat) : (s.setZpend n c).sys = s.sys := rfl
@[simp] theorem State.setZpend_coll (n c : Nat) : (s.setZpend n c).coll = s.coll := rfl
@[simp] theorem State.setZpend_hubs (n c : Nat) : (s.setZpend n c).hubs = s.hubs := rfl
@[simp] theorem State.setZpend_acct (n c : Nat) : (s.setZpend n c).acct = s.acct := rfl
@[simp] theorem State.setZpend_dbg (n c : Nat) : (s.setZpend n c).dbg = s.dbg := rfl
@[simp] theorem State.setZpend_mgr (n c : Nat) : (s.setZpend n c).mgr = s.mgr := rfl
@[simp] theorem State.setZpend_lq (n c : Nat) : (s.setZpend n c).lq = s.lq := rfl
@[simp] theorem State.setZpend_fab (n c : Nat) : (s.setZpend n c).fab = s.fab := rfl
@[simp] theorem State.setZpend_pwr (n c : Nat) : (s.setZpend n c).pwr = s.pwr := rfl
@[simp] theorem State.setZpend_inp (n c : Nat) : (s.setZpend n c).inp = s.inp := rfl
@[simp] theorem State.setZpend_agenda (n c : Nat) : (s.setZpend n c).agenda = s.agenda := rfl
@[simp] theorem State.setZpend_actq (n c : Nat) : (s.setZpend n c).actq = s.actq := rfl
@[simp] theorem State.setMask_clk (msp i : Nat) (v : Word) : (s.setMask msp i v).clk = s.clk := rfl
@[simp] theorem State.setMask_gcell (msp i : Nat) (v : Word) : (s.setMask msp i v).gcell = s.gcell := rfl
@[simp] theorem State.setMask_cell (msp i : Nat) (v : Word) : (s.setMask msp i v).cell = s.cell := rfl
@[simp] theorem State.setMask_mem (msp i : Nat) (v : Word) : (s.setMask msp i v).mem = s.mem := rfl
@[simp] theorem State.setMask_sys (msp i : Nat) (v : Word) : (s.setMask msp i v).sys = s.sys := rfl
@[simp] theorem State.setMask_coll (msp i : Nat) (v : Word) : (s.setMask msp i v).coll = s.coll := rfl
@[simp] theorem State.setMask_hubs (msp i : Nat) (v : Word) : (s.setMask msp i v).hubs = s.hubs := rfl
@[simp] theorem State.setMask_acct (msp i : Nat) (v : Word) : (s.setMask msp i v).acct = s.acct := rfl
@[simp] theorem State.setMask_dbg (msp i : Nat) (v : Word) : (s.setMask msp i v).dbg = s.dbg := rfl
@[simp] theorem State.setMask_mgr (msp i : Nat) (v : Word) : (s.setMask msp i v).mgr = s.mgr := rfl
@[simp] theorem State.setMask_lq (msp i : Nat) (v : Word) : (s.setMask msp i v).lq = s.lq := rfl
@[simp] theorem State.setMask_fab (msp i : Nat) (v : Word) : (s.setMask msp i v).fab = s.fab := rfl
@[simp] theorem State.setMask_pwr (msp i : Nat) (v : Word) : (s.setMask msp i v).pwr = s.pwr := rfl
@[simp] theorem State.setMask_inp (msp i : Nat) (v : Word) : (s.setMask msp i v).inp = s.inp := rfl
@[simp] theorem State.setMask_agenda (msp i : Nat) (v : Word) : (s.setMask msp i v).agenda = s.agenda := rfl
@[simp] theorem State.setMask_actq (msp i : Nat) (v : Word) : (s.setMask msp i v).actq = s.actq := rfl
@[simp] theorem State.putScene_clk (c : Scene) : (s.putScene c).clk = s.clk := rfl
@[simp] theorem State.putScene_gcell (c : Scene) : (s.putScene c).gcell = s.gcell := rfl
@[simp] theorem State.putScene_core (c : Scene) : (s.putScene c).core = s.core := rfl
@[simp] theorem State.putScene_csr (c : Scene) : (s.putScene c).csr = s.csr := rfl
@[simp] theorem State.putScene_cell (c : Scene) : (s.putScene c).cell = s.cell := rfl
@[simp] theorem State.putScene_mem (c : Scene) : (s.putScene c).mem = s.mem := rfl
@[simp] theorem State.putScene_sys (c : Scene) : (s.putScene c).sys = s.sys := rfl
@[simp] theorem State.putScene_coll (c : Scene) : (s.putScene c).coll = s.coll := rfl
@[simp] theorem State.putScene_hubs (c : Scene) : (s.putScene c).hubs = s.hubs := rfl
@[simp] theorem State.putScene_acct (c : Scene) : (s.putScene c).acct = s.acct := rfl
@[simp] theorem State.putScene_dbg (c : Scene) : (s.putScene c).dbg = s.dbg := rfl
@[simp] theorem State.putScene_mgr (c : Scene) : (s.putScene c).mgr = s.mgr := rfl
@[simp] theorem State.putScene_fab (c : Scene) : (s.putScene c).fab = s.fab := rfl
@[simp] theorem State.putScene_pwr (c : Scene) : (s.putScene c).pwr = s.pwr := rfl
@[simp] theorem State.putScene_inp (c : Scene) : (s.putScene c).inp = s.inp := rfl
@[simp] theorem State.putScene_agenda (c : Scene) : (s.putScene c).agenda = s.agenda := rfl
@[simp] theorem State.putScene_actq (c : Scene) : (s.putScene c).actq = s.actq := rfl

end Sys2Proof.Machine
end

