-- ==== Sys2Proof/Laws/Ops.lean ====
section
/-!
SUPPORT. What the shared operations of the instructions can do: checks at issue, retiring, operand forms.
-/

namespace Sys2Proof.Machine

/-! ### Checks -/

@[simp] theorem firstOf_nil : firstOf [] = .pass := rfl

@[simp] theorem firstOf_pass (vs : List Verdict) : firstOf (.pass :: vs) = firstOf vs := rfl

/-- Every check passes exactly when the first failure is none. -/
theorem firstOf_eq_pass {vs : List Verdict} : firstOf vs = .pass ↔ ∀ v ∈ vs, v = .pass := by
  induction vs with
  | nil => simp
  | cons v vs ih =>
    cases v with
    | pass => simp [ih]
    | wait c => simp [firstOf]
    | trap t => simp [firstOf]
    | fix ws => simp [firstOf]
    | fixStore ws => simp [firstOf]
    | walk va a => simp [firstOf]
    | read => simp [firstOf]

theorem firstOf_append {vs ws : List Verdict} : firstOf (vs ++ ws) = .pass ↔ firstOf vs = .pass ∧ firstOf ws = .pass := by
  simp only [firstOf_eq_pass, List.mem_append]
  exact ⟨fun h => ⟨fun v hv => h v (.inl hv), fun v hv => h v (.inr hv)⟩, fun h v hv => hv.elim (h.1 v) (h.2 v)⟩

theorem firstOf_cons {v : Verdict} {vs : List Verdict} : firstOf (v :: vs) = .pass ↔ v = .pass ∧ firstOf vs = .pass := by
  simp only [firstOf_eq_pass, List.forall_mem_cons]

@[simp] theorem require_eq_pass {ok : Bool} {c : Nat} : require ok c = .pass ↔ ok = true := by
  cases ok <;> simp [require, trapWith]

@[simp] theorem await_eq_pass {ok : Bool} {c : Cause} : await ok c = .pass ↔ ok = true := by
  cases ok <;> simp [await]

theorem legal_eq_pass {i : Instr} : legal i = .pass ↔ i.wellFormed = true := require_eq_pass

theorem noEmptyTrap_eq_pass {s : State} {r : Nat} {x : Bool} (h : s.emptyG r = false) : noEmptyTrap s r x = .pass := by
  simp [noEmptyTrap, h]

/-! ### Locations -/

@[simp] theorem State.emptyLoc_gLoc (s : State) (r : Nat) : s.emptyLoc (gLoc r) = s.emptyG r := by
  simp [State.emptyLoc, gLoc]

@[simp] theorem State.lateLoc_gLoc (s : State) (r : Nat) : s.lateLoc (gLoc r) = s.lateG r := by
  simp [State.lateLoc, gLoc]

@[simp] theorem lowestLoc_eq_none {ls : List Nat} : lowestLoc ls = none ↔ ls = [] := by
  cases ls <;> simp [lowestLoc]

/-- The first location in ascending order is one of them, and none comes before it. -/
theorem lowestLoc_spec {ls : List Nat} {l : Nat} (h : lowestLoc ls = some l) : l ∈ ls ∧ ∀ m ∈ ls, l ≤ m := by
  induction ls generalizing l with
  | nil => simp [lowestLoc] at h
  | cons a ls ih =>
    cases e : lowestLoc ls with
    | none =>
      rw [lowestLoc_eq_none] at e
      subst e
      simp [lowestLoc] at h
      simp [h]
    | some b =>
      simp only [lowestLoc, e, Option.some.injEq] at h
      obtain ⟨hb, hm⟩ := ih e
      refine ⟨?_, fun m hm' => ?_⟩
      · rcases Nat.le_total a b with hab | hab
        · simp [← h, Nat.min_eq_left hab]
        · exact List.mem_cons_of_mem _ (by rwa [← h, Nat.min_eq_right hab])
      · rcases List.mem_cons.1 hm' with rfl | hm'
        · omega
        · have := hm m hm'
          omega

theorem awaitFull_eq_pass {s : State} {ls : List Nat} : awaitFull s ls = .pass ↔ ∀ l ∈ ls, s.emptyLoc l = false := by
  simp [awaitFull, List.any_eq_false]

theorem lateWrite_eq_pass {s : State} {ls : List Nat} : lateWrite s ls = .pass ↔ ∀ l ∈ ls, s.lateLoc l = false := by
  simp [lateWrite, List.any_eq_false]

theorem lateRead_eq_pass {s : State} {ls : List Nat} : lateRead s ls = .pass ↔ ∀ l ∈ ls, s.lateLoc l = false := by
  unfold lateRead
  split
  · rename_i l h
    have hl := (lowestLoc_spec h).1
    simp only [List.mem_filter] at hl
    constructor
    · intro hp
      split at hp <;> exact absurd hp (by simp)
    · intro hp
      rw [hp l hl.1] at hl
      exact absurd hl.2 (by simp)
  · rename_i h
    rw [lowestLoc_eq_none, List.filter_eq_nil_iff] at h
    simpa using h

/-- Scalar operands that are full and not late pass every operand check. -/
theorem scalarChecks_pass {s : State} {srcs : List (Nat × Bool)} {dsts : List Nat}
    (h : ∀ r ∈ srcs.map Prod.fst ++ dsts, s.emptyG r = false ∧ s.lateG r = false) :
    firstOf (scalarChecks s srcs dsts) = .pass := by
  have hs : ∀ p ∈ srcs, s.emptyG p.1 = false ∧ s.lateG p.1 = false := fun p hp =>
    h p.1 (List.mem_append_left _ (List.mem_map.2 ⟨p, hp, rfl⟩))
  have hd : ∀ r ∈ dsts, s.emptyG r = false ∧ s.lateG r = false := fun r hr => h r (List.mem_append_right _ hr)
  unfold scalarChecks
  rw [firstOf_append]
  refine ⟨firstOf_eq_pass.2 fun v hv => ?_, ?_⟩
  · obtain ⟨p, hp, rfl⟩ := List.mem_map.1 hv
    exact noEmptyTrap_eq_pass (hs p hp).1
  · rw [awaitFull_eq_pass.2, lateRead_eq_pass.2, lateWrite_eq_pass.2]
    · rfl
    · exact List.forall_mem_map.2 fun r hr => by simp [(hd r hr).2]
    · exact List.forall_mem_map.2 fun p hp => by simp [(hs p hp).2]
    · rw [List.forall_mem_append]
      exact ⟨List.forall_mem_map.2 fun p hp => by simp [(hs p hp).1], List.forall_mem_map.2 fun r hr => by simp [(hd r hr).1]⟩

/-! ### Retiring -/

/-- A unit that passes its checks has its effect and leaves the head. -/
theorem settleTo_pass {i : Instr} {s e : State} {checks : List Verdict} {pc : Word}
    (hw : i.wellFormed = true) (h : firstOf checks = .pass) : settleTo i s checks e pc = .next (e.goto i pc) := by
  unfold settleTo
  rw [firstOf_cons.2 ⟨legal_eq_pass.2 hw, h⟩]

theorem settle_pass {i : Instr} {s e : State} {checks : List Verdict}
    (hw : i.wellFormed = true) (h : firstOf checks = .pass) :
    settle i s checks e = .next (e.goto i (nextPc i s.core.pc)) := settleTo_pass hw h

/-- What a unit can do: it retires with its effect, or its first failing check holds it or traps. -/
theorem settleTo_cases (i : Instr) (s : State) (checks : List Verdict) (e : State) (pc : Word) :
    (firstOf (legal i :: checks) = .pass ∧ settleTo i s checks e pc = .next (e.goto i pc)) ∨
      (firstOf (legal i :: checks) ≠ .pass ∧
        settleTo i s checks e pc = .next (s.blocked i (firstOf (legal i :: checks)))) := by
  unfold settleTo
  split
  · exact .inl ⟨‹_›, rfl⟩
  · rename_i h
    exact .inr ⟨h, rfl⟩

theorem settle_cases (i : Instr) (s : State) (checks : List Verdict) (e : State) :
    (firstOf (legal i :: checks) = .pass ∧ settle i s checks e = .next (e.goto i (nextPc i s.core.pc))) ∨
      (firstOf (legal i :: checks) ≠ .pass ∧
        settle i s checks e = .next (s.blocked i (firstOf (legal i :: checks)))) := settleTo_cases ..

/-- A unit's checks always answer a next state. -/
theorem settleTo_answers (i : Instr) (s : State) (checks : List Verdict) (e : State) (pc : Word) :
    ∃ t, settleTo i s checks e pc = .next t := by
  rcases settleTo_cases i s checks e pc with ⟨_, h⟩ | ⟨_, h⟩ <;> exact ⟨_, h⟩

theorem settle_answers (i : Instr) (s : State) (checks : List Verdict) (e : State) :
    ∃ t, settle i s checks e = .next t := settleTo_answers ..

/-! ### Vector operands -/

/-- Locations that are full, not late and without a latent error. -/
def State.fullLoc (s : State) (l : Nat) : Bool := !s.emptyLoc l && !s.lateLoc l

theorem emptyReadTrap_pass {s : State} {src : Source} (h : ∀ l ∈ src.1, s.emptyLoc l = false) :
    emptyReadTrap s src = .pass := by
  unfold emptyReadTrap
  split
  · rw [List.find?_eq_none.2 fun l hl => by simp [h l hl]]
  · rfl

theorem lendCheck_pass {s : State} {ls : List Nat} (h : ∀ l ∈ ls, s.lentLoc l = false) : lendCheck s ls = .pass := by
  simp only [lendCheck, require_eq_pass, Bool.not_eq_true', List.any_eq_false]
  exact fun l hl => by simp [h l hl]

theorem secded_pass {s : State} {ls : List Nat} (h : s.cell.rspErr = []) : secded s ls = .pass := by
  simp [secded, h]

/-- Vector operands that are full, not late and free of latent errors, with a destination outside the matrix slot's
banks, pass the checks of R132. -/
theorem vectorChecks_pass {s : State} {srcs : List Source} {dst : List Nat}
    (hs : ∀ p ∈ srcs, ∀ l ∈ p.1, s.emptyLoc l = false ∧ s.lateLoc l = false)
    (hd : ∀ l ∈ dst, s.emptyLoc l = false ∧ s.lateLoc l = false ∧ s.lentLoc l = false)
    (he : s.cell.rspErr = []) : firstOf (vectorChecks s srcs dst) = .pass := by
  have hall : ∀ l ∈ (srcs.map Prod.fst).flatten, s.emptyLoc l = false ∧ s.lateLoc l = false := by
    intro l hl
    obtain ⟨ls, hls, hl⟩ := List.mem_flatten.1 hl
    obtain ⟨p, hp, rfl⟩ := List.mem_map.1 hls
    exact hs p hp l hl
  unfold vectorChecks
  rw [firstOf_append]
  refine ⟨firstOf_eq_pass.2 ?_, ?_⟩
  · intro v hv
    obtain ⟨p, hp, rfl⟩ := List.mem_map.1 hv
    exact emptyReadTrap_pass fun l hl => (hs p hp l hl).1
  · rw [awaitFull_eq_pass.2, lendCheck_pass fun l hl => (hd l hl).2.2, lateRead_eq_pass.2 fun l hl => (hall l hl).2,
      lateWrite_eq_pass.2 fun l hl => (hd l hl).2.1, secded_pass he]
    · rfl
    · intro l hl
      rcases List.mem_append.1 hl with hl | hl
      · exact (hall l hl).1
      · exact (hd l hl).1

/-- A unit of format V whose delay has gone by behaves as any unit (R134). -/
theorem settleV_ready {i : Instr} {l : BitVec 2} {s e : State} {checks : List Verdict} (h : l.toNat ≤ s.core.delayClk) :
    settleV i l s checks e = settle i s checks e := by
  unfold settleV
  rw [if_neg]
  simp only [Bool.and_eq_true, decide_eq_true_eq, not_and]
  exact fun _ hc => absurd hc (by omega)

/-- A unit of format V whose checks pass while its delay runs spends a clk on it (R134). -/
theorem settleV_delay {i : Instr} {l : BitVec 2} {s e : State} {checks : List Verdict}
    (hw : i.wellFormed = true) (hp : firstOf checks = .pass) (h : s.core.delayClk < l.toNat) :
    settleV i l s checks e = .next s.spendDelay := by
  unfold settleV
  rw [if_pos]
  simp [hw, hp, h, waits]

/-- What a unit of format V can do: spend a clk of its delay, or what any unit does. -/
theorem settleV_cases (i : Instr) (l : BitVec 2) (s : State) (checks : List Verdict) (e : State) :
    settleV i l s checks e = settle i s checks e ∨
      (s.core.delayClk < l.toNat ∧ settleV i l s checks e = .next s.spendDelay) := by
  unfold settleV
  split
  · rename_i hc
    simp only [Bool.and_eq_true, decide_eq_true_eq] at hc
    exact .inr ⟨hc.1.2, rfl⟩
  · exact .inl rfl

end Sys2Proof.Machine
end

