-- ==== Sys2Proof/Laws/Claims.lean ====
section
/-!
SUPPORT. What the shared operations guarantee, in the words of the statements.
-/

namespace Sys2Proof.Machine

open Sys2Proof.Claims

theorem nextPc_eq (i : Instr) (pc : Word) : nextPc i pc = pc + 4 * BitVec.ofNat 64 i.words := by
  unfold nextPc
  congr 1
  apply BitVec.eq_of_toNat_eq
  simp [BitVec.toNat_mul, Nat.mul_mod]

theorem State.emptyG_congr {s t : State} (h : t.core.gEmpty = s.core.gEmpty) (r : Nat) : t.emptyG r = s.emptyG r := by
  unfold State.emptyG; rw [h]

theorem State.emptyG_putG_ne (s : State) {r n : Nat} (v : Word) (h : n ≠ r) (hr : r < 32) :
    (s.putG r v).emptyG n = s.emptyG n := by
  by_cases h0 : r = 0
  · subst h0; rfl
  · have hne : ¬ n - r = 0 ∨ n < r := by omega
    simp only [State.emptyG, State.putG, State.setCore, Core.putG, if_neg h0, BitVec.getLsbD_and, BitVec.getLsbD_not,
      BitVec.getLsbD_shiftLeft]
    by_cases hn : n < 32
    · rcases hne with hne | hne <;> simp [hn, hne]
    · simp [BitVec.getLsbD_of_ge s.core.gEmpty n (by omega)]

/-- The latches that a result written at once replaces. -/
theorem Latch.replacedReg_iff (l : Latch) (clk r : Nat) : l.replacedReg clk r = true ↔ OverruledBy l clk r := by
  simp [Latch.replacedReg, OverruledBy, and_assoc]

/-- A result reaches its register as `Lands` says, and leaves every other register alone. -/
theorem State.result_lands (s : State) (l : Nat) {d : Nat} (v : Word) (hd : d < 32) :
    Lands s (s.result l d v) l d v ∧ KeepsRegisters s (s.result l d v) d := by
  rcases s.result_cases l d v with ⟨h0, e⟩ | ⟨h0, hl, e⟩ | ⟨h0, hl, e⟩
  · rw [e]
    exact ⟨by simp [Lands, h0], fun r _ => ⟨rfl, rfl⟩⟩
  · rw [e]
    refine ⟨?_, fun r hr => ⟨s.g_putG_ne v hr, s.emptyG_putG_ne v hr hd⟩⟩
    simp only [Lands, if_neg h0, if_pos hl]
    refine ⟨s.g_putG_self v h0 hd, s.emptyG_putG_self v hd, fun x => ?_⟩
    simp [State.putG, State.setCore, ← Latch.replacedReg_iff]
  · rw [e]
    refine ⟨?_, fun r _ => ⟨s.g_congr rfl r, State.emptyG_congr rfl r⟩⟩
    simp only [Lands, if_neg h0, if_neg (Nat.not_le.2 hl)]
    exact ⟨rfl, rfl, rfl⟩

theorem State.putG_onlyRegisters (s : State) (d : Nat) (v : Word) : OnlyRegisters s.core (s.putG d v).core := by
  unfold OnlyRegisters State.putG State.setCore Core.putG
  by_cases h : d = 0 <;> simp [h]

theorem State.result_onlyRegisters (s : State) (l d : Nat) (v : Word) :
    OnlyRegisters s.core (s.result l d v).core ∧ OnlyCore s (s.result l d v) := by
  rcases s.result_cases l d v with ⟨_, e⟩ | ⟨_, _, e⟩ | ⟨_, _, e⟩ <;> rw [e]
  · exact ⟨rfl, rfl⟩
  · exact ⟨s.putG_onlyRegisters d v, rfl⟩
  · exact ⟨rfl, rfl⟩

/-- Leaving the head changes no register, no result in flight and nothing outside the core. -/
theorem writesRegister_of_next {i : Instr} {s : State} {l d : Nat} {v pc : Word} (hd : d < 32)
    (h : exec i s = .next ((s.result l d v).goto i pc)) : WritesRegister i s l d v pc := by
  obtain ⟨hl, hk⟩ := s.result_lands l v hd
  obtain ⟨hr, ho⟩ := s.result_onlyRegisters l d v
  refine ⟨_, ⟨h, rfl, rfl, ?_⟩, ?_, ?_, ?_, ?_⟩
  · simp [State.goto]
  · exact hl
  · exact hk
  · unfold OnlyRegisters at hr ⊢
    simp only [State.goto, State.setCore]
    rw [hr]
  · unfold OnlyCore at ho ⊢
    simp only [State.goto, State.setCore]
    rw [ho]

/-- A unit that passes its checks and has one result writes that register and nothing else. -/
theorem settle_result_writes {i : Instr} {s : State} {checks : List Verdict} {l d : Nat} {v : Word} (hd : d < 32)
    (he : exec i s = settle i s checks (s.result l d v)) (hw : i.wellFormed = true) (hc : firstOf checks = .pass) :
    WritesRegister i s l d v (s.core.pc + 4 * BitVec.ofNat 64 i.words) := by
  rw [← nextPc_eq]
  exact writesRegister_of_next hd (he.trans (settle_pass hw hc))

end Sys2Proof.Machine
end

