-- ==== Sys2Proof/Laws/PerInstr.lean ====
section
/-!
SUPPORT. Facts about every instruction as syntax, one lemma per constructor. UnitLength: a unit is its instruction word
and its prefixes, one to three words (R65, R66, R191).
-/

namespace Sys2Proof.Laws.UnitLength

/-- The encoder writes as many words as the unit has, and a unit has one to three. -/
def Statement (i : Instr) : Prop := (encode i).length = i.words ∧ 1 ≤ i.words ∧ i.words ≤ 3

/-- The lengths follow from which prefixes the unit carries. -/
theorem of_prefixes (i : Instr) : Statement i := by
  unfold Statement encode Instr.words
  cases i.ord <;> cases i.ximm <;> simp

theorem add : ∀ d a b x y, Statement (.add d a b x y) := by intros; exact of_prefixes _
theorem sub : ∀ d a b x y, Statement (.sub d a b x y) := by intros; exact of_prefixes _
theorem and : ∀ d a b x y, Statement (.and d a b x y) := by intros; exact of_prefixes _
theorem or : ∀ d a b x y, Statement (.or d a b x y) := by intros; exact of_prefixes _
theorem xor : ∀ d a b x y, Statement (.xor d a b x y) := by intros; exact of_prefixes _
theorem andn : ∀ d a b x y, Statement (.andn d a b x y) := by intros; exact of_prefixes _
theorem shl : ∀ d a b x y, Statement (.shl d a b x y) := by intros; exact of_prefixes _
theorem shr : ∀ d a b x y, Statement (.shr d a b x y) := by intros; exact of_prefixes _
theorem sar : ∀ d a b x y, Statement (.sar d a b x y) := by intros; exact of_prefixes _
theorem mul : ∀ d a b x y, Statement (.mul d a b x y) := by intros; exact of_prefixes _
theorem mulh : ∀ d a b x y, Statement (.mulh d a b x y) := by intros; exact of_prefixes _
theorem mulhu : ∀ d a b x y, Statement (.mulhu d a b x y) := by intros; exact of_prefixes _
theorem div : ∀ d a b x y, Statement (.div d a b x y) := by intros; exact of_prefixes _
theorem divu : ∀ d a b x y, Statement (.divu d a b x y) := by intros; exact of_prefixes _
theorem rem : ∀ d a b x y, Statement (.rem d a b x y) := by intros; exact of_prefixes _
theorem remu : ∀ d a b x y, Statement (.remu d a b x y) := by intros; exact of_prefixes _
theorem min : ∀ d a b x y, Statement (.min d a b x y) := by intros; exact of_prefixes _
theorem max : ∀ d a b x y, Statement (.max d a b x y) := by intros; exact of_prefixes _
theorem minu : ∀ d a b x y, Statement (.minu d a b x y) := by intros; exact of_prefixes _
theorem maxu : ∀ d a b x y, Statement (.maxu d a b x y) := by intros; exact of_prefixes _
theorem ceq : ∀ d a b x y, Statement (.ceq d a b x y) := by intros; exact of_prefixes _
theorem cne : ∀ d a b x y, Statement (.cne d a b x y) := by intros; exact of_prefixes _
theorem clt : ∀ d a b x y, Statement (.clt d a b x y) := by intros; exact of_prefixes _
theorem cltu : ∀ d a b x y, Statement (.cltu d a b x y) := by intros; exact of_prefixes _
theorem cle : ∀ d a b x y, Statement (.cle d a b x y) := by intros; exact of_prefixes _
theorem cleu : ∀ d a b x y, Statement (.cleu d a b x y) := by intros; exact of_prefixes _
theorem sel : ∀ d a b x y, Statement (.sel d a b x y) := by intros; exact of_prefixes _
theorem popc : ∀ d a x, Statement (.popc d a x) := by intros; exact of_prefixes _
theorem clz : ∀ d a x, Statement (.clz d a x) := by intros; exact of_prefixes _
theorem ctz : ∀ d a x, Statement (.ctz d a x) := by intros; exact of_prefixes _
theorem rank : ∀ d a b x y, Statement (.rank d a b x y) := by intros; exact of_prefixes _
theorem select : ∀ d a b x y, Statement (.select d a b x y) := by intros; exact of_prefixes _
theorem sext : ∀ d a b x y, Statement (.sext d a b x y) := by intros; exact of_prefixes _
theorem bext : ∀ d a b x y, Statement (.bext d a b x y) := by intros; exact of_prefixes _
theorem brev : ∀ d a x, Statement (.brev d a x) := by intros; exact of_prefixes _
theorem addi : ∀ d a i, Statement (.addi d a i) := by intros; exact of_prefixes _
theorem andi : ∀ d a i, Statement (.andi d a i) := by intros; exact of_prefixes _
theorem ori : ∀ d a i, Statement (.ori d a i) := by intros; exact of_prefixes _
theorem xori : ∀ d a i, Statement (.xori d a i) := by intros; exact of_prefixes _
theorem shli : ∀ d a n, Statement (.shli d a n) := by intros; exact of_prefixes _
theorem shri : ∀ d a n, Statement (.shri d a n) := by intros; exact of_prefixes _
theorem sari : ∀ d a n, Statement (.sari d a n) := by intros; exact of_prefixes _
theorem slti : ∀ d a i, Statement (.slti d a i) := by intros; exact of_prefixes _
theorem sltiu : ∀ d a i, Statement (.sltiu d a i) := by intros; exact of_prefixes _
theorem addpc : ∀ d i, Statement (.addpc d i) := by intros; exact of_prefixes _
theorem muli : ∀ d a i, Statement (.muli d a i) := by intros; exact of_prefixes _
theorem j : ∀ p, Statement (.j p) := by intros; exact of_prefixes _
theorem call : ∀ p, Statement (.call p) := by intros; exact of_prefixes _
theorem bez : ∀ a p, Statement (.bez a p) := by intros; exact of_prefixes _
theorem bnz : ∀ a p, Statement (.bnz a p) := by intros; exact of_prefixes _
theorem bltz : ∀ a p, Statement (.bltz a p) := by intros; exact of_prefixes _
theorem bknone : ∀ p, Statement (.bknone p) := by intros; exact of_prefixes _
theorem bkany : ∀ p, Statement (.bkany p) := by intros; exact of_prefixes _
theorem bkall : ∀ p, Statement (.bkall p) := by intros; exact of_prefixes _
theorem loop : ∀ a p, Statement (.loop a p) := by intros; exact of_prefixes _
theorem jr : ∀ a x, Statement (.jr a x) := by intros; exact of_prefixes _
theorem callr : ∀ a x, Statement (.callr a x) := by intros; exact of_prefixes _
theorem endI : Statement .endI := of_prefixes _
theorem nop : Statement .nop := of_prefixes _
theorem syscall : Statement .syscall := of_prefixes _
theorem rett : Statement .rett := of_prefixes _
theorem ien : Statement .ien := of_prefixes _
theorem idis : Statement .idis := of_prefixes _
theorem wfi : Statement .wfi := of_prefixes _
theorem csrr : ∀ d c, Statement (.csrr d c) := by intros; exact of_prefixes _
theorem csrw : ∀ d a c, Statement (.csrw d a c) := by intros; exact of_prefixes _
theorem csrs : ∀ d a c, Statement (.csrs d a c) := by intros; exact of_prefixes _
theorem csrc : ∀ d a c, Statement (.csrc d a c) := by intros; exact of_prefixes _
theorem csrx : ∀ d a c, Statement (.csrx d a c) := by intros; exact of_prefixes _
theorem zset : ∀ d a x, Statement (.zset d a x) := by intros; exact of_prefixes _
theorem zsetW : ∀ d a x, Statement (.zsetW d a x) := by intros; exact of_prefixes _
theorem zget : ∀ d a, Statement (.zget d a) := by intros; exact of_prefixes _
theorem zpend : ∀ d a, Statement (.zpend d a) := by intros; exact of_prefixes _
theorem ld : ∀ d m od, Statement (.ld d m od) := by intros; exact of_prefixes _
theorem ldw : ∀ d m od, Statement (.ldw d m od) := by intros; exact of_prefixes _
theorem st : ∀ d m od, Statement (.st d m od) := by intros; exact of_prefixes _
theorem stw : ∀ d m od, Statement (.stw d m od) := by intros; exact of_prefixes _
theorem vld : ∀ d m od, Statement (.vld d m od) := by intros; exact of_prefixes _
theorem vst : ∀ d m od, Statement (.vst d m od) := by intros; exact of_prefixes _
theorem oqld : ∀ d m od, Statement (.oqld d m od) := by intros; exact of_prefixes _
theorem aadd : ∀ d a b x y od, Statement (.aadd d a b x y od) := by intros; exact of_prefixes _
theorem aand : ∀ d a b x y od, Statement (.aand d a b x y od) := by intros; exact of_prefixes _
theorem aor : ∀ d a b x y od, Statement (.aor d a b x y od) := by intros; exact of_prefixes _
theorem axor : ∀ d a b x y od, Statement (.axor d a b x y od) := by intros; exact of_prefixes _
theorem amin : ∀ d a b x y od, Statement (.amin d a b x y od) := by intros; exact of_prefixes _
theorem amax : ∀ d a b x y od, Statement (.amax d a b x y od) := by intros; exact of_prefixes _
theorem aminu : ∀ d a b x y od, Statement (.aminu d a b x y od) := by intros; exact of_prefixes _
theorem amaxu : ∀ d a b x y od, Statement (.amaxu d a b x y od) := by intros; exact of_prefixes _
theorem aswap : ∀ d a b x y od, Statement (.aswap d a b x y od) := by intros; exact of_prefixes _
theorem aaddW : ∀ d a b x y od, Statement (.aaddW d a b x y od) := by intros; exact of_prefixes _
theorem aandW : ∀ d a b x y od, Statement (.aandW d a b x y od) := by intros; exact of_prefixes _
theorem aorW : ∀ d a b x y od, Statement (.aorW d a b x y od) := by intros; exact of_prefixes _
theorem axorW : ∀ d a b x y od, Statement (.axorW d a b x y od) := by intros; exact of_prefixes _
theorem aminW : ∀ d a b x y od, Statement (.aminW d a b x y od) := by intros; exact of_prefixes _
theorem amaxW : ∀ d a b x y od, Statement (.amaxW d a b x y od) := by intros; exact of_prefixes _
theorem aminuW : ∀ d a b x y od, Statement (.aminuW d a b x y od) := by intros; exact of_prefixes _
theorem amaxuW : ∀ d a b x y od, Statement (.amaxuW d a b x y od) := by intros; exact of_prefixes _
theorem aswapW : ∀ d a b x y od, Statement (.aswapW d a b x y od) := by intros; exact of_prefixes _
theorem afaddW : ∀ d a b x y od, Statement (.afaddW d a b x y od) := by intros; exact of_prefixes _
theorem cas : ∀ d a b x y od, Statement (.cas d a b x y od) := by intros; exact of_prefixes _
theorem casW : ∀ d a b x y od, Statement (.casW d a b x y od) := by intros; exact of_prefixes _
theorem vpush : ∀ d a b x y od, Statement (.vpush d a b x y od) := by intros; exact of_prefixes _
theorem vpop : ∀ d a x od, Statement (.vpop d a x od) := by intros; exact of_prefixes _
theorem vpopnb : ∀ d a b x od, Statement (.vpopnb d a b x od) := by intros; exact of_prefixes _
theorem rcsnap : ∀ d a x od, Statement (.rcsnap d a x od) := by intros; exact of_prefixes _
theorem rcread : ∀ d a b x y od, Statement (.rcread d a b x y od) := by intros; exact of_prefixes _
theorem tnew : ∀ a b x y, Statement (.tnew a b x y) := by intros; exact of_prefixes _
theorem tfree : ∀ a x, Statement (.tfree a x) := by intros; exact of_prefixes _
theorem tstate : ∀ d a x, Statement (.tstate d a x) := by intros; exact of_prefixes _
theorem tsetrdy : ∀ a x, Statement (.tsetrdy a x) := by intros; exact of_prefixes _
theorem twait : ∀ a b x y, Statement (.twait a b x y) := by intros; exact of_prefixes _
theorem rgset : ∀ n b y, Statement (.rgset n b y) := by intros; exact of_prefixes _
theorem rwfill : ∀ d n, Statement (.rwfill d n) := by intros; exact of_prefixes _
theorem rwfree : ∀ d n, Statement (.rwfree d n) := by intros; exact of_prefixes _
theorem rclaim : ∀ d n s1, Statement (.rclaim d n s1) := by intros; exact of_prefixes _
theorem rrelease : ∀ n s1, Statement (.rrelease n s1) := by intros; exact of_prefixes _
theorem abump : ∀ d s1 b y, Statement (.abump d s1 b y) := by intros; exact of_prefixes _
theorem amark : ∀ d s1, Statement (.amark d s1) := by intros; exact of_prefixes _
theorem arelmark : ∀ s1 b y, Statement (.arelmark s1 b y) := by intros; exact of_prefixes _
theorem aring : ∀ d s1 b y, Statement (.aring d s1 b y) := by intros; exact of_prefixes _
theorem afree : ∀ s1 b y, Statement (.afree s1 b y) := by intros; exact of_prefixes _
theorem astate : ∀ d s1 w, Statement (.astate d s1 w) := by intros; exact of_prefixes _
theorem fence : ∀ od, Statement (.fence od) := by intros; exact of_prefixes _
theorem bararr : ∀ d n od, Statement (.bararr d n od) := by intros; exact of_prefixes _
theorem barwait : ∀ n b y od, Statement (.barwait n b y od) := by intros; exact of_prefixes _
theorem barsync : ∀ n od, Statement (.barsync n od) := by intros; exact of_prefixes _
theorem lend : ∀ k s1, Statement (.lend k s1) := by intros; exact of_prefixes _
theorem latld : ∀ a s1 x, Statement (.latld a s1 x) := by intros; exact of_prefixes _
theorem qadd : ∀ a n, Statement (.qadd a n) := by intros; exact of_prefixes _
theorem qread : ∀ d n, Statement (.qread d n) := by intros; exact of_prefixes _
theorem qwait : ∀ a n, Statement (.qwait a n) := by intros; exact of_prefixes _
theorem qterm : ∀ a t, Statement (.qterm a t) := by intros; exact of_prefixes _
theorem vfadd : ∀ d a b x y l, Statement (.vfadd d a b x y l) := by intros; exact of_prefixes _
theorem vfsub : ∀ d a b x y l, Statement (.vfsub d a b x y l) := by intros; exact of_prefixes _
theorem vfmul : ∀ d a b x y l, Statement (.vfmul d a b x y l) := by intros; exact of_prefixes _
theorem vfma : ∀ d a b x y l, Statement (.vfma d a b x y l) := by intros; exact of_prefixes _
theorem vfms : ∀ d a b x y l, Statement (.vfms d a b x y l) := by intros; exact of_prefixes _
theorem vfnma : ∀ d a b x y l, Statement (.vfnma d a b x y l) := by intros; exact of_prefixes _
theorem vfmin : ∀ d a b x y l, Statement (.vfmin d a b x y l) := by intros; exact of_prefixes _
theorem vfmax : ∀ d a b x y l, Statement (.vfmax d a b x y l) := by intros; exact of_prefixes _
theorem vfabs : ∀ d a x l, Statement (.vfabs d a x l) := by intros; exact of_prefixes _
theorem vfneg : ∀ d a x l, Statement (.vfneg d a x l) := by intros; exact of_prefixes _
theorem vbadd : ∀ d a b x y l, Statement (.vbadd d a b x y l) := by intros; exact of_prefixes _
theorem vbsub : ∀ d a b x y l, Statement (.vbsub d a b x y l) := by intros; exact of_prefixes _
theorem vbmul : ∀ d a b x y l, Statement (.vbmul d a b x y l) := by intros; exact of_prefixes _
theorem vbfma : ∀ d a b x y l, Statement (.vbfma d a b x y l) := by intros; exact of_prefixes _
theorem vbmin : ∀ d a b x y l, Statement (.vbmin d a b x y l) := by intros; exact of_prefixes _
theorem vbmax : ∀ d a b x y l, Statement (.vbmax d a b x y l) := by intros; exact of_prefixes _
theorem viadd : ∀ d a b x y l, Statement (.viadd d a b x y l) := by intros; exact of_prefixes _
theorem visub : ∀ d a b x y l, Statement (.visub d a b x y l) := by intros; exact of_prefixes _
theorem vimul : ∀ d a b x y l, Statement (.vimul d a b x y l) := by intros; exact of_prefixes _
theorem vimulh : ∀ d a b x y l, Statement (.vimulh d a b x y l) := by intros; exact of_prefixes _
theorem vimin : ∀ d a b x y l, Statement (.vimin d a b x y l) := by intros; exact of_prefixes _
theorem vimax : ∀ d a b x y l, Statement (.vimax d a b x y l) := by intros; exact of_prefixes _
theorem viminu : ∀ d a b x y l, Statement (.viminu d a b x y l) := by intros; exact of_prefixes _
theorem vimaxu : ∀ d a b x y l, Statement (.vimaxu d a b x y l) := by intros; exact of_prefixes _
theorem viabs : ∀ d a x l, Statement (.viabs d a x l) := by intros; exact of_prefixes _
theorem viadds : ∀ d a b x y l, Statement (.viadds d a b x y l) := by intros; exact of_prefixes _
theorem visubs : ∀ d a b x y l, Statement (.visubs d a b x y l) := by intros; exact of_prefixes _
theorem vand : ∀ d a b x y l, Statement (.vand d a b x y l) := by intros; exact of_prefixes _
theorem vor : ∀ d a b x y l, Statement (.vor d a b x y l) := by intros; exact of_prefixes _
theorem vxor : ∀ d a b x y l, Statement (.vxor d a b x y l) := by intros; exact of_prefixes _
theorem vandn : ∀ d a b x y l, Statement (.vandn d a b x y l) := by intros; exact of_prefixes _
theorem vshl : ∀ d a b x y l, Statement (.vshl d a b x y l) := by intros; exact of_prefixes _
theorem vshr : ∀ d a b x y l, Statement (.vshr d a b x y l) := by intros; exact of_prefixes _
theorem vsar : ∀ d a b x y l, Statement (.vsar d a b x y l) := by intros; exact of_prefixes _
theorem vnot : ∀ d a x l, Statement (.vnot d a x l) := by intros; exact of_prefixes _
theorem vpopc : ∀ d a x l, Statement (.vpopc d a x l) := by intros; exact of_prefixes _
theorem vclz : ∀ d a x l, Statement (.vclz d a x l) := by intros; exact of_prefixes _
theorem frcp : ∀ d a x l, Statement (.frcp d a x l) := by intros; exact of_prefixes _
theorem frsq : ∀ d a x l, Statement (.frsq d a x l) := by intros; exact of_prefixes _
theorem fexp2 : ∀ d a x l, Statement (.fexp2 d a x l) := by intros; exact of_prefixes _
theorem flog2 : ∀ d a x l, Statement (.flog2 d a x l) := by intros; exact of_prefixes _
theorem vcvtfh : ∀ d a f m x l, Statement (.vcvtfh d a f m x l) := by intros; exact of_prefixes _
theorem vcvthf : ∀ d a f m x l, Statement (.vcvthf d a f m x l) := by intros; exact of_prefixes _
theorem vcvtfs : ∀ d a f m x l, Statement (.vcvtfs d a f m x l) := by intros; exact of_prefixes _
theorem vcvtsf : ∀ d a f m x l, Statement (.vcvtsf d a f m x l) := by intros; exact of_prefixes _
theorem vcvtfi : ∀ d a f m x l, Statement (.vcvtfi d a f m x l) := by intros; exact of_prefixes _
theorem vcvtif : ∀ d a f m x l, Statement (.vcvtif d a f m x l) := by intros; exact of_prefixes _
theorem vcvtfu : ∀ d a f m x l, Statement (.vcvtfu d a f m x l) := by intros; exact of_prefixes _
theorem vcvtuf : ∀ d a f m x l, Statement (.vcvtuf d a f m x l) := by intros; exact of_prefixes _
theorem vrnd : ∀ d a f m x l, Statement (.vrnd d a f m x l) := by intros; exact of_prefixes _
theorem vfceq : ∀ d a b x y l, Statement (.vfceq d a b x y l) := by intros; exact of_prefixes _
theorem vfclt : ∀ d a b x y l, Statement (.vfclt d a b x y l) := by intros; exact of_prefixes _
theorem vfcle : ∀ d a b x y l, Statement (.vfcle d a b x y l) := by intros; exact of_prefixes _
theorem viceq : ∀ d a b x y l, Statement (.viceq d a b x y l) := by intros; exact of_prefixes _
theorem viclt : ∀ d a b x y l, Statement (.viclt d a b x y l) := by intros; exact of_prefixes _
theorem vicltu : ∀ d a b x y l, Statement (.vicltu d a b x y l) := by intros; exact of_prefixes _
theorem mpush : ∀ a x l, Statement (.mpush a x l) := by intros; exact of_prefixes _
theorem minv : ∀ l, Statement (.minv l) := by intros; exact of_prefixes _
theorem mpop : ∀ l, Statement (.mpop l) := by intros; exact of_prefixes _
theorem vfrsum : ∀ d a x l, Statement (.vfrsum d a x l) := by intros; exact of_prefixes _
theorem vfrmax : ∀ d a x l, Statement (.vfrmax d a x l) := by intros; exact of_prefixes _
theorem vfrmin : ∀ d a x l, Statement (.vfrmin d a x l) := by intros; exact of_prefixes _
theorem virsum : ∀ d a x l, Statement (.virsum d a x l) := by intros; exact of_prefixes _
theorem virmax : ∀ d a x l, Statement (.virmax d a x l) := by intros; exact of_prefixes _
theorem virmin : ∀ d a x l, Statement (.virmin d a x l) := by intros; exact of_prefixes _
theorem vrand : ∀ d a x l, Statement (.vrand d a x l) := by intros; exact of_prefixes _
theorem vror : ∀ d a x l, Statement (.vror d a x l) := by intros; exact of_prefixes _
theorem vperm : ∀ d a b x y l, Statement (.vperm d a b x y l) := by intros; exact of_prefixes _
theorem vbcast : ∀ d a n x l, Statement (.vbcast d a n x l) := by intros; exact of_prefixes _
theorem vrot : ∀ d a n x l, Statement (.vrot d a n x l) := by intros; exact of_prefixes _
theorem vslup : ∀ d a n x l, Statement (.vslup d a n x l) := by intros; exact of_prefixes _
theorem vsldn : ∀ d a n x l, Statement (.vsldn d a n x l) := by intros; exact of_prefixes _
theorem vzip : ∀ d a b x y l, Statement (.vzip d a b x y l) := by intros; exact of_prefixes _
theorem vunzip : ∀ d a b x y l, Statement (.vunzip d a b x y l) := by intros; exact of_prefixes _
theorem vcompress : ∀ d a b x y l, Statement (.vcompress d a b x y l) := by intros; exact of_prefixes _
theorem vexpand : ∀ d a b x y l, Statement (.vexpand d a b x y l) := by intros; exact of_prefixes _
theorem vmov : ∀ d a x l, Statement (.vmov d a x l) := by intros; exact of_prefixes _
theorem vsplat : ∀ d g x l, Statement (.vsplat d g x l) := by intros; exact of_prefixes _
theorem vins : ∀ d g n x l, Statement (.vins d g n x l) := by intros; exact of_prefixes _
theorem vext : ∀ g a n x l, Statement (.vext g a n x l) := by intros; exact of_prefixes _
theorem viota : ∀ d l, Statement (.viota d l) := by intros; exact of_prefixes _
theorem vsel : ∀ d a b x y l, Statement (.vsel d a b x y l) := by intros; exact of_prefixes _
theorem vmaskrd : ∀ g l, Statement (.vmaskrd g l) := by intros; exact of_prefixes _
theorem vmaskwr : ∀ g x l, Statement (.vmaskwr g x l) := by intros; exact of_prefixes _
theorem enqw : ∀ q w, Statement (.enqw q w) := by intros; exact of_prefixes _
theorem enqg : ∀ q n a, Statement (.enqg q n a) := by intros; exact of_prefixes _
theorem enqm : ∀ q n s1 a, Statement (.enqm q n s1 a) := by intros; exact of_prefixes _
theorem brk : Statement .brk := of_prefixes _
theorem tmark : ∀ a x, Statement (.tmark a x) := by intros; exact of_prefixes _
theorem accrd : ∀ d a x, Statement (.accrd d a x) := by intros; exact of_prefixes _
theorem enrgrd : ∀ d a x, Statement (.enrgrd d a x) := by intros; exact of_prefixes _
theorem lit : ∀ v, Statement (.lit v) := by intros; exact of_prefixes _
theorem ext : ∀ v, Statement (.ext v) := by intros; exact of_prefixes _
theorem dup : Statement .dup := of_prefixes _
theorem drop : Statement .drop := of_prefixes _
theorem swap : Statement .swap := of_prefixes _
theorem overI : Statement .overI := of_prefixes _
theorem eadd : Statement .eadd := of_prefixes _
theorem esub : Statement .esub := of_prefixes _
theorem emul : Statement .emul := of_prefixes _
theorem eshl : ∀ n, Statement (.eshl n) := by intros; exact of_prefixes _
theorem eor : Statement .eor := of_prefixes _
theorem zpush : ∀ z, Statement (.zpush z) := by intros; exact of_prefixes _
theorem mpass : ∀ g f z b a, Statement (.mpass g f z b a) := by intros; exact of_prefixes _
theorem mpassseg : ∀ g f z b a, Statement (.mpassseg g f z b a) := by intros; exact of_prefixes _
theorem mpassgrp : ∀ z b a, Statement (.mpassgrp z b a) := by intros; exact of_prefixes _
theorem mdrain : ∀ c d m, Statement (.mdrain c d m) := by intros; exact of_prefixes _
theorem mzero : Statement .mzero := of_prefixes _
theorem ccopy : ∀ f c r m, Statement (.ccopy f c r m) := by intros; exact of_prefixes _
theorem cgather : ∀ c m, Statement (.cgather c m) := by intros; exact of_prefixes _
theorem cfill : Statement .cfill := of_prefixes _
theorem chint : Statement .chint := of_prefixes _
theorem xwrite : ∀ f, Statement (.xwrite f) := by intros; exact of_prefixes _
theorem xread : Statement .xread := of_prefixes _
theorem xcoll : ∀ r, Statement (.xcoll r) := by intros; exact of_prefixes _
theorem xroute : Statement .xroute := of_prefixes _
theorem xrlinv : Statement .xrlinv := of_prefixes _
theorem controlNop : Statement .controlNop := of_prefixes _
theorem fenceq : Statement .fenceq := of_prefixes _
theorem gate : ∀ t, Statement (.gate t) := by intros; exact of_prefixes _
theorem qgate : ∀ n, Statement (.qgate n) := by intros; exact of_prefixes _
theorem signal : ∀ n, Statement (.signal n) := by intros; exact of_prefixes _
theorem mark : Statement .mark := of_prefixes _
theorem capstart : ∀ s1, Statement (.capstart s1) := by intros; exact of_prefixes _
theorem capstop : ∀ s1, Statement (.capstop s1) := by intros; exact of_prefixes _
theorem resultLands : Statement .resultLands := of_prefixes _
theorem storeLoadDataArrival : Statement .storeLoadDataArrival := of_prefixes _
theorem longLatencyReturn : Statement .longLatencyReturn := of_prefixes _
theorem vatReply : Statement .vatReply := of_prefixes _
theorem trapEntry : Statement .trapEntry := of_prefixes _
theorem interruptEntry : Statement .interruptEntry := of_prefixes _
theorem timerExpiry : Statement .timerExpiry := of_prefixes _
theorem tmrcntWrite : Statement .tmrcntWrite := of_prefixes _
theorem bankbindWrite : Statement .bankbindWrite := of_prefixes _
theorem fxdata : Statement .fxdata := of_prefixes _
theorem capdata : Statement .capdata := of_prefixes _
theorem capclr : Statement .capclr := of_prefixes _
theorem cueirqClear : Statement .cueirqClear := of_prefixes _
theorem qcmdResume : Statement .qcmdResume := of_prefixes _
theorem qcmdDiscard : Statement .qcmdDiscard := of_prefixes _
theorem qcmdReset : Statement .qcmdReset := of_prefixes _
theorem xinvPage : Statement .xinvPage := of_prefixes _
theorem xinvAsid : Statement .xinvAsid := of_prefixes _
theorem xinvAll : Statement .xinvAll := of_prefixes _
theorem watchpointChange : Statement .watchpointChange := of_prefixes _
theorem warpop : Statement .warpop := of_prefixes _
theorem registerWrite : Statement .registerWrite := of_prefixes _
theorem matrixChunk : Statement .matrixChunk := of_prefixes _
theorem entryCompletion : Statement .entryCompletion := of_prefixes _
theorem chainedEntryStart : Statement .chainedEntryStart := of_prefixes _
theorem copyTurn : Statement .copyTurn := of_prefixes _
theorem transferChunk : Statement .transferChunk := of_prefixes _
theorem signalCompletion : Statement .signalCompletion := of_prefixes _
theorem controlEntryCompletion : Statement .controlEntryCompletion := of_prefixes _
theorem deferredReadiness : Statement .deferredReadiness := of_prefixes _
theorem cueTermEvaluation : Statement .cueTermEvaluation := of_prefixes _
theorem xcollFiring : Statement .xcollFiring := of_prefixes _
theorem posting : Statement .posting := of_prefixes _
theorem contributionArrival : Statement .contributionArrival := of_prefixes _
theorem receptionCueIncrement : Statement .receptionCueIncrement := of_prefixes _
theorem backPressureRelease : Statement .backPressureRelease := of_prefixes _
theorem routeRowScored : Statement .routeRowScored := of_prefixes _
theorem writeAppliedAtHome : Statement .writeAppliedAtHome := of_prefixes _
theorem readAnsweredAtHome : Statement .readAnsweredAtHome := of_prefixes _
theorem frontierSend : Statement .frontierSend := of_prefixes _
theorem vatHomeOperation : Statement .vatHomeOperation := of_prefixes _
theorem vatArrivalAtPairingPoint : Statement .vatArrivalAtPairingPoint := of_prefixes _
theorem pairingWindowExpiry : Statement .pairingWindowExpiry := of_prefixes _
theorem clockRenormalisation : Statement .clockRenormalisation := of_prefixes _
theorem pageWalk : Statement .pageWalk := of_prefixes _
theorem notify : Statement .notify := of_prefixes _
theorem remoteNotify : Statement .remoteNotify := of_prefixes _
theorem mapperRun : Statement .mapperRun := of_prefixes _
theorem packetRead : Statement .packetRead := of_prefixes _
theorem troupePlacement : Statement .troupePlacement := of_prefixes _
theorem tickEdge : Statement .tickEdge := of_prefixes _
theorem deadlineExpiry : Statement .deadlineExpiry := of_prefixes _
theorem watchdogExpiry : Statement .watchdogExpiry := of_prefixes _
theorem cellCompletion : Statement .cellCompletion := of_prefixes _
theorem sceneCompletion : Statement .sceneCompletion := of_prefixes _
theorem preempt : Statement .preempt := of_prefixes _
theorem hardStop : Statement .hardStop := of_prefixes _
theorem contextSave : Statement .contextSave := of_prefixes _
theorem contextRestore : Statement .contextRestore := of_prefixes _
theorem debughalt : Statement .debughalt := of_prefixes _
theorem stop : Statement .stop := of_prefixes _
theorem watchReportEntry : Statement .watchReportEntry := of_prefixes _
theorem sample : Statement .sample := of_prefixes _
theorem fabricRefusalArrives : Statement .fabricRefusalArrives := of_prefixes _
theorem ingressRequestArrival : Statement .ingressRequestArrival := of_prefixes _
theorem flitArbitration : Statement .flitArbitration := of_prefixes _
theorem linkRetry : Statement .linkRetry := of_prefixes _
theorem linkDown : Statement .linkDown := of_prefixes _
theorem linkRetirement : Statement .linkRetirement := of_prefixes _
theorem routingTableRewrite : Statement .routingTableRewrite := of_prefixes _
theorem hostWrite : Statement .hostWrite := of_prefixes _
theorem hostRead : Statement .hostRead := of_prefixes _
theorem scrubStep : Statement .scrubStep := of_prefixes _
theorem cellRetirement : Statement .cellRetirement := of_prefixes _
theorem aperture : Statement .aperture := of_prefixes _
theorem qtable : Statement .qtable := of_prefixes _
theorem cap : Statement .cap := of_prefixes _
theorem tickper : Statement .tickper := of_prefixes _
theorem halt : Statement .halt := of_prefixes _
theorem resume : Statement .resume := of_prefixes _
theorem warmreset : Statement .warmreset := of_prefixes _
theorem coldReset : Statement .coldReset := of_prefixes _
theorem linkReset : Statement .linkReset := of_prefixes _
theorem bringUpPhase : Statement .bringUpPhase := of_prefixes _
theorem junctionSensorRead : Statement .junctionSensorRead := of_prefixes _
theorem thermalTrip : Statement .thermalTrip := of_prefixes _
theorem powerCapStep : Statement .powerCapStep := of_prefixes _
theorem ratioChange : Statement .ratioChange := of_prefixes _
theorem writeAcknowledged : Statement .writeAcknowledged := of_prefixes _
theorem operandQueueRowLands : Statement .operandQueueRowLands := of_prefixes _

end Sys2Proof.Laws.UnitLength
end

