-- ==== Sys2Proof/Laws/Sparse.lean ====
section
/-!
SUPPORT. Laws of sparse storage and memory: reading after writing, writing leaves every other place alone, and every
operation keeps the canonical form.
-/

namespace Sys2Proof.Machine

variable {w : Nat}

/-! ### Reading -/

@[simp] theorem Sparse.get_nil (k : Nat) : Sparse.get ([] : Sparse w) k = 0 := rfl

theorem Sparse.get_cons (a : Nat) (v : BitVec w) (m : Sparse w) (k : Nat) :
    Sparse.get ((a, v) :: m) k = if a = k then v else Sparse.get m k := rfl

/-- A key that no entry names reads as zero. -/
theorem Sparse.get_eq_zero {m : Sparse w} {k : Nat} (h : ∀ e ∈ m, e.1 ≠ k) : Sparse.get m k = 0 := by
  induction m with
  | nil => rfl
  | cons e m ih =>
    obtain ⟨a, v⟩ := e
    simp only [List.forall_mem_cons] at h
    rw [Sparse.get_cons, if_neg h.1, ih h.2]

theorem Sparse.get_append {m n : Sparse w} {k : Nat} (h : ∀ e ∈ n, e.1 ≠ k) :
    Sparse.get (m ++ n) k = Sparse.get m k := by
  induction m with
  | nil => simpa using Sparse.get_eq_zero h
  | cons e m ih =>
    obtain ⟨a, v⟩ := e
    simp only [List.cons_append, Sparse.get_cons, ih]

theorem Sparse.get_append_right {m n : Sparse w} {k : Nat} (h : ∀ e ∈ m, e.1 ≠ k) :
    Sparse.get (m ++ n) k = Sparse.get n k := by
  induction m with
  | nil => rfl
  | cons e m ih =>
    obtain ⟨a, v⟩ := e
    simp only [List.forall_mem_cons] at h
    rw [List.cons_append, Sparse.get_cons, if_neg h.1, ih h.2]

/-- A filter on keys reads as the contents where it keeps the key. -/
theorem Sparse.get_filter (m : Sparse w) (p : Nat → Bool) (k : Nat) :
    Sparse.get (m.filter fun e => p e.1) k = if p k then Sparse.get m k else 0 := by
  induction m with
  | nil => simp
  | cons e m ih =>
    obtain ⟨a, v⟩ := e
    by_cases ha : a = k
    · subst ha
      by_cases hp : p a
      · simp [hp, Sparse.get_cons]
      · simpa [hp] using ih
    · by_cases hp : p a
      · simp [hp, Sparse.get_cons, ha, ih]
      · simp [hp, Sparse.get_cons, ha, ih]

/-! ### The canonical form -/

/-- Keys above a bound: what `above` says of each entry. -/
theorem Sparse.above_iff {m : Sparse w} {k : Nat} :
    Sparse.above k m = true ↔ (∀ e ∈ m, k < e.1 ∧ e.2 ≠ 0) ∧ m.Pairwise fun x y => x.1 < y.1 := by
  induction m generalizing k with
  | nil => simp [Sparse.above]
  | cons e m ih =>
    obtain ⟨a, v⟩ := e
    simp only [Sparse.above, Bool.and_eq_true, decide_eq_true_eq, ih, List.forall_mem_cons, List.pairwise_cons]
    constructor
    · rintro ⟨⟨hk, hv⟩, hm, hp⟩
      exact ⟨⟨⟨hk, hv⟩, fun e he => ⟨Nat.lt_trans hk (hm e he).1, (hm e he).2⟩⟩, fun e he => (hm e he).1, hp⟩
    · rintro ⟨⟨⟨hk, hv⟩, hm⟩, ha, hp⟩
      exact ⟨⟨hk, hv⟩, fun e he => ⟨ha e he, (hm e he).2⟩, hp⟩

/-- The canonical form: keys strictly rising, no entry equal to what an unlisted key reads as. -/
theorem Sparse.wf_iff {m : Sparse w} :
    Sparse.wf m = true ↔ (∀ e ∈ m, e.2 ≠ 0) ∧ m.Pairwise fun x y => x.1 < y.1 := by
  cases m with
  | nil => simp [Sparse.wf]
  | cons e m =>
    obtain ⟨a, v⟩ := e
    simp only [Sparse.wf, Bool.and_eq_true, decide_eq_true_eq, Sparse.above_iff, List.forall_mem_cons, List.pairwise_cons]
    constructor
    · rintro ⟨hv, hm, hp⟩
      exact ⟨⟨hv, fun e he => (hm e he).2⟩, fun e he => (hm e he).1, hp⟩
    · rintro ⟨⟨hv, hm⟩, ha, hp⟩
      exact ⟨hv, fun e he => ⟨ha e he, hm e he⟩, hp⟩

/-! ### Writing consecutive keys -/

theorem Sparse.mem_run {k : Nat} {vs : List (BitVec w)} {e : Nat × BitVec w} (h : e ∈ Sparse.run k vs) :
    k ≤ e.1 ∧ e.1 < k + vs.length ∧ e.2 ≠ 0 := by
  induction vs generalizing k with
  | nil => cases h
  | cons v vs ih =>
    simp only [Sparse.run] at h
    split at h
    · have ⟨h1, h2, h3⟩ := ih h
      simp only [List.length_cons]
      exact ⟨by omega, by omega, h3⟩
    · rcases List.mem_cons.1 h with rfl | h
      · simp only [List.length_cons]
        exact ⟨Nat.le_refl _, by omega, ‹_›⟩
      · have ⟨h1, h2, h3⟩ := ih h
        simp only [List.length_cons]
        exact ⟨by omega, by omega, h3⟩

theorem Sparse.run_pairwise (k : Nat) (vs : List (BitVec w)) :
    (Sparse.run k vs).Pairwise fun x y => x.1 < y.1 := by
  induction vs generalizing k with
  | nil => simp [Sparse.run]
  | cons v vs ih =>
    simp only [Sparse.run]
    split
    · exact ih _
    · exact List.pairwise_cons.2 ⟨fun e he => by have := Sparse.mem_run he; simp only; omega, ih _⟩

theorem Sparse.get_run (k : Nat) (vs : List (BitVec w)) (j : Nat) :
    Sparse.get (Sparse.run k vs) j = if k ≤ j then vs[j - k]?.getD 0 else 0 := by
  induction vs generalizing k with
  | nil => simp [Sparse.run]
  | cons v vs ih =>
    simp only [Sparse.run]
    by_cases hj : j = k
    · subst hj
      split
      · rename_i hv
        rw [ih, if_neg (by omega)]
        simp [hv]
      · simp [Sparse.get_cons]
    · have step : (if k + 1 ≤ j then vs[j - (k + 1)]?.getD 0 else 0) =
          if k ≤ j then ((v :: vs)[j - k]?).getD 0 else 0 := by
        by_cases hk : k ≤ j
        · obtain ⟨n, rfl⟩ : ∃ n, j = k + (n + 1) := ⟨j - k - 1, by omega⟩
          rw [if_pos (by omega), if_pos hk, show k + (n + 1) - (k + 1) = n by omega, show k + (n + 1) - k = n + 1 by omega,
            List.getElem?_cons_succ]
        · rw [if_neg (by omega), if_neg hk]
      split
      · rw [ih, step]
      · rw [Sparse.get_cons, if_neg (Ne.symm hj), ih, step]

/-- A write of consecutive keys: each key reads its own value, and every other key as before. -/
theorem Sparse.get_setRun (m : Sparse w) (k : Nat) (vs : List (BitVec w)) (j : Nat) :
    Sparse.get (Sparse.setRun m k vs) j =
      if k ≤ j ∧ j < k + vs.length then vs[j - k]?.getD 0 else Sparse.get m j := by
  unfold Sparse.setRun
  by_cases h1 : j < k
  · rw [Sparse.get_append, Sparse.get_append, Sparse.get_filter m (fun a => decide (a < k))]
    · rw [if_pos (by simpa using h1), if_neg (by omega)]
    · exact fun e he => by have := Sparse.mem_run he; omega
    · intro e he
      have := (List.mem_filter.1 he).2
      simp only [decide_eq_true_eq] at this
      omega
  · by_cases h2 : j < k + vs.length
    · rw [Sparse.get_append, Sparse.get_append_right, Sparse.get_run, if_pos (by omega), if_pos ⟨by omega, h2⟩]
      · intro e he
        have := (List.mem_filter.1 he).2
        simp only [decide_eq_true_eq] at this
        omega
      · intro e he
        have := (List.mem_filter.1 he).2
        simp only [decide_eq_true_eq] at this
        omega
    · rw [Sparse.get_append_right, Sparse.get_filter m (fun a => decide (k + vs.length ≤ a))]
      · rw [if_pos (by simp only [decide_eq_true_eq]; omega), if_neg (by omega)]
      · intro e he
        rcases List.mem_append.1 he with he | he
        · have := (List.mem_filter.1 he).2
          simp only [decide_eq_true_eq] at this
          omega
        · have := Sparse.mem_run he
          omega

/-- A filter keeps the canonical form. -/
theorem Sparse.filter_wf {m : Sparse w} (p : Nat × BitVec w → Bool) (h : Sparse.wf m) : Sparse.wf (m.filter p) := by
  rw [Sparse.wf_iff] at h ⊢
  exact ⟨fun e he => h.1 e (List.mem_filter.1 he).1, h.2.filter p⟩

/-- A write of consecutive keys keeps the canonical form. -/
theorem Sparse.setRun_wf {m : Sparse w} (k : Nat) (vs : List (BitVec w)) (h : Sparse.wf m) :
    Sparse.wf (Sparse.setRun m k vs) := by
  rw [Sparse.wf_iff] at h ⊢
  unfold Sparse.setRun
  refine ⟨fun e he => ?_, ?_⟩
  · rcases List.mem_append.1 he with he | he
    · rcases List.mem_append.1 he with he | he
      · exact h.1 e (List.mem_filter.1 he).1
      · exact (Sparse.mem_run he).2.2
    · exact h.1 e (List.mem_filter.1 he).1
  · refine List.pairwise_append.2 ⟨List.pairwise_append.2 ⟨h.2.filter _, Sparse.run_pairwise k vs, ?_⟩, h.2.filter _, ?_⟩
    · intro a ha b hb
      have h1 := (List.mem_filter.1 ha).2
      have h2 := Sparse.mem_run hb
      simp only [decide_eq_true_eq] at h1
      omega
    · intro a ha b hb
      have h2 := (List.mem_filter.1 hb).2
      simp only [decide_eq_true_eq] at h2
      rcases List.mem_append.1 ha with ha | ha
      · have h1 := (List.mem_filter.1 ha).2
        simp only [decide_eq_true_eq] at h1
        omega
      · have := Sparse.mem_run ha
        omega

/-! ### Writing one key -/

/-- A write reads back, and leaves every other key alone. -/
theorem Sparse.get_set (m : Sparse w) (k : Nat) (v : BitVec w) (j : Nat) :
    Sparse.get (Sparse.set m k v) j = if j = k then v else Sparse.get m j := by
  rw [Sparse.set, Sparse.get_setRun]
  by_cases h : j = k
  · simp [h]
  · rw [if_neg h, if_neg (by simp only [List.length_singleton]; omega)]

/-- A write leaves every other key alone. -/
theorem Sparse.get_set_ne (m : Sparse w) {k j : Nat} (v : BitVec w) (h : j ≠ k) :
    Sparse.get (Sparse.set m k v) j = Sparse.get m j := by
  rw [Sparse.get_set, if_neg h]

/-- A write reads back. -/
theorem Sparse.get_set_eq (m : Sparse w) (k : Nat) (v : BitVec w) : Sparse.get (Sparse.set m k v) k = v := by
  rw [Sparse.get_set, if_pos rfl]

/-- A write keeps the canonical form. -/
theorem Sparse.set_wf {m : Sparse w} (k : Nat) (v : BitVec w) (h : Sparse.wf m) : Sparse.wf (Sparse.set m k v) :=
  Sparse.setRun_wf k [v] h

/-- The values of consecutive keys are those of the keys. -/
theorem Sparse.getRun_eq (m : Sparse w) (k n : Nat) :
    Sparse.getRun m k n = (List.range n).map fun i => Sparse.get m (k + i) := by
  unfold Sparse.getRun
  apply List.map_congr_left
  intro i hi
  have hi := List.mem_range.1 hi
  have := Sparse.get_filter m (fun a => decide (k ≤ a) && decide (a < k + n)) (k + i)
  rw [if_pos (by simp only [Bool.and_eq_true, decide_eq_true_eq]; omega)] at this
  exact this

/-- Canonical contents that read alike at every key are equal. -/
theorem Sparse.ext {m n : Sparse w} (hm : Sparse.wf m) (hn : Sparse.wf n)
    (h : ∀ k, Sparse.get m k = Sparse.get n k) : m = n := by
  rw [Sparse.wf_iff] at hm hn
  induction m generalizing n with
  | nil =>
    cases n with
    | nil => rfl
    | cons e n =>
      obtain ⟨a, v⟩ := e
      have := h a
      rw [Sparse.get_cons, if_pos rfl] at this
      exact absurd this.symm (hn.1 (a, v) (List.mem_cons_self ..))
  | cons e m ih =>
    obtain ⟨a, v⟩ := e
    have hv : v ≠ 0 := hm.1 (a, v) (List.mem_cons_self ..)
    rw [List.pairwise_cons] at hm
    cases n with
    | nil =>
      have := h a
      rw [Sparse.get_cons, if_pos rfl] at this
      exact absurd this hv
    | cons f n =>
      obtain ⟨b, x⟩ := f
      have hx : x ≠ 0 := hn.1 (b, x) (List.mem_cons_self ..)
      rw [List.pairwise_cons] at hn
      have hab : a = b := by
        rcases Nat.lt_trichotomy a b with lt | rfl | lt
        · have := h a
          rw [Sparse.get_cons, if_pos rfl, Sparse.get_cons, if_neg (by omega),
            Sparse.get_eq_zero fun e he => by have := hn.2.1 e he; simp only at this; omega] at this
          exact absurd this hv
        · rfl
        · have := h b
          rw [Sparse.get_cons, if_neg (by omega), Sparse.get_cons, if_pos rfl,
            Sparse.get_eq_zero fun e he => by have := hm.2.1 e he; simp only at this; omega] at this
          exact absurd this.symm hx
      subst hab
      have hvx : v = x := by simpa [Sparse.get_cons] using h a
      subst hvx
      have tail : m = n := by
        refine ih ⟨fun e he => hm.1 e (List.mem_cons_of_mem _ he), hm.2.2⟩
          ⟨fun e he => hn.1 e (List.mem_cons_of_mem _ he), hn.2.2⟩ fun k => ?_
        by_cases hk : a = k
        · subst hk
          rw [Sparse.get_eq_zero fun e he => by have := hm.2.1 e he; simp only at this; omega,
            Sparse.get_eq_zero fun e he => by have := hn.2.1 e he; simp only at this; omega]
        · simpa [Sparse.get_cons, hk] using h k
      rw [tail]

/-! ### Memory -/

/-- A little-endian write keeps the canonical form. -/
theorem Memory.writeLE_wf {m : Memory} (a n v : Nat) (h : Memory.wf m) : Memory.wf (Memory.writeLE m a n v) := by
  induction n generalizing m a v with
  | zero => exact h
  | succ n ih => exact ih (a + 1) (v / 256) (Sparse.set_wf a _ h)

/-- A list of byte writes keeps the canonical form. -/
theorem Memory.writeBytes_wf {m : Memory} (bs : List (Nat × Byte)) (h : Memory.wf m) :
    Memory.wf (Memory.writeBytes m bs) := by
  induction bs generalizing m with
  | nil => exact h
  | cons e bs ih =>
    obtain ⟨a, b⟩ := e
    exact ih (Sparse.set_wf a b h)

/-- A little-endian write leaves every other byte alone. -/
theorem Memory.get_writeLE_ne (m : Memory) (a n v : Nat) {b : Nat} (h : b < a ∨ a + n ≤ b) :
    Sparse.get (Memory.writeLE m a n v) b = Sparse.get m b := by
  induction n generalizing m a v with
  | zero => rfl
  | succ n ih =>
    unfold Memory.writeLE
    rw [ih _ (a + 1) _ (by omega), Sparse.get_set_ne _ _ (by omega)]

/-- What a little-endian write stores reads back. -/
theorem Memory.readLE_writeLE (m : Memory) (a n v : Nat) :
    Memory.readLE (Memory.writeLE m a n v) a n = v % 256 ^ n := by
  induction n generalizing m a v with
  | zero => simp [Memory.readLE, Nat.mod_one]
  | succ n ih =>
    unfold Memory.writeLE Memory.readLE
    rw [ih _ (a + 1) (v / 256), Memory.get_writeLE_ne _ _ _ _ (by omega),
      Sparse.get_set_eq, BitVec.toNat_ofNat, show 256 ^ (n + 1) = 256 * 256 ^ n from Nat.pow_succ'.trans rfl, Nat.mod_mul]

/-- A list of byte writes leaves every other byte alone. -/
theorem Memory.get_writeBytes_ne (m : Memory) (bs : List (Nat × Byte)) {b : Nat} (h : ∀ e ∈ bs, e.1 ≠ b) :
    Sparse.get (Memory.writeBytes m bs) b = Sparse.get m b := by
  induction bs generalizing m with
  | nil => rfl
  | cons e bs ih =>
    obtain ⟨a, v⟩ := e
    simp only [List.forall_mem_cons] at h
    unfold Memory.writeBytes
    rw [ih _ h.2, Sparse.get_set_ne _ _ (Ne.symm h.1)]

end Sys2Proof.Machine
end

