-- ==== Sys2Proof/Tests/Slice0.lean ====
section
/-!
SUPPORT. Tests of the decoder and of single steps, from the spec's own encodings and rules, and states that meet the
hypotheses of the statements.
-/

namespace Sys2Proof.Tests

-- The theorems below are elaborated one after another: each takes a thread of its own otherwise.
set_option Elab.async false

open Sys2Proof.Machine Sys2Proof.Claims

/-! ### Ill-formed instructions -/

/-- Global memory, no offset, base g2. -/
def arg : MemArg := { base := 2, mode := 0, mreg := 0, sp := 3, off := 0, hi := none }

/-- R62: the modulo mode on global memory; a prefix on the indexed mode; a modulo register outside the modulo mode; off[8] in the
indexed mode. R105: the activation store in LD; the third store in OQLD. -/
theorem test_wf_memory_operands :
    Instr.wellFormed (.ld 1 { arg with mode := 2 } none) = false ∧
    Instr.wellFormed (.vld 1 { arg with mode := 3, hi := some 0 } none) = false ∧
    Instr.wellFormed (.st 1 { arg with mreg := 1 } none) = false ∧
    Instr.wellFormed (.ldw 1 { arg with mode := 3, off := 0x100 } none) = false ∧
    Instr.wellFormed (.oqld 1 { arg with mode := 3, off := 0x100 } none) = false ∧
    Instr.wellFormed (.stw 1 { arg with sp := 1 } none) = false ∧
    Instr.wellFormed (.oqld 1 { arg with sp := 2 } none) = false ∧
    Instr.wellFormed (.ld 1 arg none) = true := by decide

/-- R64: a release order on a load, an acquire order on a store, a failure order outside CAS, a reserved scope, a scope with no
order. -/
theorem test_wf_orders :
    Instr.wellFormed (.ld 1 arg (some { order := 2, scope := 0, ford := 0 })) = false ∧
    Instr.wellFormed (.st 1 arg (some { order := 1, scope := 0, ford := 0 })) = false ∧
    Instr.wellFormed (.aadd 1 2 3 false false (some { order := 3, scope := 0, ford := 1 })) = false ∧
    Instr.wellFormed (.fence (some { order := 3, scope := 5, ford := 0 })) = false ∧
    Instr.wellFormed (.vpop 1 2 false (some { order := 0, scope := 1, ford := 0 })) = false ∧
    Instr.wellFormed (.cas 1 2 3 false false (some { order := 3, scope := 4, ford := 1 })) = true := by decide

/-- Register, ring, store, slot and queue numbers beyond their range, LOOP on g0, ENQG of g0 with a count, a reserved rounding
mode, a vector word's g register above 31. -/
theorem test_wf_ranges :
    Instr.wellFormed (.loop 0 { lo := 1, hi := none }) = false ∧ Instr.wellFormed (.zset 16 1 false) = false ∧
    Instr.wellFormed (.zget 1 16) = false ∧ Instr.wellFormed (.oqld 4 arg none) = false ∧
    Instr.wellFormed (.rgset 16 1 false) = false ∧ Instr.wellFormed (.rclaim 1 2 2) = false ∧
    Instr.wellFormed (.abump 1 3 2 false) = false ∧ Instr.wellFormed (.astate 1 2 5) = false ∧
    Instr.wellFormed (.bararr 1 16 none) = false ∧ Instr.wellFormed (.lend 12 0) = false ∧
    Instr.wellFormed (.lend 11 2) = false ∧ Instr.wellFormed (.latld 1 4 false) = false ∧
    Instr.wellFormed (.vcvtfs 1 2 true 5 false 0) = false ∧ Instr.wellFormed (.vcvtfs 1 2 false 1 false 0) = false ∧
    Instr.wellFormed (.vsplat 1 32 false 0) = false ∧ Instr.wellFormed (.vmaskrd 32 0) = false ∧
    Instr.wellFormed (.enqw 13 0) = false ∧ Instr.wellFormed (.enqg 1 1 0) = false ∧
    Instr.wellFormed (.enqm 0 0 3 1) = false := by decide

/-! ### Words written out from their encodings (R57-R74) -/

/-- Arithmetic, comparison, bits, immediates (formats A and I). -/
theorem test_decode_scalar :
    decode [0x21350046] = .unit (.shri 9 21 6) 1 ∧ decode [0x0E0A5803] = .unit (.rank 16 10 11 false false) 1 ∧
    decode [0x0D8A6804] = .unit (.select 12 10 13 false false) 1 := by decide +kernel

/-- Transfers of control (formats A and B): `jr g31`, `bkany` three words ahead, `loop g7` two words back, END, NOP. -/
theorem test_decode_control :
    decode [0x5C1F0000] = .unit (.jr 31 false) 1 ∧ decode [0x54200003] = .unit (.bkany { lo := 3, hi := none }) 1 ∧
    decode [0x58FFFFFE] = .unit (.loop 7 { lo := -2, hi := none }) 1 ∧ decode [0x5C000002] = .unit .endI 1 ∧
    decode [0x5C000003] = .unit .nop 1 := by decide +kernel

/-- System instructions, CSR forms, shape registers. -/
theorem test_decode_system :
    decode [0x60000000] = .unit .syscall 1 ∧ decode [0x60000001] = .unit .rett 1 ∧
    decode [0x64A00001] = .unit (.csrr 5 0x001) 1 ∧ decode [0x64061010] = .unit (.csrw 0 6 0x010) 1 ∧
    decode [0x68670000] = .unit (.zset 3 7 false) 1 ∧ decode [0x68670001] = .unit (.zsetW 3 7 false) 1 ∧
    decode [0x68830002] = .unit (.zget 4 3) 1 := by decide +kernel

/-- Loads and stores (format M): `ld g7, ws:16(g2)`, `vld v40, as:(g2)+256 % m1`, `oqld oq1, (g4)+128`. -/
theorem test_decode_memory :
    decode [0x78E20002] = .unit (.ld 7 { base := 2, mode := 0, mreg := 0, sp := 0, off := 2, hi := none } none) 1 ∧
    decode [0x89028B01] = .unit (.vld 8 { base := 2, mode := 2, mreg := 1, sp := 1, off := 0x101, hi := none } none) 1 ∧
    decode [0x90244601] = .unit (.oqld 1 { base := 4, mode := 1, mreg := 0, sp := 3, off := 1, hi := none } none) 1 := by
  decide +kernel

/-- Atomics, CAS, vats, fences with an order prefix. -/
theorem test_decode_atomics :
    decode [0xA1242806] = .unit (.aminu 9 4 5 false false none) 1 ∧
    decode [0xA0042909] = .unit (.afaddW 0 4 5 false false none) 1 ∧
    decode [0xA4C43800] = .unit (.cas 6 4 7 false false none) 1 ∧
    decode [0xA9042800] = .unit (.vpush 8 4 5 false false none) 1 ∧
    decode [0x77400000, 0xC0000000] = .unit (.fence (some { order := 3, scope := 2, ford := 0 })) 2 := by decide +kernel

/-- Cue counters and bank lending. -/
theorem test_decode_sync :
    decode [0xC4050003] = .unit (.qadd 5 3) 1 ∧ decode [0xC4060083] = .unit (.qwait 6 3) 1 ∧
    decode [0xC0090804] = .unit (.lend 9 1) 1 := by decide +kernel

/-- Vector instructions (format V). -/
theorem test_decode_vector :
    decode [0xC8108330] = .unit (.vfma 1 2 3 false false 0) 1 ∧ decode [0xDC518920] = .unit (.vcvtfs 5 6 true 1 false 0) 1 ∧
    decode [0xE001C060] = .unit (.mpush 7 false 0) 1 ∧ decode [0xE0000070] = .unit (.minv 0) 1 ∧
    decode [0xE4030000] = .unit (.vfrsum 0 12 false 0) 1 ∧ decode [0xEC425130] = .unit (.vext 4 9 17 false 0) 1 := by
  decide +kernel

/-- Engine words, each by its own engine. -/
theorem test_decode_engine :
    decodeEngine .matrix 0xA000 = some .dup ∧ decodeEngine .copy 0xA903 = some (.zpush 3) ∧
    decodeEngine .matrix 0xC400 = some .mzero ∧ decodeEngine .copy 0xC200 = some .cfill ∧
    decodeEngine .transfer 0xC300 = some .xroute ∧ decodeEngine .transfer 0xE000 = some .controlNop := by decide +kernel

/-- R68, R69: words that no row assigns, and prefixes that stand alone or before the wrong instruction. -/
theorem test_decode_refused :
    decode [0x00000000] = .illegal ∧ decode [0xFFFFFFFF] = .illegal ∧ decode [0x74000000] = .more ∧
    decode [0x74000000, 0x5C000003] = .illegal ∧ decodeTableWord 32 0x74000000 = none := by decide +kernel

/-! ### States -/

/-- The core runs at user level, with nothing before its next unit. -/
def user : State := State.reset.ready

/-- A CSR set to a value. -/
def csr (s : State) (n : Nat) (v : Word) : State := { s with csr := Sparse.set s.csr n v }

/-- The same at system level. -/
def sup : State := csr user 1 0x100

/-- A g register set to a value. -/
def put (s : State) (r : Nat) (v : Word) : State := { s with core := { s.core with g := s.core.g.setIfInBounds r v } }

/-- A result in flight toward a g register. -/
def late (s : State) (r : Nat) : State :=
  { s with core := { s.core with
    inflight := [{ target := .reg r 7, visible := s.clk, arrive := 0, scalar := true, port := none }] } }

/-- g[r] is empty. -/
def emptied (s : State) (r : Nat) : State := { s with core := { s.core with gEmpty := s.core.gEmpty ||| (1 <<< r) } }

/-- A page of 64 KiB at virtual address 0x10000 and frame 0x20000 with the attributes and the format of w0, and a second
word. -/
def pageAt (s : State) (attr fmt : Nat) (w1 : Word) : Page :=
  { asid := s.asid, base := 0x10000, size := 0x10000, w1 := w1
    w0 := BitVec.ofNat 64 (1 + attr + (if s.system then 0 else 32) + 64 + 2 ^ 8 * fmt + 2 ^ 16 * 2) }

/-- That page is cached: readable, writable, executable and dirty unless `attr` says otherwise. -/
def paged (s : State) (attr fmt : Nat) (w1 : Word) : State := { s with sys := { s.sys with tlb := [pageAt s attr fmt w1] } }

/-- The page of plain bytes, all accesses allowed, with g2 at its start. -/
def flat (s : State) : State := put (paged s 0x9E 0 0) 2 0x10000

/-- A page of blocks, whose group has its scale slot at address 0, with g2 at its start. -/
def narrowed (s : State) (fmt : Nat) : State := { put (paged s 0x9E fmt 0) 2 0x10000 with mem := [(0, 8)] }

/-- A request of the core or of a queue. -/
def ask (op : ReqOp) (queue : Nat) (dest : Dest) : Req :=
  { id := 3, op := op, pa := 0x20000, va := 0, home := 0, die := 0, stamp := List.replicate 28 0, rclk := List.replicate 28 0
    dest := dest, queue := queue, seq := 0, pc := 0, dev := none, cls := 0, key := 0, acq := false, casid := none, origin := .own }

/-- One request is on its way. -/
def asked (s : State) (r : Req) : State := { s with sys := { s.sys with reqs := [r] } }

/-- Tile descriptors: STATE, length, offset, store. -/
def tileWord (st len off store : Nat) : Word := BitVec.ofNat 64 (off + 2 ^ 24 * len + 2 ^ 48 * store + 2 ^ 50 * st)

/-- Tiles 4 to 11 are bound. -/
def tiled (s : State) : State :=
  { s with cell := { s.cell with tiles :=
    [(4, tileWord 0 64 0 0), (5, tileWord 1 64 64 1), (6, tileWord 2 128 0 2), (7, tileWord 3 128 64 2)
     , (8, tileWord 0 0x2000 0x2000 2), (9, tileWord 2 0x2000 0x4000 2), (10, tileWord 2 0x1000 0 0)
     , (11, tileWord 2 0x1000 0 1)] } }

/-- Ring 3. -/
def ringed (s : State) (r : Ring) : State :=
  let t := tiled s
  { t with cell := { t.cell with rings := t.cell.rings.setIfInBounds 3 r } }

/-- A ring of the tiles from b on. -/
def ring (b n head tail p c : Nat) : Ring := { set := true, base := b, count := n, head := head, tail := tail, pclaim := p, cclaim := c }

/-- The allocator of the activation store. -/
def allocated (s : State) (a : Alloc) : State := { s with cell := { s.cell with allocs := s.cell.allocs.setIfInBounds 1 a } }

/-- A cue counter. -/
def cued (s : State) (n : Nat) (v : Lane) : State := { s with core := { s.core with q := s.core.q.setIfInBounds n v } }

/-- k, with its count of delay clk gone by. -/
def withK (s : State) (k : Word) : State :=
  { s with core := { s.core with mask := s.core.mask.setIfInBounds 0 k, delayClk := 3 } }

/-- A vat operation of the head unit. -/
def vatted (s : State) (v : VatWait) : State := { s with core := { s.core with vat := v } }

/-- Barrier 5: generation, ranks arrived; a troupe of two cells. -/
def barred (s : State) (gen : Nat) (arrived : Word) : State :=
  { s with cell := { s.cell with bars := s.cell.bars.setIfInBounds 5 { gen := gen, arrived := arrived }, troupeSize := 2 } }

/-- The words of term 64 bytes into the weight store; bit 14 of its last word and, if `bad`, bit 15. -/
def termed (s : State) (bad : Bool) : State :=
  put { s with cell := { s.cell with store0 := [(64, 5), (69, 1), (121, if bad then 0xC0 else 0x40)] } } 2 64

/-- A row of an operand queue. -/
def row : OqRow := { id := 0, parts := 0, off := 0, bytes := [], codes := [], scales := [], fmt := 0, geo := 0, lslot := 0 }

/-- A started entry that has done no work. -/
def entry (q : Nat) (i : Instr) (vals : List Word) : Entry :=
  { user.newEntry i with queue := q, vals := vals }

/-- A word of a queue, from the unit at 0x40. -/
def eword (w : Nat) : EWord := { w := BitVec.ofNat 16 w, pc := 0x40, enq := 3 }

/-- An instruction at the head of its queue, closed by a control NOP if it ends no entry, above a stack. -/
def headed (i : Instr) (st : List Word) : Queue :=
  { Queue.reset with
    words := if 0xC000 ≤ encodeEngine i then [eword (encodeEngine i)] else [eword (encodeEngine i), eword 0xE000]
    stack := st, nextSeq := 9 }

/-- A word of register space is empty. -/
def hollow (s : State) (w : Nat) : State := { s with cell := { s.cell with rspEmpty := [(w, 1)] } }

/-- Some clk later. -/
def ticked (s : State) : State := { s with clk := 9 }

/-- The turn of queue q, which holds v. -/
def queued (s : State) (q : Nat) (v : Queue) : State :=
  { s with actq := q, cell := { s.cell with queues := s.cell.queues.setIfInBounds q v } }

/-- Every bank but the first is bound to the matrix slot; tiles 4 to 11 are bound; no error is latent. -/
def engines : State := csr (tiled (flat user)) 0x013 0xFFE

/-- Places: bytes of a store, bytes of a tile. -/
def inStore (st off : Nat) : Word := BitVec.ofNat 64 (2 ^ 62 + 2 ^ 56 * st + off)
def inTile (h off : Nat) : Word := BitVec.ofNat 64 (2 ^ 63 + 2 ^ 24 * off + h)

/-- The core as `f` makes it. -/
def core (s : State) (f : Core → Core) : State := { s with core := f s.core }

/-- Every channel of memory answers. -/
def present (s : State) : State :=
  { s with mgr := { s.mgr with chanmap := Vector.replicate 28 0xFFFFFFFF, cxlsize := Vector.replicate 28 16 } }

/-- A little-endian word of memory, in canonical form. -/
def bytesOfWord (a v : Nat) : Memory :=
  (List.range 8).filterMap fun i => if v / 256 ^ i % 256 = 0 then none else some (a + i, BitVec.ofNat 8 (v / 256 ^ i))

/-- Four tables at 0x100000 to 0x130000 lead to a leaf for 0x30000. -/
def mapped (s : State) (leaf : Nat) : State :=
  { present s with
    mem := bytesOfWord 0x100000 0x1100001 ++ bytesOfWord 0x110000 0x1200001 ++ bytesOfWord 0x120000 0x1300001 ++
      bytesOfWord 0x130000 0x1400001 ++ bytesOfWord 0x140030 leaf
    csr := Sparse.set s.csr 0x102 0x100000005 }

/-- A walk is waiting. -/
def walking (s : State) (va : Word) (acc : Access) : State := { s with sys := { s.sys with walks := [(va, acc, [])], tlb := [] } }

/-- An access from outside the core. -/
def outside (s : State) (n : Nat) (v : Word) : State := { s with inp := { s.inp with csr := some (n, v) } }

/-- A fault of the entry with sequence number 7. -/
def fault : QFault := { cause := 5, addr := 0x99, seq := 7, pc := 0x40, prog := 3, firing := 0, armed := false, atWord := false }

/-- A started entry, its start read, with its places and descriptor, after some of its work. -/
def work (q : Nat) (i : Instr) (vals : List Word) (src dst : Place) (desc : List Word) (done : Nat) : Entry :=
  { entry q i vals with
    seq := 7, done := done, next := done, start := { Start.none with src := src, dst := dst, desc := desc, ready := true } }

/-- The turn of the engine that the entry runs on. -/
def moving (s : State) (e : Entry) : State := queued s e.queue { Queue.reset with run := [e], nextSeq := 9 }

/-- A row of an answer. -/
def reply (d : Dest) : Reply :=
  { id := 3, dest := d, size := 8, val := 3, lanes := [], clock := [], bad := false, addr := 0, queue := 15, seq := 0, acq := false
    row := none }

/-- One answer is on its way back. -/
def replied (s : State) (a : Reply) : State := { s with sys := { s.sys with replies := [a] } }

/-- A contribution of device 7, cell 3. -/
def contribution (words : List Lane) (off : Nat) (epoch : Option Nat) : Contrib :=
  { cidx := 6, dev := 7, cell := 3, off := off, words := words, chunk := epoch.isSome, epoch := epoch, add := true, tdev := 0, tcell := 0
    clock := [] }

/-- A posting of tile 7 for index 6, whose rank list names that cell first. -/
def posting (bitmap : List (Nat × Nat)) : Posting :=
  { cidx := 6, tile := 7, expect := 5, got := 2, epoch := 5, ordered := false, rq := none, bitmap := bitmap, ranks := [0x1807, 1]
    applied := [], held := [], clock := [] }

/-- The contribution comes to the posting. -/
def receiving (p : Posting) (x : Contrib) : State :=
  { engines with coll := { engines.coll with postings := [p] }, inp := { engines.inp with inbox := [x] } }

/-- The ports of the stores have been granted in this clk. -/
def granted (s : State) : State :=
  { s with cell := { s.cell with ports := Vector.replicate 3 { refused := Vector.replicate 5 0, lost := 0, taken := true } } }

/-- A contribution of this cell comes home by its own requests. -/
def homing (s : State) (x : Contrib) : State := asked s (ask (.contrib x) 15 .none)

/-- The wings hold more than they have room for. -/
def crowded (s : State) : State :=
  { s with coll := { s.coll with parked := List.replicate 64 (contribution (List.replicate 20000 1) 0 none) } }

/-- A contribution to another module waits to be sent. -/
def heldOut (s : State) : State := { s with coll := { s.coll with outHeld := [ask (.contrib (contribution [1] 0 none)) 3 .none] } }

/-- A firing whose receive tile is 4 or 5, with the descriptor words that R183 names. -/
def firing (tile : Nat) : Entry :=
  { work 9 (.xcoll true) [0x10000] .none .none
      [0x3200000000010000, 0, BitVec.ofNat 64 (2 + 2 ^ 32 * tile), 0, 0, 0, 0, 0x900600000003] 0 with
    start := { Start.none with
      desc := [0x3200000000010000, 0, BitVec.ofNat 64 (2 + 2 ^ 32 * tile), 0, 0, 0, 0, 0x900600000003], ready := true, acc := 8 } }

/-- Tiles of the accumulator store: 4 empty, 5 full. -/
def landing (s : State) : State :=
  { s with cell := { s.cell with tiles := [(4, tileWord 0 64 128 2), (5, tileWord 2 64 64 2), (7, tileWord 3 128 64 2)] } }

/-- A vat at 0x20000: KIND, capacity, count. -/
def vat (kind cap count : Nat) : Memory :=
  ([(0x20000, kind), (0x20008, cap), (0x20010, count)].filter fun x => x.2 ≠ 0).map fun x => (x.1, BitVec.ofNat 8 x.2)

/-- An operation of cell 4 of this module is held at die 0. -/
def heldAt (r : Req) : Held := { point := 0, req := { r with origin := .cell 4 }, cycle := 0, until' := 0, sdev := 0, scell := 4 }

/-- Operations are held. -/
def holding (s : State) (hs : List Held) : State := { s with sys := { s.sys with held := hs } }

/-- A vat operation comes to its home. -/
def vatAt (m : Memory) (op : VatOp) (pair : Bool) : State :=
  { asked (present user) (ask (.vat op pair 0xAB) 15 .vat) with mem := m }

/-- Tokens 64 to 67 of a route descriptor of hub 24, two experts of four, after two of them. -/
def row2 : Entry :=
  { work 9 .xroute [0x10000, 0, 4] (.store 1 0) .none
      [0x10000, 0x10800, 0x11000, 0x10400, 0x18000040, 0x4040002, 0x4400000040, 0] 2 with
    start := { Start.none with
      src := .store 1 0, desc := [0x10000, 0x10800, 0x11000, 0x10400, 0x18000040, 0x4040002, 0x4400000040, 0], ready := true } }

/-- That entry, with the tokens its hub has seen. -/
def routed (seen : List (Nat × Nat × Nat)) : State :=
  { moving (present engines) row2 with hubs := engines.hubs.setIfInBounds 0 { live := [], snap := [], seen := seen } }

/-- Where its third row is sent, and with what: the gate table and the biases read as zero. -/
def scored : Scored :=
  scoreRow row2.routeK row2.routeFb
    ((List.range row2.routeE).map fun x => logit
      (bf16Vals row2.routeD (Sparse.getRun ((routed []).cell.store 1) (0 + 2 * row2.routeD * row2.next) (2 * row2.routeD)))
      (bf16Vals row2.routeD (Sparse.getRun (routed []).mem
        (0xF000000000000 + (row2.routeHub - 24) * 0x800000 + row2.routeGoff + 2 * (x * row2.routeD)) (2 * row2.routeD))))
    ((List.range row2.routeE).map fun x => BitVec.ofNat 32 (Memory.readLE (routed []).mem (0x20400 + 4 * x) 4))

theorem row_outputs_are_on_the_page : ∀ o, o ∈ row2.routeOutputs row2.next scored →
    ∃ p, OutputPage (routed []) (canon o.1) (if o.2.1.isSome = true then .both else .write) 8 p := by
  intro o h
  have e : row2.routeOutputs row2.next scored =
      [(0x10808, some 2, 0), (0x10818, some 2, 0), (0x11420, none, 0x3F000000), (0x11428, none, 0x13F000000)] := by
    decide +kernel
  rw [e] at h
  simp only [List.mem_cons, List.not_mem_nil, or_false] at h
  rcases h with rfl | rfl | rfl | rfl <;> exact ⟨pageAt user 0x9E 0 0, by constructor <;> decide +kernel⟩

/-- A table at 0x40000 whose queue 1023 has a ring of 16 packets at 0x30000, key 5, device 7 in its list, HEAD 0 and a TAIL. -/
def tabled (tail : Nat) : State :=
  let s := mapped user 0x2003F
  { s with
    mem := bytesOfWord 0x4FFC0 0x30000 ++ bytesOfWord 0x4FFC8 0x500000804 ++ bytesOfWord 0x4FFD0 1 ++ bytesOfWord 0x4FFD8 (2 ^ 32 * tail) ++
      bytesOfWord 0x4FFE8 0x80003807 ++ s.mem
    mgr := { s.mgr with qtable := some 0x40000, root := 0x100000005, cellmap := Vector.replicate 28 3 } }

/-- The same table, whose ring no page maps. -/
def bare : State :=
  { tabled 1 with
    mem := bytesOfWord 0x4FFC8 0x804 ++ bytesOfWord 0x4FFD8 (2 ^ 32) }

/-- What stands at the ring's first packet, and at the record 128 bytes after it. -/
def packed (s : State) (w0 : Nat) (rec : List Nat) : State :=
  { s with mem := bytesOfWord 0x20000 w0 ++ (List.range rec.length).flatMap (fun i => bytesOfWord (0x20080 + 8 * i) (rec[i]?.getD 0)) ++ s.mem }

/-- A window to module 7 at 0x40000. -/
def windowed (s : State) : State := { s with mem := s.mem ++ bytesOfWord 0x140040 0x4000000002003F ++ bytesOfWord 0x140048 7 }

/-- Port 3 leads to module 7 and carries key 5. -/
def linked (s : State) : State :=
  { s with fab := { s.fab with
    routes := putRoutes [] [(28, 0x403)], members := [(3, 5), (3, 6)], ports := Vector.replicate 36 { Port.reset with up := true } } }

/-- A page table has no page. -/
theorem noPage {x : Option Page} (h : x = none) {P : Page → Prop} : ∀ p, x = some p → P p := fun _ hp => nomatch h.symm.trans hp

/-- A notify of queue 1023 from inside the module. -/
def notify (v : Nat) : Req :=
  { ask (.store (bytesAt (0xF000100000000 + 8 * 1023) 8 v)) 15 .none with pa := 0xF000100000000 + 8 * 1023 }

/-- The same of module 7 with a key. -/
def peerNotify (k v : Nat) : Req := { notify v with origin := .module 7 3, key := k }

/-- Queue 1023 has a slot. -/
def slotted (s : State) : State :=
  { s with lq := { s.lq with slots := (List.replicate 31 none) ++ [some (1023, 0)] } }

/-- A scene of queue 1023 with one troupe of one cell to place on die 0. -/
def scene : Scene :=
  { queue := 1023, index := 0, packet := [], record := [0x100000000000000, 1, 0, 0, 0x1000000, 1, 0, 0], templ := [], ext := [1]
    walk := some [(0, true)], since := 0, placed := 0, dropped := 0, status := 0, fcell := 0, fcause := 0, late := false, release := 0
    lastDie := 23, sent := none }

/-- A scene under way. -/
def sceneOn (s : State) (x : Scene) : State := { s with lq := { s.lq with scenes := [x] } }

/-- The cell's troupe. -/
def troupe : Troupe := { queue := 1023, index := 0, cells := [0], first := 0, wdog := 1, done := [], away := false }

/-- A watch report. -/
def report : Report := { addr := 1, mask := 3, kind := 1, queue := 3, src := 0, scell := 1, id := 2, at' := 0 }

/-- A request of module 7 that arrives at port 3 with a key and a number. -/
def arriving (key seq : Nat) : Ingress :=
  { dev := 7, cell := 0, cls := 0, key := key, seq := seq, port := 3, hub := 24, op := .load 8, pa := 0x20000, pc := 0, queue := 15, entry := 0
    casid := none, void := false }

/-- It arrives where that module's next number is 2. -/
def arrived (s : State) (g : Ingress) : State :=
  let t := linked s
  { t with fab := { t.fab with expect := [(7, 0, 0, 2)] }, inp := { t.inp with ingress := [g] } }

/-- A packet of module 7 to itself, by port 3. -/
def passing (key : Nat) : Transit := { dev := 7, goal := 7, port := 3, cls := 0, key := key, flits := 2, reply := false }

/-- A flit for module 7. -/
def flit : Flits := { n := 1, cls := 0, dev := 7, id := none, own := false }

/-- A request leaves for another module. -/
def leaving (s : State) (r : Req) : State := { s with fab := { s.fab with out := [r] } }

/-- Port 35. -/
def ported (s : State) (p : Port) : State :=
  { s with actq := 35, fab := { s.fab with ports := s.fab.ports.setIfInBounds 35 p } }

/-- The inputs as `f` makes them. -/
def input (s : State) (f : Inputs → Inputs) : State := { s with inp := f s.inp }

/-- The stage manager as `f` makes it. -/
def manager (s : State) (f : Manager → Manager) : State := { s with mgr := f s.mgr }

/-- Bring-up is in its fourth phase, with port 0 trained, a number and the neighbours found. -/
def trained (dev : Word) (found : List (Nat × Nat)) : State :=
  manager (input user fun x => { x with phasesDone := 1, devid := dev, cabled := found }) fun x =>
    { x with phase := 3, portmap := x.portmap.setIfInBounds 24 1 }

/-- Only port 0 is trained, and its neighbour is the one the graph gives. -/
theorem cabled_one {s : State} {g n : Nat}
    (h : field s.inp.devid 0 11 < (if g = 0 then 1057 else 273) ∧ (∀ i, i < 36 → PortTrained s i = true → i = 0) ∧
      (cabling g (field s.inp.devid 0 11))[0]? = some n ∧ (0, n) ∈ s.inp.cabled) : Cabled s g :=
  ⟨h.1, fun i hi ht => by
    obtain rfl := h.2.1 i hi ht
    exact ⟨n, h.2.2⟩⟩

/-- No neighbour has the number. -/
theorem not_found {l : List (Nat × Nat)} {d : Nat} (h : l.all (fun x => x.2 != d) = true) : ∀ j, (j, d) ∉ l :=
  fun _ hj => by simpa using List.all_eq_true.mp h _ hj

/-- A page of this module takes no place among the accesses of another. -/
theorem room_here {s : State} {p : Page} {w : Bool} {n : Nat} (h : farOf s p w = none) : Room s p w n :=
  fun _ hd => absurd (h.symm.trans hd) nofun

/-- No latch holds lanes out of line. -/
theorem alignedLatches {s : State}
    (h : s.core.inflight.all (fun l => match l.target with | .vec off _ _ => off % 256 == 0 | _ => true) = true) :
    AlignedLatches s := fun l hl off lanes data ht => by
  have := List.all_eq_true.mp h l hl
  rw [ht] at this
  exact beq_iff_eq.mp this

/-- The accumulate port is open, and no drain runs. -/
theorem accumulateOpen {s : State}
    (h : s.portOpen 1 2 = true ∧ s.running.all (fun e => match e.op with | .mdrain _ false _ => e.fin.isSome | _ => true) = true) :
    AccumulateOpen s := ⟨h.1, fun e he c m ho => by
  have := List.all_eq_true.mp h.2 e he
  rw [ho] at this
  exact this⟩

/-- The head of a queue may start once these hold. -/
theorem mayBegin {s : State} {v : Queue} {last : EWord} (head : AtHead s v last last)
    (h : v.inChain = false ∧ (v.run.all fun e => !Instr.isControl e.op) = true ∧
      (v.chainEntry = none ∧ ∀ e ∈ s.cell.chained, e.queue ≠ s.actq) ∧
      (s.actq = 0 → v.run = [] ∧ s.cell.chained = [] ∧ (∀ e, e ∈ s.running → Instr.isMatrix e.op = false) ∧
        s.matrixFaulted = false) ∧
      (v.gateWait = 0 ∧ s.gated s.actq = false) ∧
      (s.actq = 0 ∨ (s.running.filter fun e => slotOf e.queue == slotOf s.actq && !Instr.isMatrix e.op).length <
        (if s.actq ≤ 8 then 256 else 64))) : MayBegin s v last :=
  ⟨head, h.1, fun e he => by simpa using List.all_eq_true.mp h.2.1 e he, h.2.2.1, h.2.2.2.1, h.2.2.2.2.1, h.2.2.2.2.2⟩

/-! ### Hypotheses that are met -/

/-- States that meet the hypotheses of TransferResults. -/
theorem witness_transfer_results :
    ∃ i : Instr, ∃ s : State, ∃ x : Jump, transfer i = some x ∧ i.wellFormed = true ∧ Usable s (x.srcs ++ [x.dst]) :=
  ⟨.callr 5 true, user, _, rfl, by decide +kernel, by unfold Usable; decide +kernel⟩

/-- States that meet the hypotheses of RegistersAreWaitedFor. -/
theorem witness_registers_are_waited_for :
    (∃ d a b : BitVec 5, ∃ s : State, (s.emptyG a.toNat = true ∨ s.emptyG b.toNat = true ∨ s.emptyG d.toNat = true)) ∧
    (∃ d a b : BitVec 5, ∃ s : State, Usable s [a.toNat, b.toNat] ∧ s.emptyG d.toNat = false ∧ s.lateG d.toNat = true) :=
  ⟨⟨3, 5, 4, emptied user 5, by decide +kernel⟩,
   ⟨3, 5, 4, late user 3, by unfold Usable; decide +kernel, by decide +kernel⟩⟩

/-- States that meet the hypotheses of EmptySourceTraps. -/
theorem witness_empty_source_traps :
    ∃ a : BitVec 5, ∃ s : State, EntersAtOnce s ∧ s.emptyG a.toNat = true :=
  ⟨5, emptied user 5, by unfold EntersAtOnce Arrived; decide +kernel, by decide +kernel⟩

/-- States that meet the hypotheses of LateSources. -/
theorem witness_late_sources :
    (∃ d a : BitVec 5, ∃ s : State, s.emptyG a.toNat = false ∧ s.emptyG d.toNat = false ∧ s.lateG a.toNat = true ∧
    s.latmode = false) ∧
    (∃ d a : BitVec 5, ∃ s : State, s.emptyG a.toNat = false ∧ s.emptyG d.toNat = false ∧ s.lateG a.toNat = true ∧
    s.latmode = true ∧ EntersAtOnce s) :=
  ⟨⟨3, 5, late user 5, by decide +kernel⟩,
   ⟨3, 5, csr (late user 5) 1 0x10, by decide +kernel, by decide +kernel, by decide +kernel, by decide +kernel,
   by unfold EntersAtOnce Arrived; decide +kernel⟩⟩

/-- States that meet the hypotheses of ShapeReads. -/
theorem witness_shape_reads :
    ∃ i : Instr, ∃ s : State, ∃ r : Row, shapeRead i = some r ∧ i.wellFormed = true ∧ Usable s [r.dst] :=
  ⟨.zget 3 15, user, _, rfl, by decide +kernel, by unfold Usable; decide +kernel⟩

/-- States that meet the hypotheses of ShapeWrites. -/
theorem witness_shape_writes :
    (∃ d a : BitVec 5, ∃ s : State, Usable s [a.toNat] ∧ d.toNat < 16 ∧ (s.g a.toNat).toNat < 2 ^ 32 ∧ s.core.zOld = none
    ∧ s.zpend d.toNat = 0) ∧
    (∃ d a : BitVec 5, ∃ s : State, Usable s [a.toNat] ∧ d.toNat < 16 ∧ (s.g a.toNat).toNat < 2 ^ 32 ∧ s.core.zOld = none
    ∧ s.zpend d.toNat ≠ 0) ∧
    (∃ d a : BitVec 5, ∃ s : State, Usable s [a.toNat] ∧ d.toNat < 16 ∧ 2 ^ 32 ≤ (s.g a.toNat).toNat ∧ EntersAtOnce s) ∧
    (∃ d a : BitVec 5, ∃ s : State, Usable s [a.toNat] ∧ 16 ≤ d.toNat ∧ EntersAtOnce s) :=
  ⟨⟨15, 5, user, by unfold Usable; decide +kernel, by decide +kernel⟩,
   ⟨15, 5, { user with core := { user.core with zpend := user.core.zpend.setIfInBounds 15 1 } },
   by unfold Usable; decide +kernel, by decide +kernel⟩,
   ⟨15, 5, put user 5 0x100000000, by unfold Usable; decide +kernel, by decide +kernel, by decide +kernel,
   by unfold EntersAtOnce Arrived; decide +kernel⟩,
   ⟨16, 5, user, by unfold Usable; decide +kernel, by decide +kernel, by unfold EntersAtOnce Arrived; decide +kernel⟩⟩

/-- States that meet the hypotheses of TrapEntry. -/
theorem witness_trap_entry :
    ∃ s : State, EntersAtOnce s :=
  ⟨sup, by unfold EntersAtOnce Arrived; decide +kernel⟩

/-- States that meet the hypotheses of TrapWaits. -/
theorem witness_trap_waits :
    ∃ s : State, (s.system && s.held) = false ∧ (¬ Arrived s s.clk) :=
  ⟨core (late user 5) fun x => { x with inflight := x.inflight.map fun l => { l with arrive := 20 } }, by decide +kernel,
  by unfold Arrived; decide +kernel⟩

/-- States that meet the hypotheses of DoubleTrap. -/
theorem witness_double_trap :
    ∃ s : State, s.system = true ∧ s.held = true :=
  ⟨csr sup 0x040 3, by decide +kernel⟩

/-- States that meet the hypotheses of SystemCalls. -/
theorem witness_system_calls :
    ∃ s : State, EntersAtOnce s :=
  ⟨user, by unfold EntersAtOnce Arrived; decide +kernel⟩

/-- States that meet the hypotheses of TrapReturn. -/
theorem witness_trap_return :
    ∃ s : State, s.system = true ∧ (s.readCsr 0x040).getLsbD 0 = true ∧ (∀ j, j < s.nlat → s.latchBad j = false ∧
    s.latchLent j = false) :=
  ⟨csr sup 0x040 3, by decide +kernel⟩

/-- States that meet the hypotheses of TrapReturnRefused. -/
theorem witness_trap_return_refused :
    (∃ s : State, s.system = false ∧ EntersAtOnce s) ∧
    (∃ s : State, s.system = true ∧ ((s.readCsr 0x040).getLsbD 0 = false ∨ (∃ j, j < s.nlat ∧ (s.latchBad j = true ∨
    s.latchLent j = true)))) :=
  ⟨⟨user, by decide +kernel, by unfold EntersAtOnce Arrived; decide +kernel⟩,
   ⟨sup, by decide +kernel⟩⟩

/-- States that meet the hypotheses of InterruptEnable. -/
theorem witness_interrupt_enable :
    (∃ s : State, s.system = true) ∧
    (∃ s : State, s.system = false ∧ EntersAtOnce s) :=
  ⟨⟨sup, by decide +kernel⟩,
   ⟨user, by decide +kernel, by unfold EntersAtOnce Arrived; decide +kernel⟩⟩

/-- States that meet the hypotheses of WaitForInterrupt. -/
theorem witness_wait_for_interrupt :
    (∃ s : State, ((∃ i, i < 4 ∧ (s.readCsr 0x100).getLsbD (16 + i) = true ∧ (s.readCsr 0x100).getLsbD (8 + i) = true) ∨
    s.inp.halt = true ∨ s.inp.preempt = true)) ∧
    (∃ s : State, (∀ i, i < 4 → (s.readCsr 0x100).getLsbD (16 + i) = false ∨ (s.readCsr 0x100).getLsbD (8 + i) = false) ∧
    s.inp.halt = false ∧ s.inp.preempt = false) :=
  ⟨⟨csr user 0x100 0x80800, Or.inl (by decide +kernel)⟩,
   ⟨user, by decide +kernel⟩⟩

/-- States that meet the hypotheses of CsrAccess. -/
theorem witness_csr_access :
    ∃ i : Instr, ∃ s : State, ∃ d a n : Nat, ∃ f : Word → Word → Option Word, ∃ w : Word, csrForm i = some (d, a, n, f) ∧
    i.wellFormed = true ∧ (n, w) ∈ plainCsrs ∧ s.system = true ∧ Usable s [a, d] :=
  ⟨.csrx 3 5 0x104, sup, _, _, _, _, 3, rfl, by decide +kernel, by decide +kernel, by decide +kernel,
  by unfold Usable; decide +kernel⟩

/-- States that meet the hypotheses of CsrPermission. -/
theorem witness_csr_permission :
    (∃ i : Instr, ∃ s : State, ∃ d a n : Nat, ∃ f : Word → Word → Option Word, csrForm i = some (d, a, n, f) ∧
    i.wellFormed = true ∧ (0x053 ≤ n ∧ n ≤ 0x07F ∨ 0x107 ≤ n ∧ n ≤ 0x11F) ∧ EntersAtOnce s) ∧
    (∃ i : Instr, ∃ s : State, ∃ d a n : Nat, ∃ f : Word → Word → Option Word, csrForm i = some (d, a, n, f) ∧
    i.wellFormed = true ∧ s.system = false ∧ EntersAtOnce s ∧ (0x040 ≤ n ∧ n ≤ 0x046 ∨ 0x048 ≤ n ∧ n ≤ 0x052 ∨ 0x100 ≤ n ∧
    n ≤ 0x106)) ∧
    (∃ i : Instr, ∃ s : State, ∃ d a n : Nat, ∃ f : Word → Word → Option Word, csrForm i = some (d, a, n, f) ∧
    i.wellFormed = true ∧ s.system = false ∧ Usable s [a, d] ∧ (n = 0x000 ∨ n = 0x013 ∨ n = 0x014 ∨ n = 0x047)) :=
  ⟨⟨.csrw 3 5 0x107, user, _, _, _, _, rfl, by decide +kernel, by decide +kernel,
   by unfold EntersAtOnce Arrived; decide +kernel⟩,
   ⟨.csrr 3 0x106, user, _, _, _, _, rfl, by decide +kernel, by decide +kernel,
   by unfold EntersAtOnce Arrived; decide +kernel, by decide +kernel⟩,
   ⟨.csrs 3 5 0x047, user, _, _, _, _, rfl, by decide +kernel, by decide +kernel, by unfold Usable; decide +kernel,
   by decide +kernel⟩⟩

/-- States that meet the hypotheses of MemoryOperands. -/
theorem witness_memory_operands :
    (∃ s : State, ∃ m : MemArg, ∃ sc : Scale, ∃ step w : Word, step = (if sc = .b256 then signedImm ⟨m.off.setWidth 8,
    m.hi⟩ else signedImm ⟨m.off, m.hi⟩) * BitVec.ofNat 64 sc.bytes ∧ w = (s.core.m[m.mreg.toNat]?).getD 0 ∧ m.mode = 0) ∧
    (∃ s : State, ∃ m : MemArg, ∃ sc : Scale, ∃ step w : Word, step = (if sc = .b256 then signedImm ⟨m.off.setWidth 8,
    m.hi⟩ else signedImm ⟨m.off, m.hi⟩) * BitVec.ofNat 64 sc.bytes ∧ w = (s.core.m[m.mreg.toNat]?).getD 0 ∧ m.mode = 1) ∧
    (∃ s : State, ∃ m : MemArg, ∃ sc : Scale, ∃ step w : Word, step = (if sc = .b256 then signedImm ⟨m.off.setWidth 8,
    m.hi⟩ else signedImm ⟨m.off, m.hi⟩) * BitVec.ofNat 64 sc.bytes ∧ w = (s.core.m[m.mreg.toNat]?).getD 0 ∧ m.mode = 2) ∧
    (∃ s : State, ∃ m : MemArg, ∃ sc : Scale, ∃ step w : Word, step = (if sc = .b256 then signedImm ⟨m.off.setWidth 8,
    m.hi⟩ else signedImm ⟨m.off, m.hi⟩) * BitVec.ofNat 64 sc.bytes ∧ w = (s.core.m[m.mreg.toNat]?).getD 0 ∧ m.mode = 3) :=
  ⟨⟨user, arg, .b256, _, _, rfl, rfl, by decide +kernel⟩,
   ⟨user, { arg with mode := 1 }, .b256, _, _, rfl, rfl, by decide +kernel⟩,
   ⟨user, { arg with mode := 2, sp := 0 }, .b256, _, _, rfl, rfl, by decide +kernel⟩,
   ⟨user, { arg with mode := 3 }, .b8, _, _, rfl, rfl, by decide +kernel⟩⟩

/-- States that meet the hypotheses of LoadFromStore. -/
theorem witness_load_from_store :
    ∃ i : Instr, ∃ s : State, ∃ n d : Nat, ∃ m : MemArg, ∃ od : Option Ord, ∃ va : Word, scalarLoad i = some (n, d, m, od)
    ∧ i.wellFormed = true ∧ m.sp ≠ 3 ∧ AccessOpen s ∧ Usable s (operandRegs m d) ∧ va = s.address m (scaleOf n) ∧ va.toNat
    % n = 0 ∧ InStore s 0 va n :=
  ⟨.ld 5 { arg with sp := 0 } none, put user 2 0x1FFFF8, _, _, _, _, _, rfl, by decide +kernel, by decide +kernel,
  by refine ⟨by constructor <;> decide +kernel, ?_, ?_, ?_⟩ <;> decide +kernel, by unfold Usable; decide +kernel, rfl,
  by decide +kernel, by unfold InStore; decide +kernel⟩

/-- States that meet the hypotheses of LoadFromPage. -/
theorem witness_load_from_page :
    ∃ i : Instr, ∃ s : State, ∃ n d : Nat, ∃ m : MemArg, ∃ od : Option Ord, ∃ va : Word, ∃ p : Page, scalarLoad i = some
    (n, d, m, od) ∧ i.wellFormed = true ∧ m.sp = 3 ∧ AccessOpen s ∧ Usable s (operandRegs m d) ∧ va = s.address m (scaleOf
    n) ∧ va.toNat % n = 0 ∧ OnPage s va .read n p ∧ (p.fmt = 0 ∨ p.fmt = 3) ∧ p.coll ≠ 3 ∧ Room s p false 1 :=
  ⟨.ldw 5 arg (some { order := 1, scope := 2, ford := 0 }), put (flat user) 2 0x1FFFC, _, _, _, _, _,
  pageAt user 0x9E 0 0, rfl, by decide +kernel, by decide +kernel,
  by refine ⟨by constructor <;> decide +kernel, ?_, ?_, ?_⟩ <;> decide +kernel, by unfold Usable; decide +kernel, rfl,
  by decide +kernel, by constructor <;> decide +kernel, by decide +kernel, by decide +kernel,
  room_here (by decide +kernel)⟩

/-- States that meet the hypotheses of WindowAccess. -/
theorem witness_window_access :
    (∃ i : Instr, ∃ s : State, ∃ n d : Nat, ∃ m : MemArg, ∃ od : Option Ord, ∃ va : Word, ∃ op : ReqOp, ∃ acq : Bool,
    (scalarLoad i = some (n, d, m, od) ∧ op = .load n ∧ acq = isAcquire od ∨ scalarStore i = some (n, d, m, od) ∧ acq =
    false ∧ op = .store ((List.range n).map fun j => (windowPlace va + j, BitVec.ofNat 8 ((s.g d).toNat / 256 ^ j)))) ∧
    i.wellFormed = true ∧ m.sp = 3 ∧ va = s.address m (scaleOf n) ∧ inWindow va = true ∧ s.core.win = .none ∧ AccessOpen s
    ∧ Usable s (operandRegs m d) ∧ s.fencesOpen = true ∧ Released s od ∧ Unwatched s ∧ va.toNat % n = 0 ∧ InUsableWindow s
    va n) ∧
    (∃ i : Instr, ∃ s : State, ∃ n d : Nat, ∃ m : MemArg, ∃ od : Option Ord, ∃ va : Word, ∃ op : ReqOp, ∃ acq : Bool,
    (scalarLoad i = some (n, d, m, od) ∧ op = .load n ∧ acq = isAcquire od ∨ scalarStore i = some (n, d, m, od) ∧ acq =
    false ∧ op = .store ((List.range n).map fun j => (windowPlace va + j, BitVec.ofNat 8 ((s.g d).toNat / 256 ^ j)))) ∧
    i.wellFormed = true ∧ m.sp = 3 ∧ va = s.address m (scaleOf n) ∧ inWindow va = true ∧ s.core.win = .sent) ∧
    (∃ i : Instr, ∃ s : State, ∃ n d : Nat, ∃ m : MemArg, ∃ od : Option Ord, ∃ va : Word, ∃ op : ReqOp, ∃ acq : Bool, ∃ c,
    ∃ a, (scalarLoad i = some (n, d, m, od) ∧ op = .load n ∧ acq = isAcquire od ∨ scalarStore i = some (n, d, m, od) ∧ acq
    = false ∧ op = .store ((List.range n).map fun j => (windowPlace va + j, BitVec.ofNat 8 ((s.g d).toNat / 256 ^ j)))) ∧
    i.wellFormed = true ∧ m.sp = 3 ∧ va = s.address m (scaleOf n) ∧ inWindow va = true ∧ s.core.win = .refused c a ∧
    EntersAtOnce s) :=
  ⟨⟨.ld 5 arg none, put sup 2 0xFFFFF00000000000, _, _, _, _, _, _, _, Or.inl ⟨rfl, rfl, rfl⟩, by decide +kernel,
   by decide +kernel, rfl, by decide +kernel, by decide +kernel,
   by refine ⟨by constructor <;> decide +kernel, ?_, ?_, ?_⟩ <;> decide +kernel, by unfold Usable; decide +kernel,
   by decide +kernel, by unfold Released; decide +kernel, by unfold Unwatched; decide +kernel, by decide +kernel,
   by constructor <;> decide +kernel⟩,
   ⟨.stw 5 arg none, put (core sup fun x => { x with win := .sent }) 2 0xFFFFF00000000000, _, _, _, _, _, _, _,
   Or.inr ⟨rfl, rfl, rfl⟩, by decide +kernel, by decide +kernel, rfl, by decide +kernel⟩,
   ⟨.ld 5 arg none, put (core sup fun x => { x with win := .refused 5 9 }) 2 0xFFFFF00000000000, _, _, _, _, _, _, _, _,
   _, Or.inl ⟨rfl, rfl, rfl⟩, by decide +kernel, by decide +kernel, rfl, by decide +kernel, rfl,
   by unfold EntersAtOnce Arrived; decide +kernel⟩⟩

/-- States that meet the hypotheses of LoadFromWindow. -/
theorem witness_load_from_window :
    ∃ i : Instr, ∃ s : State, ∃ n d : Nat, ∃ m : MemArg, ∃ od : Option Ord, ∃ bs : List Byte, ∃ ls : List Lane, scalarLoad
    i = some (n, d, m, od) ∧ i.wellFormed = true ∧ m.sp = 3 ∧ inWindow (s.address m (scaleOf n)) = true ∧ s.core.win =
    .done bs ls :=
  ⟨.ld 5 arg none, put (core sup fun x => { x with win := .done [1, 2, 3, 4, 5, 6, 7, 8] [] }) 2 0xFFFFF00000000000, _, _,
  _, _, _, _, rfl, by decide +kernel, by decide +kernel, by decide +kernel, rfl⟩

/-- States that meet the hypotheses of AccessFaults. -/
theorem witness_access_faults :
    (∃ i : Instr, ∃ s : State, ∃ n d : Nat, ∃ m : MemArg, ∃ od : Option Ord, ∃ va : Word, ∃ acc : Access, (scalarLoad i =
    some (n, d, m, od) ∧ acc = .read ∨ scalarStore i = some (n, d, m, od) ∧ acc = .write) ∧ i.wellFormed = true ∧
    AccessOpen s ∧ Usable s (operandRegs m d) ∧ va = s.address m (scaleOf n) ∧ EntersAtOnce s ∧ va.toNat % n ≠ 0) ∧
    (∃ i : Instr, ∃ s : State, ∃ n d : Nat, ∃ m : MemArg, ∃ od : Option Ord, ∃ va : Word, ∃ acc : Access, (scalarLoad i =
    some (n, d, m, od) ∧ acc = .read ∨ scalarStore i = some (n, d, m, od) ∧ acc = .write) ∧ i.wellFormed = true ∧
    AccessOpen s ∧ Usable s (operandRegs m d) ∧ va = s.address m (scaleOf n) ∧ EntersAtOnce s ∧ va.toNat % n = 0 ∧ m.sp ≠
    3 ∧ 0x200000 < va.toNat + n) ∧
    (∃ i : Instr, ∃ s : State, ∃ n d : Nat, ∃ m : MemArg, ∃ od : Option Ord, ∃ va : Word, ∃ acc : Access, (scalarLoad i =
    some (n, d, m, od) ∧ acc = .read ∨ scalarStore i = some (n, d, m, od) ∧ acc = .write) ∧ i.wellFormed = true ∧
    AccessOpen s ∧ Usable s (operandRegs m d) ∧ va = s.address m (scaleOf n) ∧ va.toNat % n = 0 ∧ m.sp = 3 ∧ inWindow va =
    false ∧ (va.setWidth 56).signExtend 64 = va ∧ s.core.walkFault = [] ∧ s.cached va = none) ∧
    (∃ i : Instr, ∃ s : State, ∃ n d : Nat, ∃ m : MemArg, ∃ od : Option Ord, ∃ va : Word, ∃ acc : Access, ∃ p, (scalarLoad
    i = some (n, d, m, od) ∧ acc = .read ∨ scalarStore i = some (n, d, m, od) ∧ acc = .write) ∧ i.wellFormed = true ∧
    AccessOpen s ∧ Usable s (operandRegs m d) ∧ va = s.address m (scaleOf n) ∧ EntersAtOnce s ∧ va.toNat % n = 0 ∧ m.sp =
    3 ∧ inWindow va = false ∧ (va.setWidth 56).signExtend 64 = va ∧ s.core.walkFault = [] ∧ s.cached va = some p ∧ (acc =
    .write → p.w0.getLsbD 7 = true) ∧ permitted p.w0 acc s.system s.ux = false ∧ va56 va + n ≤ p.base + p.size) :=
  ⟨⟨.st 5 { arg with sp := 0 } none, put user 2 0x1FFFFC, 8, 5, { arg with sp := 0 }, none, _, .write, by decide +kernel,
   by decide +kernel, by refine ⟨by constructor <;> decide +kernel, ?_, ?_, ?_⟩ <;> decide +kernel,
   by unfold Usable; decide +kernel, rfl, by unfold EntersAtOnce Arrived; decide +kernel, by decide +kernel⟩,
   ⟨.st 5 { arg with sp := 0 } none, put user 2 0x200000, 8, 5, { arg with sp := 0 }, none, _, .write, by decide +kernel,
   by decide +kernel, by refine ⟨by constructor <;> decide +kernel, ?_, ?_, ?_⟩ <;> decide +kernel,
   by unfold Usable; decide +kernel, rfl, by unfold EntersAtOnce Arrived; decide +kernel, by decide +kernel⟩,
   ⟨.ld 5 arg none, put user 2 0x10000, 8, 5, arg, none, _, .read, by decide +kernel, by decide +kernel,
   by refine ⟨by constructor <;> decide +kernel, ?_, ?_, ?_⟩ <;> decide +kernel, by unfold Usable; decide +kernel, rfl,
   by decide +kernel⟩,
   ⟨.ld 5 arg none, put (paged user 0x9A 0 0) 2 0x10000, 8, 5, arg, none, _, .read, pageAt user 0x9A 0 0,
   by decide +kernel, by decide +kernel, by refine ⟨by constructor <;> decide +kernel, ?_, ?_, ?_⟩ <;> decide +kernel,
   by unfold Usable; decide +kernel, rfl, by unfold EntersAtOnce Arrived; decide +kernel, by decide +kernel⟩⟩

/-- States that meet the hypotheses of StoreToStore. -/
theorem witness_store_to_store :
    ∃ i : Instr, ∃ s : State, ∃ n d : Nat, ∃ m : MemArg, ∃ od : Option Ord, ∃ va : Word, scalarStore i = some (n, d, m,
    od) ∧ i.wellFormed = true ∧ m.sp ≠ 3 ∧ AccessOpen s ∧ Usable s (operandRegs m d) ∧ Writable s od ∧ va = s.address m
    (scaleOf n) ∧ va.toNat % n = 0 ∧ va.toNat + n ≤ 0x200000 :=
  ⟨.stw 5 { arg with sp := 0 } (some { order := 2, scope := 1, ford := 0 }), put user 2 0x1FFFFC, _, _, _, _, _, rfl,
  by decide +kernel, by decide +kernel, by refine ⟨by constructor <;> decide +kernel, ?_, ?_, ?_⟩ <;> decide +kernel,
  by unfold Usable; decide +kernel, by unfold Writable Released; decide +kernel, rfl, by decide +kernel⟩

/-- States that meet the hypotheses of StoreToPage. -/
theorem witness_store_to_page :
    ∃ i : Instr, ∃ s : State, ∃ n d : Nat, ∃ m : MemArg, ∃ od : Option Ord, ∃ va : Word, ∃ p : Page, scalarStore i = some
    (n, d, m, od) ∧ i.wellFormed = true ∧ m.sp = 3 ∧ AccessOpen s ∧ Usable s (operandRegs m d) ∧ Writable s od ∧ Unwatched
    s ∧ va = s.address m (scaleOf n) ∧ va.toNat % n = 0 ∧ OnPage s va .write n p ∧ (p.fmt = 0 ∨ p.fmt = 3) ∧ p.coll ≠ 3 ∧
    Room s p true 1 :=
  ⟨.st 5 arg none, put (flat user) 2 0x1FFF8, _, _, _, _, _, pageAt user 0x9E 0 0, rfl, by decide +kernel,
  by decide +kernel, by refine ⟨by constructor <;> decide +kernel, ?_, ?_, ?_⟩ <;> decide +kernel,
  by unfold Usable; decide +kernel, by unfold Writable Released; decide +kernel, by unfold Unwatched; decide +kernel, rfl,
  by decide +kernel, by constructor <;> decide +kernel, by decide +kernel, by decide +kernel,
  room_here (by decide +kernel)⟩

/-- States that meet the hypotheses of StoreToWindow. -/
theorem witness_store_to_window :
    ∃ i : Instr, ∃ s : State, ∃ n d : Nat, ∃ m : MemArg, ∃ od : Option Ord, ∃ bs : List Byte, ∃ ls : List Lane,
    scalarStore i = some (n, d, m, od) ∧ i.wellFormed = true ∧ m.sp = 3 ∧ inWindow (s.address m (scaleOf n)) = true ∧
    s.core.win = .done bs ls :=
  ⟨.stw 5 arg none, put (core sup fun x => { x with win := .done [] [] }) 2 0xFFFFF00000000000, _, _, _, _, _, _, rfl,
  by decide +kernel, by decide +kernel, by decide +kernel, rfl⟩

/-- States that meet the hypotheses of VectorLoad. -/
theorem witness_vector_load :
    (∃ s : State, ∃ d : BitVec 5, ∃ m : MemArg, ∃ od : Option Ord, ∃ va : Word, ∃ v : Nat, (Instr.vld d m od).wellFormed =
    true ∧ AccessOpen s ∧ Usable s (operandRegs m 0) ∧ va = s.address m .b256 ∧ v = d.toNat + (if m.off.getLsbD 8 then 32
    else 0) ∧ s.k = 0) ∧
    (∃ s : State, ∃ d : BitVec 5, ∃ m : MemArg, ∃ od : Option Ord, ∃ va : Word, ∃ v : Nat, (Instr.vld d m od).wellFormed =
    true ∧ AccessOpen s ∧ Usable s (operandRegs m 0) ∧ va = s.address m .b256 ∧ v = d.toNat + (if m.off.getLsbD 8 then 32
    else 0) ∧ s.k ≠ 0 ∧ LanesReady s v s.k ∧ LanesFree s v s.k ∧ m.sp ≠ 3 ∧ va.toNat % 64 = 0 ∧ InStore s m.sp.toNat va
    256) ∧
    (∃ s : State, ∃ d : BitVec 5, ∃ m : MemArg, ∃ od : Option Ord, ∃ va : Word, ∃ v : Nat, ∃ p, (Instr.vld d m
    od).wellFormed = true ∧ AccessOpen s ∧ Usable s (operandRegs m 0) ∧ va = s.address m .b256 ∧ v = d.toNat + (if
    m.off.getLsbD 8 then 32 else 0) ∧ s.k ≠ 0 ∧ LanesReady s v s.k ∧ LanesFree s v s.k ∧ m.sp = 3 ∧ p.fmt < 4 ∧ p.coll ≠ 3
    ∧ va.toNat % 64 = 0 ∧ OnPage s va .read (64 * elemSize p.fmt) p ∧ Room s p false 1) ∧
    (∃ s : State, ∃ d : BitVec 5, ∃ m : MemArg, ∃ od : Option Ord, ∃ va : Word, ∃ v : Nat, ∃ p, (Instr.vld d m
    od).wellFormed = true ∧ AccessOpen s ∧ Usable s (operandRegs m 0) ∧ va = s.address m .b256 ∧ v = d.toNat + (if
    m.off.getLsbD 8 then 32 else 0) ∧ s.k ≠ 0 ∧ LanesReady s v s.k ∧ LanesFree s v s.k ∧ m.sp = 3 ∧ NarrowReady s va p
    (narrowFoot p.fmt) false ∧ (p.fmt = 11 → s.hasLat2 = true) ∧ OnPage s va .read (narrowFoot p.fmt) p ∧ s.k =
    BitVec.allOnes 64 ∧ Room s p false 1 ∧ SlotsRead s) ∧
    (∃ s : State, ∃ d : BitVec 5, ∃ m : MemArg, ∃ od : Option Ord, ∃ va : Word, ∃ v : Nat, ∃ p, (Instr.vld d m
    od).wellFormed = true ∧ AccessOpen s ∧ Usable s (operandRegs m 0) ∧ va = s.address m .b256 ∧ v = d.toNat + (if
    m.off.getLsbD 8 then 32 else 0) ∧ s.k ≠ 0 ∧ LanesReady s v s.k ∧ LanesFree s v s.k ∧ m.sp = 3 ∧ NarrowReady s va p
    (narrowFoot p.fmt) false ∧ (p.fmt = 11 → s.hasLat2 = true) ∧ OnPage s va .read (narrowFoot p.fmt) p ∧ s.k =
    BitVec.allOnes 64 ∧ Room s p false 1 ∧ (¬ SlotsRead s)) :=
  ⟨⟨withK user 0, 8, arg, none, _, _, by decide +kernel,
   by refine ⟨by constructor <;> decide +kernel, ?_, ?_, ?_⟩ <;> decide +kernel, by unfold Usable; decide +kernel, rfl,
   rfl, by decide +kernel⟩,
   ⟨put (withK user 0x8000000000000001) 2 0x7FF00, 8, { arg with sp := 2, off := 0x100 }, none, _, _, by decide +kernel,
   by refine ⟨by constructor <;> decide +kernel, ?_, ?_, ?_⟩ <;> decide +kernel, by unfold Usable; decide +kernel, rfl,
   rfl, by decide +kernel, by unfold LanesReady; decide +kernel, by unfold LanesFree; decide +kernel, by decide +kernel,
   by decide +kernel, by unfold InStore; decide +kernel⟩,
   ⟨put (flat user) 2 0x1FF00, 8, arg, none, _, _, pageAt user 0x9E 0 0, by decide +kernel,
   by refine ⟨by constructor <;> decide +kernel, ?_, ?_, ?_⟩ <;> decide +kernel, by unfold Usable; decide +kernel, rfl,
   rfl, by decide +kernel, by unfold LanesReady; decide +kernel, by unfold LanesFree; decide +kernel, by decide +kernel,
   by decide +kernel, by decide +kernel, by decide +kernel, by constructor <;> decide +kernel,
   room_here (by decide +kernel)⟩,
   ⟨narrowed user 4, 8, arg, none, _, _, pageAt user 0x9E 4 0, by decide +kernel,
   by refine ⟨by constructor <;> decide +kernel, ?_, ?_, ?_⟩ <;> decide +kernel, by unfold Usable; decide +kernel, rfl,
   rfl, by decide +kernel, by unfold LanesReady; decide +kernel, by unfold LanesFree; decide +kernel, by decide +kernel,
   by constructor <;> decide +kernel, by decide +kernel, by constructor <;> decide +kernel, by decide +kernel,
   room_here (by decide +kernel), by unfold SlotsRead Answered; decide +kernel⟩,
   ⟨core (narrowed user 4) fun x => { x with readClk := [5] }, 8, arg, none, _, _, pageAt user 0x9E 4 0,
   by decide +kernel, by refine ⟨by constructor <;> decide +kernel, ?_, ?_, ?_⟩ <;> decide +kernel,
   by unfold Usable; decide +kernel, rfl, rfl, by decide +kernel, by unfold LanesReady; decide +kernel,
   by unfold LanesFree; decide +kernel, by decide +kernel, by constructor <;> decide +kernel, by decide +kernel,
   by constructor <;> decide +kernel, by decide +kernel, room_here (by decide +kernel),
   by unfold SlotsRead Answered; decide +kernel⟩⟩

/-- States that meet the hypotheses of VectorStore. -/
theorem witness_vector_store :
    (∃ s : State, ∃ d : BitVec 5, ∃ m : MemArg, ∃ od : Option Ord, ∃ va : Word, ∃ v : Nat, (Instr.vst d m od).wellFormed =
    true ∧ AccessOpen s ∧ Usable s (operandRegs m 0) ∧ Writable s od ∧ Unwatched s ∧ va = s.address m .b256 ∧ v = d.toNat
    + (if m.off.getLsbD 8 then 32 else 0) ∧ s.k = 0) ∧
    (∃ s : State, ∃ d : BitVec 5, ∃ m : MemArg, ∃ od : Option Ord, ∃ va : Word, ∃ v : Nat, (Instr.vst d m od).wellFormed =
    true ∧ AccessOpen s ∧ Usable s (operandRegs m 0) ∧ Writable s od ∧ Unwatched s ∧ va = s.address m .b256 ∧ v = d.toNat
    + (if m.off.getLsbD 8 then 32 else 0) ∧ s.k ≠ 0 ∧ LanesReady s v s.k ∧ m.sp ≠ 3 ∧ va.toNat % 64 = 0 ∧ va.toNat + 256 ≤
    storeSize m.sp.toNat) ∧
    (∃ s : State, ∃ d : BitVec 5, ∃ m : MemArg, ∃ od : Option Ord, ∃ va : Word, ∃ v : Nat, ∃ p, (Instr.vst d m
    od).wellFormed = true ∧ AccessOpen s ∧ Usable s (operandRegs m 0) ∧ Writable s od ∧ Unwatched s ∧ va = s.address m
    .b256 ∧ v = d.toNat + (if m.off.getLsbD 8 then 32 else 0) ∧ s.k ≠ 0 ∧ LanesReady s v s.k ∧ m.sp = 3 ∧ p.fmt < 4 ∧
    p.coll = 0 ∧ va.toNat % 64 = 0 ∧ OnPage s va .write (64 * elemSize p.fmt) p ∧ Room s p true 1) ∧
    (∃ s : State, ∃ d : BitVec 5, ∃ m : MemArg, ∃ od : Option Ord, ∃ va : Word, ∃ v : Nat, ∃ p, (Instr.vst d m
    od).wellFormed = true ∧ AccessOpen s ∧ Usable s (operandRegs m 0) ∧ Writable s od ∧ Unwatched s ∧ va = s.address m
    .b256 ∧ v = d.toNat + (if m.off.getLsbD 8 then 32 else 0) ∧ s.k ≠ 0 ∧ LanesReady s v s.k ∧ m.sp = 3 ∧ (p.fmt = 0 ∨
    p.fmt = 3) ∧ (p.coll = 1 ∨ p.coll = 2) ∧ va.toNat % 64 = 0 ∧ OnPage s va .write 256 p ∧ Room s p true (enabled
    s.k).length) ∧
    (∃ s : State, ∃ d : BitVec 5, ∃ m : MemArg, ∃ od : Option Ord, ∃ va : Word, ∃ v : Nat, ∃ p, (Instr.vst d m
    od).wellFormed = true ∧ AccessOpen s ∧ Usable s (operandRegs m 0) ∧ Writable s od ∧ Unwatched s ∧ va = s.address m
    .b256 ∧ v = d.toNat + (if m.off.getLsbD 8 then 32 else 0) ∧ s.k ≠ 0 ∧ LanesReady s v s.k ∧ m.sp = 3 ∧ p.fmt ≠ 11 ∧
    NarrowReady s va p (narrowFoot p.fmt) true ∧ OnPage s va .write (narrowFoot p.fmt) p ∧ s.k = BitVec.allOnes 64 ∧ Room
    s p true 1 ∧ SlotsRead s) ∧
    (∃ s : State, ∃ d : BitVec 5, ∃ m : MemArg, ∃ od : Option Ord, ∃ va : Word, ∃ v : Nat, ∃ p, (Instr.vst d m
    od).wellFormed = true ∧ AccessOpen s ∧ Usable s (operandRegs m 0) ∧ Writable s od ∧ Unwatched s ∧ va = s.address m
    .b256 ∧ v = d.toNat + (if m.off.getLsbD 8 then 32 else 0) ∧ s.k ≠ 0 ∧ LanesReady s v s.k ∧ m.sp = 3 ∧ p.fmt ≠ 11 ∧
    NarrowReady s va p (narrowFoot p.fmt) true ∧ OnPage s va .write (narrowFoot p.fmt) p ∧ s.k = BitVec.allOnes 64 ∧ Room
    s p true 1 ∧ (¬ SlotsRead s)) :=
  ⟨⟨withK user 0, 8, arg, none, _, _, by decide +kernel,
   by refine ⟨by constructor <;> decide +kernel, ?_, ?_, ?_⟩ <;> decide +kernel, by unfold Usable; decide +kernel,
   by unfold Writable Released; decide +kernel, by unfold Unwatched; decide +kernel, rfl, rfl, by decide +kernel⟩,
   ⟨put (withK user 1) 2 0xFFF00, 8, { arg with sp := 1 }, none, _, _, by decide +kernel,
   by refine ⟨by constructor <;> decide +kernel, ?_, ?_, ?_⟩ <;> decide +kernel, by unfold Usable; decide +kernel,
   by unfold Writable Released; decide +kernel, by unfold Unwatched; decide +kernel, rfl, rfl, by decide +kernel,
   by unfold LanesReady; decide +kernel, by decide +kernel⟩,
   ⟨put (flat user) 2 0x1FF00, 8, arg, none, _, _, pageAt user 0x9E 0 0, by decide +kernel,
   by refine ⟨by constructor <;> decide +kernel, ?_, ?_, ?_⟩ <;> decide +kernel, by unfold Usable; decide +kernel,
   by unfold Writable Released; decide +kernel, by unfold Unwatched; decide +kernel, rfl, rfl, by decide +kernel,
   by unfold LanesReady; decide +kernel, by decide +kernel, by decide +kernel, by decide +kernel, by decide +kernel,
   by constructor <;> decide +kernel, room_here (by decide +kernel)⟩,
   ⟨put (paged user 0x9E 0 0x400000000) 2 0x10000, 8, arg, none, _, _, pageAt user 0x9E 0 0x400000000, by decide +kernel,
   by refine ⟨by constructor <;> decide +kernel, ?_, ?_, ?_⟩ <;> decide +kernel, by unfold Usable; decide +kernel,
   by unfold Writable Released; decide +kernel, by unfold Unwatched; decide +kernel, rfl, rfl, by decide +kernel,
   by unfold LanesReady; decide +kernel, by decide +kernel, by decide +kernel, by decide +kernel, by decide +kernel,
   by constructor <;> decide +kernel, room_here (by decide +kernel)⟩,
   ⟨narrowed user 4, 8, arg, none, _, _, pageAt user 0x9E 4 0, by decide +kernel,
   by refine ⟨by constructor <;> decide +kernel, ?_, ?_, ?_⟩ <;> decide +kernel, by unfold Usable; decide +kernel,
   by unfold Writable Released; decide +kernel, by unfold Unwatched; decide +kernel, rfl, rfl, by decide +kernel,
   by unfold LanesReady; decide +kernel, by decide +kernel, by decide +kernel, by constructor <;> decide +kernel,
   by constructor <;> decide +kernel, by decide +kernel, room_here (by decide +kernel),
   by unfold SlotsRead Answered; decide +kernel⟩,
   ⟨core (narrowed user 4) fun x => { x with readClk := [5] }, 8, arg, none, _, _, pageAt user 0x9E 4 0,
   by decide +kernel, by refine ⟨by constructor <;> decide +kernel, ?_, ?_, ?_⟩ <;> decide +kernel,
   by unfold Usable; decide +kernel, by unfold Writable Released; decide +kernel, by unfold Unwatched; decide +kernel,
   rfl, rfl, by decide +kernel, by unfold LanesReady; decide +kernel, by decide +kernel, by decide +kernel,
   by constructor <;> decide +kernel, by constructor <;> decide +kernel, by decide +kernel, room_here (by decide +kernel),
   by unfold SlotsRead Answered; decide +kernel⟩⟩

/-- States that meet the hypotheses of OperandQueueLoad. -/
theorem witness_operand_queue_load :
    (∃ s : State, ∃ d : BitVec 5, ∃ m : MemArg, ∃ od : Option Ord, ∃ va : Word, ∃ rows : List OqRow, (Instr.oqld d m
    od).wellFormed = true ∧ AccessOpen s ∧ Usable s (operandRegs m 0) ∧ va = s.address m .b128 ∧ s.cell.oq[d.toNat]? =
    some rows ∧ va.toNat % 64 = 0 ∧ m.sp ≠ 3 ∧ InStore s m.sp.toNat va 128 ∧ rows.length < 64) ∧
    (∃ s : State, ∃ d : BitVec 5, ∃ m : MemArg, ∃ od : Option Ord, ∃ va : Word, ∃ rows : List OqRow, (Instr.oqld d m
    od).wellFormed = true ∧ AccessOpen s ∧ Usable s (operandRegs m 0) ∧ va = s.address m .b128 ∧ s.cell.oq[d.toNat]? =
    some rows ∧ va.toNat % 64 = 0 ∧ m.sp ≠ 3 ∧ InStore s m.sp.toNat va 128 ∧ 64 ≤ rows.length) ∧
    (∃ s : State, ∃ d : BitVec 5, ∃ m : MemArg, ∃ od : Option Ord, ∃ va : Word, ∃ rows : List OqRow, ∃ p, (Instr.oqld d m
    od).wellFormed = true ∧ AccessOpen s ∧ Usable s (operandRegs m 0) ∧ va = s.address m .b128 ∧ s.cell.oq[d.toNat]? =
    some rows ∧ va.toNat % 64 = 0 ∧ m.sp = 3 ∧ rows.length < 64 ∧ p.fmt < 4 ∧ p.coll ≠ 3 ∧ OnPage s va .read 128 p ∧ Room
    s p false 1) ∧
    (∃ s : State, ∃ d : BitVec 5, ∃ m : MemArg, ∃ od : Option Ord, ∃ va : Word, ∃ rows : List OqRow, ∃ p, (Instr.oqld d m
    od).wellFormed = true ∧ AccessOpen s ∧ Usable s (operandRegs m 0) ∧ va = s.address m .b128 ∧ s.cell.oq[d.toNat]? =
    some rows ∧ va.toNat % 64 = 0 ∧ m.sp = 3 ∧ rows.length < 64 ∧ NarrowReady s va p (rowFoot p.fmt) false ∧ SlotsRead s ∧
    (p.fmt = 11 → s.hasLat2 = true) ∧ OnPage s va .read (rowFoot p.fmt) p ∧ Room s p false 1) ∧
    (∃ s : State, ∃ d : BitVec 5, ∃ m : MemArg, ∃ od : Option Ord, ∃ va : Word, ∃ rows : List OqRow, (Instr.oqld d m
    od).wellFormed = true ∧ AccessOpen s ∧ Usable s (operandRegs m 0) ∧ va = s.address m .b128 ∧ s.cell.oq[d.toNat]? =
    some rows ∧ va.toNat % 64 = 0 ∧ m.sp = 3 ∧ inWindow va = true ∧ s.core.win = .none ∧ rows.length < 64 ∧ InUsableWindow
    s va 128) ∧
    (∃ s : State, ∃ d : BitVec 5, ∃ m : MemArg, ∃ od : Option Ord, ∃ va : Word, ∃ rows : List OqRow, ∃ bs, ∃ ls,
    (Instr.oqld d m od).wellFormed = true ∧ AccessOpen s ∧ Usable s (operandRegs m 0) ∧ va = s.address m .b128 ∧
    s.cell.oq[d.toNat]? = some rows ∧ va.toNat % 64 = 0 ∧ m.sp = 3 ∧ inWindow va = true ∧ s.core.win = .done bs ls) :=
  ⟨⟨put user 2 0xFFF80, 3, { arg with sp := 1 }, none, _, _, by decide +kernel,
   by refine ⟨by constructor <;> decide +kernel, ?_, ?_, ?_⟩ <;> decide +kernel, by unfold Usable; decide +kernel, rfl,
   rfl, by decide +kernel, by decide +kernel, by unfold InStore; decide +kernel, by decide +kernel⟩,
   ⟨{ user with cell := { user.cell with oq := Vector.replicate 4 (List.replicate 64 row) } }, 3, { arg with sp := 1 },
   none, _, _, by decide +kernel, by refine ⟨by constructor <;> decide +kernel, ?_, ?_, ?_⟩ <;> decide +kernel,
   by unfold Usable; decide +kernel, rfl, rfl, by decide +kernel, by decide +kernel, by unfold InStore; decide +kernel,
   by decide +kernel⟩,
   by refine ⟨put (flat user) 2 0x1FF80, 3, arg, none, _, _, pageAt user 0x9E 0 0, ?_,
   by refine ⟨by constructor <;> decide +kernel, ?_, ?_, ?_⟩ <;> decide +kernel, by unfold Usable; decide +kernel, rfl,
   rfl, ?_, ?_, ?_, ?_, ?_, by constructor <;> decide +kernel, room_here (by decide +kernel)⟩ <;> decide +kernel,
   ⟨narrowed user 4, 3, arg, none, _, _, pageAt user 0x9E 4 0, by decide +kernel,
   by refine ⟨by constructor <;> decide +kernel, ?_, ?_, ?_⟩ <;> decide +kernel, by unfold Usable; decide +kernel, rfl,
   rfl, by decide +kernel, by decide +kernel, by decide +kernel, by constructor <;> decide +kernel,
   by unfold SlotsRead Answered; decide +kernel, by decide +kernel, by constructor <;> decide +kernel,
   room_here (by decide +kernel)⟩,
   by refine ⟨put sup 2 0xFFFFF00000000000, 3, arg, none, _, _, ?_,
   by refine ⟨by constructor <;> decide +kernel, ?_, ?_, ?_⟩ <;> decide +kernel, by unfold Usable; decide +kernel, rfl,
   rfl, ?_, ?_, ?_, ?_, ?_, by constructor <;> decide +kernel⟩ <;> decide +kernel,
   ⟨put (core sup fun x => { x with win := .done (List.replicate 128 1) [] }) 2 0xFFFFF00000000000, 3, arg, none, _, _, _,
   _, by decide +kernel, by refine ⟨by constructor <;> decide +kernel, ?_, ?_, ?_⟩ <;> decide +kernel,
   by unfold Usable; decide +kernel, rfl, rfl, by decide +kernel, by decide +kernel, by decide +kernel, rfl⟩⟩

/-- States that meet the hypotheses of AtomicsSend. -/
theorem witness_atomics_send :
    ∃ i : Instr, ∃ s : State, ∃ fn n d a b : Nat, ∃ od : Option Ord, ∃ p : Page, atomicCode i = some (fn, n, d, a, b, od)
    ∧ i.wellFormed = true ∧ AccessOpen s ∧ Usable s [a, b, d] ∧ Writable s od ∧ (s.g a).toNat % n = 0 ∧ OnPage s (s.g a)
    .both n p ∧ (p.fmt = 0 ∨ (n = 4 ∧ p.fmt = 3)) ∧ p.coll = 0 ∧ Room s p true 1 :=
  ⟨.aminu 3 2 5 false false none, put (flat user) 2 0x1FFF8, _, _, _, _, _, _, pageAt user 0x9E 0 0, rfl,
  by decide +kernel, by refine ⟨by constructor <;> decide +kernel, ?_, ?_, ?_⟩ <;> decide +kernel,
  by unfold Usable; decide +kernel, by unfold Writable Released; decide +kernel, by decide +kernel,
  by constructor <;> decide +kernel, by decide +kernel, by decide +kernel, room_here (by decide +kernel)⟩

/-- States that meet the hypotheses of CompareSwapSends. -/
theorem witness_compare_swap_sends :
    ∃ i : Instr, ∃ s : State, ∃ n d a b : Nat, ∃ od : Option Ord, ∃ p : Page, compareSwap i = some (n, d, a, b, od) ∧
    i.wellFormed = true ∧ AccessOpen s ∧ Usable s [a, b, d] ∧ Writable s od ∧ (s.g a).toNat % n = 0 ∧ OnPage s (s.g a)
    .both n p ∧ (p.fmt = 0 ∨ (n = 4 ∧ p.fmt = 3)) ∧ p.coll = 0 ∧ Room s p true 1 :=
  ⟨.casW 3 2 5 false false none, put (paged user 0x9E 3 0) 2 0x1FFFC, _, _, _, _, _, pageAt user 0x9E 3 0, rfl,
  by decide +kernel, by refine ⟨by constructor <;> decide +kernel, ?_, ?_, ?_⟩ <;> decide +kernel,
  by unfold Usable; decide +kernel, by unfold Writable Released; decide +kernel, by decide +kernel,
  by constructor <;> decide +kernel, by decide +kernel, by decide +kernel, room_here (by decide +kernel)⟩

/-- States that meet the hypotheses of AtomicFaults. -/
theorem witness_atomic_faults :
    (∃ i : Instr, ∃ s : State, ∃ n d a b : Nat, ∃ od : Option Ord, ((∃ fn, atomicCode i = some (fn, n, d, a, b, od)) ∨
    compareSwap i = some (n, d, a, b, od)) ∧ i.wellFormed = true ∧ AccessOpen s ∧ Usable s [a, b, d] ∧ EntersAtOnce s ∧
    (s.g a).toNat % n ≠ 0) ∧
    (∃ i : Instr, ∃ s : State, ∃ n d a b : Nat, ∃ od : Option Ord, ((∃ fn, atomicCode i = some (fn, n, d, a, b, od)) ∨
    compareSwap i = some (n, d, a, b, od)) ∧ i.wellFormed = true ∧ AccessOpen s ∧ Usable s [a, b, d] ∧ EntersAtOnce s ∧
    (s.g a).toNat % n = 0 ∧ inWindow (s.g a) = true) ∧
    (∃ i : Instr, ∃ s : State, ∃ n d a b : Nat, ∃ od : Option Ord, ∃ p, ((∃ fn, atomicCode i = some (fn, n, d, a, b, od))
    ∨ compareSwap i = some (n, d, a, b, od)) ∧ i.wellFormed = true ∧ AccessOpen s ∧ Usable s [a, b, d] ∧ EntersAtOnce s ∧
    (s.g a).toNat % n = 0 ∧ OnPage s (s.g a) .both n p ∧ p.coll ≠ 0) ∧
    (∃ i : Instr, ∃ s : State, ∃ n d a b : Nat, ∃ od : Option Ord, ∃ p, ((∃ fn, atomicCode i = some (fn, n, d, a, b, od))
    ∨ compareSwap i = some (n, d, a, b, od)) ∧ i.wellFormed = true ∧ AccessOpen s ∧ Usable s [a, b, d] ∧ EntersAtOnce s ∧
    (s.g a).toNat % n = 0 ∧ OnPage s (s.g a) .both n p ∧ p.coll = 0 ∧ p.fmt ≠ 0 ∧ (¬ (n = 4 ∧ p.fmt = 3))) :=
  ⟨⟨.aaddW 3 2 5 false false none, put user 2 0x1FFFE, 4, 3, 2, 5, none, .inl ⟨0, rfl⟩, by decide +kernel,
   by refine ⟨by constructor <;> decide +kernel, ?_, ?_, ?_⟩ <;> decide +kernel, by unfold Usable; decide +kernel,
   by unfold EntersAtOnce Arrived; decide +kernel, by decide +kernel⟩,
   ⟨.aaddW 3 2 5 false false none, put user 2 0xFFFFF00000000000, 4, 3, 2, 5, none, .inl ⟨0, rfl⟩, by decide +kernel,
   by refine ⟨by constructor <;> decide +kernel, ?_, ?_, ?_⟩ <;> decide +kernel, by unfold Usable; decide +kernel,
   by unfold EntersAtOnce Arrived; decide +kernel, by decide +kernel⟩,
   ⟨.aaddW 3 2 5 false false none, put (paged user 0x9E 3 0x400000000) 2 0x10000, 4, 3, 2, 5, none,
   pageAt user 0x9E 3 0x400000000, .inl ⟨0, rfl⟩, by decide +kernel,
   by refine ⟨by constructor <;> decide +kernel, ?_, ?_, ?_⟩ <;> decide +kernel, by unfold Usable; decide +kernel,
   by unfold EntersAtOnce Arrived; decide +kernel, by decide +kernel, by constructor <;> decide +kernel,
   by decide +kernel⟩,
   ⟨.aaddW 3 2 5 false false none, put (paged user 0x9E 1 0) 2 0x10000, 4, 3, 2, 5, none, pageAt user 0x9E 1 0,
   .inl ⟨0, rfl⟩, by decide +kernel, by refine ⟨by constructor <;> decide +kernel, ?_, ?_, ?_⟩ <;> decide +kernel,
   by unfold Usable; decide +kernel, by unfold EntersAtOnce Arrived; decide +kernel, by decide +kernel,
   by constructor <;> decide +kernel, by decide +kernel⟩⟩

/-- States that meet the hypotheses of VatInstructions. -/
theorem witness_vat_instructions :
    (∃ i : Instr, ∃ s : State, ∃ op : VatOp, ∃ a : Nat, ∃ x : Word, ∃ vd sd : Option Nat, ∃ od : Option Ord, ∃ r, vatForm
    s i = some (op, a, x, vd, sd, od) ∧ i.wellFormed = true ∧ AccessOpen s ∧ s.core.vat = .done r) ∧
    (∃ i : Instr, ∃ s : State, ∃ op : VatOp, ∃ a : Nat, ∃ x : Word, ∃ vd sd : Option Nat, ∃ od : Option Ord, ∃ n, vatForm
    s i = some (op, a, x, vd, sd, od) ∧ i.wellFormed = true ∧ AccessOpen s ∧ s.core.vat = .sent n) ∧
    (∃ i : Instr, ∃ s : State, ∃ op : VatOp, ∃ a : Nat, ∃ x : Word, ∃ vd sd : Option Nat, ∃ od : Option Ord, ∃ n, vatForm
    s i = some (op, a, x, vd, sd, od) ∧ i.wellFormed = true ∧ AccessOpen s ∧ s.core.vat = .parked n) ∧
    (∃ i : Instr, ∃ s : State, ∃ op : VatOp, ∃ a : Nat, ∃ x : Word, ∃ vd sd : Option Nat, ∃ od : Option Ord, ∃ c, vatForm
    s i = some (op, a, x, vd, sd, od) ∧ i.wellFormed = true ∧ AccessOpen s ∧ s.core.vat = .bad c ∧ EntersAtOnce s) ∧
    (∃ i : Instr, ∃ s : State, ∃ op : VatOp, ∃ a : Nat, ∃ x : Word, ∃ vd sd : Option Nat, ∃ od : Option Ord, ∃ p, vatForm
    s i = some (op, a, x, vd, sd, od) ∧ i.wellFormed = true ∧ AccessOpen s ∧ s.core.vat = .none ∧ Usable s (vatSources i
    ++ vd.toList ++ sd.toList) ∧ Writable s od ∧ (s.g a).toNat / 2 % 32 = 0 ∧ OnPage s (s.g a &&& ~~~63) .both 8 p ∧ p.fmt
    = 0 ∧ p.coll = 0 ∧ Room s p true 1) ∧
    (∃ i : Instr, ∃ s : State, ∃ op : VatOp, ∃ a : Nat, ∃ x : Word, ∃ vd sd : Option Nat, ∃ od : Option Ord, ∃ p, vatForm
    s i = some (op, a, x, vd, sd, od) ∧ i.wellFormed = true ∧ AccessOpen s ∧ s.core.vat = .none ∧ Usable s (vatSources i
    ++ vd.toList ++ sd.toList) ∧ Writable s od ∧ (s.g a).toNat / 2 % 32 ≠ 0 ∧ OnPage s (s.g a &&& ~~~63) .both 8 p ∧ p.fmt
    = 0 ∧ p.coll = 0 ∧ EntersAtOnce s) :=
  ⟨⟨.vpopnb 3 2 4 false none, vatted user (.done { val := 7, status := 1 }), _, _, _, _, _, _, { val := 7, status := 1 },
   rfl, by decide +kernel, by refine ⟨by constructor <;> decide +kernel, ?_, ?_, ?_⟩ <;> decide +kernel,
   by decide +kernel⟩,
   ⟨.vpopnb 3 2 4 false none, vatted user (.sent 4), _, _, _, _, _, _, 4, rfl, by decide +kernel,
   by refine ⟨by constructor <;> decide +kernel, ?_, ?_, ?_⟩ <;> decide +kernel, by decide +kernel⟩,
   ⟨.vpopnb 3 2 4 false none, vatted user (.parked 4), _, _, _, _, _, _, 4, rfl, by decide +kernel,
   by refine ⟨by constructor <;> decide +kernel, ?_, ?_, ?_⟩ <;> decide +kernel, by decide +kernel⟩,
   ⟨.vpopnb 3 2 4 false none, vatted user (.bad 9), _, _, _, _, _, _, _, rfl, by decide +kernel,
   by refine ⟨by constructor <;> decide +kernel, ?_, ?_, ?_⟩ <;> decide +kernel, rfl,
   by unfold EntersAtOnce Arrived; decide +kernel⟩,
   ⟨.vpopnb 3 2 4 false none, put (flat user) 2 0x10041, _, _, _, _, _, _, pageAt user 0x9E 0 0, rfl, by decide +kernel,
   by refine ⟨by constructor <;> decide +kernel, ?_, ?_, ?_⟩ <;> decide +kernel, by decide +kernel,
   by unfold Usable; decide +kernel, by unfold Writable Released; decide +kernel, by decide +kernel,
   by constructor <;> decide +kernel, by decide +kernel, by decide +kernel, room_here (by decide +kernel)⟩,
   ⟨.vpopnb 3 2 4 false none, put (flat user) 2 0x10022, _, _, _, _, _, _, pageAt user 0x9E 0 0, rfl, by decide +kernel,
   by refine ⟨by constructor <;> decide +kernel, ?_, ?_, ?_⟩ <;> decide +kernel, by decide +kernel,
   by unfold Usable; decide +kernel, by unfold Writable Released; decide +kernel, by decide +kernel,
   by constructor <;> decide +kernel, by decide +kernel, by decide +kernel,
   by unfold EntersAtOnce Arrived; decide +kernel⟩⟩

/-- States that meet the hypotheses of RouteCounters. -/
theorem witness_route_counters :
    (∃ s : State, ∃ d a b : BitVec 5, ∃ x y : Bool, ∃ od : Option Ord, AccessOpen s ∧ Usable s [a.toNat, b.toNat, d.toNat]
    ∧ (Instr.rcread d a b x y od).wellFormed = true ∧ Writable s od ∧ (24 ≤ (s.g a.toNat).toNat ∧ (s.g a.toNat).toNat < 24
    + (s.readCsr 0x000).toNat / 32 % 8 ∧ (s.g a.toNat).toNat < 28 ∧ (s.readCsr 0x000).getLsbD 8 = true)) ∧
    (∃ s : State, ∃ d a b : BitVec 5, ∃ x y : Bool, ∃ od : Option Ord, AccessOpen s ∧ Usable s [a.toNat, b.toNat, d.toNat]
    ∧ (Instr.rcread d a b x y od).wellFormed = true ∧ Writable s od ∧ ((s.g a.toNat).toNat < 24 ∨ 28 ≤ (s.g a.toNat).toNat
    ∨ (s.readCsr 0x000).getLsbD 8 = false ∨ 24 + (s.readCsr 0x000).toNat / 32 % 8 ≤ (s.g a.toNat).toNat ∧ (s.readCsr
    0x000).toNat % 32 ≤ 24) ∧ EntersAtOnce s) :=
  ⟨⟨put user 2 27, 3, 2, 5, false, false, none,
   by refine ⟨by constructor <;> decide +kernel, ?_, ?_, ?_⟩ <;> decide +kernel, by unfold Usable; decide +kernel,
   by decide +kernel, by unfold Writable Released; decide +kernel, by decide +kernel⟩,
   ⟨put user 2 28, 3, 2, 5, false, false, none,
   by refine ⟨by constructor <;> decide +kernel, ?_, ?_, ?_⟩ <;> decide +kernel, by unfold Usable; decide +kernel,
   by decide +kernel, by unfold Writable Released; decide +kernel, by decide +kernel,
   by unfold EntersAtOnce Arrived; decide +kernel⟩⟩

/-- States that meet the hypotheses of TileInstructions. -/
theorem witness_tile_instructions :
    (∃ s : State, ∃ d a b : BitVec 5, ∃ h : Nat, Usable s [a.toNat, b.toNat, d.toNat] ∧ h = (s.g b.toNat).toNat ∧ Bindable
    s h (s.g a.toNat)) ∧
    (∃ s : State, ∃ d a b : BitVec 5, ∃ h : Nat, ∃ w : Word, Usable s [a.toNat, b.toNat, d.toNat] ∧ h = (s.g
    a.toNat).toNat ∧ h < 256 ∧ w = Sparse.get s.cell.tiles h ∧ field w 24 24 ≠ 0 ∧ field w 50 2 ≠ 1 ∧ field w 50 2 ≠ 3) ∧
    (∃ s : State, ∃ d a b : BitVec 5, ∃ h : Nat, ∃ w : Word, Usable s [a.toNat, b.toNat, d.toNat] ∧ h = (s.g
    a.toNat).toNat ∧ h < 256 ∧ w = Sparse.get s.cell.tiles h ∧ field w 24 24 ≠ 0 ∧ field w 50 2 ≠ 3) ∧
    (∃ s : State, ∃ d a b : BitVec 5, ∃ h : Nat, ∃ w : Word, Usable s [a.toNat, b.toNat, d.toNat] ∧ h = (s.g
    a.toNat).toNat ∧ h < 256 ∧ w = Sparse.get s.cell.tiles h ∧ field w 24 24 ≠ 0 ∧ field w 50 2 = (s.g b.toNat).toNat % 4) ∧
    (∃ s : State, ∃ d a b : BitVec 5, ∃ h : Nat, ∃ w : Word, Usable s [a.toNat, b.toNat, d.toNat] ∧ h = (s.g
    a.toNat).toNat ∧ h < 256 ∧ w = Sparse.get s.cell.tiles h ∧ field w 24 24 ≠ 0 ∧ field w 50 2 ≠ (s.g b.toNat).toNat % 4) :=
  ⟨⟨put (put (tiled user) 2 (tileWord 0 64 0x7FFC0 2)) 4 255, 3, 2, 4, _, by unfold Usable; decide +kernel, rfl,
   by constructor <;> decide +kernel⟩,
   ⟨put (tiled user) 2 6, 3, 2, 4, _, _, by unfold Usable; decide +kernel, rfl, by decide +kernel, rfl, by decide +kernel⟩,
   ⟨put (tiled user) 2 5, 3, 2, 4, _, _, by unfold Usable; decide +kernel, rfl, by decide +kernel, rfl, by decide +kernel⟩,
   ⟨put (put (tiled user) 2 7) 4 3, 3, 2, 4, _, _, by unfold Usable; decide +kernel, rfl, by decide +kernel, rfl,
   by decide +kernel⟩,
   ⟨put (put (tiled user) 2 7) 4 0, 3, 2, 4, _, _, by unfold Usable; decide +kernel, rfl, by decide +kernel, rfl,
   by decide +kernel⟩⟩

/-- States that meet the hypotheses of TileFaults. -/
theorem witness_tile_faults :
    (∃ s : State, ∃ d a b : BitVec 5, Usable s [a.toNat, b.toNat, d.toNat] ∧ EntersAtOnce s ∧ (¬ Bindable s (s.g
    b.toNat).toNat (s.g a.toNat))) ∧
    (∃ s : State, ∃ d a b : BitVec 5, Usable s [a.toNat, b.toNat, d.toNat] ∧ EntersAtOnce s ∧ 256 ≤ (s.g a.toNat).toNat) ∧
    (∃ s : State, ∃ d a b : BitVec 5, ∃ w : Word, Usable s [a.toNat, b.toNat, d.toNat] ∧ EntersAtOnce s ∧ (s.g
    a.toNat).toNat < 256 ∧ w = Sparse.get s.cell.tiles (s.g a.toNat).toNat ∧ (field w 24 24 = 0 ∨ field w 50 2 = 1 ∨ field
    w 50 2 = 3)) ∧
    (∃ s : State, ∃ d a b : BitVec 5, ∃ w : Word, Usable s [a.toNat, b.toNat, d.toNat] ∧ EntersAtOnce s ∧ (s.g
    a.toNat).toNat < 256 ∧ w = Sparse.get s.cell.tiles (s.g a.toNat).toNat ∧ (field w 24 24 = 0 ∨ field w 50 2 = 3)) ∧
    (∃ s : State, ∃ d a b : BitVec 5, ∃ w : Word, Usable s [a.toNat, b.toNat, d.toNat] ∧ EntersAtOnce s ∧ (s.g
    a.toNat).toNat < 256 ∧ w = Sparse.get s.cell.tiles (s.g a.toNat).toNat ∧ field w 24 24 = 0) :=
  ⟨⟨put (put (tiled user) 4 255) 2 (tileWord 0 128 0x7FFC0 2), 3, 2, 4, by unfold Usable; decide +kernel,
   by unfold EntersAtOnce Arrived; decide +kernel, fun h => absurd h.inside (by decide +kernel)⟩,
   ⟨put user 2 256, 3, 2, 4, by unfold Usable; decide +kernel, by unfold EntersAtOnce Arrived; decide +kernel,
   by decide +kernel⟩,
   ⟨put (tiled user) 2 7, 3, 2, 4, _, by unfold Usable; decide +kernel, by unfold EntersAtOnce Arrived; decide +kernel,
   by decide +kernel, rfl, by decide +kernel⟩,
   ⟨put (tiled user) 2 7, 3, 2, 4, _, by unfold Usable; decide +kernel, by unfold EntersAtOnce Arrived; decide +kernel,
   by decide +kernel, rfl, by decide +kernel⟩,
   ⟨put user 2 255, 3, 2, 4, _, by unfold Usable; decide +kernel, by unfold EntersAtOnce Arrived; decide +kernel,
   by decide +kernel, rfl, by decide +kernel⟩⟩

/-- States that meet the hypotheses of RingInstructions. -/
theorem witness_ring_instructions :
    (∃ s : State, ∃ d n b : BitVec 5, ∃ r : Ring, n.toNat < 16 ∧ s.cell.rings[n.toNat]? = some r ∧ Usable s [b.toNat,
    d.toNat] ∧ field (s.g b.toNat) 8 8 ≠ 0 ∧ field (s.g b.toNat) 0 8 + field (s.g b.toNat) 8 8 ≤ 256 ∧ (s.g b.toNat).toNat
    < 2 ^ 16 ∧ r.pclaim = 0 ∧ r.cclaim = 0) ∧
    (∃ s : State, ∃ d n b : BitVec 5, ∃ r : Ring, ∃ hd tl : Word, n.toNat < 16 ∧ s.cell.rings[n.toNat]? = some r ∧ Usable
    s [b.toNat, d.toNat] ∧ r.set = true ∧ hd = Sparse.get s.cell.tiles (r.base + r.head) ∧ tl = Sparse.get s.cell.tiles
    (r.base + r.tail) ∧ field hd 50 2 = 2) ∧
    (∃ s : State, ∃ d n b : BitVec 5, ∃ r : Ring, ∃ hd tl : Word, n.toNat < 16 ∧ s.cell.rings[n.toNat]? = some r ∧ Usable
    s [b.toNat, d.toNat] ∧ r.set = true ∧ hd = Sparse.get s.cell.tiles (r.base + r.head) ∧ tl = Sparse.get s.cell.tiles
    (r.base + r.tail) ∧ field hd 50 2 ≠ 2) ∧
    (∃ s : State, ∃ d n b : BitVec 5, ∃ r : Ring, ∃ hd tl : Word, n.toNat < 16 ∧ s.cell.rings[n.toNat]? = some r ∧ Usable
    s [b.toNat, d.toNat] ∧ r.set = true ∧ hd = Sparse.get s.cell.tiles (r.base + r.head) ∧ tl = Sparse.get s.cell.tiles
    (r.base + r.tail) ∧ field tl 50 2 = 0) ∧
    (∃ s : State, ∃ d n b : BitVec 5, ∃ r : Ring, ∃ hd tl : Word, n.toNat < 16 ∧ s.cell.rings[n.toNat]? = some r ∧ Usable
    s [b.toNat, d.toNat] ∧ r.set = true ∧ hd = Sparse.get s.cell.tiles (r.base + r.head) ∧ tl = Sparse.get s.cell.tiles
    (r.base + r.tail) ∧ field tl 50 2 ≠ 0) :=
  ⟨⟨put (ringed user (ring 4 6 0 0 0 0)) 4 0xFF01, 3, 3, 4, _, by decide +kernel, rfl, by unfold Usable; decide +kernel,
   by decide +kernel⟩,
   ⟨ringed user (ring 4 6 2 1 0 0), 3, 3, 4, _, _, _, by decide +kernel, rfl, by unfold Usable; decide +kernel,
   by decide +kernel, rfl, rfl, by decide +kernel⟩,
   ⟨ringed user (ring 4 6 0 1 0 0), 3, 3, 4, _, _, _, by decide +kernel, rfl, by unfold Usable; decide +kernel,
   by decide +kernel, rfl, rfl, by decide +kernel⟩,
   ⟨ringed user (ring 4 6 0 0 0 0), 3, 3, 4, _, _, _, by decide +kernel, rfl, by unfold Usable; decide +kernel,
   by decide +kernel, rfl, rfl, by decide +kernel⟩,
   ⟨ringed user (ring 4 6 0 5 0 0), 3, 3, 4, _, _, _, by decide +kernel, rfl, by unfold Usable; decide +kernel,
   by decide +kernel, rfl, rfl, by decide +kernel⟩⟩

/-- States that meet the hypotheses of RingRelease. -/
theorem witness_ring_release :
    (∃ s : State, ∃ n : BitVec 5, ∃ r : Ring, n.toNat < 16 ∧ s.cell.rings[n.toNat]? = some r ∧ 0 < r.pclaim ∧ r.pclaim ≤
    r.count ∧ r.tail < r.count) ∧
    (∃ s : State, ∃ n : BitVec 5, ∃ r : Ring, ∃ h, n.toNat < 16 ∧ s.cell.rings[n.toNat]? = some r ∧ 0 < r.cclaim ∧
    r.cclaim ≤ r.count ∧ r.head < r.count ∧ h = r.base + (r.head + r.count - r.cclaim) % r.count) ∧
    (∃ s : State, ∃ n : BitVec 5, ∃ r : Ring, n.toNat < 16 ∧ s.cell.rings[n.toNat]? = some r ∧ EntersAtOnce s ∧ r.pclaim =
    0) ∧
    (∃ s : State, ∃ n : BitVec 5, ∃ r : Ring, n.toNat < 16 ∧ s.cell.rings[n.toNat]? = some r ∧ EntersAtOnce s ∧ r.cclaim =
    0) ∧
    (∃ s : State, ∃ d n : BitVec 5, ∃ r : Ring, n.toNat < 16 ∧ s.cell.rings[n.toNat]? = some r ∧ EntersAtOnce s ∧ Usable s
    [d.toNat] ∧ r.set = false) :=
  ⟨⟨ringed user (ring 4 6 0 5 6 0), 3, _, by decide +kernel, rfl, by decide +kernel⟩,
   ⟨ringed user (ring 4 6 1 0 0 2), 3, _, _, by decide +kernel, rfl, by decide +kernel, by decide +kernel,
   by decide +kernel, rfl⟩,
   ⟨ringed user (ring 4 6 1 0 0 0), 3, _, by decide +kernel, rfl, by unfold EntersAtOnce Arrived; decide +kernel,
   by decide +kernel⟩,
   ⟨ringed user (ring 4 6 1 0 0 0), 3, _, by decide +kernel, rfl, by unfold EntersAtOnce Arrived; decide +kernel,
   by decide +kernel⟩,
   ⟨user, 3, 3, _, by decide +kernel, rfl, by unfold EntersAtOnce Arrived; decide +kernel,
   by unfold Usable; decide +kernel, by decide +kernel⟩⟩

/-- States that meet the hypotheses of AllocatorInstructions. -/
theorem witness_allocator_instructions :
    (∃ s : State, ∃ d p b : BitVec 5, ∃ a : Alloc, ∃ size n : Nat, p.toNat < 3 ∧ s.cell.allocs[p.toNat]? = some a ∧ Usable
    s [b.toNat, d.toNat] ∧ size = storeSize p.toNat ∧ n = ((s.g b.toNat).toNat + 63) / 64 * 64 ∧ a.bump + n ≤ a.rbase) ∧
    (∃ s : State, ∃ d p b : BitVec 5, ∃ a : Alloc, ∃ size n : Nat, p.toNat < 3 ∧ s.cell.allocs[p.toNat]? = some a ∧ Usable
    s [b.toNat, d.toNat] ∧ size = storeSize p.toNat ∧ n = ((s.g b.toNat).toNat + 63) / 64 * 64 ∧ (s.g b.toNat).toNat ≤
    a.bump ∧ (s.g b.toNat).toNat % 64 = 0) ∧
    (∃ s : State, ∃ d p b : BitVec 5, ∃ a : Alloc, ∃ size n : Nat, p.toNat < 3 ∧ s.cell.allocs[p.toNat]? = some a ∧ Usable
    s [b.toNat, d.toNat] ∧ size = storeSize p.toNat ∧ n = ((s.g b.toNat).toNat + 63) / 64 * 64 ∧ n = 0) ∧
    (∃ s : State, ∃ d p b : BitVec 5, ∃ a : Alloc, ∃ size n : Nat, ∃ at', ∃ waste, p.toNat < 3 ∧ s.cell.allocs[p.toNat]? =
    some a ∧ Usable s [b.toNat, d.toNat] ∧ size = storeSize p.toNat ∧ n = ((s.g b.toNat).toNat + 63) / 64 * 64 ∧ n ≠ 0 ∧
    at' = (if size < a.rhead + n then a.rbase else a.rhead) ∧ waste = (if size < a.rhead + n then size - a.rhead else 0) ∧
    n ≤ size - a.rbase ∧ a.rlive + waste + n ≤ size - a.rbase) ∧
    (∃ s : State, ∃ d p b : BitVec 5, ∃ a : Alloc, ∃ size n : Nat, ∃ x, ∃ e, p.toNat < 3 ∧ s.cell.allocs[p.toNat]? = some
    a ∧ Usable s [b.toNat, d.toNat] ∧ size = storeSize p.toNat ∧ n = ((s.g b.toNat).toNat + 63) / 64 * 64 ∧ x = (s.g
    b.toNat).toNat ∧ e = (if x = a.rhead then a.rlive else (((x : Int) - a.rtail) % ((size - a.rbase : Nat) : Int)).toNat)
    ∧ a.rbase ≤ x ∧ x < size ∧ x % 64 = 0 ∧ e ≤ a.rlive) ∧
    (∃ s : State, ∃ d p b : BitVec 5, ∃ a : Alloc, ∃ size n : Nat, ∃ w : BitVec 5, ∃ v, p.toNat < 3 ∧
    s.cell.allocs[p.toNat]? = some a ∧ Usable s [b.toNat, d.toNat] ∧ size = storeSize p.toNat ∧ n = ((s.g b.toNat).toNat +
    63) / 64 * 64 ∧ (w.toNat, v) ∈ [(0, a.bump), (1, a.rbase), (2, a.rhead), (3, a.rtail), (4, a.rlive)]) :=
  ⟨⟨put (allocated user { bump := 0x7FFC0, rbase := 0x80000, rhead := 0x80000, rtail := 0x80000, rlive := 0 }) 4 1, 3, 1,
   4, _, _, _, by decide +kernel, rfl, by unfold Usable; decide +kernel, rfl, rfl, by decide +kernel⟩,
   ⟨put (allocated user { bump := 128, rbase := 0x80000, rhead := 0x80000, rtail := 0x80000, rlive := 0 }) 4 128, 3, 1, 4,
   _, _, _, by decide +kernel, rfl, by unfold Usable; decide +kernel, rfl, rfl, by decide +kernel⟩,
   ⟨user, 3, 1, 4, _, _, _, by decide +kernel, rfl, by unfold Usable; decide +kernel, rfl, rfl, by decide +kernel⟩,
   ⟨put (allocated user { bump := 0, rbase := 0x80000, rhead := 0xFFFC0, rtail := 0x80080, rlive := 0x7FF40 }) 4 64, 3, 1,
   4, _, _, _, _, _, by decide +kernel, rfl, by unfold Usable; decide +kernel, rfl, rfl, by decide +kernel, rfl, rfl,
   by decide +kernel⟩,
   ⟨put (allocated user { bump := 0, rbase := 0x80000, rhead := 0x80000, rtail := 0xFFFC0, rlive := 0x40 }) 4 0x80000, 3,
   1, 4, _, _, _, _, _, by decide +kernel, rfl, by unfold Usable; decide +kernel, rfl, rfl, rfl, rfl, by decide +kernel⟩,
   ⟨user, 3, 1, 4, _, _, _, 1, 0x100000, by decide +kernel, rfl, by unfold Usable; decide +kernel, rfl, rfl,
   by decide +kernel⟩⟩

/-- States that meet the hypotheses of AllocatorExhausts. -/
theorem witness_allocator_exhausts :
    (∃ s : State, ∃ d p b : BitVec 5, ∃ a : Alloc, ∃ size n : Nat, p.toNat < 3 ∧ s.cell.allocs[p.toNat]? = some a ∧ Usable
    s [b.toNat, d.toNat] ∧ EntersAtOnce s ∧ size = storeSize p.toNat ∧ n = ((s.g b.toNat).toNat + 63) / 64 * 64 ∧ a.rbase
    < a.bump + n) ∧
    (∃ s : State, ∃ d p b : BitVec 5, ∃ a : Alloc, ∃ size n : Nat, p.toNat < 3 ∧ s.cell.allocs[p.toNat]? = some a ∧ Usable
    s [b.toNat, d.toNat] ∧ EntersAtOnce s ∧ size = storeSize p.toNat ∧ n = ((s.g b.toNat).toNat + 63) / 64 * 64 ∧ (a.bump
    < (s.g b.toNat).toNat ∨ (s.g b.toNat).toNat % 64 ≠ 0)) ∧
    (∃ s : State, ∃ d p b : BitVec 5, ∃ a : Alloc, ∃ size n : Nat, p.toNat < 3 ∧ s.cell.allocs[p.toNat]? = some a ∧ Usable
    s [b.toNat, d.toNat] ∧ EntersAtOnce s ∧ size = storeSize p.toNat ∧ n = ((s.g b.toNat).toNat + 63) / 64 * 64 ∧ n ≠ 0 ∧
    (size - a.rbase < n ∨ size - a.rbase < a.rlive + (if size < a.rhead + n then size - a.rhead else 0) + n)) ∧
    (∃ s : State, ∃ d p b : BitVec 5, ∃ a : Alloc, ∃ size n : Nat, p.toNat < 3 ∧ s.cell.allocs[p.toNat]? = some a ∧ Usable
    s [b.toNat, d.toNat] ∧ EntersAtOnce s ∧ size = storeSize p.toNat ∧ n = ((s.g b.toNat).toNat + 63) / 64 * 64 ∧ ((s.g
    b.toNat).toNat < a.rbase ∨ size ≤ (s.g b.toNat).toNat ∨ (s.g b.toNat).toNat % 64 ≠ 0)) :=
  ⟨⟨put (allocated user { bump := 0x7FFC0, rbase := 0x80000, rhead := 0x80000, rtail := 0x80000, rlive := 0 }) 4 65, 3, 1,
   4, _, _, _, by decide +kernel, rfl, by unfold Usable; decide +kernel, by unfold EntersAtOnce Arrived; decide +kernel,
   rfl, rfl, by decide +kernel⟩,
   ⟨put user 4 1, 3, 1, 4, _, _, _, by decide +kernel, rfl, by unfold Usable; decide +kernel,
   by unfold EntersAtOnce Arrived; decide +kernel, rfl, rfl, by decide +kernel⟩,
   ⟨put user 4 64, 3, 1, 4, _, _, _, by decide +kernel, rfl, by unfold Usable; decide +kernel,
   by unfold EntersAtOnce Arrived; decide +kernel, rfl, rfl, by decide +kernel⟩,
   ⟨put user 4 0x100000, 3, 1, 4, _, _, _, by decide +kernel, rfl, by unfold Usable; decide +kernel,
   by unfold EntersAtOnce Arrived; decide +kernel, rfl, rfl, by decide +kernel⟩⟩

/-- States that meet the hypotheses of CueInstructions. -/
theorem witness_cue_instructions :
    (∃ s : State, ∃ d a : BitVec 5, Usable s [a.toNat, d.toNat] ∧ Sparse.get s.csr 0x0C0 = 0 ∧ s.core.inflight = [] ∧
    s.core.posted = [] ∧ s.coreReplies.all (fun r => r.dest == .none) = true ∧ s.coreReqs.all (fun r => r.dest == .none ||
    !r.op.reads) = true) ∧
    (∃ s : State, ∃ d a : BitVec 5, Usable s [a.toNat, d.toNat] ∧ Sparse.get s.csr 0x0C0 = 0 ∧ (s.core.inflight ≠ [] ∨
    s.core.posted ≠ [])) ∧
    (∃ s : State, ∃ d a : BitVec 5, ∃ n : BitVec 6, Usable s [a.toNat, d.toNat] ∧ Sparse.get s.csr 0x0C0 = 0 ∧ (s.cue
    n.toNat - (s.g a.toNat).setWidth 32).toNat < 2 ^ 31) ∧
    (∃ s : State, ∃ d a : BitVec 5, ∃ n : BitVec 6, Usable s [a.toNat, d.toNat] ∧ Sparse.get s.csr 0x0C0 = 0 ∧ 2 ^ 31 ≤
    (s.cue n.toNat - (s.g a.toNat).setWidth 32).toNat) :=
  ⟨⟨put user 2 7, 3, 2, by unfold Usable; decide +kernel, by decide +kernel⟩,
   ⟨late (put user 2 7) 9, 3, 2, by unfold Usable; decide +kernel, by decide +kernel⟩,
   ⟨put (cued user 63 0x80000006) 2 7, 3, 2, 63, by unfold Usable; decide +kernel, by decide +kernel⟩,
   ⟨put (cued user 63 6) 2 7, 3, 2, 63, by unfold Usable; decide +kernel, by decide +kernel⟩⟩

/-- States that meet the hypotheses of TermDefinition. -/
theorem witness_term_definition :
    (∃ s : State, ∃ a : BitVec 5, ∃ ws : List Word, Usable s [a.toNat] ∧ AccessOpen s ∧ (s.g a.toNat).toNat % 64 = 0 ∧
    InStore s 0 (s.g a.toNat) 64 ∧ ws = (List.range 8).map (fun j => BitVec.ofNat 64 (Memory.readLE (seen s 0) ((s.g
    a.toNat).toNat + 8 * j) 8)) ∧ ((ws.take 7).all (fun w => w.toNat < 2 ^ 41) = true ∧ (ws[7]?.getD 0).toNat < 2 ^ 15)) ∧
    (∃ s : State, ∃ a : BitVec 5, ∃ ws : List Word, Usable s [a.toNat] ∧ AccessOpen s ∧ (s.g a.toNat).toNat % 64 = 0 ∧
    InStore s 0 (s.g a.toNat) 64 ∧ ws = (List.range 8).map (fun j => BitVec.ofNat 64 (Memory.readLE (seen s 0) ((s.g
    a.toNat).toNat + 8 * j) 8)) ∧ ((ws.take 7).all (fun w => w.toNat < 2 ^ 41) = false ∨ 2 ^ 15 ≤ (ws[7]?.getD 0).toNat) ∧
    EntersAtOnce s) :=
  ⟨⟨termed user false, 2, _, by unfold Usable; decide +kernel,
   by refine ⟨by constructor <;> decide +kernel, ?_, ?_, ?_⟩ <;> decide +kernel, by decide +kernel,
   by unfold InStore; decide +kernel, rfl, by decide +kernel⟩,
   ⟨termed user true, 2, _, by unfold Usable; decide +kernel,
   by refine ⟨by constructor <;> decide +kernel, ?_, ?_, ?_⟩ <;> decide +kernel, by decide +kernel,
   by unfold InStore; decide +kernel, rfl, by decide +kernel, by unfold EntersAtOnce Arrived; decide +kernel⟩⟩

/-- States that meet the hypotheses of Fences. -/
theorem witness_fences :
    (∃ s : State, ∃ od : Option Ord, ∃ n, (Instr.fence od).wellFormed = true ∧ ordOrder od = 0 ∧ n = s.core.fenceId.getD
    s.sys.nextId ∧ s.allDone s.clk n = true) ∧
    (∃ s : State, ∃ od : Option Ord, ∃ n, (Instr.fence od).wellFormed = true ∧ ordOrder od = 0 ∧ n = s.core.fenceId.getD
    s.sys.nextId ∧ s.allDone s.clk n = false) ∧
    (∃ od : Option Ord, (Instr.fence od).wellFormed = true ∧ ordOrder od ≠ 0) ∧
    (∃ s : State, ∃ od : Option Ord, ∃ i, ∃ n, ∃ d, ∃ m, ∃ o, (Instr.fence od).wellFormed = true ∧ scalarStore i = some
    (n, d, m, o) ∧ i.wellFormed = true ∧ m.sp ≠ 3 ∧ AccessOpen s ∧ Usable s (operandRegs m d) ∧ (s.address m (scaleOf
    n)).toNat % n = 0 ∧ (s.address m (scaleOf n)).toNat + n ≤ 0x200000 ∧ s.fencesOpen = false) :=
  ⟨⟨user, none, _, by decide +kernel, by decide +kernel, rfl, by decide +kernel⟩,
   ⟨core (asked user (ask (.load 8) 15 (.reg 4))) fun x => { x with fenceId := some 9 }, none, _, by decide +kernel,
   by decide +kernel, rfl, by decide +kernel⟩,
   ⟨some { order := 2, scope := 2, ford := 0 }, by decide +kernel⟩,
   ⟨put (core (asked user (ask (.load 8) 15 (.reg 4))) fun x => { x with relFences := [{ scope := 5, clk := 0, id := 9 }] }) 2 64,
   none, .st 5 { arg with sp := 0 } none, 8, 5, { arg with sp := 0 }, none, by decide +kernel, rfl, by decide +kernel,
   by decide +kernel, by refine ⟨by constructor <;> decide +kernel, ?_, ?_, ?_⟩ <;> decide +kernel,
   by unfold Usable; decide +kernel, by decide +kernel⟩⟩

/-- States that meet the hypotheses of Barriers. -/
theorem witness_barriers :
    (∃ s : State, ∃ d n b : BitVec 5, ∃ od : Option Ord, ∃ m : Nat, (Instr.bararr d n od).wellFormed = true ∧ m = n.toNat
    ∧ Usable s [b.toNat, d.toNat] ∧ Released s od ∧ (s.bar m).arrived.getLsbD s.cell.rank = false ∧ s.core.barsync = none
    ∧ (arrivedAt s m).gen = (s.bar m).gen + 1) ∧
    (∃ s : State, ∃ d n b : BitVec 5, ∃ od : Option Ord, ∃ m : Nat, (Instr.bararr d n od).wellFormed = true ∧ m = n.toNat
    ∧ Usable s [b.toNat, d.toNat] ∧ Released s od ∧ (s.bar m).arrived.getLsbD s.cell.rank = false ∧ s.core.barsync = none
    ∧ (arrivedAt s m).gen = (s.bar m).gen) ∧
    (∃ s : State, ∃ d n b : BitVec 5, ∃ od : Option Ord, ∃ m : Nat, (Instr.bararr d n od).wellFormed = true ∧ m = n.toNat
    ∧ Usable s [b.toNat, d.toNat] ∧ Released s od ∧ (s.bar m).arrived.getLsbD s.cell.rank = true) ∧
    (∃ s : State, ∃ d n b : BitVec 5, ∃ od : Option Ord, ∃ m : Nat, ∃ g, (Instr.bararr d n od).wellFormed = true ∧ m =
    n.toNat ∧ Usable s [b.toNat, d.toNat] ∧ Released s od ∧ s.core.barsync = some (s.core.pc, m, g) ∧ g < (s.bar m).gen) ∧
    (∃ s : State, ∃ d n b : BitVec 5, ∃ od : Option Ord, ∃ m : Nat, ∃ g, (Instr.bararr d n od).wellFormed = true ∧ m =
    n.toNat ∧ Usable s [b.toNat, d.toNat] ∧ Released s od ∧ s.core.barsync = some (s.core.pc, m, g) ∧ (s.bar m).gen ≤ g) ∧
    (∃ s : State, ∃ d n b : BitVec 5, ∃ od : Option Ord, ∃ m : Nat, (Instr.bararr d n od).wellFormed = true ∧ m = n.toNat
    ∧ Usable s [b.toNat, d.toNat] ∧ Released s od ∧ (s.g b.toNat).toNat < (s.bar m).gen) ∧
    (∃ s : State, ∃ d n b : BitVec 5, ∃ od : Option Ord, ∃ m : Nat, (Instr.bararr d n od).wellFormed = true ∧ m = n.toNat
    ∧ Usable s [b.toNat, d.toNat] ∧ Released s od ∧ (s.bar m).gen ≤ (s.g b.toNat).toNat) :=
  ⟨⟨barred user 7 2, 3, 5, 4, none, _, by decide +kernel, rfl, by unfold Usable; decide +kernel,
   by unfold Released; decide +kernel, by decide +kernel⟩,
   ⟨barred user 7 0, 3, 5, 4, none, _, by decide +kernel, rfl, by unfold Usable; decide +kernel,
   by unfold Released; decide +kernel, by decide +kernel⟩,
   ⟨barred user 7 1, 3, 5, 4, none, _, by decide +kernel, rfl, by unfold Usable; decide +kernel,
   by unfold Released; decide +kernel, by decide +kernel⟩,
   ⟨{ barred user 7 0 with core := { user.core with barsync := some (user.core.pc, 5, 6) } }, 3, 5, 4, none, _, 6,
   by decide +kernel, rfl, by unfold Usable; decide +kernel, by unfold Released; decide +kernel, by decide +kernel⟩,
   ⟨{ barred user 7 0 with core := { user.core with barsync := some (user.core.pc, 5, 7) } }, 3, 5, 4, none, _, 7,
   by decide +kernel, rfl, by unfold Usable; decide +kernel, by unfold Released; decide +kernel, by decide +kernel⟩,
   ⟨barred user 7 0, 3, 5, 4, none, _, by decide +kernel, rfl, by unfold Usable; decide +kernel,
   by unfold Released; decide +kernel, by decide +kernel⟩,
   ⟨put (barred user 7 0) 4 7, 3, 5, 4, none, _, by decide +kernel, rfl, by unfold Usable; decide +kernel,
   by unfold Released; decide +kernel, by decide +kernel⟩⟩

/-- States that meet the hypotheses of BankLending. -/
theorem witness_bank_lending :
    (∃ s : State, ∃ k p : BitVec 5, k.toNat < 12 ∧ p.toNat < 2 ∧ (s.readCsr 0x013).getLsbD k.toNat = decide (p.toNat = 1)) ∧
    (∃ s : State, ∃ k p : BitVec 5, k.toNat < 12 ∧ p.toNat < 2 ∧ (s.readCsr 0x013).getLsbD k.toNat = !decide (p.toNat = 1)
    ∧ s.bankBusy k.toNat = false) ∧
    (∃ s : State, ∃ k p : BitVec 5, k.toNat < 12 ∧ p.toNat < 2 ∧ (s.readCsr 0x013).getLsbD k.toNat = !decide (p.toNat = 1)
    ∧ s.bankBusy k.toNat = true ∧ EntersAtOnce s) :=
  ⟨⟨user, 11, 1, by decide +kernel⟩,
   ⟨user, 7, 1, by decide +kernel⟩,
   ⟨{ user with core := { user.core with inflight := [{ target := .vec 0x1FFFC 1 [], visible := 3, arrive := 0, scalar := false, port := none }] } },
   7, 1, by decide +kernel, by decide +kernel, by decide +kernel, by decide +kernel,
   by unfold EntersAtOnce Arrived; decide +kernel⟩⟩

/-- States that meet the hypotheses of TableLoad. -/
theorem witness_table_load :
    (∃ s : State, ∃ a p : BitVec 5, ∃ x : Bool, ∃ i : Instr, ∃ va, ∃ g, p.toNat < 4 ∧ i = .latld a p x ∧ va = s.g a.toNat
    ∧ AccessOpen s ∧ Usable s [a.toNat] ∧ s.core.latWait = none ∧ s.hasLat2 = true ∧ va.toNat % 64 = 0 ∧ OnPage s va .read
    1024 g ∧ g.fmt = 0 ∧ g.coll ≠ 3 ∧ Room s g false 1 ∧ s.running.all (fun e => !e.usesSlot p.toNat) = true) ∧
    (∃ s : State, ∃ a p : BitVec 5, ∃ x : Bool, ∃ i : Instr, ∃ va, ∃ g, p.toNat < 4 ∧ i = .latld a p x ∧ va = s.g a.toNat
    ∧ AccessOpen s ∧ Usable s [a.toNat] ∧ s.core.latWait = none ∧ s.hasLat2 = true ∧ va.toNat % 64 = 0 ∧ OnPage s va .read
    1024 g ∧ g.fmt = 0 ∧ g.coll ≠ 3 ∧ s.running.any (fun e => e.usesSlot p.toNat) = true) ∧
    (∃ s : State, ∃ a p : BitVec 5, ∃ x : Bool, ∃ i : Instr, ∃ va, ∃ g, p.toNat < 4 ∧ i = .latld a p x ∧ va = s.g a.toNat
    ∧ AccessOpen s ∧ Usable s [a.toNat] ∧ s.core.latWait = none ∧ s.hasLat2 = true ∧ va.toNat % 64 = 0 ∧ OnPage s va .read
    1024 g ∧ (g.fmt ≠ 0 ∨ g.coll = 3) ∧ EntersAtOnce s) ∧
    (∃ s : State, ∃ a p : BitVec 5, ∃ x : Bool, ∃ i : Instr, ∃ va, p.toNat < 4 ∧ i = .latld a p x ∧ va = s.g a.toNat ∧
    AccessOpen s ∧ Usable s [a.toNat] ∧ s.core.latWait = none ∧ s.hasLat2 = true ∧ va.toNat % 64 ≠ 0 ∧ EntersAtOnce s) ∧
    (∃ s : State, ∃ a p : BitVec 5, ∃ x : Bool, ∃ i : Instr, ∃ va, p.toNat < 4 ∧ i = .latld a p x ∧ va = s.g a.toNat ∧
    AccessOpen s ∧ Usable s [a.toNat] ∧ s.core.latWait = none ∧ s.hasLat2 = false ∧ EntersAtOnce s) ∧
    (∃ s : State, ∃ a p : BitVec 5, ∃ x : Bool, ∃ i : Instr, ∃ w, p.toNat < 4 ∧ i = .latld a p x ∧ s.core.latWait = some w
    ∧ w.got.length < w.need) ∧
    (∃ s : State, ∃ a p : BitVec 5, ∃ x : Bool, ∃ i : Instr, ∃ w, p.toNat < 4 ∧ i = .latld a p x ∧ s.core.latWait = some w
    ∧ w.need ≤ w.got.length ∧ w.bad = [] ∧ SlotInUse s w.slot) ∧
    (∃ s : State, ∃ a p : BitVec 5, ∃ x : Bool, ∃ i : Instr, ∃ w, p.toNat < 4 ∧ i = .latld a p x ∧ s.core.latWait = some w
    ∧ w.need ≤ w.got.length ∧ w.bad = [] ∧ (¬ SlotInUse s w.slot)) ∧
    (∃ s : State, ∃ a p : BitVec 5, ∃ x : Bool, ∃ i : Instr, ∃ w, ∃ b, ∃ bs, p.toNat < 4 ∧ i = .latld a p x ∧
    s.core.latWait = some w ∧ w.need ≤ w.got.length ∧ w.bad = b :: bs ∧ EntersAtOnce s) :=
  ⟨⟨put (flat user) 2 0x1FC00, 2, 3, false, .latld 2 3 false, _, pageAt user 0x9E 0 0, by decide +kernel,
   by decide +kernel, rfl, by refine ⟨by constructor <;> decide +kernel, ?_, ?_, ?_⟩ <;> decide +kernel,
   by unfold Usable; decide +kernel, by decide +kernel, by decide +kernel, by decide +kernel,
   by constructor <;> decide +kernel, by decide +kernel, by decide +kernel, room_here (by decide +kernel),
   by decide +kernel⟩,
   ⟨{ put (flat user) 2 0x1FC00 with cell := { user.cell with queues := user.cell.queues.setIfInBounds 0 { Queue.reset with run := [entry 0 (.mpass false false false 0 0) [0x300B000000]] } } },
   2, 3, false, .latld 2 3 false, _, pageAt user 0x9E 0 0, by decide +kernel, by decide +kernel, rfl,
   by refine ⟨by constructor <;> decide +kernel, ?_, ?_, ?_⟩ <;> decide +kernel, by unfold Usable; decide +kernel,
   by decide +kernel, by decide +kernel, by decide +kernel, by constructor <;> decide +kernel, by decide +kernel⟩,
   ⟨put (paged user 0x9E 1 0) 2 0x10000, 2, 3, false, .latld 2 3 false, _, pageAt user 0x9E 1 0, by decide +kernel,
   by decide +kernel, rfl, by refine ⟨by constructor <;> decide +kernel, ?_, ?_, ?_⟩ <;> decide +kernel,
   by unfold Usable; decide +kernel, by decide +kernel, by decide +kernel, by decide +kernel,
   by constructor <;> decide +kernel, by decide +kernel, by unfold EntersAtOnce Arrived; decide +kernel⟩,
   ⟨put (flat user) 2 0x10020, 2, 3, false, .latld 2 3 false, _, by decide +kernel, by decide +kernel, rfl,
   by refine ⟨by constructor <;> decide +kernel, ?_, ?_, ?_⟩ <;> decide +kernel, by unfold Usable; decide +kernel,
   by decide +kernel, by decide +kernel, by decide +kernel, by unfold EntersAtOnce Arrived; decide +kernel⟩,
   ⟨csr user 0 0, 2, 3, false, .latld 2 3 false, _, by decide +kernel, by decide +kernel, rfl,
   by refine ⟨by constructor <;> decide +kernel, ?_, ?_, ?_⟩ <;> decide +kernel, by unfold Usable; decide +kernel,
   by decide +kernel, by decide +kernel, by unfold EntersAtOnce Arrived; decide +kernel⟩,
   ⟨core (flat user) fun x => { x with latWait := some { slot := 3, need := 2, got := [(0, [])], bad := [] } }, 2, 3,
   false, .latld 2 3 false, _, by decide +kernel, by decide +kernel, rfl, by decide +kernel⟩,
   ⟨asked (core user fun x => { x with latWait := some { slot := 3, need := 1, got := [(0, [])], bad := [] } }) (ask (.bload [(0, { fmt := 11, geo := 0, lslot := 3, pa := 0, slot := 0, blk := 0, group := 0 })]) 15 .none),
   2, 3, false, .latld 2 3 false, _, by decide +kernel, by decide +kernel, rfl, by decide +kernel, by decide +kernel,
   by unfold SlotInUse; decide +kernel⟩,
   ⟨core (flat user) fun x => { x with latWait := some { slot := 3, need := 1, got := [(0, [])], bad := [] } }, 2, 3,
   false, .latld 2 3 false, _, by decide +kernel, by decide +kernel, rfl, by decide +kernel, by decide +kernel,
   by unfold SlotInUse; decide +kernel⟩,
   ⟨core (flat user) fun x => { x with latWait := some { slot := 3, need := 1, got := [(0, [])], bad := [5] } }, 2, 3,
   false, .latld 2 3 false, _, _, _, by decide +kernel, by decide +kernel, rfl, by decide +kernel, rfl,
   by unfold EntersAtOnce Arrived; decide +kernel⟩⟩

/-- States that meet the hypotheses of Enqueue. -/
theorem witness_enqueue :
    (∃ s : State, ∃ q : BitVec 5, ∃ v : Queue, q.toNat < 13 ∧ s.cell.queues[q.toNat]? = some v ∧ Acquired s) ∧
    (∃ s : State, ∃ q : BitVec 5, ∃ v : Queue, ∃ n : BitVec 2, ∃ a : BitVec 5, q.toNat < 13 ∧ s.cell.queues[q.toNat]? =
    some v ∧ Acquired s ∧ (Instr.enqg q n a).wellFormed = true ∧ Usable s [a.toNat]) ∧
    (∃ s : State, ∃ q : BitVec 5, ∃ v : Queue, ∃ n a : BitVec 5, ∃ p : BitVec 2, q.toNat < 13 ∧ s.cell.queues[q.toNat]? =
    some v ∧ Acquired s ∧ p.toNat < 3 ∧ Usable s [a.toNat] ∧ (s.g a.toNat).toNat % 2 = 0 ∧ InStore s p.toNat (s.g a.toNat)
    (2 * (n.toNat + 1))) :=
  ⟨⟨put user 4 0x1FFFFE, 12, _, by decide +kernel, rfl, by constructor <;> decide +kernel⟩,
   ⟨put user 4 0x1FFFFE, 12, _, 3, 4, by decide +kernel, rfl, by constructor <;> decide +kernel, by decide +kernel,
   by unfold Usable; decide +kernel⟩,
   ⟨put user 4 0x1FFFFE, 12, _, 0, 4, 0, by decide +kernel, rfl, by constructor <;> decide +kernel, by decide +kernel,
   by unfold Usable; decide +kernel, by decide +kernel, by unfold InStore; decide +kernel⟩⟩

/-- States that meet the hypotheses of EndOfCell. -/
theorem witness_end_of_cell :
    (∃ s : State, s.core.inflight = [] ∧ s.coreReplies.all (fun r => !r.dest.inRegs) = true ∧ s.coreReqs.all (fun r =>
    !r.dest.inRegs) = true) ∧
    (∃ s : State, s.core.inflight ≠ []) ∧
    (∃ s : State, s.core.inflight = [] ∧ (s.coreReplies.all (fun r => !r.dest.inRegs) = false ∨ s.coreReqs.all (fun r =>
    !r.dest.inRegs) = false)) :=
  ⟨⟨asked user (ask (.load 8) 15 .none), by decide +kernel⟩,
   ⟨late user 9, by decide +kernel⟩,
   ⟨asked user (ask (.load 8) 15 (.reg 4)), by decide +kernel⟩⟩

/-- States that meet the hypotheses of AccountReads. -/
theorem witness_account_reads :
    ∃ s : State, ∃ d a : BitVec 5, ∃ n : Nat, Usable s [a.toNat, d.toNat] ∧ Sparse.get s.csr 0x0C0 = 0 ∧ n = (s.g
    a.toNat).toNat :=
  ⟨put user 2 99, 3, 2, _, by unfold Usable; decide +kernel, by decide +kernel, rfl⟩

/-- States that meet the hypotheses of StackWords. -/
theorem witness_stack_words :
    (∃ i : Instr, ∃ s : State, ∃ v : Queue, ∃ w last : EWord, ∃ ok : Bool, ∃ r : Option (List Word), ∃ st, AtHead s v w
    last ∧ stackRow s (stackOf v) i = some (ok, r) ∧ (v.inChain = true ∨ (NoneChained s v ∧ ∀ e, e ∈ v.run →
    Instr.isControl e.op = false)) ∧ r = some st ∧ st.length ≤ 8 ∧ ok = true) ∧
    (∃ i : Instr, ∃ s : State, ∃ v : Queue, ∃ w last : EWord, ∃ ok : Bool, ∃ r : Option (List Word), AtHead s v w last ∧
    stackRow s (stackOf v) i = some (ok, r) ∧ (v.inChain = true ∨ (NoneChained s v ∧ ∀ e, e ∈ v.run → Instr.isControl e.op
    = false)) ∧ (∀ st, r = some st → 8 < st.length)) ∧
    (∃ i : Instr, ∃ s : State, ∃ v : Queue, ∃ w last : EWord, ∃ ok : Bool, ∃ r : Option (List Word), ∃ st, AtHead s v w
    last ∧ stackRow s (stackOf v) i = some (ok, r) ∧ (v.inChain = true ∨ (NoneChained s v ∧ ∀ e, e ∈ v.run →
    Instr.isControl e.op = false)) ∧ r = some st ∧ st.length ≤ 8 ∧ ok = false) ∧
    (∃ i : Instr, ∃ s : State, ∃ v : Queue, ∃ w last : EWord, ∃ ok : Bool, ∃ r : Option (List Word), AtHead s v w last ∧
    stackRow s (stackOf v) i = some (ok, r) ∧ v.inChain = false ∧ (∃ e, e ∈ v.run ∧ Instr.isControl e.op = true)) ∧
    (∃ i : Instr, ∃ s : State, ∃ v : Queue, ∃ w last : EWord, ∃ ok : Bool, ∃ r : Option (List Word), AtHead s v w last ∧
    stackRow s (stackOf v) i = some (ok, r) ∧ v.inChain = false ∧ (∀ e, e ∈ v.run → Instr.isControl e.op = false) ∧ (¬
    NoneChained s v)) :=
  ⟨⟨.dup, queued user 3 (headed .dup [1, 2, 3, 4, 5, 6, 7]), headed .dup [1, 2, 3, 4, 5, 6, 7], eword (encodeEngine .dup),
   eword 0xE000, _, _, _, by constructor <;> decide +kernel, rfl, by unfold NoneChained; decide +kernel, rfl,
   by decide +kernel⟩,
   ⟨.dup, queued user 3 (headed .dup [1, 2, 3, 4, 5, 6, 7, 8]), headed .dup [1, 2, 3, 4, 5, 6, 7, 8],
   eword (encodeEngine .dup), eword 0xE000, _, _, by constructor <;> decide +kernel, rfl,
   by unfold NoneChained; decide +kernel, fun st h => by cases h; decide +kernel⟩,
   ⟨.eshl 64, queued user 3 (headed (.eshl 64) [1]), headed (.eshl 64) [1], eword (encodeEngine (.eshl 64)), eword 0xE000,
   _, _, _, by constructor <;> decide +kernel, rfl, by unfold NoneChained; decide +kernel, rfl, by decide +kernel⟩,
   ⟨.dup, queued user 3 { headed .dup [1, 2, 3, 4, 5, 6, 7] with run := [entry 3 .fenceq []] },
   { headed .dup [1, 2, 3, 4, 5, 6, 7] with run := [entry 3 .fenceq []] }, eword (encodeEngine .dup), eword 0xE000, _, _,
   by constructor <;> decide +kernel, rfl, by decide +kernel⟩,
   ⟨.dup,
   { queued user 3 { headed .dup [1, 2, 3, 4, 5, 6, 7] with chainEntry := some (entry 3 .xread []) } with clk := 5 },
   { headed .dup [1, 2, 3, 4, 5, 6, 7] with chainEntry := some (entry 3 .xread []) }, eword (encodeEngine .dup),
   eword 0xE000, _, _, by constructor <;> decide +kernel, rfl, by decide +kernel, by decide +kernel,
   by unfold NoneChained; decide +kernel⟩⟩

/-- States that meet the hypotheses of ControlWords. -/
theorem witness_control_words :
    (∃ i : Instr, ∃ s : State, ∃ v : Queue, ∃ last : EWord, ∃ n : Nat, ∃ fin : Bool, ∃ ok : Word → Bool, controlRow i =
    some (n, fin, ok) ∧ Sparse.get s.csr 0x0C0 = 0 ∧ MayBegin s v last ∧ v.stack.length = n ∧ ok (v.stack.head?.getD 0) =
    true) ∧
    (∃ i : Instr, ∃ s : State, ∃ v : Queue, ∃ last : EWord, ∃ n : Nat, ∃ fin : Bool, ∃ ok : Word → Bool, controlRow i =
    some (n, fin, ok) ∧ Sparse.get s.csr 0x0C0 = 0 ∧ MayBegin s v last ∧ v.stack.length = n ∧ ok (v.stack.head?.getD 0) =
    false) ∧
    (∃ i : Instr, ∃ s : State, ∃ v : Queue, ∃ last : EWord, ∃ n : Nat, ∃ fin : Bool, ∃ ok : Word → Bool, controlRow i =
    some (n, fin, ok) ∧ Sparse.get s.csr 0x0C0 = 0 ∧ MayBegin s v last ∧ v.stack.length ≠ n) ∧
    (∃ i : Instr, ∃ s : State, ∃ v : Queue, ∃ last : EWord, ∃ n : Nat, ∃ fin : Bool, ∃ ok : Word → Bool, controlRow i =
    some (n, fin, ok) ∧ Sparse.get s.csr 0x0C0 = 0 ∧ AtHead s v last last ∧ v.inChain = false ∧ (s.gated s.actq = true ∨
    v.gateWait = 0) ∧ (∃ e, e ∈ v.run ∧ Instr.isControl e.op = true)) ∧
    (∃ i : Instr, ∃ s : State, ∃ v : Queue, ∃ last : EWord, ∃ n : Nat, ∃ fin : Bool, ∃ ok : Word → Bool, controlRow i =
    some (n, fin, ok) ∧ Sparse.get s.csr 0x0C0 = 0 ∧ AtHead s v last last ∧ v.inChain = false ∧ (∀ e, e ∈ v.run →
    Instr.isControl e.op = false) ∧ NoneChained s v ∧ EngineFree s v ∧ s.gated s.actq = true) :=
  ⟨⟨.qgate 3, queued user 3 (headed (.qgate 3) [0xFFFFFFFF]), headed (.qgate 3) [0xFFFFFFFF],
   eword (encodeEngine (.qgate 3)), _, _, _, rfl, by decide +kernel,
   mayBegin (by constructor <;> decide +kernel) (by decide +kernel), by decide +kernel⟩,
   ⟨.qgate 3, queued user 3 (headed (.qgate 3) [0x100000000]), headed (.qgate 3) [0x100000000],
   eword (encodeEngine (.qgate 3)), _, _, _, rfl, by decide +kernel,
   mayBegin (by constructor <;> decide +kernel) (by decide +kernel), by decide +kernel⟩,
   ⟨.qgate 3, queued user 3 (headed (.qgate 3) []), headed (.qgate 3) [], eword (encodeEngine (.qgate 3)), _, _, _, rfl,
   by decide +kernel, mayBegin (by constructor <;> decide +kernel) (by decide +kernel), by decide +kernel⟩,
   ⟨.qgate 3, queued user 3 { headed (.qgate 3) [1] with run := [entry 3 (.signal 5) []] },
   { headed (.qgate 3) [1] with run := [entry 3 (.signal 5) []] }, eword (encodeEngine (.qgate 3)), _, _, _, rfl,
   by decide +kernel, by constructor <;> decide +kernel, by decide +kernel, by decide +kernel,
   ⟨entry 3 (.signal 5) [], List.mem_singleton_self _, by decide +kernel⟩⟩,
   ⟨.qgate 3, queued { user with cell := { user.cell with terms := [(7, 0x4008)] } } 3 (headed (.qgate 3) [1]),
   headed (.qgate 3) [1], eword (encodeEngine (.qgate 3)), _, _, _, rfl, by decide +kernel,
   by constructor <;> decide +kernel, by decide +kernel, by decide +kernel, by unfold NoneChained; decide +kernel,
   by unfold EngineFree; decide +kernel, by decide +kernel⟩⟩

/-- States that meet the hypotheses of MatrixWords. -/
theorem witness_matrix_words :
    (∃ i : Instr, ∃ s : State, ∃ v : Queue, ∃ last : EWord, ∃ n, ∃ ok, ∃ e0, ∃ p, ∃ l, MayBegin s v last ∧ passRow i =
    some (n, ok) ∧ e0 = s.newEntry i ∧ p = v.stack.reverse[0]?.getD 0 ∧ v.stack.length = n ∧ ok = true ∧ firstBad
    (s.passChecks e0) = none ∧ s.cell.rspErr = [] ∧ (field p 4 20 ≠ 0 → (passArg i).a = 0 → field (tileAt s (field
    (e0.vals[1]?.getD 0) 0 8)) 50 2 = 2) ∧ (field p 4 20 ≠ 0 → (passArg i).b = 0 → field (tileAt s (field
    (e0.vals[2]?.getD 0) 0 8)) 50 2 = 2) ∧ (∀ g, g < e0.blocks → AccumBound s (field p 0 4 + g)) ∧ s.core.latWait = some l
    ∧ e0.usesSlot l.slot = true) ∧
    (∃ i : Instr, ∃ s : State, ∃ v : Queue, ∃ last : EWord, ∃ n, ∃ ok, ∃ e0, ∃ p, MayBegin s v last ∧ passRow i = some (n,
    ok) ∧ e0 = s.newEntry i ∧ p = v.stack.reverse[0]?.getD 0 ∧ v.stack.length = n ∧ ok = true ∧ firstBad (s.passChecks e0)
    = none ∧ s.cell.rspErr = [] ∧ (field p 4 20 ≠ 0 → (passArg i).a = 0 → field (tileAt s (field (e0.vals[1]?.getD 0) 0
    8)) 50 2 = 2) ∧ (field p 4 20 ≠ 0 → (passArg i).b = 0 → field (tileAt s (field (e0.vals[2]?.getD 0) 0 8)) 50 2 = 2) ∧
    (∀ g, g < e0.blocks → AccumBound s (field p 0 4 + g)) ∧ s.core.latWait = none ∧ (¬ AccumFull s (field p 0 4)
    e0.blocks)) ∧
    (∃ i : Instr, ∃ s : State, ∃ v : Queue, ∃ last : EWord, ∃ n, ∃ ok, ∃ e0, ∃ p, MayBegin s v last ∧ passRow i = some (n,
    ok) ∧ e0 = s.newEntry i ∧ p = v.stack.reverse[0]?.getD 0 ∧ v.stack.length = n ∧ ok = true ∧ firstBad (s.passChecks e0)
    = none ∧ s.cell.rspErr = [] ∧ (field p 4 20 ≠ 0 → (passArg i).a = 0 → field (tileAt s (field (e0.vals[1]?.getD 0) 0
    8)) 50 2 = 2) ∧ (field p 4 20 ≠ 0 → (passArg i).b = 0 → field (tileAt s (field (e0.vals[2]?.getD 0) 0 8)) 50 2 = 2) ∧
    (∀ g, g < e0.blocks → AccumBound s (field p 0 4 + g)) ∧ s.core.latWait = none ∧ AccumFull s (field p 0 4) e0.blocks) ∧
    (∃ i : Instr, ∃ s : State, ∃ v : Queue, ∃ last : EWord, ∃ n, ∃ ok, ∃ e0, ∃ p, ∃ c, MayBegin s v last ∧ passRow i =
    some (n, ok) ∧ e0 = s.newEntry i ∧ p = v.stack.reverse[0]?.getD 0 ∧ v.stack.length = n ∧ ok = true ∧ firstBad
    (s.passChecks e0) = some (c, 0)) ∧
    (∃ i : Instr, ∃ s : State, ∃ v : Queue, ∃ last : EWord, ∃ n, ∃ ok, ∃ e0, ∃ p, MayBegin s v last ∧ passRow i = some (n,
    ok) ∧ e0 = s.newEntry i ∧ p = v.stack.reverse[0]?.getD 0 ∧ v.stack.length = n ∧ ok = false) ∧
    (∃ i : Instr, ∃ s : State, ∃ v : Queue, ∃ last : EWord, ∃ n, ∃ ok, ∃ e0, ∃ p, MayBegin s v last ∧ passRow i = some (n,
    ok) ∧ e0 = s.newEntry i ∧ p = v.stack.reverse[0]?.getD 0 ∧ v.stack.length ≠ n) ∧
    (∃ i : Instr, ∃ s : State, ∃ v : Queue, ∃ last : EWord, ∃ n, MayBegin s v last ∧ i = .mzero ∧ v.stack = [n] ∧ n.toNat
    ≤ 15 ∧ AccumBound s n.toNat ∧ (¬ AccumFull s n.toNat 1)) ∧
    (∃ i : Instr, ∃ s : State, ∃ v : Queue, ∃ last : EWord, ∃ n, MayBegin s v last ∧ i = .mzero ∧ v.stack = [n] ∧ n.toNat
    ≤ 15 ∧ AccumBound s n.toNat ∧ AccumFull s n.toNat 1) ∧
    (∃ i : Instr, ∃ s : State, ∃ v : Queue, ∃ last : EWord, ∃ n, MayBegin s v last ∧ i = .mzero ∧ v.stack = [n] ∧ 15 <
    n.toNat) ∧
    (∃ i : Instr, ∃ s : State, ∃ v : Queue, ∃ last : EWord, ∃ n, MayBegin s v last ∧ i = .mzero ∧ v.stack = [n] ∧ n.toNat
    ≤ 15 ∧ (¬ AccumBound s n.toNat)) ∧
    (∃ i : Instr, ∃ s : State, ∃ v : Queue, ∃ last : EWord, ∃ c, ∃ d, ∃ m, ∃ n, ∃ h, MayBegin s v last ∧ i = .mdrain c d m
    ∧ v.stack = [h, n] ∧ m.toNat ≠ 3 ∧ (d = true → m.toNat = 1) ∧ n.toNat ≤ 15 ∧ (c = true → AccumBound s n.toNat ∧
    AccumFull s n.toNat 1) ∧ d = false ∧ h.toNat < 256 ∧ field (tileAt s h.toNat) 48 2 = 2 ∧ (if m.toNat = 1 then 4096
    else 8192) ≤ field (tileAt s h.toNat) 24 24 ∧ field (tileAt s h.toNat) 50 2 = (if m.toNat = 2 then 2 else 0)) ∧
    (∃ i : Instr, ∃ s : State, ∃ v : Queue, ∃ last : EWord, ∃ c, ∃ d, ∃ m, ∃ n, ∃ h, MayBegin s v last ∧ i = .mdrain c d m
    ∧ v.stack = [h, n] ∧ m.toNat ≠ 3 ∧ (d = true → m.toNat = 1) ∧ n.toNat ≤ 15 ∧ (c = true → AccumBound s n.toNat ∧
    AccumFull s n.toNat 1) ∧ d = false ∧ h.toNat < 256 ∧ field (tileAt s h.toNat) 48 2 = 2 ∧ (if m.toNat = 1 then 4096
    else 8192) ≤ field (tileAt s h.toNat) 24 24 ∧ field (tileAt s h.toNat) 50 2 ≠ (if m.toNat = 2 then 2 else 0)) ∧
    (∃ i : Instr, ∃ s : State, ∃ v : Queue, ∃ last : EWord, ∃ c, ∃ d, ∃ m, ∃ n, ∃ h, ∃ o, MayBegin s v last ∧ i = .mdrain
    c d m ∧ v.stack = [h, n] ∧ m.toNat ≠ 3 ∧ (d = true → m.toNat = 1) ∧ n.toNat ≤ 15 ∧ (c = true → AccumBound s n.toNat ∧
    AccumFull s n.toNat 1) ∧ d = true ∧ h.toNat ≤ 14 ∧ o = 2048 * ((s.readCsr 0x011).toNat % 128) + 2048 * h.toNat ∧
    (s.readCsr 0x013).getLsbD (o / 16384) = true ∧ (s.readCsr 0x013).getLsbD ((o + 4095) / 16384) = true ∧ s.anyEmpty (o /
    4) 1024 = true) ∧
    (∃ i : Instr, ∃ s : State, ∃ v : Queue, ∃ last : EWord, ∃ c, ∃ d, ∃ m, ∃ n, ∃ h, ∃ o, MayBegin s v last ∧ i = .mdrain
    c d m ∧ v.stack = [h, n] ∧ m.toNat ≠ 3 ∧ (d = true → m.toNat = 1) ∧ n.toNat ≤ 15 ∧ (c = true → AccumBound s n.toNat ∧
    AccumFull s n.toNat 1) ∧ d = true ∧ h.toNat ≤ 14 ∧ o = 2048 * ((s.readCsr 0x011).toNat % 128) + 2048 * h.toNat ∧
    (s.readCsr 0x013).getLsbD (o / 16384) = true ∧ (s.readCsr 0x013).getLsbD ((o + 4095) / 16384) = true ∧ s.anyEmpty (o /
    4) 1024 = false) ∧
    (∃ i : Instr, ∃ s : State, ∃ v : Queue, ∃ last : EWord, ∃ n, ∃ ok, (passRow i = some (n, ok) ∨ (∃ c d m, i = .mdrain c
    d m ∧ n = 2 ∧ ok = (m != 3 && (!d || m == 1))) ∨ (i = .mzero ∧ n = 1 ∧ ok = true)) ∧ AtHead s v last last ∧ v.inChain
    = true ∧ v.chain.length = n ∧ ok = true) :=
  ⟨by refine ⟨.mpass false false false 0 0,
   queued (core engines fun x => { x with latWait := some { slot := 3, need := 1, got := [], bad := [] } }) 0 (headed (.mpass false false false 0 0) [10, 11, 0x304B00004F]),
   headed (.mpass false false false 0 0) [10, 11, 0x304B00004F], eword (encodeEngine (.mpass false false false 0 0)), _,
   _, _, _, _, mayBegin (by constructor <;> decide +kernel) (by decide +kernel), rfl, rfl, rfl, ?_, ?_, ?_, ?_, ?_, ?_,
   by unfold AccumBound; decide +kernel, rfl, ?_⟩ <;> decide +kernel,
   by refine ⟨.mpass false false false 0 0,
   queued (hollow engines 47200) 0 (headed (.mpass false false false 0 0) [10, 11, 0x1100004F]),
   headed (.mpass false false false 0 0) [10, 11, 0x1100004F], eword (encodeEngine (.mpass false false false 0 0)), _, _,
   _, _, mayBegin (by constructor <;> decide +kernel) (by decide +kernel), rfl, rfl, rfl, ?_, ?_, ?_, ?_, ?_, ?_,
   by unfold AccumBound; decide +kernel, ?_, by unfold AccumFull; decide +kernel⟩ <;> decide +kernel,
   by refine ⟨.mpass false false false 0 0, queued engines 0 (headed (.mpass false false false 0 0) [10, 11, 0x1100004F]),
   headed (.mpass false false false 0 0) [10, 11, 0x1100004F], eword (encodeEngine (.mpass false false false 0 0)), _, _,
   _, _, mayBegin (by constructor <;> decide +kernel) (by decide +kernel), rfl, rfl, rfl, ?_, ?_, ?_, ?_, ?_, ?_,
   by unfold AccumBound; decide +kernel, ?_, by unfold AccumFull; decide +kernel⟩ <;> decide +kernel,
   ⟨.mpass false false false 0 0, queued engines 0 (headed (.mpass false false false 0 0) [11, 10, 0x11000040]),
   headed (.mpass false false false 0 0) [11, 10, 0x11000040], eword (encodeEngine (.mpass false false false 0 0)), _, _,
   _, _,
   (firstBad ((queued engines 0 (headed (.mpass false false false 0 0) [11, 10, 0x11000040])).passChecks ((queued engines 0 (headed (.mpass false false false 0 0) [11, 10, 0x11000040])).newEntry (.mpass false false false 0 0)))).elim 0 Prod.fst,
   mayBegin (by constructor <;> decide +kernel) (by decide +kernel), rfl, rfl, rfl, by decide +kernel⟩,
   ⟨.mpass false false false 3 0, queued engines 0 (headed (.mpass false false false 3 0) [10, 11, 0x11000040]),
   headed (.mpass false false false 3 0) [10, 11, 0x11000040], eword (encodeEngine (.mpass false false false 3 0)), _, _,
   _, _, mayBegin (by constructor <;> decide +kernel) (by decide +kernel), rfl, rfl, rfl, by decide +kernel⟩,
   ⟨.mpass false false false 0 0, queued engines 0 (headed (.mpass false false false 0 0) [10, 0x11000040]),
   headed (.mpass false false false 0 0) [10, 0x11000040], eword (encodeEngine (.mpass false false false 0 0)), _, _, _,
   _, mayBegin (by constructor <;> decide +kernel) (by decide +kernel), rfl, rfl, rfl, by decide +kernel⟩,
   ⟨.mzero, queued (hollow engines 47200) 0 (headed .mzero [15]), headed .mzero [15], eword (encodeEngine .mzero), 15,
   mayBegin (by constructor <;> decide +kernel) (by decide +kernel), by decide +kernel, by decide +kernel,
   by decide +kernel, by unfold AccumBound; decide +kernel, by unfold AccumFull; decide +kernel⟩,
   ⟨.mzero, queued engines 0 (headed .mzero [15]), headed .mzero [15], eword (encodeEngine .mzero), 15,
   mayBegin (by constructor <;> decide +kernel) (by decide +kernel), by decide +kernel, by decide +kernel,
   by decide +kernel, by unfold AccumBound; decide +kernel, by unfold AccumFull; decide +kernel⟩,
   ⟨.mzero, queued engines 0 (headed .mzero [16]), headed .mzero [16], eword (encodeEngine .mzero), 16,
   mayBegin (by constructor <;> decide +kernel) (by decide +kernel), by decide +kernel⟩,
   ⟨.mzero, queued user 0 (headed .mzero [0]), headed .mzero [0], eword (encodeEngine .mzero), 0,
   mayBegin (by constructor <;> decide +kernel) (by decide +kernel), by decide +kernel, by decide +kernel,
   by decide +kernel, by unfold AccumBound; decide +kernel⟩,
   by refine ⟨.mdrain false false 0, queued engines 0 (headed (.mdrain false false 0) [8, 15]),
   headed (.mdrain false false 0) [8, 15], eword (encodeEngine (.mdrain false false 0)), false, false, 0, 15, 8,
   mayBegin (by constructor <;> decide +kernel) (by decide +kernel), ?_, ?_, ?_, ?_, ?_,
   by unfold AccumBound AccumFull; decide +kernel, ?_⟩ <;> decide +kernel,
   by refine ⟨.mdrain false false 0, queued engines 0 (headed (.mdrain false false 0) [9, 15]),
   headed (.mdrain false false 0) [9, 15], eword (encodeEngine (.mdrain false false 0)), false, false, 0, 15, 9,
   mayBegin (by constructor <;> decide +kernel) (by decide +kernel), ?_, ?_, ?_, ?_, ?_,
   by unfold AccumBound AccumFull; decide +kernel, ?_⟩ <;> decide +kernel,
   by refine ⟨.mdrain true true 1, queued (hollow engines 11300) 0 (headed (.mdrain true true 1) [14, 15]),
   headed (.mdrain true true 1) [14, 15], eword (encodeEngine (.mdrain true true 1)), true, true, 1, 15, 14, _,
   mayBegin (by constructor <;> decide +kernel) (by decide +kernel), ?_, ?_, ?_, ?_, ?_,
   by unfold AccumBound AccumFull; decide +kernel, ?_, ?_, rfl, ?_⟩ <;> decide +kernel,
   by refine ⟨.mdrain true true 1, queued engines 0 (headed (.mdrain true true 1) [14, 15]),
   headed (.mdrain true true 1) [14, 15], eword (encodeEngine (.mdrain true true 1)), true, true, 1, 15, 14, _,
   mayBegin (by constructor <;> decide +kernel) (by decide +kernel), ?_, ?_, ?_, ?_, ?_,
   by unfold AccumBound AccumFull; decide +kernel, ?_, ?_, rfl, ?_⟩ <;> decide +kernel,
   ⟨.mzero, queued engines 3 { headed .mzero [] with inChain := true, chain := [15] },
   { headed .mzero [] with inChain := true, chain := [15] }, eword (encodeEngine .mzero), 1, true,
   .inr (.inr ⟨rfl, rfl, rfl⟩), by constructor <;> decide +kernel, by decide +kernel⟩⟩

/-- States that meet the hypotheses of CopyWords. -/
theorem witness_copy_words :
    (∃ s : State, ∃ v : Queue, ∃ last : EWord, ∃ f, ∃ n, ∃ p, ∃ d, MayBegin s v last ∧ v.stack = [n, p, d] ∧ n.toNat < 2 ^
    40 ∧ PlaceFine s p n.toNat [0, 1, 2] ∧ PlaceFine s d n.toNat [0, 1, 2] ∧ (f = true → field p 62 2 = 2) ∧ PlaceIn s p 2
    ∧ PlaceIn s d 0) ∧
    (∃ s : State, ∃ v : Queue, ∃ last : EWord, ∃ f, ∃ n, ∃ p, ∃ d, MayBegin s v last ∧ v.stack = [n, p, d] ∧ n.toNat < 2 ^
    40 ∧ PlaceFine s p n.toNat [0, 1, 2] ∧ PlaceFine s d n.toNat [0, 1, 2] ∧ (f = true → field p 62 2 = 2) ∧ (¬ (PlaceIn s
    p 2 ∧ PlaceIn s d 0))) ∧
    (∃ s : State, ∃ v : Queue, ∃ last : EWord, ∃ f c : Bool, ∃ r : BitVec 3, ∃ m : BitVec 2, ∃ n, ∃ p, ∃ d, ∃ i, ∃
    formatted, ∃ plain, ∃ u, i = .ccopy f c r m ∧ r.toNat ≤ 4 ∧ m.toNat ≠ 0 ∧ (m.toNat ≠ 2 → r.toNat = 0) ∧ MayBegin s v
    last ∧ v.stack = [n, p, d] ∧ n ≠ 0 ∧ n.toNat < 2 ^ 40 ∧ s.copyFormats (s.newEntry i) = (u, .ok (formatted, plain)) ∧
    firstBad (s.copyChecks (s.newEntry i) formatted plain) = none ∧ PlaceIn s p 2 ∧ PlaceIn s d 0) ∧
    (∃ s : State, ∃ v : Queue, ∃ last : EWord, ∃ x, ∃ o, ∃ b, ∃ d, MayBegin s v last ∧ v.stack = [x, o, b, d] ∧ field x 48
    16 = 0 ∧ o.toNat % 4 = 0 ∧ PlaceFine s d (field x 0 24 * field x 24 24) [0, 1, 2] ∧ PlaceIn s d 0) ∧
    (∃ s : State, ∃ v : Queue, ∃ last : EWord, ∃ c, ∃ x, ∃ o, ∃ b, ∃ d, ∃ formatted, ∃ plain, ∃ u, MayBegin s v last ∧
    v.stack = [x, o, b, d] ∧ field x 0 24 ≠ 0 ∧ field x 24 24 ≠ 0 ∧ s.gatherFormats (s.newEntry (.cgather c 1)) = (u, .ok
    (formatted, plain)) ∧ firstBad (s.gatherChecks (s.newEntry (.cgather c 1)) formatted plain) = none ∧ PlaceIn s d 0) ∧
    (∃ s : State, ∃ v : Queue, ∃ last : EWord, ∃ x, ∃ n, ∃ d, MayBegin s v last ∧ v.stack = [x, n, d] ∧ PlaceFine s d
    n.toNat [0, 1, 2] ∧ PlaceIn s d 0) ∧
    (∃ s : State, ∃ v : Queue, ∃ last : EWord, ∃ x, ∃ y, MayBegin s v last ∧ v.stack = [x, y]) :=
  ⟨⟨queued engines 8 (headed (.ccopy false true 0 0) [64, inTile 6 64, inStore 0 0x1FFFC0]),
   headed (.ccopy false true 0 0) [64, inTile 6 64, inStore 0 0x1FFFC0], eword (encodeEngine (.ccopy false true 0 0)),
   false, 64, inTile 6 64, inStore 0 0x1FFFC0, mayBegin (by constructor <;> decide +kernel) (by decide +kernel),
   by decide +kernel, by decide +kernel, by unfold PlaceFine; decide +kernel, by unfold PlaceFine; decide +kernel,
   by decide +kernel, by unfold PlaceIn; decide +kernel, by unfold PlaceIn; decide +kernel⟩,
   ⟨queued engines 8 (headed (.ccopy false true 0 0) [64, inTile 4 0, inStore 0 0x1FFFC0]),
   headed (.ccopy false true 0 0) [64, inTile 4 0, inStore 0 0x1FFFC0], eword (encodeEngine (.ccopy false true 0 0)),
   false, 64, inTile 4 0, inStore 0 0x1FFFC0, mayBegin (by constructor <;> decide +kernel) (by decide +kernel),
   by decide +kernel, by decide +kernel, by unfold PlaceFine; decide +kernel, by unfold PlaceFine; decide +kernel,
   by decide +kernel, fun h => absurd (h.1 (by decide +kernel)) (by decide +kernel)⟩,
   ⟨queued (paged engines 0x9E 1 0) 8 (headed (.ccopy false false 0 1) [64, 0x10000, inStore 2 0x7FF00]),
   headed (.ccopy false false 0 1) [64, 0x10000, inStore 2 0x7FF00], eword (encodeEngine (.ccopy false false 0 1)), false,
   false, 0, 1, 64, 0x10000, inStore 2 0x7FF00, .ccopy false false 0 1, _, _, _, by decide +kernel, by decide +kernel,
   by decide +kernel, by decide +kernel, mayBegin (by constructor <;> decide +kernel) (by decide +kernel),
   by decide +kernel, by decide +kernel, by decide +kernel, rfl, by decide +kernel, by unfold PlaceIn; decide +kernel,
   by unfold PlaceIn; decide +kernel⟩,
   ⟨queued engines 8 (headed (.cgather true 0) [0x2000040, 0x10000, 0x10000, inStore 1 0xFFF80]),
   headed (.cgather true 0) [0x2000040, 0x10000, 0x10000, inStore 1 0xFFF80], eword (encodeEngine (.cgather true 0)),
   0x2000040, 0x10000, 0x10000, inStore 1 0xFFF80, mayBegin (by constructor <;> decide +kernel) (by decide +kernel),
   by decide +kernel, by decide +kernel, by decide +kernel, by unfold PlaceFine; decide +kernel,
   by unfold PlaceIn; decide +kernel⟩,
   ⟨queued (paged engines 0x9E 1 0) 8 (headed (.cgather true 1) [0x2000040, 0x10000, 0x10000, inStore 1 0xFFE00]),
   headed (.cgather true 1) [0x2000040, 0x10000, 0x10000, inStore 1 0xFFE00], eword (encodeEngine (.cgather true 1)),
   true, 0x2000040, 0x10000, 0x10000, inStore 1 0xFFE00, _, _, _,
   mayBegin (by constructor <;> decide +kernel) (by decide +kernel), by decide +kernel, by decide +kernel,
   by decide +kernel, rfl, by decide +kernel, by unfold PlaceIn; decide +kernel⟩,
   ⟨queued engines 8 (headed .cfill [7, 0x2000, inTile 8 0]), headed .cfill [7, 0x2000, inTile 8 0],
   eword (encodeEngine .cfill), 7, 0x2000, inTile 8 0, mayBegin (by constructor <;> decide +kernel) (by decide +kernel),
   by decide +kernel, by unfold PlaceFine; decide +kernel, by unfold PlaceIn; decide +kernel⟩,
   ⟨queued engines 1 (headed .chint [7, 8]), headed .chint [7, 8], eword (encodeEngine .chint), 7, 8,
   mayBegin (by constructor <;> decide +kernel) (by decide +kernel), by decide +kernel⟩⟩

/-- States that meet the hypotheses of TransferWords. -/
theorem witness_transfer_words :
    (∃ s : State, ∃ v : Queue, ∃ last : EWord, ∃ n, ∃ p, ∃ d, MayBegin s v last ∧ v.stack = [n, p, d] ∧ n.toNat < 2 ^ 40 ∧
    PlaceFine s p n.toNat [1, 2] ∧ PlaceIn s p 2) ∧
    (∃ s : State, ∃ v : Queue, ∃ last : EWord, ∃ n, ∃ p, ∃ d, MayBegin s v last ∧ v.stack = [n, p, d] ∧ n.toNat < 2 ^ 40 ∧
    PlaceFine s p n.toNat [1, 2] ∧ (¬ PlaceIn s p 2)) ∧
    (∃ s : State, ∃ v : Queue, ∃ last : EWord, ∃ n, ∃ p, ∃ d, MayBegin s v last ∧ v.stack = [n, p, d] ∧ n.toNat < 2 ^ 40 ∧
    PlaceFine s d n.toNat [0, 1, 2] ∧ PlaceIn s d 0) ∧
    (∃ s : State, ∃ v : Queue, ∃ last : EWord, ∃ n, ∃ p, ∃ d, MayBegin s v last ∧ v.stack = [n, p, d] ∧ 2 ^ 40 ≤ n.toNat ∧
    field p 62 2 = 0 ∧ field p 56 6 = 0) ∧
    (∃ s : State, ∃ v : Queue, ∃ last : EWord, ∃ a, MayBegin s v last ∧ v.stack = [a] ∧ a.toNat % 8 = 0) ∧
    (∃ s : State, ∃ v : Queue, ∃ last : EWord, ∃ a, MayBegin s v last ∧ v.stack = [a] ∧ a.toNat % 8 ≠ 0) ∧
    (∃ s : State, ∃ v : Queue, ∃ last : EWord, ∃ r, ∃ a, MayBegin s v last ∧ v.stack = [a] ∧ a.toNat % 64 = 0 ∧ (r = false
    ∨ v.armed.length + (v.run.filter fun e => e.op == .xcoll true).length < 4)) ∧
    (∃ s : State, ∃ v : Queue, ∃ last : EWord, ∃ r, ∃ a, MayBegin s v last ∧ v.stack = [a] ∧ a.toNat % 64 = 0 ∧ r = true ∧
    4 ≤ v.armed.length + (v.run.filter fun e => e.op == .xcoll true).length) ∧
    (∃ s : State, ∃ v : Queue, ∃ last : EWord, ∃ a, MayBegin s v last ∧ v.stack = [a] ∧ a.toNat % 64 ≠ 0) ∧
    (∃ s : State, ∃ v : Queue, ∃ last : EWord, ∃ n, ∃ p, ∃ d, MayBegin s v last ∧ v.stack = [n, p, d] ∧ PlaceFine s p 0
    [0, 1, 2] ∧ (s.readCsr 0x000).getLsbD 8 = true ∧ d.toNat % 64 = 0 ∧ PlaceIn s p 2) ∧
    (∃ s : State, ∃ v : Queue, ∃ last : EWord, ∃ n, ∃ p, ∃ d, MayBegin s v last ∧ v.stack = [n, p, d] ∧ PlaceFine s p 0
    [0, 1, 2] ∧ (s.readCsr 0x000).getLsbD 8 = false) ∧
    (∃ s : State, ∃ v : Queue, ∃ last : EWord, ∃ n, ∃ p, ∃ d, MayBegin s v last ∧ v.stack = [n, p, d] ∧ PlaceFine s p 0
    [0, 1, 2] ∧ (s.readCsr 0x000).getLsbD 8 = true ∧ d.toNat % 64 ≠ 0) :=
  ⟨⟨queued engines 12 (headed (.xwrite false) [128, inTile 6 0, 0x10000]),
   headed (.xwrite false) [128, inTile 6 0, 0x10000], eword (encodeEngine (.xwrite false)), 128, inTile 6 0, 0x10000,
   mayBegin (by constructor <;> decide +kernel) (by decide +kernel), by decide +kernel, by decide +kernel,
   by unfold PlaceFine; decide +kernel, by unfold PlaceIn; decide +kernel⟩,
   ⟨queued engines 12 (headed (.xwrite false) [64, inTile 7 0, 0x10000]),
   headed (.xwrite false) [64, inTile 7 0, 0x10000], eword (encodeEngine (.xwrite false)), 64, inTile 7 0, 0x10000,
   mayBegin (by constructor <;> decide +kernel) (by decide +kernel), by decide +kernel, by decide +kernel,
   by unfold PlaceFine; decide +kernel, by unfold PlaceIn; decide +kernel⟩,
   ⟨queued engines 12 (headed .xread [64, 0x10000, inTile 4 0]), headed .xread [64, 0x10000, inTile 4 0],
   eword (encodeEngine .xread), 64, 0x10000, inTile 4 0, mayBegin (by constructor <;> decide +kernel) (by decide +kernel),
   by decide +kernel, by decide +kernel, by unfold PlaceFine; decide +kernel, by unfold PlaceIn; decide +kernel⟩,
   ⟨queued engines 12 (headed (.xwrite false) [0x10000000000, 0x10000, 0x10000]),
   headed (.xwrite false) [0x10000000000, 0x10000, 0x10000], eword (encodeEngine (.xwrite false)), 0x10000000000, 0x10000,
   0x10000, mayBegin (by constructor <;> decide +kernel) (by decide +kernel), by decide +kernel⟩,
   ⟨queued engines 9 (headed .xrlinv [8]), headed .xrlinv [8], eword (encodeEngine .xrlinv), 8,
   mayBegin (by constructor <;> decide +kernel) (by decide +kernel), by decide +kernel⟩,
   ⟨queued engines 9 (headed .xrlinv [4]), headed .xrlinv [4], eword (encodeEngine .xrlinv), 4,
   mayBegin (by constructor <;> decide +kernel) (by decide +kernel), by decide +kernel⟩,
   ⟨queued engines 9 { headed (.xcoll true) [64] with armed := List.replicate 3 (entry 9 (.xcoll true) [64]) },
   { headed (.xcoll true) [64] with armed := List.replicate 3 (entry 9 (.xcoll true) [64]) },
   eword (encodeEngine (.xcoll true)), true, 64, mayBegin (by constructor <;> decide +kernel) (by decide +kernel),
   by decide +kernel⟩,
   ⟨queued engines 9 { headed (.xcoll true) [64] with armed := List.replicate 4 (entry 9 (.xcoll true) [64]) },
   { headed (.xcoll true) [64] with armed := List.replicate 4 (entry 9 (.xcoll true) [64]) },
   eword (encodeEngine (.xcoll true)), true, 64, mayBegin (by constructor <;> decide +kernel) (by decide +kernel),
   by decide +kernel⟩,
   ⟨queued engines 9 (headed (.xcoll true) [8]), headed (.xcoll true) [8], eword (encodeEngine (.xcoll true)), 8,
   mayBegin (by constructor <;> decide +kernel) (by decide +kernel), by decide +kernel⟩,
   ⟨queued engines 9 (headed .xroute [1, inTile 6 0, 0x10000]), headed .xroute [1, inTile 6 0, 0x10000],
   eword (encodeEngine .xroute), 1, inTile 6 0, 0x10000, mayBegin (by constructor <;> decide +kernel) (by decide +kernel),
   by decide +kernel, by unfold PlaceFine; decide +kernel, by decide +kernel, by decide +kernel,
   by unfold PlaceIn; decide +kernel⟩,
   ⟨queued (csr engines 0 0) 9 (headed .xroute [1, inTile 6 0, 0x10000]), headed .xroute [1, inTile 6 0, 0x10000],
   eword (encodeEngine .xroute), 1, inTile 6 0, 0x10000, mayBegin (by constructor <;> decide +kernel) (by decide +kernel),
   by decide +kernel, by unfold PlaceFine; decide +kernel, by decide +kernel⟩,
   ⟨queued engines 9 (headed .xroute [1, inTile 6 0, 0x10008]), headed .xroute [1, inTile 6 0, 0x10008],
   eword (encodeEngine .xroute), 1, inTile 6 0, 0x10008, mayBegin (by constructor <;> decide +kernel) (by decide +kernel),
   by decide +kernel, by unfold PlaceFine; decide +kernel, by decide +kernel⟩⟩

/-- States that meet the hypotheses of VectorIssue. -/
theorem witness_vector_issue :
    (∃ i : Instr, ∃ s : State, ∃ r : VRow, (integerLanes s i = some r ∨ floatLanes s i = some r ∨ reductions s i = some r
    ∨ laneMoves s i = some r) ∧ i.wellFormed = true ∧ VectorReady s { r with delay := 0 } ∧ s.core.delayClk < r.delay) ∧
    (∃ i : Instr, ∃ s : State, ∃ r : VRow, (integerLanes s i = some r ∨ floatLanes s i = some r ∨ reductions s i = some r
    ∨ laneMoves s i = some r) ∧ i.wellFormed = true ∧ VectorReady { s with csr := Sparse.set s.csr 0x013 0 } r ∧ (¬
    LanesFree s r.dst r.written) ∧ EntersAtOnce s) :=
  ⟨⟨.viadd 1 2 3 false false 2, core (withK user 1) fun x => { x with delayClk := 1 }, _, .inl rfl, by decide +kernel,
   ⟨by decide +kernel, by unfold Usable; decide +kernel, by unfold LanesReady; decide +kernel, by unfold LanesReady; decide +kernel, by unfold LanesFree; decide +kernel⟩,
   by decide +kernel⟩,
   ⟨.viadd 1 2 3 false false 2, csr (withK user 1) 0x013 1, _, .inl rfl, by decide +kernel,
   ⟨by decide +kernel, by unfold Usable; decide +kernel, by unfold LanesReady; decide +kernel, by unfold LanesReady; decide +kernel, by unfold LanesFree; decide +kernel⟩,
   by unfold LanesFree; decide +kernel, by unfold EntersAtOnce Arrived; decide +kernel⟩⟩

/-- States that meet the hypotheses of MaskStack. -/
theorem witness_mask_stack :
    (∃ s : State, ∃ l : BitVec 2, ∃ a : BitVec 6, l.toNat ≤ s.core.delayClk ∧ LanesReady s a.toNat s.k ∧ s.msp ≠ 7) ∧
    (∃ s : State, ∃ l : BitVec 2, ∃ a : BitVec 6, l.toNat ≤ s.core.delayClk ∧ LanesReady s a.toNat s.k ∧ s.msp = 7 ∧
    EntersAtOnce s) ∧
    (∃ s : State, ∃ l : BitVec 2, l.toNat ≤ s.core.delayClk ∧ s.msp ≠ 0) ∧
    (∃ s : State, ∃ l : BitVec 2, l.toNat ≤ s.core.delayClk ∧ s.msp = 0 ∧ EntersAtOnce s) ∧
    (∃ s : State, ∃ l : BitVec 2, ∃ g : BitVec 6, ∃ x, l.toNat ≤ s.core.delayClk ∧ (Instr.vmaskwr g x l).wellFormed = true
    ∧ Usable s [g.toNat] ∧ s.cell.rspErr = []) ∧
    (∃ s : State, ∃ l : BitVec 2, ∃ g a n : BitVec 6, ∃ x, l.toNat ≤ s.core.delayClk ∧ (Instr.vext g a n x l).wellFormed =
    true ∧ LanesReady s a.toNat (1 <<< n.toNat) ∧ Usable s [g.toNat]) ∧
    (∃ s : State, ∃ l : BitVec 2, ∃ g : BitVec 6, l.toNat ≤ s.core.delayClk ∧ (Instr.vmaskrd g l).wellFormed = true ∧
    Usable s [g.toNat]) :=
  ⟨⟨withK user 1, 3, 63, by decide +kernel, by unfold LanesReady; decide +kernel, by decide +kernel⟩,
   ⟨csr (withK user 1) 0x014 7, 3, 63, by decide +kernel, by unfold LanesReady; decide +kernel, by decide +kernel,
   by unfold EntersAtOnce Arrived; decide +kernel⟩,
   ⟨csr (withK user 1) 0x014 1, 3, by decide +kernel⟩,
   ⟨withK user 1, 3, by decide +kernel, by decide +kernel, by unfold EntersAtOnce Arrived; decide +kernel⟩,
   ⟨withK user 1, 3, 31, false, by decide +kernel, by decide +kernel, by unfold Usable; decide +kernel, by decide +kernel⟩,
   ⟨withK user 1, 3, 31, 63, 63, false, by decide +kernel, by decide +kernel, by unfold LanesReady; decide +kernel,
   by unfold Usable; decide +kernel⟩,
   ⟨withK user 1, 3, 31, by decide +kernel, by decide +kernel, by unfold Usable; decide +kernel⟩⟩

/-- States that meet the hypotheses of CoreEvents. -/
theorem witness_core_events :
    (∃ s : State, s.core.inflight.any (onTimeNow s) = false) ∧
    (∃ s : State, AlignedLatches s) ∧
    (∃ s : State, ∃ x, s.core.entering = none ∧ s.core.trapPend = some x ∧ (s.system && s.held) = false ∧ Arrived s (s.clk
    - 1)) ∧
    (∃ s : State, ∃ x, s.core.entering = none ∧ s.core.trapPend = some x ∧ (s.system && s.held) = false ∧ (¬ Arrived s
    (s.clk - 1))) ∧
    (∃ s : State, ∃ x, s.core.entering = none ∧ s.core.trapPend = some x ∧ s.system = true ∧ s.held = true) ∧
    (∃ s : State, ∃ x, s.core.entering = some x) ∧
    (∃ s : State, ∃ m, ∃ ms, AtBoundary s ∧ s.core.machines = m :: ms) ∧
    (∃ s : State, ∃ r, ∃ rs, AtBoundary s ∧ s.core.machines = [] ∧ s.core.refusals = r :: rs) ∧
    (∃ s : State, ∃ q, ∃ qs, ∃ f, AtBoundary s ∧ s.core.machines = [] ∧ s.core.refusals = [] ∧ s.core.engPend = q :: qs ∧
    (s.queue q).fault = some f) ∧
    (∃ s : State, ∃ n, AtBoundary s ∧ s.core.machines = [] ∧ s.core.refusals = [] ∧ s.core.engPend = [] ∧ (s.readCsr
    0x100).getLsbD 0 = true ∧ [3, 2, 0, 1].find? (fun j => (s.readCsr 0x100).getLsbD (16 + j) && (s.readCsr 0x100).getLsbD
    (8 + j)) = some n) ∧
    (∃ s : State, ∃ c, c = (s.readCsr 0x105).toNat % 2 ^ 48 ∧ s.core.status = .running ∧ (s.readCsr 0x104).getLsbD 0 =
    true ∧ s.core.tmrSet = false ∧ 1 < c) ∧
    (∃ s : State, ∃ c, c = (s.readCsr 0x105).toNat % 2 ^ 48 ∧ s.core.status = .running ∧ (s.readCsr 0x104).getLsbD 0 =
    true ∧ s.core.tmrSet = false ∧ c = 1) ∧
    (∃ s : State, ∃ c, c = (s.readCsr 0x105).toNat % 2 ^ 48 ∧ s.core.status = .running ∧ (s.readCsr 0x104).getLsbD 0 =
    true ∧ s.core.tmrSet = false ∧ c = 0) ∧
    (∃ s : State, (s.core.status = .halted ∨ s.core.status = .away ∨ (s.core.status = .preempted ∧ s.mgr.heldHalted =
    true))) ∧
    (∃ s : State, ∃ va, ∃ acc, ∃ c, ∃ ws, s.sys.walks = (va, acc, c) :: ws ∧ (s.sys.hold = true ∨ ¬ Answered s c)) ∧
    (∃ s : State, ∃ va, ∃ acc, ∃ c, ∃ ws, ∃ e, ∃ p, s.sys.walks = (va, acc, c) :: ws ∧ s.sys.hold = false ∧ Answered s c ∧
    s.walkFrom s.asid (va56 va) s.root levels = .leaf e p ∧ permitted p.w0 acc s.system s.ux = true) ∧
    (∃ s : State, ∃ va, ∃ acc, ∃ c, ∃ ws, ∃ f, ∃ p, s.sys.walks = (va, acc, c) :: ws ∧ s.sys.hold = false ∧ Answered s c ∧
    s.walkFrom s.asid (va56 va) s.root levels = f ∧ ((∃ x, f = .fault x ∧ p = (va, x, none)) ∨ (∃ e q, f = .leaf e q ∧
    permitted q.w0 acc s.system s.ux = false ∧ p = (va, 5, some q)))) :=
  ⟨⟨user, by decide +kernel⟩,
   ⟨core user fun x => { x with inflight := [{ target := .vec 512 1 [9], visible := 0, arrive := 0, scalar := false, port := none }] },
   alignedLatches (by decide +kernel)⟩,
   ⟨core user fun x => { x with trapPend := some { code := 5 } }, _, by decide +kernel, rfl, by decide +kernel,
   by unfold Arrived; decide +kernel⟩,
   ⟨core (late user 5) fun x => { x with trapPend := some { code := 5 }, inflight := x.inflight.map fun l => { l with arrive := 20 } },
   _, by decide +kernel, rfl, by decide +kernel, by unfold Arrived; decide +kernel⟩,
   ⟨core (csr sup 0x040 2) fun x => { x with trapPend := some { code := 5 } }, _, by decide +kernel, rfl,
   by decide +kernel⟩,
   ⟨core user fun x => { x with entering := some { info := { code := 5 }, pc := 4, b := 0, waited := 64 } }, _, rfl⟩,
   ⟨core user fun x => { x with machines := [{ addr := 5, info := 9 }] }, { addr := 5, info := 9 }, [],
   by constructor <;> (try unfold Arrived) <;> decide +kernel, by decide +kernel⟩,
   ⟨core user fun x => { x with refusals := [{ va := 5, why := 2, dev := 1 }] }, { va := 5, why := 2, dev := 1 }, [],
   by constructor <;> (try unfold Arrived) <;> decide +kernel, by decide +kernel⟩,
   ⟨core (queued user 3 { Queue.reset with fault := some fault }) fun x => { x with engPend := [3] }, 3, [], fault,
   by constructor <;> (try unfold Arrived) <;> decide +kernel, by decide +kernel⟩,
   ⟨csr user 0x100 0xF0F01, 3, by constructor <;> (try unfold Arrived) <;> decide +kernel, by decide +kernel⟩,
   ⟨csr (csr user 0x104 1) 0x105 2, 2, by decide +kernel⟩,
   ⟨csr (csr user 0x104 1) 0x105 1, 1, by decide +kernel⟩,
   ⟨csr (csr user 0x104 1) 0x105 0, 0, by decide +kernel⟩,
   ⟨core user fun x => { x with status := .halted }, by decide +kernel⟩,
   ⟨walking { mapped user 0x2003F with sys := { user.sys with hold := true } } 0x3FFFF .read, _, _, _, _, rfl,
   .inl (by decide +kernel)⟩,
   ⟨walking (mapped user 0x2003F) 0x3FFFF .read, 0x3FFFF, .read, [], [], 0x140030,
   { asid := 5, base := 0x30000, size := 0x10000, w0 := 0x2003F, w1 := 0 }, by decide +kernel, by decide +kernel,
   by unfold Answered; decide +kernel, by decide +kernel⟩,
   ⟨walking (mapped user 0) 0x3FFFF .read, 0x3FFFF, .read, [], [], .fault Code.translate, (0x3FFFF, Code.translate, none),
   by decide +kernel, by decide +kernel, by unfold Answered; decide +kernel, by decide +kernel, .inl ⟨_, rfl, rfl⟩⟩⟩

/-- States that meet the hypotheses of OutsideAccesses. -/
theorem witness_outside_accesses :
    (∃ s : State, ∃ n : Nat, ∃ v : Word, s.inp.csr = some (n, v) ∧ n = 0x105) ∧
    (∃ s : State, ∃ n : Nat, ∃ v : Word, s.inp.csr = some (n, v) ∧ n = 0x013) ∧
    (∃ s : State, ∃ n : Nat, ∃ v : Word, ∃ w, s.inp.csr = some (n, v) ∧ n = 0x052 ∧ w = (s.readCsr 0x051).toNat % 512) ∧
    (∃ s : State, ∃ n : Nat, ∃ v : Word, s.inp.csr = some (n, v) ∧ n = 0x083) ∧
    (∃ s : State, ∃ n : Nat, ∃ v : Word, s.inp.csr = some (n, v) ∧ n = 0x084) ∧
    (∃ s : State, ∃ n : Nat, ∃ v : Word, s.inp.csr = some (n, v) ∧ n = 0x151) ∧
    (∃ s : State, ∃ n : Nat, ∃ v : Word, ∃ q, ∃ u, s.inp.csr = some (n, v) ∧ n = 0x130 + q ∧ q < 13 ∧ s.cell.queues[q]? =
    some u ∧ v.toNat % 4 = 1 ∧ (u.fault.isSome = true ∨ u.stopped = true)) ∧
    (∃ s : State, ∃ n : Nat, ∃ v : Word, ∃ q, ∃ u, ∃ f, s.inp.csr = some (n, v) ∧ n = 0x130 + q ∧ q < 13 ∧
    s.cell.queues[q]? = some u ∧ v.toNat % 4 = 2 ∧ u.fault = some f ∧ f.atWord = false ∧ u.inChain = false) ∧
    (∃ s : State, ∃ n : Nat, ∃ v : Word, ∃ q, ∃ u, s.inp.csr = some (n, v) ∧ n = 0x130 + q ∧ q < 13 ∧ s.cell.queues[q]? =
    some u ∧ v.toNat % 4 = 3 ∧ (u.fault.isSome = true ∨ u.stopped = true)) ∧
    (∃ s : State, ∃ n : Nat, ∃ v : Word, ∃ q, ∃ u, s.inp.csr = some (n, v) ∧ n = 0x130 + q ∧ q < 13 ∧ s.cell.queues[q]? =
    some u ∧ v.toNat % 4 = 1 ∧ u.fault = none ∧ u.stopped = false) ∧
    (∃ s : State, ∃ n : Nat, ∃ v : Word, ∃ q, ∃ u, s.inp.csr = some (n, v) ∧ n = 0x130 + q ∧ q < 13 ∧ s.cell.queues[q]? =
    some u ∧ v.toNat % 4 = 2 ∧ u.fault = none ∧ u.stopped = false) ∧
    (∃ s : State, ∃ n : Nat, ∃ v : Word, s.inp.csr = some (n, v) ∧ n = 0x190 ∧ field v 56 2 = 0) ∧
    (∃ s : State, ∃ n : Nat, ∃ v : Word, s.inp.csr = some (n, v) ∧ n = 0x190 ∧ field v 56 2 = 1) ∧
    (∃ s : State, ∃ n : Nat, ∃ v : Word, s.inp.csr = some (n, v) ∧ n = 0x190 ∧ field v 56 2 = 2) ∧
    (∃ s : State, ∃ n : Nat, ∃ v : Word, s.inp.csr = some (n, v) ∧ n = 0x0E4) ∧
    (∃ s : State, ∃ n : Nat, ∃ v : Word, ∃ w, s.inp.csr = some (n, v) ∧ (n, w) ∈ plainCsrs) ∧
    (∃ s : State, ∃ n : Nat, ∃ v : Word, s.inp.csr = some (n, v) ∧ (n = 0x000 ∨ n = 0x180)) ∧
    (∃ s : State, ∃ n : Nat, ∃ v : Word, s.inp.csr = some (n, v) ∧ n = 0x103) ∧
    (∃ s : State, ∃ n : Nat, ∃ v : Word, s.inp.csr = some (n, v) ∧ n = 0x181) ∧
    (∃ s : State, ∃ n : Nat, ∃ v : Word, ∃ p, s.inp.csr = some (n, v) ∧ n = 0x1000 + p) ∧
    (∃ s : State, ∃ n : Nat, ∃ v : Word, ∃ m, ∃ w, s.inp.csr = some (n, v) ∧ s.core.wpSent = some (m, w, false)) :=
  ⟨⟨outside user 0x105 5, _, 5, rfl, by decide +kernel⟩,
   ⟨outside user 0x013 5, _, 5, rfl, by decide +kernel⟩,
   ⟨outside (csr user 0x051 407) 0x052 5, _, 5, 407, rfl, by decide +kernel⟩,
   ⟨outside user 0x083 5, _, 5, rfl, by decide +kernel⟩,
   ⟨outside user 0x084 5, _, 5, rfl, by decide +kernel⟩,
   ⟨outside user 0x151 5, _, 5, rfl, by decide +kernel⟩,
   ⟨outside (queued user 12 { Queue.reset with fault := some fault }) 0x13C 1, 0x13C, 1, 12,
   { Queue.reset with fault := some fault }, by decide +kernel⟩,
   ⟨outside (queued user 12 { Queue.reset with fault := some fault }) 0x13C 2, 0x13C, 2, 12,
   { Queue.reset with fault := some fault }, fault, by decide +kernel⟩,
   ⟨outside (queued user 12 { Queue.reset with stopped := true }) 0x13C 3, 0x13C, 3, 12,
   { Queue.reset with stopped := true }, by decide +kernel⟩,
   ⟨outside user 0x13C 1, 0x13C, 1, 12, Queue.reset, by decide +kernel⟩,
   ⟨outside user 0x13C 2, 0x13C, 2, 12, Queue.reset, by decide +kernel⟩,
   ⟨outside user 0x190 5, _, 5, rfl, by decide +kernel⟩,
   ⟨outside user 0x190 0x100000000000000, _, 0x100000000000000, rfl, by decide +kernel⟩,
   ⟨outside user 0x190 0x200000000000000, _, 0x200000000000000, rfl, by decide +kernel⟩,
   ⟨outside user 0x0E4 5, _, 5, rfl, by decide +kernel⟩,
   ⟨outside user 0x104 5, 0x104, 5, 3, by decide +kernel⟩,
   ⟨outside user 0x180 5, 0x180, 5, by decide +kernel⟩,
   ⟨outside user 0x103 5, 0x103, 5, by decide +kernel⟩,
   ⟨outside user 0x181 5, 0x181, 5, by decide +kernel⟩,
   ⟨outside user 0x1005 5, 0x1005, 5, 5, by decide +kernel⟩,
   ⟨core (outside user 0x104 5) fun x => { x with wpSent := some (0x0D1, 0x10055, false) }, 0x104, 5, 0x0D1, 0x10055,
   by decide +kernel⟩⟩

/-- States that meet the hypotheses of EngineEvents. -/
theorem witness_engine_events :
    (∃ s : State, ∃ e : Entry, ∃ c, ∃ o, Moving s e ∧ s.cell.rspErr = [] ∧ s.cell.storeErr = [] ∧ e.op = .mdrain c false 0
    ∧ e.done < 16 ∧ o = field (e.start.desc[0]?.getD 0) 0 24 ∧ PortOpen s 0 2 ∧ CoreBehind s e 2) ∧
    (∃ s : State, ∃ e : Entry, ∃ p, ∃ k, ∃ a, ∃ b, ∃ k0, Moving s e ∧ s.cell.rspErr = [] ∧ s.cell.storeErr = [] ∧ e.op =
    .mpass false false false 0 0 ∧ p = e.vals[0]?.getD 0 ∧ k = field p 4 20 ∧ field p 24 4 = 1 ∧ field p 28 4 = 1 ∧ k0 =
    e.done ∧ k0 < k ∧ a = e.start.desc[0]?.getD 0 ∧ b = e.start.desc[1]?.getD 0 ∧ field a 48 2 = 1 ∧ field b 48 2 = 0 ∧
    e.start.ready = true ∧ e.start.seg = none ∧ e.group = 0 ∧ PortOpen s 0 0 ∧ PortOpen s 0 1 ∧ CoreBehind s e 0 ∧
    CoreBehind s e 1 ∧ s.actq < 9) ∧
    (∃ s : State, ∃ e : Entry, ∃ st, ∃ off, ∃ n, ∃ k, ∃ c, ∃ m, Moving s e ∧ s.cell.rspErr = [] ∧ s.cell.storeErr = [] ∧
    e.op = .cfill ∧ e.start.dst = .store st off ∧ st < 3 ∧ n = (e.vals[1]?.getD 0).toNat ∧ k = e.next ∧ e.done = k ∧ k < n
    ∧ n ≤ 2 ^ 22 ∧ PortOpen s (if s.actq < 9 then 3 else 4) st ∧ CoreBehind s e st ∧ CopyDue s e ∧ s.actq ≠ 0 ∧ c = (if st
    = 0 then 1024 else if st = 1 then 256 else 512) ∧ m = (if n - k ≤ c then n - k else c - (off + k + c) % 4)) ∧
    (∃ s : State, ∃ e : Entry, ∃ st, ∃ off, ∃ n, ∃ k, ∃ va, ∃ p, ∃ x, ∃ y, ∃ m, Moving s e ∧ s.cell.rspErr = [] ∧
    s.cell.storeErr = [] ∧ e.op = .xread ∧ e.start.dst = .store st off ∧ e.start.src = .glob va ∧ st < 3 ∧ n =
    (e.vals[2]?.getD 0).toNat ∧ k = e.next ∧ e.done = k ∧ k < n ∧ n < 2 ^ 22 ∧ e.start.sattr = none ∧ PortOpen s (if
    s.actq < 9 then 3 else 4) st ∧ CoreBehind s e st ∧ (va.setWidth 56).signExtend 64 = va ∧ x = (BitVec.ofNat 56
    (va.toNat + k)).signExtend 64 ∧ inWindow x = false ∧ s.cached x = some p ∧ permitted p.w0 .read s.system s.ux = true ∧
    p.fmt < 4 ∧ p.coll ≠ 3 ∧ isLocal s p = none ∧ s.sys.hold = false ∧ EntryAnswered s e ∧ s.mgr.memErr = [] ∧ y = min
    (min (64 - (off + k) % 64) (n - k)) (p.base + p.size - va56 x) ∧ (y = n - k ∧ m = y ∨ y < n - k ∧ (off + k + y) % 4 <
    y ∧ m = y - (off + k + y) % 4) ∧ s.presentPa (p.frame + (va56 x - p.base)) = true ∧ s.presentPa (p.frame + (va56 x -
    p.base) + m - 1) = true) ∧
    (∃ s : State, ∃ e : Entry, ∃ n, WaitsLast s [] e ∧ e.op = .signal n) ∧
    (∃ s : State, ∃ e : Entry, ∃ n, ∃ es, WaitsLast s es e ∧ es ≠ [] ∧ e.op = .signal n) ∧
    (∃ s : State, ∃ e : Entry, ∃ m, WaitsLast s [] e ∧ Sparse.get s.csr 0x0C0 = 0 ∧ e.op = .fenceq ∧ m = e.vals[0]?.getD 0
    ∧ (∀ q, q < 13 → m.getLsbD q = true → q ≠ s.actq → s.doneBefore q e.enq = true)) ∧
    (∃ s : State, ∃ e : Entry, ∃ m, ∃ q, WaitsLast s [] e ∧ Sparse.get s.csr 0x0C0 = 0 ∧ e.op = .fenceq ∧ m =
    e.vals[0]?.getD 0 ∧ q < 13 ∧ m.getLsbD q = true ∧ q ≠ s.actq ∧ s.doneBefore q e.enq = false) ∧
    (∃ s : State, ∃ e : Entry, ∃ c, WaitsLast s [] e ∧ Sparse.get s.csr 0x0C0 = 0 ∧ e.op = .capstart c) ∧
    (∃ s : State, ∃ e : Entry, ∃ es, ∃ k, WaitsLast s es e ∧ Sparse.get s.csr 0x0C0 = 0 ∧ e.op = .gate k) ∧
    (∃ s : State, ∃ e : Entry, ∃ es, ∃ n, WaitsLast s es e ∧ Sparse.get s.csr 0x0C0 = 0 ∧ e.op = .qgate n) ∧
    (∃ s : State, ∃ e : Entry, ∃ c, s.headEntry s.actq = some e ∧ e.queue = s.actq ∧ s.actq < 13 ∧ s.core.status =
    .running ∧ (s.queue s.actq).stopped = false ∧ (s.queue s.actq).fault = none ∧ e.fin = some c ∧ c ≤ s.clk ∧ s.entryIdle
    e.queue e.seq = true ∧ chains e.op = false) ∧
    (∃ s : State, ∃ e : Entry, ∃ es, ∃ n, s.cell.chained = e :: es ∧ e.op = .mzero ∧ e.vals = [n] ∧ n.toNat ≤ 15 ∧
    AccumBound s n.toNat ∧ AccumFull s n.toNat 1 ∧ e.queue < 13 ∧ (∀ x, x ∈ s.running → Instr.isMatrix x.op = false) ∧
    s.core.status = .running ∧ (s.queue e.queue).stopped = false ∧ (s.queue e.queue).fault = none ∧ s.matrixFaulted =
    false) ∧
    (∃ s : State, ∃ r, s.cell.ready.find? s.readyNow = some r) :=
  ⟨⟨moving engines (work 0 (.mdrain false false 0) [5, 8] .none .none [tileWord 1 0x2000 0x2000 2] 15),
   work 0 (.mdrain false false 0) [5, 8] .none .none [tileWord 1 0x2000 0x2000 2] 15, false, _,
   by constructor <;> decide +kernel, by decide +kernel, by decide +kernel, by decide +kernel, by decide +kernel, rfl,
   by unfold PortOpen; decide +kernel, by unfold CoreBehind; decide +kernel⟩,
   by refine
   ⟨moving engines (work 0 (.mpass false false false 0 0) [0x11000040, 11, 10] .none .none [tileWord 3 0x1000 0 1, tileWord 3 0x1000 0 0] 3),
   work 0 (.mpass false false false 0 0) [0x11000040, 11, 10] .none .none [tileWord 3 0x1000 0 1, tileWord 3 0x1000 0 0] 3,
   _, _, _, _, _, by constructor <;> decide +kernel, ?_, ?_, ?_, rfl, rfl, ?_, ?_, rfl, ?_, rfl, rfl, ?_, ?_, ?_, ?_, ?_,
   by unfold PortOpen; decide +kernel, by unfold PortOpen; decide +kernel, by unfold CoreBehind; decide +kernel,
   by unfold CoreBehind; decide +kernel, ?_⟩ <;> decide +kernel,
   by refine ⟨moving (ticked engines) (work 8 .cfill [0, 3000, 0x11] .none (.store 2 5) [] 2999),
   work 8 .cfill [0, 3000, 0x11] .none (.store 2 5) [] 2999, 2, 5, _, _, _, _, by constructor <;> decide +kernel, ?_, ?_,
   ?_, ?_, ?_, rfl, rfl, ?_, ?_, ?_, by unfold PortOpen; decide +kernel, by unfold CoreBehind; decide +kernel,
   by unfold CopyDue Passed startedBefore; decide +kernel, ?_, rfl, rfl⟩ <;> decide +kernel,
   by refine ⟨moving (present engines) (work 12 .xread [0, 0, 100] (.glob 0x1FFE0) (.store 2 64) [] 0),
   work 12 .xread [0, 0, 100] (.glob 0x1FFE0) (.store 2 64) [] 0, 2, 64, _, _, 0x1FFE0, pageAt user 0x9E 0 0, _, 32, 32,
   by constructor <;> decide +kernel, ?_, ?_, ?_, ?_, ?_, ?_, rfl, rfl, ?_, ?_, ?_, ?_,
   by unfold PortOpen; decide +kernel, by unfold CoreBehind; decide +kernel, ?_, rfl, ?_, ?_, ?_, ?_, ?_, ?_, ?_,
   by unfold EntryAnswered Answered; decide +kernel, ?_⟩ <;> decide +kernel,
   ⟨moving engines (work 9 (.signal 63) [] .none .none [] 0), work 9 (.signal 63) [] .none .none [] 0, 63,
   by constructor <;> decide +kernel, by decide +kernel⟩,
   ⟨queued engines 9 { Queue.reset with run := [work 9 .cfill [] .none .none [] 0, { work 9 (.signal 63) [] .none .none [] 0 with seq := 8 }], nextSeq := 9 },
   { work 9 (.signal 63) [] .none .none [] 0 with seq := 8 }, 63, [work 9 .cfill [] .none .none [] 0],
   by constructor <;> decide +kernel, by decide +kernel⟩,
   ⟨moving engines (work 9 .fenceq [0x1FFF] .none .none [] 0), work 9 .fenceq [0x1FFF] .none .none [] 0, _,
   by constructor <;> decide +kernel, by decide +kernel, by decide +kernel, rfl, by decide +kernel⟩,
   ⟨let t := moving engines { work 9 .fenceq [0x1FFF] .none .none [] 0 with enq := 1 }; { t with cell := { t.cell with queues := t.cell.queues.setIfInBounds 2 { Queue.reset with run := [{ entry 2 .cfill [] with enq := 0 }] } } },
   { work 9 .fenceq [0x1FFF] .none .none [] 0 with enq := 1 }, _, 2, by constructor <;> decide +kernel, by decide +kernel,
   by decide +kernel, rfl, by decide +kernel⟩,
   ⟨moving engines (work 9 (.capstart 7) [] .none .none [] 0), work 9 (.capstart 7) [] .none .none [] 0, 7,
   by constructor <;> decide +kernel, by decide +kernel⟩,
   ⟨moving (csr engines 0x150 0x8000) (work 9 (.gate 15) [] .none .none [] 0), work 9 (.gate 15) [] .none .none [] 0, [],
   15, by constructor <;> decide +kernel, by decide +kernel⟩,
   ⟨moving (cued engines 63 3) (work 9 (.qgate 63) [3] .none .none [] 0), work 9 (.qgate 63) [3] .none .none [] 0, [], 63,
   by constructor <;> decide +kernel, by decide +kernel⟩,
   ⟨moving engines { work 12 .chint [] .none .none [] 0 with fin := some 0 },
   { work 12 .chint [] .none .none [] 0 with fin := some 0 }, 0, by decide +kernel⟩,
   ⟨{ engines with cell := { engines.cell with chained := [work 3 .mzero [15] .none .none [] 0] } },
   work 3 .mzero [15] .none .none [] 0, [], 15, by decide +kernel, by decide +kernel, by decide +kernel,
   by decide +kernel, by unfold AccumBound; decide +kernel, by unfold AccumFull; decide +kernel, by decide +kernel⟩,
   ⟨{ engines with cell := { engines.cell with ready := [{ tile := 4, ring := true, enq := 0, at' := 0 }] } },
   { tile := 4, ring := true, enq := 0, at' := 0 }, by decide +kernel⟩⟩

/-- States that meet the hypotheses of CollectiveEvents. -/
theorem witness_collective_events :
    (∃ s : State, ∃ q, ∃ j, ∃ e, s.actq = q + 16 * (j + 1) ∧ q < 13 ∧ (s.queue q).armed[j]? = some e ∧ e.queue = q ∧
    e.armed = true ∧ e.trig = true ∧ e.fin.isSome = true ∧ s.core.status = .running ∧ (s.queue q).stopped = false ∧
    s.cell.endedRanks.getLsbD s.cell.rank = false ∧ s.cell.endStatus ≠ 2 ∧ (s.queue q).fault = none) ∧
    (∃ s : State, ∃ e, ∃ h, MayPost s e ∧ h = tileOfFiring e ∧ s.coll.postings.length < 16 ∧ (∀ p, p ∈ s.coll.postings →
    p.cidx ≠ field (descOf e 7) 32 12) ∧ (∀ c, c ∈ s.coll.parked → c.cidx ≠ field (descOf e 7) 32 12) ∧ field (tileAt s h)
    50 2 = 0 ∧ 0 < e.start.acc ∧ ((descOf e 0).getLsbD 62 = true → AccumulateOpen s)) ∧
    (∃ s : State, ∃ e, ∃ h, MayPost s e ∧ h = tileOfFiring e ∧ (16 ≤ s.coll.postings.length ∨ (∃ p, p ∈ s.coll.postings ∧
    p.cidx = field (descOf e 7) 32 12) ∨ field (tileAt s h) 50 2 ≠ 0 ∨ ((descOf e 0).getLsbD 62 = true ∧ ¬ PortOpen s 1
    2))) ∧
    (∃ s : State, ∃ r, ∃ c, ∃ x, Oldest s r ∧ HomeHolds s r ∧ r.origin = .own ∧ r.op = .contrib x ∧ x.tdev = s.devid ∧
    x.tcell = s.gcell ∧ c = { x with clock := r.stamp } ∧ s.core.status ≠ .away ∧ (∀ p, p ∈ s.coll.postings → p.cidx ≠
    c.cidx) ∧ (∀ l, l ∈ s.coll.last → l.cidx ≠ c.cidx) ∧ s.wingsRoom c = true) ∧
    (∃ s : State, ∃ r, ∃ c, ∃ x, Oldest s r ∧ HomeHolds s r ∧ r.origin = .own ∧ r.op = .contrib x ∧ x.tdev = s.devid ∧
    x.tcell = s.gcell ∧ c = { x with clock := r.stamp } ∧ s.core.status ≠ .away ∧ (∀ p, p ∈ s.coll.postings → p.cidx ≠
    c.cidx) ∧ (∀ l, l ∈ s.coll.last → l.cidx ≠ c.cidx) ∧ s.wingsRoom c = false) ∧
    (∃ s : State, ∃ c, ∃ cs, ∃ p, ∃ r, s.inp.inbox = c :: cs ∧ (∀ r, r ∈ s.sys.reqs → s.contribOf r = none) ∧ Meets s c p
    r ∧ c.chunk = false ∧ c.epoch = none ∧ p.ordered = false ∧ (¬ PortOpen s 1 2)) ∧
    (∃ s : State, ∃ c, ∃ cs, ∃ p, ∃ r, ∃ w, ∃ v, ∃ x, s.inp.inbox = c :: cs ∧ (∀ r, r ∈ s.sys.reqs → s.contribOf r = none)
    ∧ Meets s c p r ∧ c.chunk = false ∧ c.epoch = none ∧ c.words = [v] ∧ c.off = 4 * w ∧ p.ordered = false ∧ 4 * w + 4 ≤
    field (tileAt s p.tile) 24 24 ∧ s.cell.storeErr = [] ∧ AccumulateOpen s ∧ x = field (tileAt s p.tile) 0 24 + 4 * w) ∧
    (∃ s : State, ∃ c, ∃ cs, ∃ p, ∃ r, ∃ x, s.inp.inbox = c :: cs ∧ (∀ r, r ∈ s.sys.reqs → s.contribOf r = none) ∧ Meets s
    c p r ∧ c.epoch = some x ∧ c.chunk = true ∧ (r, c.off / 64) ∈ p.bitmap ∧ x = p.epoch) ∧
    (∃ s : State, ∃ c, ∃ cs, ∃ p, ∃ r, ∃ x, s.inp.inbox = c :: cs ∧ (∀ r, r ∈ s.sys.reqs → s.contribOf r = none) ∧ Meets s
    c p r ∧ c.epoch = some x ∧ x ≠ p.epoch ∧ 127 < (x + 256 - p.epoch) % 256) ∧
    (∃ s : State, ∃ c, ∃ cs, ∃ p, ∃ r, ∃ x, s.inp.inbox = c :: cs ∧ (∀ r, r ∈ s.sys.reqs → s.contribOf r = none) ∧ Meets s
    c p r ∧ c.epoch = some x ∧ 0 < (x + 256 - p.epoch) % 256 ∧ (x + 256 - p.epoch) % 256 ≤ 127 ∧ s.wingsRoom c = true) ∧
    (∃ s : State, ∃ c, ∃ cs, s.inp.inbox = c :: cs ∧ (∀ r, r ∈ s.sys.reqs → s.contribOf r = none) ∧ s.core.status = .away
    ∧ s.wingsRoom c = false) ∧
    (∃ s : State, s.core.status ≠ .halted ∧ s.core.status ≠ .away) ∧
    (∃ s : State, (s.core.status = .halted ∨ s.core.status = .away)) ∧
    (∃ s : State, ∃ r, ∃ rs, s.coll.outHeld = r :: rs ∧ (∀ c, r.op = .contrib c → s.wingsRoom c = true)) ∧
    (∃ s : State, ∃ r, ∃ rs, ∃ c, s.coll.outHeld = r :: rs ∧ r.op = .contrib c ∧ s.wingsRoom c = false) ∧
    (∃ s : State, ∃ e, ∃ h, ∃ k, Moving s e ∧ e.op = .xroute ∧ e.start.ready = true ∧ e.next = e.done ∧ e.next <
    (e.vals[2]?.getD 0).toNat ∧ 24 ≤ e.routeHub ∧ e.routeHub < 28 ∧ s.hubs[e.routeHub - 24]? = some h ∧ k = s.jobKey ∧ (k,
    s.gcell, e.routeTok0 + e.next) ∈ h.seen) ∧
    (∃ s : State, ∃ e, ∃ h, ∃ k, ∃ st, ∃ off, ∃ xs, ∃ r, ∃ d, ∃ bp, ∃ pa, Moving s e ∧ e.op = .xroute ∧ e.start.ready =
    true ∧ e.next = e.done ∧ e.next < (e.vals[2]?.getD 0).toNat ∧ 24 ≤ e.routeHub ∧ e.routeHub < 28 ∧ s.hubs[e.routeHub -
    24]? = some h ∧ k = s.jobKey ∧ (k, s.gcell, e.routeTok0 + e.next) ∉ h.seen ∧ e.start.src = .store st off ∧ st < 3 ∧
    PortOpen s (if s.actq < 9 then 3 else 4) st ∧ CoreBehind s e st ∧ s.cell.storeErr = [] ∧ s.sys.hold = false ∧
    (Sparse.get s.sys.vc (33 * s.die)).toNat < 2 ^ 40 - 2 ^ 20 ∧ EntryAnswered s e ∧ s.mgr.memErr = [] ∧ OutputPage s
    (descOf e 3) .read (4 * e.routeE) bp ∧ pa = bp.frame + (va56 (descOf e 3) - bp.base) ∧ s.presentPa pa = true ∧
    s.presentPa (pa + 4 * e.routeE - 1) = true ∧ xs = bf16Vals e.routeD (Sparse.getRun (s.cell.store st) (off + 2 *
    e.routeD * e.next) (2 * e.routeD)) ∧ r = scoreRow e.routeK e.routeFb ((List.range e.routeE).map fun x => logit xs
    (bf16Vals e.routeD (Sparse.getRun s.mem (0xF000000000000 + (e.routeHub - 24) * 0x800000 + e.routeGoff + 2 * (x *
    e.routeD)) (2 * e.routeD)))) ((List.range e.routeE).map fun x => BitVec.ofNat 32 (Memory.readLE s.mem (pa + 4 * x) 4))
    ∧ (∀ o, o ∈ e.routeOutputs e.next r → ∃ p, OutputPage s (canon o.1) (if o.2.1.isSome = true then .both else .write) 8
    p) ∧ d = canon (e.routeDst.toNat + 2 * e.routeD * e.next) ∧ (∃ p, OutputPage s d .write (2 * e.routeD) p)) :=
  ⟨⟨{ queued engines 9 { Queue.reset with armed := List.replicate 4 { firing 4 with armed := true, trig := true, fin := some 3 } } with actq := 73 },
   9, 3, { firing 4 with armed := true, trig := true, fin := some 3 }, by decide +kernel⟩,
   by refine ⟨moving (landing engines) (firing 4), firing 4, _,
   by refine ⟨by constructor <;> decide +kernel, ?_, ?_, ?_, ?_, ?_⟩ <;> decide +kernel, rfl, ?_, ?_, ?_, ?_, ?_,
   fun h => absurd h (by decide +kernel)⟩ <;> decide +kernel,
   ⟨moving (landing engines) (firing 5), firing 5, _,
   by refine ⟨by constructor <;> decide +kernel, ?_, ?_, ?_, ?_, ?_⟩ <;> decide +kernel, rfl,
   .inr (.inr (.inl (by decide +kernel)))⟩,
   ⟨homing (present user) (contribution [0x40000000] 124 none),
   ask (.contrib (contribution [0x40000000] 124 none)) 15 .none,
   { contribution [0x40000000] 124 none with clock := List.replicate 28 0 }, contribution [0x40000000] 124 none,
   by unfold Oldest; decide +kernel, by constructor <;> decide +kernel, by decide +kernel⟩,
   ⟨crowded (homing (present user) (contribution [0x40000000] 124 none)),
   ask (.contrib (contribution [0x40000000] 124 none)) 15 .none,
   { contribution [0x40000000] 124 none with clock := List.replicate 28 0 }, contribution [0x40000000] 124 none,
   by unfold Oldest; decide +kernel, by constructor <;> decide +kernel, by decide +kernel⟩,
   ⟨granted (receiving (posting []) (contribution [0x40000000] 124 none)), contribution [0x40000000] 124 none, [],
   posting [], 0, by decide +kernel, by decide +kernel, by constructor <;> decide +kernel, by decide +kernel,
   by decide +kernel, by decide +kernel, by unfold PortOpen; decide +kernel⟩,
   by refine ⟨receiving (posting []) (contribution [0x40000000] 124 none), contribution [0x40000000] 124 none, [],
   posting [], 0, 31, 0x40000000, _, ?_, ?_, by constructor <;> decide +kernel, ?_, ?_, ?_, ?_, ?_, ?_, ?_,
   accumulateOpen (by decide +kernel), rfl⟩ <;> decide +kernel,
   ⟨receiving (posting [(0, 1)]) (contribution [1, 2] 64 (some 5)), contribution [1, 2] 64 (some 5), [], posting [(0, 1)],
   0, 5, by decide +kernel, by decide +kernel, by constructor <;> decide +kernel, by decide +kernel⟩,
   ⟨receiving (posting []) (contribution [1, 2] 64 (some 133)), contribution [1, 2] 64 (some 133), [], posting [], 0, 133,
   by decide +kernel, by decide +kernel, by constructor <;> decide +kernel, by decide +kernel⟩,
   ⟨receiving (posting []) (contribution [1, 2] 64 (some 132)), contribution [1, 2] 64 (some 132), [], posting [], 0, 132,
   by decide +kernel, by decide +kernel, by constructor <;> decide +kernel, by decide +kernel⟩,
   ⟨core (crowded (receiving (posting []) (contribution [1] 0 none))) fun x => { x with status := .away },
   contribution [1] 0 none, [], by decide +kernel⟩,
   ⟨user, by decide +kernel⟩,
   ⟨core user fun x => { x with status := .halted }, by decide +kernel⟩,
   ⟨heldOut user, _, _, rfl, fun c h => by cases h; decide +kernel⟩,
   ⟨crowded (heldOut user), _, _, contribution [1] 0 none, rfl, by decide +kernel⟩,
   ⟨routed [(0, 0, 66)], row2, { live := [], snap := [], seen := [(0, 0, 66)] }, 0, by constructor <;> decide +kernel,
   by decide +kernel⟩,
   by refine ⟨routed [], row2, { live := [], snap := [], seen := [] }, 0, 1, 0, _, scored, _, pageAt user 0x9E 0 0,
   0x20400, by constructor <;> decide +kernel, ?_, ?_, ?_, ?_, ?_, ?_, ?_, ?_, ?_, ?_, ?_,
   by unfold PortOpen; decide +kernel, by unfold CoreBehind; decide +kernel, ?_, ?_, ?_,
   by unfold EntryAnswered Answered; decide +kernel, ?_, by constructor <;> decide +kernel, ?_, ?_, ?_, rfl, rfl,
   row_outputs_are_on_the_page, rfl, ⟨pageAt user 0x9E 0 0, by constructor <;> decide +kernel⟩⟩ <;> decide +kernel⟩

/-- States that meet the hypotheses of HomeEvents. -/
theorem witness_home_events :
    (∃ s : State, ∃ r, ∃ bs, DueFirst s r ∧ inNotify r.pa = false ∧ r.op = .store bs) ∧
    (∃ s : State, ∃ r, ∃ f, ∃ n, ∃ b, ∃ old, DueFirst s r ∧ inNotify r.pa = false ∧ r.op = .atomic f n b ∧ n ≤ 8 ∧ old =
    Memory.readLE s.mem r.pa n) ∧
    (∃ s : State, ∃ r, ∃ n, ∃ x, ∃ v, ∃ old, DueFirst s r ∧ inNotify r.pa = false ∧ r.op = .cas n x v ∧ n ≤ 8 ∧ old =
    Memory.readLE s.mem r.pa n) ∧
    (∃ s : State, ∃ r, ∃ n, DueFirst s r ∧ inNotify r.pa = false ∧ r.op = .load n ∧ n ≤ 8) ∧
    (∃ s : State, ∃ r, ∃ i, Oldest s r ∧ HomeHolds s r ∧ s.reqPresent r = false ∧ r.origin = .own ∧ r.queue = 15 ∧ (∀ n,
    r.dest ≠ .table n) ∧ r.dest ≠ .vat ∧ r.dest ≠ .mgr ∧ inNotify r.pa = false ∧ r.op.isVat = false ∧ i = (if r.op.writes
    = true then Instr.writeAppliedAtHome else Instr.readAnsweredAtHome)) ∧
    (∃ s : State, ∃ d, s.actq = d ∧ d < 28) ∧
    (∃ s : State, ∃ a, ∃ rs, ∃ n, s.sys.replies = a :: rs ∧ s.trace 3 = false ∧ a.dest = .reg n ∧ n < 32 ∧ n ≠ 0 ∧ a.bad =
    false) ∧
    (∃ s : State, ∃ a, ∃ rs, ∃ n, s.sys.replies = a :: rs ∧ s.trace 3 = false ∧ a.dest = .reg n ∧ n < 32 ∧ n ≠ 0 ∧ a.bad =
    true) ∧
    (∃ s : State, ∃ a, ∃ rs, ∃ off, ∃ ls, s.sys.replies = a :: rs ∧ s.trace 3 = false ∧ a.dest = .vec off ls ∧ a.bad =
    false) ∧
    (∃ s : State, ∃ a, ∃ rs, ∃ n, ∃ w, s.sys.replies = a :: rs ∧ s.trace 3 = false ∧ a.dest = .table n ∧ s.core.latWait =
    some w) ∧
    (∃ s : State, ∃ a, ∃ rs, ∃ q, ∃ n, ∃ o, ∃ d, ∃ u, s.sys.replies = a :: rs ∧ s.trace 3 = false ∧ a.dest = .row q n o ∧
    a.bad = false ∧ a.row = some d ∧ s.cell.oq[q]? = some u ∧ q < 4) ∧
    (∃ s : State, ∃ x, ∃ as, s.sys.acks = x :: as) ∧
    (∃ s : State, s.sys.hold = true ∧ s.sys.reqs = [] ∧ s.sys.held = []) ∧
    (∃ s : State, s.sys.hold = false ∧ (∃ k v, (k, v) ∈ s.sys.vc ∧ 2 ^ 39 ≤ v.toNat)) :=
  ⟨⟨asked (present user) (ask (.store [(0x20000, 5)]) 15 .none), _, _,
   ⟨⟨rfl, by decide +kernel⟩, by constructor <;> decide +kernel, by decide +kernel, by decide +kernel, by decide +kernel, rfl⟩,
   by decide +kernel, rfl⟩,
   ⟨asked (present user) (ask (.atomic 0 8 1) 15 (.reg 4)), _, _, _, _, _,
   ⟨⟨rfl, by decide +kernel⟩, by constructor <;> decide +kernel, by decide +kernel, by decide +kernel, by decide +kernel, rfl⟩,
   by decide +kernel, rfl, by decide +kernel, rfl⟩,
   ⟨asked (present user) (ask (.cas 4 0 9) 15 (.reg 4)), _, _, _, _, _,
   ⟨⟨rfl, by decide +kernel⟩, by constructor <;> decide +kernel, by decide +kernel, by decide +kernel, by decide +kernel, rfl⟩,
   by decide +kernel, rfl, by decide +kernel, rfl⟩,
   ⟨asked (present user) (ask (.load 8) 15 (.reg 4)), _, _,
   ⟨⟨rfl, by decide +kernel⟩, by constructor <;> decide +kernel, by decide +kernel, by decide +kernel, by decide +kernel, rfl⟩,
   by decide +kernel, rfl, by decide +kernel⟩,
   ⟨asked user (ask (.load 8) 15 (.reg 4)), ask (.load 8) 15 (.reg 4), _, by unfold Oldest; decide +kernel,
   by constructor <;> decide +kernel, by decide +kernel, by decide +kernel, by decide +kernel, nofun, by decide +kernel,
   by decide +kernel, by decide +kernel, by decide +kernel, rfl⟩,
   ⟨{ user with actq := 27 }, 27, by decide +kernel⟩,
   ⟨replied user (reply (.reg 31)), _, _, 31, rfl, by decide +kernel⟩,
   ⟨replied user { reply (.reg 31) with bad := true }, _, _, 31, rfl, by decide +kernel⟩,
   ⟨replied user (reply (.vec 64 3)), _, _, _, _, rfl, by decide +kernel, rfl, by decide +kernel⟩,
   ⟨core (replied user (reply (.table 3))) fun x => { x with latWait := some { slot := 3, need := 2, got := [], bad := [] } },
   _, _, 3, _, rfl, by decide +kernel, by decide +kernel, rfl⟩,
   ⟨replied user { reply (.row 3 4 1) with row := some row }, _, _, 3, 4, 1, _, [], rfl, by decide +kernel,
   by decide +kernel, by decide +kernel, rfl, by decide +kernel⟩,
   ⟨{ user with sys := { user.sys with acks := [(3, 1)] } }, _, _, rfl⟩,
   ⟨{ user with sys := { user.sys with hold := true } }, by decide +kernel⟩,
   ⟨{ user with sys := { user.sys with vc := [(3, 0x8000000000)] } }, by decide +kernel,
   ⟨3, 0x8000000000, by decide +kernel⟩⟩⟩

/-- States that meet the hypotheses of VatEvents. -/
theorem witness_vat_events :
    (∃ s : State, ∃ r, ∃ op, ∃ pair, ∃ v, ∃ c, ∃ n, ∃ k, VatFirst s r ∧ r.op = .vat op pair v ∧ c = vatField s r.pa 8 8 ∧
    n = vatField s r.pa 16 8 ∧ k = vatField s r.pa 0 1 ∧ (¬ VatFine s r.pa ∨ pair = true ∧ k = 2)) ∧
    (∃ s : State, ∃ r, ∃ op, ∃ pair, ∃ v, ∃ c, ∃ n, ∃ k, ∃ i, VatFirst s r ∧ r.op = .vat op pair v ∧ c = vatField s r.pa 8
    8 ∧ n = vatField s r.pa 16 8 ∧ k = vatField s r.pa 0 1 ∧ VatFine s r.pa ∧ (¬ (pair = true ∧ k = 2)) ∧ op = .push ∧ n <
    c ∧ i = (if k = 2 then (vatField s r.pa 24 8 + n) % c else n)) ∧
    (∃ s : State, ∃ r, ∃ op, ∃ pair, ∃ v, ∃ c, ∃ n, ∃ k, VatFirst s r ∧ r.op = .vat op pair v ∧ c = vatField s r.pa 8 8 ∧
    n = vatField s r.pa 16 8 ∧ k = vatField s r.pa 0 1 ∧ VatFine s r.pa ∧ (¬ (pair = true ∧ k = 2)) ∧ op = .push ∧ n = c) ∧
    (∃ s : State, ∃ r, ∃ op, ∃ pair, ∃ v, ∃ c, ∃ n, ∃ k, VatFirst s r ∧ r.op = .vat op pair v ∧ c = vatField s r.pa 8 8 ∧
    n = vatField s r.pa 16 8 ∧ k = vatField s r.pa 0 1 ∧ VatFine s r.pa ∧ (¬ (pair = true ∧ k = 2)) ∧ op ≠ .push ∧ 0 < n) ∧
    (∃ s : State, ∃ r, ∃ op, ∃ pair, ∃ v, ∃ c, ∃ n, ∃ k, VatFirst s r ∧ r.op = .vat op pair v ∧ c = vatField s r.pa 8 8 ∧
    n = vatField s r.pa 16 8 ∧ k = vatField s r.pa 0 1 ∧ VatFine s r.pa ∧ (¬ (pair = true ∧ k = 2)) ∧ op = .pop ∧ n = 0) ∧
    (∃ s : State, ∃ r, ∃ op, ∃ pair, ∃ v, ∃ c, ∃ n, ∃ k, VatFirst s r ∧ r.op = .vat op pair v ∧ c = vatField s r.pa 8 8 ∧
    n = vatField s r.pa 16 8 ∧ k = vatField s r.pa 0 1 ∧ VatFine s r.pa ∧ (¬ (pair = true ∧ k = 2)) ∧ op = .popNb ∧ n = 0) ∧
    (∃ s : State, ∃ r, ∃ p, ∃ h, s.vatReqs.find? (fun x => (s.nextPoint x).isSome) = some r ∧ s.nextPoint r = some p ∧
    s.sys.held = [h] ∧ h.point = p ∧ s.window p ≠ 0 ∧ h.req.matches r = true ∧ r.origin = .own ∧ r.isPush = false ∧
    h.req.origin ≠ .own ∧ (∀ d c, h.req.origin ≠ .module d c)) ∧
    (∃ s : State, ∃ r, ∃ p, s.vatReqs.find? (fun x => (s.nextPoint x).isSome) = some r ∧ s.nextPoint r = some p ∧
    s.sys.held = [] ∧ s.window p ≠ 0) ∧
    (∃ s : State, ∃ r, ∃ p, s.vatReqs.find? (fun x => (s.nextPoint x).isSome) = some r ∧ s.nextPoint r = some p ∧ s.window
    p = 0 ∧ r.dev = none) ∧
    (∃ s : State, ∃ r, ∃ p, s.vatReqs.find? (fun x => (s.nextPoint x).isSome) = some r ∧ s.nextPoint r = some p ∧ s.window
    p ≠ 0 ∧ r.dev = none ∧ r.origin = .own ∧ 64 ≤ (s.sys.held.filter fun h => h.point == p).length ∧ (∀ h, h ∈ s.sys.held
    → h.point = p → h.req.matches r = false) ∧ (∀ q, q ∈ s.vatReqs → q.id ≠ r.id → s.nextPoint q = some p → q.matches r =
    false)) ∧
    (∃ s : State, ∃ h, ∃ hs, s.sys.held = h :: hs ∧ h.until' ≤ s.clk ∧ h.req.dev = none) ∧
    (∃ s : State, ∃ a, ∃ rs, ∃ h, s.sys.replies = a :: rs ∧ a.dest = .vat ∧ h = (a.lanes[1]?.getD 0).toNat) :=
  ⟨⟨vatAt (vat 3 4 2) .push false, ask (.vat .push false 0xAB) 15 .vat, .push, false, 0xAB, _, _, _,
   ⟨⟨rfl, by decide +kernel⟩, by constructor <;> decide +kernel, by decide +kernel, by decide +kernel, rfl, rfl, by decide +kernel⟩,
   by decide +kernel, rfl, rfl, rfl, .inl fun h => absurd h.kind (by decide +kernel)⟩,
   ⟨vatAt (vat 0 4 3) .push false, ask (.vat .push false 0xAB) 15 .vat, .push, false, 0xAB, _, _, _, _,
   ⟨⟨rfl, by decide +kernel⟩, by constructor <;> decide +kernel, by decide +kernel, by decide +kernel, rfl, rfl, by decide +kernel⟩,
   by decide +kernel, rfl, rfl, rfl, by constructor <;> decide +kernel, by decide +kernel, by decide +kernel,
   by decide +kernel, rfl⟩,
   ⟨vatAt (vat 0 4 4) .push false, ask (.vat .push false 0xAB) 15 .vat, .push, false, 0xAB, _, _, _,
   ⟨⟨rfl, by decide +kernel⟩, by constructor <;> decide +kernel, by decide +kernel, by decide +kernel, rfl, rfl, by decide +kernel⟩,
   by decide +kernel, rfl, rfl, rfl, by constructor <;> decide +kernel, by decide +kernel⟩,
   ⟨vatAt (vat 1 4 1) .pop false, ask (.vat .pop false 0xAB) 15 .vat, .pop, false, 0xAB, _, _, _,
   ⟨⟨rfl, by decide +kernel⟩, by constructor <;> decide +kernel, by decide +kernel, by decide +kernel, rfl, rfl, by decide +kernel⟩,
   by decide +kernel, rfl, rfl, rfl, by constructor <;> decide +kernel, by decide +kernel⟩,
   ⟨vatAt (vat 1 4 0) .pop false, ask (.vat .pop false 0xAB) 15 .vat, .pop, false, 0xAB, _, _, _,
   ⟨⟨rfl, by decide +kernel⟩, by constructor <;> decide +kernel, by decide +kernel, by decide +kernel, rfl, rfl, by decide +kernel⟩,
   by decide +kernel, rfl, rfl, rfl, by constructor <;> decide +kernel, by decide +kernel⟩,
   ⟨vatAt (vat 1 4 0) .popNb false, ask (.vat .popNb false 0xAB) 15 .vat, .popNb, false, 0xAB, _, _, _,
   ⟨⟨rfl, by decide +kernel⟩, by constructor <;> decide +kernel, by decide +kernel, by decide +kernel, rfl, rfl, by decide +kernel⟩,
   by decide +kernel, rfl, rfl, rfl, by constructor <;> decide +kernel, by decide +kernel⟩,
   by refine ⟨holding (vatAt [] .pop true) [heldAt { ask (.vat .push true 5) 15 .vat with id := 60 }],
   ask (.vat .pop true 0xAB) 15 .vat, 0, heldAt { ask (.vat .push true 5) 15 .vat with id := 60 }, ?_, ?_, ?_, ?_, ?_, ?_,
   ?_, ?_, ?_, nofun⟩ <;> decide +kernel,
   ⟨vatAt [] .pop true, ask (.vat .pop true 0xAB) 15 .vat, 0, by decide +kernel⟩,
   ⟨let t := vatAt [] .pop true; { t with sys := { t.sys with pairset := [0] } }, ask (.vat .pop true 0xAB) 15 .vat, 0,
   by decide +kernel⟩,
   ⟨holding (vatAt [] .pop true) (List.replicate 64 (heldAt { ask (.vat .push true 5) 15 .vat with pa := 0x20040 })),
   ask (.vat .pop true 0xAB) 15 .vat, 0, by decide +kernel⟩,
   ⟨holding user [heldAt (ask (.vat .push true 5) 15 .vat)], heldAt (ask (.vat .push true 5) 15 .vat), [],
   by decide +kernel⟩,
   ⟨replied user { reply .vat with lanes := [1, 1] }, _, _, _, rfl, by decide +kernel, rfl⟩⟩

/-- States that meet the hypotheses of LaunchEvents. -/
theorem witness_launch_events :
    (∃ s : State, ∃ r, ∃ tb, ∃ q, ∃ v, DueFirst s r ∧ QueueOn s tb q ∧ v < 2 ^ 32 ∧ r.op = .store (bytesAt
    (0xF000100000000 + 8 * q) 8 v) ∧ r.pa = 0xF000100000000 + 8 * q ∧ TailFits s tb q v) ∧
    (∃ s : State, ∃ r, ∃ tb, ∃ q, ∃ v, DueFirst s r ∧ QueueOn s tb q ∧ v < 2 ^ 32 ∧ r.op = .store (bytesAt
    (0xF000100000000 + 8 * q) 8 v) ∧ r.pa = 0xF000100000000 + 8 * q ∧ (¬ TailFits s tb q v)) ∧
    (∃ s : State, ∃ r, ∃ d, ∃ h, ∃ q, ∃ v, ∃ tb, PeerFirst s r d ∧ r.die = h ∧ QueueOn s tb q ∧ v < 2 ^ 32 ∧ r.op = .store
    (bytesAt (0xF000100000000 + 8 * q) 8 v) ∧ r.pa = 0xF000100000000 + 8 * q ∧ r.key = s.qKey q ∧ (∃ i, i < 4 ∧ aclAdmits
    (s.qAcl q i) d = true) ∧ TailFits s tb q v) ∧
    (∃ s : State, ∃ r, ∃ d, ∃ h, ∃ q, ∃ v, ∃ tb, PeerFirst s r d ∧ r.die = h ∧ QueueOn s tb q ∧ v < 2 ^ 32 ∧ r.op = .store
    (bytesAt (0xF000100000000 + 8 * q) 8 v) ∧ r.pa = 0xF000100000000 + 8 * q ∧ (r.key ≠ s.qKey q ∨ (∀ i, i < 4 → aclAdmits
    (s.qAcl q i) d = false))) ∧
    (∃ s : State, ∃ q, s.lq.slots = List.replicate 32 none ∧ s.qWaiting = [q] ∧ (∀ p, p ∈ s.qUsed → (s.headPacket p).1 =
    s)) ∧
    (∃ s : State, ∃ q, ∃ qs, ∃ tb, ∃ p, ∃ j, s.readable = q :: qs ∧ s.mgr.qtable = some tb ∧ s.headPacket q = (s, .ok p) ∧
    j = queueWord s tb q 24 ∧ (∀ x, x ∈ s.lq.released → x.1 ≠ q) ∧ (packetBad p = true ∨ packetBad p = false ∧ field
    (p[0]?.getD 0) 56 4 = 0)) ∧
    (∃ s : State, ∃ q, ∃ qs, ∃ tb, ∃ p, ∃ j, ∃ u, ∃ a, s.readable = q :: qs ∧ s.mgr.qtable = some tb ∧ s.headPacket q =
    (s, .ok p) ∧ j = queueWord s tb q 24 ∧ (∀ x, x ∈ s.lq.released → x.1 ≠ q) ∧ packetBad p = false ∧ field (p[0]?.getD 0)
    56 4 = 1 ∧ s.acceptRecord q (canon (field (p[0]?.getD 0) 0 56)) = (u, a) ∧ a = .later) ∧
    (∃ s : State, ∃ q, ∃ qs, ∃ tb, ∃ p, ∃ j, ∃ u, ∃ a, s.readable = q :: qs ∧ s.mgr.qtable = some tb ∧ s.headPacket q =
    (s, .ok p) ∧ j = queueWord s tb q 24 ∧ (∀ x, x ∈ s.lq.released → x.1 ≠ q) ∧ packetBad p = false ∧ field (p[0]?.getD 0)
    56 4 = 1 ∧ s.acceptRecord q (canon (field (p[0]?.getD 0) 0 56)) = (u, a) ∧ u = s ∧ a = .refused) ∧
    (∃ s : State, ∃ q, ∃ qs, ∃ tb, ∃ p, ∃ j, ∃ u, ∃ a, ∃ r, ∃ w, ∃ x, ∃ n, s.readable = q :: qs ∧ s.mgr.qtable = some tb ∧
    s.headPacket q = (s, .ok p) ∧ j = queueWord s tb q 24 ∧ (∀ x, x ∈ s.lq.released → x.1 ≠ q) ∧ packetBad p = false ∧
    field (p[0]?.getD 0) 56 4 = 1 ∧ s.acceptRecord q (canon (field (p[0]?.getD 0) 0 56)) = (u, a) ∧ u = s ∧ a = .scene r w
    x ∧ n = field (r[0]?.getD 0) 56 3) ∧
    (∃ s : State, ∃ c, ∃ cs, ∃ v, ∃ cells, s.walkers = c :: cs ∧ recGang c.record = false ∧ c.walk = some v ∧ s.fit c =
    some cells ∧ s.core.status ≠ .away) :=
  ⟨⟨asked (tabled 0) (notify 16), notify 16, 0x40000, 1023, 16,
   ⟨⟨rfl, by decide +kernel⟩, by constructor <;> decide +kernel, by decide +kernel, by decide +kernel, by decide +kernel, rfl⟩,
   by constructor <;> decide +kernel, by decide +kernel, by decide +kernel, by decide +kernel,
   by unfold TailFits; decide +kernel⟩,
   ⟨asked (tabled 0) (notify 17), notify 17, 0x40000, 1023, 17,
   ⟨⟨rfl, by decide +kernel⟩, by constructor <;> decide +kernel, by decide +kernel, by decide +kernel, by decide +kernel, rfl⟩,
   by constructor <;> decide +kernel, by decide +kernel, by decide +kernel, by decide +kernel,
   by unfold TailFits; decide +kernel⟩,
   ⟨asked (linked (tabled 0)) (peerNotify 5 16), peerNotify 5 16, 7, 0, 1023, 16, 0x40000,
   ⟨⟨rfl, by decide +kernel⟩, by constructor <;> decide +kernel, ⟨3, rfl⟩, ⟨3, by decide +kernel⟩⟩, by decide +kernel,
   by constructor <;> decide +kernel, by decide +kernel, by decide +kernel, by decide +kernel, by decide +kernel,
   ⟨0, by decide +kernel⟩, by unfold TailFits; decide +kernel⟩,
   ⟨asked (linked (tabled 0)) (peerNotify 6 16), peerNotify 6 16, 7, 0, 1023, 16, 0x40000,
   ⟨⟨rfl, by decide +kernel⟩, by constructor <;> decide +kernel, ⟨3, rfl⟩, ⟨3, by decide +kernel⟩⟩, by decide +kernel,
   by constructor <;> decide +kernel, by decide +kernel, by decide +kernel, by decide +kernel, .inl (by decide +kernel)⟩,
   ⟨bare, 1023, by decide +kernel⟩,
   ⟨slotted (tabled 1), 1023, [], 0x40000, List.replicate 8 0, _, by decide +kernel, by decide +kernel, by decide +kernel,
   rfl, by decide +kernel⟩,
   ⟨windowed (slotted (packed (tabled 1) 0x100000000040000 [])), 1023, [], 0x40000,
   0x100000000040000 :: List.replicate 7 0, _, _, _, by decide +kernel, by decide +kernel, by decide +kernel, rfl,
   by decide +kernel, by decide +kernel, by decide +kernel, Prod.mk.eta.symm, rfl⟩,
   ⟨slotted (packed (tabled 1) 0x100000000030080 []), 1023, [], 0x40000, 0x100000000030080 :: List.replicate 7 0, _, _, _,
   by decide +kernel, by decide +kernel, by decide +kernel, rfl, by decide +kernel, by decide +kernel, by decide +kernel,
   Prod.mk.eta.symm, by decide +kernel⟩,
   ⟨slotted (packed (tabled 1) 0x100000000030080 [0x100000000000000, 1, 0, 0, 0x1000000, 1]), 1023, [], 0x40000,
   0x100000000030080 :: List.replicate 7 0, _, _, _, scene.record ++ List.replicate 8 0, [], [1, 0, 0, 0, 0, 0], _,
   by decide +kernel, by decide +kernel, by decide +kernel, rfl, by decide +kernel, by decide +kernel, by decide +kernel,
   Prod.mk.eta.symm, by decide +kernel, by decide +kernel, rfl⟩,
   ⟨sceneOn (slotted (tabled 0)) scene, scene, [], [(0, true)], [1], by decide +kernel⟩⟩

/-- States that meet the hypotheses of CompletionEvents. -/
theorem witness_completion_events :
    (∃ s : State, s.clk = s.mgr.nextTick) ∧
    (∃ s : State, s.cellDone = true) ∧
    (∃ s : State, ∃ c, ∃ cs, ∃ tb, ∃ a, ∃ p, ∃ d, s.lq.scenes = c :: cs ∧ s.mgr.qtable = some tb ∧ c.walk = none ∧ c.index
    = queueWord s tb c.queue 32 ∧ (∀ x, x ∈ s.lq.troupes → ¬ (x.queue = c.queue ∧ x.index = c.index)) ∧ a = field
    (c.packet[1]?.getD 0) 0 56 ∧ s.mgrPage ((BitVec.ofNat 56 a).signExtend 64) .write = some p ∧ isLocal s p = some d ∧ a
    ≠ 0 ∧ a % 32 = 0 ∧ c.status < 5 ∧ c.sent = none) ∧
    (∃ s : State, ∃ c, ∃ cs, ∃ tb, ∃ a, s.lq.scenes = c :: cs ∧ s.mgr.qtable = some tb ∧ c.walk = none ∧ c.index =
    queueWord s tb c.queue 32 ∧ (∀ x, x ∈ s.lq.troupes → ¬ (x.queue = c.queue ∧ x.index = c.index)) ∧ a = field
    (c.packet[1]?.getD 0) 0 56 ∧ (∀ p, s.mgrPage ((BitVec.ofNat 56 a).signExtend 64) .write = some p → isLocal s p = none)
    ∧ c.sent = none) :=
  ⟨⟨{ user with clk := 66666667 }, by decide +kernel⟩,
   ⟨core user fun x => { x with status := .ended }, by decide +kernel⟩,
   by refine ⟨sceneOn (windowed (tabled 0)) { scene with walk := none, packet := [0, 0x40000] },
   { scene with walk := none, packet := [0, 0x40000] }, [], 0x40000, _,
   { asid := 5, base := 0x40000, size := 0x10000, w0 := 0x4000000002003F, w1 := 7 }, 7, ?_, ?_, ?_, ?_, ?_, rfl, ?_⟩ <;>
   decide +kernel,
   by refine ⟨sceneOn (tabled 0) { scene with walk := none }, { scene with walk := none }, [], 0x40000, _, ?_, ?_, ?_, ?_,
   ?_, rfl, noPage (by decide +kernel), ?_⟩ <;> decide +kernel⟩

/-- States that meet the hypotheses of ContextEvents. -/
theorem witness_context_events :
    (∃ s : State, ∃ i, ∃ st, ((i = Instr.preempt ∧ st = Status.preempted ∧ s.inp.preempt = true) ∨ (i = Instr.debughalt ∧
    st = Status.halted ∧ s.inp.halt = true)) ∧ s.mayStop = true) ∧
    (∃ s : State, s.inp.preempt = true ∧ s.core.status = .halted) ∧
    (∃ s : State, ∃ c, s.mgr.preemptAt = some c ∧ s.core.status = .preempted ∧ c + s.mgr.deadline ≤ s.clk) ∧
    (∃ s : State, s.mayDepart = true) ∧
    (∃ s : State, s.mayDepart = false) ∧
    (∃ s : State, s.mgr.restoreAt = none ∧ s.inp.restore = true ∧ s.core.status = .away ∧ s.placeFree = true ∧
    s.mgr.images.all sectionOk = true ∧ 0 < s.inp.restoreClk ∧ s.trace 0 = false) ∧
    (∃ s : State, s.mgr.restoreAt = none ∧ s.inp.restore = true ∧ s.core.status = .away ∧ s.placeFree = true ∧
    s.mgr.images.all sectionOk = false) ∧
    (∃ s : State, ∃ c, s.mgr.restoreAt = some c ∧ c ≤ s.clk ∧ s.coll.parked = []) ∧
    (∃ s : State, s.core.status = .halted ∧ s.mgr.stop = [] ∧ s.allSettled = true) ∧
    (∃ s : State, ∃ r, ∃ rs, s.dbg.coming = r :: rs ∧ s.resident = true ∧ s.core.status ≠ .halted ∧ Sparse.get s.csr 0x0C0
    = 0 ∧ s.dbg.war.length < 8) ∧
    (∃ s : State, ∃ r, ∃ rs, s.dbg.coming = r :: rs ∧ s.resident = true ∧ s.core.status ≠ .halted ∧ Sparse.get s.csr 0x0C0
    = 0 ∧ 8 ≤ s.dbg.war.length) ∧
    (∃ s : State, ∃ b, ∃ h, s.core.status = .running ∧ s.cell.endedRanks.getLsbD s.cell.rank = false ∧ s.trace 0 = true ∧
    b = 64 * field (s.readCsr 0x0C1) 6 50 ∧ h = 16 * field (s.readCsr 0x0C3) 4 36 ∧ h + 160 ≤ 64 * field (s.readCsr 0x0C2)
    6 34 ∧ (∀ j, j < 10 → ∃ p, OutputPage s (canon (b + (h + 16 * j))) .write 16 p)) ∧
    (∃ s : State, s.trace 0 = false) :=
  ⟨⟨input user fun x => { x with preempt := true }, .preempt, .preempted, by decide +kernel⟩,
   ⟨core (input user fun x => { x with preempt := true }) fun x => { x with status := .halted }, by decide +kernel⟩,
   ⟨core (manager user fun x => { x with preemptAt := some 0, deadline := 0 }) fun x => { x with status := .preempted },
   _, rfl, by decide +kernel⟩,
   ⟨core user fun x => { x with status := .preempted }, by decide +kernel⟩,
   ⟨user, by decide +kernel⟩,
   ⟨core (input (tabled 0) fun x => { x with restore := true, restoreClk := 1, place := [1] }) fun x => { x with status := .away },
   by decide +kernel⟩,
   ⟨core (input (manager (tabled 0) fun x => { x with images := [[1, 2, 3]] }) fun x => { x with restore := true, restoreClk := 1, place := [1] }) fun x => { x with status := .away },
   by decide +kernel⟩,
   ⟨manager user fun x => { x with restoreAt := some 0 }, 0, by decide +kernel⟩,
   ⟨core user fun x => { x with status := .halted }, by decide +kernel⟩,
   ⟨{ user with dbg := { user.dbg with coming := [report], war := List.replicate 7 report } }, _, _, rfl,
   by decide +kernel⟩,
   ⟨{ user with dbg := { user.dbg with coming := [report], war := List.replicate 8 report } }, _, _, rfl,
   by decide +kernel⟩,
   ⟨csr (csr (csr (csr (flat user) 0x0C0 1) 0x0C1 0x10000) 0x0C2 0x100) 0x0C3 0x60, _, _, by decide +kernel,
   by decide +kernel, by decide +kernel, rfl, rfl, by decide +kernel,
   fun j hj => ⟨pageAt user 0x9E 0 0, by interval_cases j <;> constructor <;> decide +kernel⟩⟩,
   ⟨user, by decide +kernel⟩⟩

/-- States that meet the hypotheses of FabricEvents. -/
theorem witness_fabric_events :
    (∃ s : State, ∃ r, ∃ rs, ∃ w, s.fab.out = r :: rs ∧ s.toRoute r = true ∧ r.origin = .own ∧ r.queue = 15 ∧ r.dest ≠
    .vat ∧ r.dest ≠ .mgr ∧ (∀ n, r.dest ≠ .table n) ∧ s.stuck r = some w) ∧
    (∃ s : State, ∃ r, ∃ rs, ∃ x, ∃ xs, s.fab.out = r :: rs ∧ s.toRoute r = true ∧ r.origin = .own ∧ r.queue = 15 ∧ r.dest
    ≠ .vat ∧ r.dest ≠ .mgr ∧ (∀ n, r.dest ≠ .table n) ∧ s.stuck r = none ∧ rs = [] ∧ s.inp.refusals = (r.id, x) :: xs) ∧
    (∃ s : State, ∃ x, ∃ xs, ∃ i, ∃ p, s.inp.transit = x :: xs ∧ s.member x.port x.key = true ∧ s.hopTo x.goal = some i ∧
    s.member i x.key = true ∧ s.fab.ports[i]? = some p) ∧
    (∃ s : State, ∃ x, ∃ xs, s.inp.transit = x :: xs ∧ s.member x.port x.key = false ∧ (∃ i, s.hopTo x.dev = some i)) ∧
    (∃ s : State, ∃ g, ∃ gs, ∃ i, ∃ w, s.inp.transit = [] ∧ s.fab.waiting = [] ∧ s.inp.ingress = g :: gs ∧ g.void = false
    ∧ (∃ i, s.hopTo g.dev = some i) ∧ ((s.member g.port g.key = false ∧ i = g.port ∧ w = 1) ∨ (s.member g.port g.key =
    true ∧ s.member 36 g.key = false ∧ i = 36 ∧ w = 2))) ∧
    (∃ s : State, ∃ g, ∃ gs, s.inp.transit = [] ∧ s.fab.waiting = [] ∧ s.inp.ingress = g :: gs ∧ g.void = false ∧ (∃ i,
    s.hopTo g.dev = some i) ∧ s.member g.port g.key = true ∧ s.member 36 g.key = true ∧ g.seq < s.expected g) ∧
    (∃ s : State, ∃ g, ∃ gs, s.inp.transit = [] ∧ s.fab.waiting = [] ∧ s.inp.ingress = g :: gs ∧ g.void = false ∧ (∃ i,
    s.hopTo g.dev = some i) ∧ s.member g.port g.key = true ∧ s.member 36 g.key = true ∧ (s.expected g < g.seq ∨ s.sys.hold
    = true ∧ s.expected g ≤ g.seq)) ∧
    (∃ s : State, ∃ g, ∃ gs, ∃ w, s.inp.transit = [] ∧ s.fab.waiting = [] ∧ s.inp.ingress = g :: gs ∧ g.void = false ∧ (∃
    i, s.hopTo g.dev = some i) ∧ s.member g.port g.key = true ∧ s.member 36 g.key = true ∧ g.seq = s.expected g ∧
    s.ingressHeld g = false ∧ (((∃ a, g.casid = some a) ∧ s.fab.compat = false ∧ w = 4) ∨ (g.casid = none ∧ (∀ c, g.op ≠
    .contrib c) ∧ s.presentPa g.pa = false ∧ w = 7))) ∧
    (∃ s : State, ∃ g, ∃ gs, ∃ a, s.inp.transit = [] ∧ s.fab.waiting = [] ∧ s.inp.ingress = g :: gs ∧ g.void = false ∧ (∃
    i, s.hopTo g.dev = some i) ∧ s.member g.port g.key = true ∧ s.member 36 g.key = true ∧ g.seq = s.expected g ∧
    s.ingressHeld g = false ∧ g.casid = none ∧ (((∀ c, g.op ≠ .contrib c) ∧ s.presentPa g.pa = true ∧ a = g.pa) ∨ (∃ c,
    g.op = .contrib c ∧ a = c.tcell / 64 * 2 ^ 37))) ∧
    (∃ s : State, ∃ i, ∃ p, ∃ f, ∃ fs, ∃ ns, s.actq = i ∧ s.fab.ports[i]? = some p ∧ p.up = true ∧ p.window = s.clk / 2000
    ∧ s.fab.out = [] ∧ p.queues = (f :: fs) :: ns ∧ 0 < f.n ∧ p.used0 ≤ 3125) ∧
    (∃ s : State, ∃ i, ∃ p, ∃ f, ∃ fs, ∃ c, ∃ d, s.actq = i ∧ s.fab.ports[i]? = some p ∧ p.up = true ∧ p.window = s.clk /
    2000 ∧ s.fab.out = [] ∧ p.queues = [[], [], f :: fs, []] ∧ 0 < f.n ∧ p.turn = 2 ∧ p.deficit = [0, 0, d + 1, c]) ∧
    (∃ s : State, ∃ i, ∃ p, s.actq = i ∧ s.fab.ports[i]? = some p ∧ p.up = true ∧ p.window = s.clk / 2000 ∧ s.fab.out = []
    ∧ p.queues = [[], [], [], []]) ∧
    (∃ s : State, ∃ i, ∃ n, ∃ p, ∃ as, s.inp.flitAcks = (i, n) :: as ∧ s.fab.ports[i]? = some p) ∧
    (∃ s : State, ∃ i, ∃ p, ∃ is, s.inp.flitAcks = [] ∧ s.inp.flitFail = i :: is ∧ s.fab.ports[i]? = some p) ∧
    (∃ s : State, ∃ i : Nat, ∃ p : Port, s.fab.ports[i]? = some p ∧ p.up = true ∧ 16 ≤ p.retries ∧ (∀ j q, j < i →
    s.fab.ports[j]? = some q → ¬ (q.up = true ∧ 16 ≤ q.retries))) ∧
    (∃ s : State, ∃ i, ∃ p, ∃ is, s.inp.linkFail = i :: is ∧ s.fab.ports[i]? = some p ∧ s.mgr.phase ≠ 15) ∧
    (∃ s : State, ∃ k, ∃ v, s.inp.routes = [(k, v)] ∧ s.inp.spares = []) ∧
    (∃ s : State, ∃ i : Nat, ∃ p : Port, s.inp.spares = [i] ∧ s.fab.ports[i]? = some p) :=
  ⟨by refine ⟨leaving user { ask (.load 8) 15 (.reg 4) with dev := some 2047 },
   { ask (.load 8) 15 (.reg 4) with dev := some 2047 }, _, 3, rfl, ?_, ?_, ?_, ?_, ?_, nofun, ?_⟩ <;> decide +kernel,
   by refine
   ⟨leaving (input user fun x => { x with refusals := [(3, { va := 5, why := 2, dev := 1 })] }) (ask (.load 8) 15 (.reg 4)),
   ask (.load 8) 15 (.reg 4), [], _, _, ?_, ?_, ?_, ?_, ?_, ?_, nofun, ?_, ?_, rfl⟩ <;> decide +kernel,
   ⟨input (linked user) fun x => { x with transit := [passing 5] }, passing 5, [], 3, _, by decide +kernel,
   by decide +kernel, by decide +kernel, by decide +kernel, rfl⟩,
   ⟨input (linked user) fun x => { x with transit := [passing 9] }, passing 9, [], by decide +kernel, by decide +kernel,
   ⟨3, by decide +kernel⟩⟩,
   ⟨arrived user (arriving 9 2), arriving 9 2, [], 3, 1, by decide +kernel, by decide +kernel, by decide +kernel,
   by decide +kernel, ⟨3, by decide +kernel⟩, by decide +kernel⟩,
   ⟨arrived user (arriving 0 1), arriving 0 1, [], by decide +kernel, by decide +kernel, by decide +kernel,
   by decide +kernel, ⟨3, by decide +kernel⟩, by decide +kernel⟩,
   ⟨arrived user (arriving 0 3), arriving 0 3, [], by decide +kernel, by decide +kernel, by decide +kernel,
   by decide +kernel, ⟨3, by decide +kernel⟩, by decide +kernel⟩,
   ⟨arrived user (arriving 0 2), arriving 0 2, [], 7, by decide +kernel, by decide +kernel, by decide +kernel,
   by decide +kernel, ⟨3, by decide +kernel⟩, by decide +kernel, by decide +kernel, by decide +kernel, by decide +kernel,
   .inr ⟨rfl, nofun, by decide +kernel, rfl⟩⟩,
   by refine ⟨arrived (present user) (arriving 0 2), arriving 0 2, [], 0x20000, ?_, ?_, ?_, ?_, ⟨3, by decide +kernel⟩,
   ?_, ?_, ?_, ?_, ?_, .inl ⟨nofun, by decide +kernel, rfl⟩⟩ <;> decide +kernel,
   by refine ⟨ported user { Port.reset with up := true, queues := [[flit], [], [], []], used0 := 3125 }, 35,
   { Port.reset with up := true, queues := [[flit], [], [], []], used0 := 3125 }, _, _, _, ?_, ?_, ?_, ?_, ?_, rfl, ?_⟩
   <;> decide +kernel,
   by refine
   ⟨ported user { Port.reset with up := true, queues := [[], [], [flit], []], turn := 2, deficit := [0, 0, 1, 4] }, 35,
   { Port.reset with up := true, queues := [[], [], [flit], []], turn := 2, deficit := [0, 0, 1, 4] }, _, _, 4, 0, ?_, ?_,
   ?_, ?_, ?_, rfl, ?_⟩ <;> decide +kernel,
   ⟨ported user { Port.reset with up := true }, 35, { Port.reset with up := true }, by decide +kernel⟩,
   ⟨input (ported user { Port.reset with up := true, unacked := [(3, flit), (4, flit)] }) fun x => { x with flitAcks := [(35, 4)] },
   _, _, { Port.reset with up := true, unacked := [(3, flit), (4, flit)] }, _, rfl, by decide +kernel⟩,
   ⟨input (ported user { Port.reset with up := true, unacked := [(3, flit), (4, flit)] }) fun x => { x with flitFail := [35] },
   _, { Port.reset with up := true, unacked := [(3, flit), (4, flit)] }, _, by decide +kernel, rfl, by decide +kernel⟩,
   ⟨{ user with fab := { user.fab with ports := user.fab.ports.setIfInBounds 0 { Port.reset with up := true, retries := 16 } } },
   0, { Port.reset with up := true, retries := 16 }, by decide +kernel, by decide +kernel, by decide +kernel,
   fun j q hj => absurd hj (Nat.not_lt_zero j)⟩,
   ⟨input (ported user { Port.reset with up := true }) fun x => { x with linkFail := [35] }, _,
   { Port.reset with up := true }, _, rfl, by decide +kernel⟩,
   ⟨input user fun x => { x with routes := [(4, 7)] }, _, _, rfl, by decide +kernel⟩,
   ⟨input user fun x => { x with spares := [35] }, 35, Port.reset, by decide +kernel⟩⟩

/-- States that meet the hypotheses of HostEvents. -/
theorem witness_host_events :
    (∃ s : State, ∃ bar, ∃ off, ∃ n, ∃ v, ∃ ws, ∃ i, s.inp.hostWrites = (bar, off, n, v) :: ws ∧ s.mgr.linkUp = true ∧ bar
    = 2 ∧ i < 8 ∧ off = 0x10 + 8 * i) ∧
    (∃ s : State, ∃ bar, ∃ off, ∃ n, ∃ v, ∃ ws, ∃ c, s.inp.hostWrites = (bar, off, n, v) :: ws ∧ s.mgr.linkUp = true ∧ bar
    = 2 ∧ off = 8 ∧ v = BitVec.ofNat 64 c ∧ 1 ≤ c ∧ c ≤ 7 ∧ (s.mgr.phase = 5 ∨ c = 7) ∧ s.mgr.busy = false) ∧
    (∃ s : State, ∃ bar, ∃ off, ∃ n, ∃ v, ∃ ws, ∃ c, s.inp.hostWrites = (bar, off, n, v) :: ws ∧ s.mgr.linkUp = true ∧ bar
    = 2 ∧ off = 8 ∧ v = BitVec.ofNat 64 c ∧ 1 ≤ c ∧ c ≤ 7 ∧ (s.mgr.phase = 5 ∨ c = 7) ∧ s.mgr.busy = true) ∧
    (∃ s : State, ∃ bar, ∃ off, ∃ n, ∃ v, ∃ ws, s.inp.hostWrites = (bar, off, n, v) :: ws ∧ s.mgr.linkUp = true ∧ bar = 4
    ∧ s.mgr.phase = 5 ∧ inNotify (s.mgr.aperture + off) = false ∧ 0 < n ∧ (∀ i, i < n → s.presentPa (s.mgr.aperture + off
    + i) = true) ∧ HostFree s ∧ s.dieHeld 24 true = false) ∧
    (∃ s : State, ∃ bar, ∃ off, ∃ n, ∃ v, ∃ ws, s.inp.hostWrites = (bar, off, n, v) :: ws ∧ s.mgr.linkUp = true ∧ bar = 4
    ∧ s.mgr.phase = 5 ∧ inNotify (s.mgr.aperture + off) = false ∧ 0 < n ∧ (∀ i, i < n → s.presentPa (s.mgr.aperture + off
    + i) = true) ∧ (¬ HostFree s)) ∧
    (∃ s : State, ∃ bar, ∃ off, ∃ n, ∃ rs, s.inp.hostReads = (bar, off, n) :: rs ∧ s.mgr.linkUp = true ∧ bar = 2 ∧ off =
    0) ∧
    (∃ s : State, ∃ bar, ∃ off, ∃ n, ∃ rs, s.inp.hostReads = (bar, off, n) :: rs ∧ s.mgr.linkUp = true ∧ bar ≠ 2 ∧
    s.mgr.phase ≠ 5) ∧
    (∃ s : State, ∃ bar, ∃ off, ∃ n, ∃ rs, s.inp.hostReads = (bar, off, n) :: rs ∧ s.mgr.linkUp = true ∧ bar = 4 ∧
    s.mgr.phase = 5 ∧ s.mgr.memErr = [] ∧ inNotify (s.mgr.aperture + off) = false ∧ s.presentPa (s.mgr.aperture + off) =
    true ∧ HostFree s ∧ s.dieHeld 24 false = false ∧ (∀ e, e < 28 → (Sparse.get s.sys.vc (32 * 24 + e)).toNat ≤
    (Sparse.get s.sys.front e).toNat)) ∧
    (∃ s : State, ∃ bar, ∃ off, ∃ n, ∃ rs, s.inp.hostReads = (bar, off, n) :: rs ∧ s.mgr.linkUp = true ∧ bar = 4 ∧
    s.mgr.phase = 5 ∧ s.mgr.memErr = [] ∧ inNotify (s.mgr.aperture + off) = false ∧ s.presentPa (s.mgr.aperture + off) =
    true ∧ (¬ HostFree s)) ∧
    (∃ s : State, ∃ a, a = (s.mgr.args[0]?.getD 0).toNat ∧ s.mgr.cmd = some 1) ∧
    (∃ s : State, ∃ a, a = (s.mgr.args[0]?.getD 0).toNat ∧ s.mgr.cmd = some 2 ∧ a % 65536 = 0 ∧ s.mgr.qtable = none) ∧
    (∃ s : State, ∃ a, a = (s.mgr.args[0]?.getD 0).toNat ∧ s.mgr.cmd = some 2 ∧ (a % 65536 ≠ 0 ∨ (∃ q, q ∈ s.qUsed))) ∧
    (∃ s : State, ∃ a, ∃ i, ∃ n, ∃ lo, ∃ hi, a = (s.mgr.args[0]?.getD 0).toNat ∧ ((i = Instr.cap ∧ s.mgr.cmd = some 3 ∧ n
    = 0x1D1 ∧ lo = 6000 ∧ hi = 18000) ∨ (i = Instr.tickper ∧ s.mgr.cmd = some 4 ∧ n = 0x181 ∧ lo = 2000 ∧ hi = 2 ^ 40 -
    1))) ∧
    (∃ s : State, ∃ a, ∃ x, a = (s.mgr.args[0]?.getD 0).toNat ∧ s.mgr.cmd = some 5 ∧ s.mgr.haltAsked = false ∧ s.argTroupe
    = some x ∧ s.gcell ∈ x.cells ∧ x.away = false ∧ s.core.status = .running) ∧
    (∃ s : State, ∃ a, a = (s.mgr.args[0]?.getD 0).toNat ∧ s.mgr.cmd = some 5 ∧ s.mgr.haltAsked = false ∧ s.argTroupe =
    none) ∧
    (∃ s : State, ∃ a, a = (s.mgr.args[0]?.getD 0).toNat ∧ s.mgr.cmd = some 5 ∧ s.mgr.haltAsked = true ∧ s.core.status =
    .halted ∧ s.mgr.stop ≠ []) ∧
    (∃ s : State, ∃ a, ∃ x, a = (s.mgr.args[0]?.getD 0).toNat ∧ s.mgr.cmd = some 6 ∧ s.argTroupe = some x ∧ s.gcell ∈
    x.cells ∧ x.away = false ∧ s.core.status = .halted) ∧
    (∃ s : State, ∃ a, a = (s.mgr.args[0]?.getD 0).toNat ∧ s.mgr.cmd = some 7) ∧
    (∃ s : State, s.inp.cold = true) ∧
    (∃ s : State, s.inp.linkReset = true) ∧
    (∃ s : State, ∃ e, 0 < s.inp.phasesDone ∧ s.mgr.phase ≠ 5 ∧ s.mgr.phase ≠ 15 ∧ s.inp.bringErr = e ∧ (e = 10 ∨
    (s.mgr.phase = 0 ∧ (e = 2 ∨ e = 3 ∨ e = 4)) ∨ (s.mgr.phase = 1 ∧ e = 5) ∨ (s.mgr.phase = 2 ∧ (e = 6 ∨ e = 7)) ∨
    (s.mgr.phase = 3 ∧ (e = 8 ∨ e = 9)))) ∧
    (∃ s : State, 0 < s.inp.phasesDone ∧ s.mgr.phase ≠ 5 ∧ s.mgr.phase ≠ 15 ∧ s.inp.bringErr = 0 ∧ s.mgr.phase = 0) ∧
    (∃ s : State, 0 < s.inp.phasesDone ∧ s.mgr.phase ≠ 5 ∧ s.mgr.phase ≠ 15 ∧ s.inp.bringErr = 0 ∧ s.mgr.phase = 3 ∧
    s.inp.maps = [] ∧ (∀ i, i < 36 → (mapOf s.mgr.portmap (24 + i / 9)).getLsbD (9 + i % 9) = false) ∧ (∀ i, i < 36 →
    PortTrained s i = false)) ∧
    (∃ s : State, ∃ i, 0 < s.inp.phasesDone ∧ s.mgr.phase ≠ 5 ∧ s.mgr.phase ≠ 15 ∧ s.inp.bringErr = 0 ∧ s.mgr.phase = 3 ∧
    s.inp.maps = [] ∧ (∀ i, i < 36 → (mapOf s.mgr.portmap (24 + i / 9)).getLsbD (9 + i % 9) = false) ∧ i < 36 ∧
    PortTrained s i = true ∧ (i, field s.inp.devid 0 11) ∈ s.inp.cabled) ∧
    (∃ s : State, ∃ i, ∃ g, 0 < s.inp.phasesDone ∧ s.mgr.phase ≠ 5 ∧ s.mgr.phase ≠ 15 ∧ s.inp.bringErr = 0 ∧ s.mgr.phase =
    3 ∧ s.inp.maps = [] ∧ (∀ i, i < 36 → (mapOf s.mgr.portmap (24 + i / 9)).getLsbD (9 + i % 9) = false) ∧ i < 36 ∧
    PortTrained s i = true ∧ (∀ j, (j, field s.inp.devid 0 11) ∉ s.inp.cabled) ∧ g = field s.inp.devid 12 1 ∧ Cabled s g) ∧
    (∃ s : State, ∃ i, 0 < s.inp.phasesDone ∧ s.mgr.phase ≠ 5 ∧ s.mgr.phase ≠ 15 ∧ s.inp.bringErr = 0 ∧ s.mgr.phase = 3 ∧
    s.inp.maps = [] ∧ (∀ i, i < 36 → (mapOf s.mgr.portmap (24 + i / 9)).getLsbD (9 + i % 9) = false) ∧ i < 36 ∧
    PortTrained s i = true ∧ (∀ j, (j, field s.inp.devid 0 11) ∉ s.inp.cabled) ∧ (¬ Cabled s 0) ∧ (¬ Cabled s 1)) ∧
    (∃ s : State, ∃ w, s.clk % 16 = 0 ∧ w = s.clk / 16 % 49152 ∧ s.inp.scrub = [] ∧ s.cell.storeErr = [] ∧ Sparse.get
    s.cell.rspErr w = 1) ∧
    (∃ s : State, ∃ w, s.clk % 16 = 0 ∧ w = s.clk / 16 % 49152 ∧ s.inp.scrub = [] ∧ s.cell.storeErr = [] ∧ 2 ≤ (Sparse.get
    s.cell.rspErr w).toNat) ∧
    (∃ s : State, ∃ c, ∃ cs, s.inp.retire = c :: cs ∧ c < 1536) :=
  ⟨⟨input user fun x => { x with hostWrites := [(2, 0x48, 8, 9)] }, _, _, _, _, _, 7, rfl, by decide +kernel⟩,
   ⟨input user fun x => { x with hostWrites := [(2, 8, 8, 7)] }, _, _, _, _, _, 7, rfl, by decide +kernel⟩,
   ⟨manager (input user fun x => { x with hostWrites := [(2, 8, 8, 7)] }) fun x => { x with busy := true }, _, _, _, _, _,
   7, rfl, by decide +kernel⟩,
   by refine ⟨input (present user) fun x => { x with hostWrites := [(4, 0x20000, 8, 7)] }, _, _, _, _, _, rfl, ?_, ?_, ?_,
   ?_, ?_, ?_, by unfold HostFree; decide +kernel, ?_⟩ <;> decide +kernel,
   by refine
   ⟨input (asked (present user) { ask (.load 8) 15 .mgr with origin := .hub 24 }) fun x => { x with hostWrites := [(4, 0x20000, 8, 7)] },
   _, _, _, _, _, rfl, ?_, ?_, ?_, ?_, ?_, ?_, by unfold HostFree; decide +kernel⟩ <;> decide +kernel,
   ⟨input user fun x => { x with hostReads := [(2, 0, 8)] }, _, _, _, _, rfl, by decide +kernel⟩,
   ⟨manager (input user fun x => { x with hostReads := [(4, 0, 8)] }) fun x => { x with phase := 3 }, _, _, _, _, rfl,
   by decide +kernel⟩,
   by refine ⟨input (present user) fun x => { x with hostReads := [(4, 0x20000, 8)] }, _, _, _, _, rfl, ?_, ?_, ?_, ?_,
   ?_, ?_, by unfold HostFree; decide +kernel, ?_⟩ <;> decide +kernel,
   by refine
   ⟨input (asked (present user) { ask (.load 8) 15 .mgr with origin := .hub 24 }) fun x => { x with hostReads := [(4, 0x20000, 8)] },
   _, _, _, _, rfl, ?_, ?_, ?_, ?_, ?_, ?_, by unfold HostFree; decide +kernel⟩ <;> decide +kernel,
   ⟨manager user fun x => { x with cmd := some 1 }, _, rfl, by decide +kernel⟩,
   ⟨manager user fun x => { x with cmd := some 2, args := Vector.replicate 8 0x40000 }, _, rfl, by decide +kernel⟩,
   ⟨manager user fun x => { x with cmd := some 2, args := Vector.replicate 8 0x40040 }, _, rfl, by decide +kernel,
   .inl (by decide +kernel)⟩,
   ⟨manager user fun x => { x with cmd := some 3 }, _, .cap, 0x1D1, 6000, 18000, rfl, by decide +kernel⟩,
   ⟨manager { user with lq := { Launch.reset with troupes := [troupe] } } fun x => { x with cmd := some 5 }, _, troupe,
   rfl, by decide +kernel⟩,
   ⟨manager user fun x => { x with cmd := some 5 }, _, rfl, by decide +kernel⟩,
   ⟨core (manager user fun x => { x with cmd := some 5, haltAsked := true, stop := [1] }) fun x => { x with status := .halted },
   _, rfl, by decide +kernel⟩,
   ⟨core (manager { user with lq := { Launch.reset with troupes := [troupe] } } fun x => { x with cmd := some 6 }) fun x => { x with status := .halted },
   _, troupe, rfl, by decide +kernel⟩,
   ⟨manager user fun x => { x with cmd := some 7 }, _, rfl, by decide +kernel⟩,
   ⟨input user fun x => { x with cold := true }, by decide +kernel⟩,
   ⟨input user fun x => { x with linkReset := true }, by decide +kernel⟩,
   ⟨manager (input user fun x => { x with phasesDone := 1, bringErr := 2 }) fun x => { x with phase := 0 }, _,
   by decide +kernel, by decide +kernel, by decide +kernel, rfl, by decide +kernel⟩,
   ⟨manager (input user fun x => { x with phasesDone := 1 }) fun x => { x with phase := 0 }, by decide +kernel⟩,
   ⟨manager (input user fun x => { x with phasesDone := 1 }) fun x => { x with phase := 3 }, by decide +kernel⟩,
   ⟨trained 0 [(0, 0)], 0, by decide +kernel⟩,
   by refine ⟨trained 0x1001 [(0, 0)], 0, 1, ?_, ?_, ?_, ?_, ?_, ?_, ?_, ?_, ?_, not_found (by decide +kernel), ?_,
   cabled_one (n := 0) (by decide +kernel)⟩ <;> decide +kernel,
   by refine ⟨trained 2047 [(0, 5)], 0, ?_, ?_, ?_, ?_, ?_, ?_, ?_, ?_, ?_, not_found (by decide +kernel),
   fun h => absurd h.1 (by decide +kernel), fun h => absurd h.1 (by decide +kernel)⟩ <;> decide +kernel,
   ⟨{ user with clk := 786416, cell := { user.cell with rspErr := [(49151, 1)] } }, _, by decide +kernel, rfl,
   by decide +kernel⟩,
   ⟨{ user with clk := 786416, cell := { user.cell with rspErr := [(49151, 2)] } }, _, by decide +kernel, rfl,
   by decide +kernel⟩,
   ⟨input user fun x => { x with retire := [1535] }, _, _, rfl, by decide +kernel⟩⟩

/-- States that meet the hypotheses of PowerEvents. -/
theorem witness_power_events :
    (∃ s : State, ∃ i, ∃ d, s.inp.sensors = [(i, d)] ∧ i ∈ s.islands ∧ d < 2 ^ 16 ∧ s.pwr.temps = [] ∧ s.pwr.hot = [] ∧
    s.pwr.capped = [] ∧ 100 ≤ d) ∧
    (∃ s : State, ∃ i, ∃ d, s.inp.sensors = [(i, d)] ∧ i ∈ s.islands ∧ d < 2 ^ 16 ∧ s.pwr.temps = [] ∧ s.pwr.hot = [] ∧
    s.pwr.capped = [] ∧ d < 100) ∧
    (∃ s : State, s.trips = true) ∧
    (∃ s : State, ∃ c, ∃ i, c = (s.readCsr 0x1D1).toNat % 2 ^ 16 ∧ c < s.inp.power ∧ s.nextLower = some i) ∧
    (∃ s : State, ∃ c, ∃ i, ∃ is, c = (s.readCsr 0x1D1).toNat % 2 ^ 16 ∧ s.inp.power < c ∧ s.pwr.capped = i :: is) ∧
    (∃ s : State, ∃ c, c = (s.readCsr 0x1D1).toNat % 2 ^ 16 ∧ c = s.inp.power) ∧
    (∃ s : State, ∃ i, ∃ n, s.clk % 16 = 0 ∧ s.pwr.pending = [(i, n)] ∧ s.inp.ratios = [] ∧ 1 ≤ n ∧ n ≤ 16) ∧
    (∃ s : State, s.clk % 16 ≠ 0) :=
  ⟨⟨input user fun x => { x with sensors := [(0, 100)] }, 0, 100, by decide +kernel⟩,
   ⟨input user fun x => { x with sensors := [(0, 99)] }, 0, 99, by decide +kernel⟩,
   ⟨{ user with pwr := { user.pwr with temps := [(0, 120)] } }, by decide +kernel⟩,
   ⟨input user fun x => { x with power := 18001 }, _, (user.nextLower).getD 0, rfl, by decide +kernel⟩,
   ⟨{ input user (fun x => { x with power := 17999 }) with pwr := { user.pwr with capped := [0] } }, _, _, _, rfl,
   by decide +kernel, rfl⟩,
   ⟨input user fun x => { x with power := 18000 }, _, rfl, by decide +kernel⟩,
   ⟨{ user with pwr := { user.pwr with pending := [(0, 16)] } }, _, _, by decide +kernel, rfl, by decide +kernel⟩,
   ⟨{ user with clk := 15 }, by decide +kernel⟩⟩

/-- States that meet the hypotheses of DecodeEncode. -/
theorem witness_decode_encode :
    (∃ i : Instr, i.isCore = true ∧ i.wellFormed = true) ∧
    (∃ e : EngineKind, ∃ i : Instr, i.onEngine e = true) :=
  ⟨⟨.cas 3 2 5 false false (some { order := 3, scope := 2, ford := 1 }), by decide +kernel⟩,
   ⟨.copy, .ccopy true true 4 2, by decide +kernel⟩⟩

/-- States that meet the hypotheses of StepRuns. -/
theorem witness_step_runs :
    (∃ s : State, ∃ i, ∃ ws, ComesToIssue s ∧ UnitAtPc s i ws) ∧
    (∃ s : State, ∃ q, ∃ rest, ∃ v, ∃ w, ∃ i, s.agenda = .word q :: rest ∧ s.cell.queues[q]? = some v ∧ v.words.head? =
    some w ∧ decodeEngine (if q = 0 ∨ v.inChain = true then .matrix else if q ≤ 8 then .copy else .transfer) w.w.toNat =
    some i) ∧
    (∃ s : State, ∃ q, ∃ i, ∃ rest, s.agenda = .event q i :: rest) :=
  ⟨⟨user.placeUnit 0x5C000003, .nop, [0x5C000003], by refine ⟨?_, ?_, ?_, ?_, ?_⟩ <;> decide +kernel,
   ⟨by decide +kernel, by decide +kernel, by decide +kernel, by decide +kernel, fun j w h => by cases j with | zero => cases h; exact ⟨_, ⟨by decide +kernel, by decide +kernel, by decide +kernel, rfl, by decide +kernel, by decide +kernel, by decide +kernel⟩, by decide +kernel, by decide +kernel⟩ | succ j => cases h⟩⟩,
   ⟨{ queued user 12 (headed .mark []) with agenda := [.word 12, .edge] }, 12, [.edge], headed .mark [],
   eword (encodeEngine .mark), .mark, by decide +kernel⟩,
   ⟨{ user with agenda := [.event 3 .deferredReadiness, .edge] }, _, _, _, rfl⟩⟩

/-- States that meet the hypotheses of KeepsMemories. -/
theorem witness_keeps_memories :
    ∃ s t : State, s.memoriesWf = true ∧ step s = .next t :=
  ⟨{ user with agenda := [.edge] }, State.edge { user with agenda := [.edge] }, by decide +kernel, rfl⟩

/-- States that meet the hypotheses of KeepsClkOrder. -/
theorem witness_keeps_clk_order :
    ∃ s t : State, clkOrdered s.agenda = true ∧ step s = .next t :=
  ⟨{ user with agenda := [.edge] }, State.edge { user with agenda := [.edge] }, by decide +kernel, rfl⟩

/-- Instructions of the tables with ready operands. -/
theorem witness_scalar_tables :
    (∃ i s r, arithmetic i = some r ∧ Usable s (r.srcs ++ [r.dst])) ∧ (∃ i s r, comparison i = some r ∧ Usable s (r.srcs ++ [r.dst])) ∧
    (∃ i s r, bitwise i = some r ∧ Usable s (r.srcs ++ [r.dst])) ∧ (∃ i s r, immediate i = some r ∧ Usable s (r.srcs ++ [r.dst])) :=
  ⟨⟨.div 31 4 5 false false, user, _, rfl, by unfold Usable; decide +kernel⟩,
   ⟨.sel 0 4 5 false false, user, _, rfl, by unfold Usable; decide +kernel⟩,
   ⟨.select 31 4 4 false false, user, _, rfl, by unfold Usable; decide +kernel⟩,
   ⟨.addpc 31 { lo := -1, hi := none }, user, _, rfl, by unfold Usable; decide +kernel⟩⟩

/-- Vector instructions of the tables that can issue, with every lane enabled. -/
theorem witness_vector_tables :
    (∃ i s r, integerLanes s i = some r ∧ i.wellFormed = true ∧ VectorReady s r) ∧
    (∃ i s r, floatLanes s i = some r ∧ i.wellFormed = true ∧ VectorReady s r) ∧
    (∃ i s r, reductions s i = some r ∧ i.wellFormed = true ∧ VectorReady s r) ∧
    (∃ i s r, laneMoves s i = some r ∧ i.wellFormed = true ∧ VectorReady s r) :=
  ⟨⟨.vimulh 63 62 61 false false 3, withK user (-1), _, rfl, by decide, by decide +kernel,
      by unfold Usable; decide +kernel, by unfold LanesReady; decide +kernel, by unfold LanesReady; decide +kernel,
      by unfold LanesFree; decide +kernel⟩,
   ⟨.vfma 63 63 63 false false 3, withK user (-1), _, rfl, by decide, by decide +kernel,
      by unfold Usable; decide +kernel, by unfold LanesReady; decide +kernel, by unfold LanesReady; decide +kernel,
      by unfold LanesFree; decide +kernel⟩,
   ⟨.vfrsum 0 12 false 0, withK user (-1), _, rfl, by decide, by decide +kernel,
      by unfold Usable; decide +kernel, by unfold LanesReady; decide +kernel, by unfold LanesReady; decide +kernel,
      by unfold LanesFree; decide +kernel⟩,
   ⟨.vbcast 0 12 63 false 0, withK user (-1), _, rfl, by decide, by decide +kernel,
      by unfold Usable; decide +kernel, by unfold LanesReady; decide +kernel, by unfold LanesReady; decide +kernel,
      by unfold LanesFree; decide +kernel⟩⟩

/-- Queues that take a word, that are full, and whose open entry holds 64 words. -/
theorem witness_enqueues :
    (∃ (v : Queue) (ws : List (BitVec 16)), EntriesFit v ws ∧ v.words.length + ws.length ≤ 256) ∧
    (∃ (v : Queue) (ws : List (BitVec 16)), EntriesFit v ws ∧ 256 < v.words.length + ws.length) ∧
    (∃ (v : Queue) (ws : List (BitVec 16)), ¬ EntriesFit v ws) :=
  ⟨⟨{ Queue.reset with words := List.replicate 255 (eword 0xE000) }, [0xE000], by unfold EntriesFit; decide +kernel, by decide +kernel⟩,
   ⟨{ Queue.reset with words := List.replicate 256 (eword 0xE000) }, [0xE000], by unfold EntriesFit; decide +kernel, by decide +kernel⟩,
   ⟨{ Queue.reset with words := List.replicate 64 (eword 0xA000) }, [0xE000], by unfold EntriesFit; decide +kernel⟩⟩

/-! ### Single steps -/

/-- The state after an instruction. -/
def ran (i : Instr) (s : State) : State :=
  match exec i s with
  | .next t => t
  | _ => s

/-- What the results in flight write. -/
def flying (s : State) : List Target := s.core.inflight.map Latch.target

/-- R78: addition modulo 2^64. -/
theorem test_add_wraps :
    (ran (.add 3 4 5 false false) (put (put user 4 0xFFFFFFFFFFFFFFFF) 5 2)).g 3 = 1 := by decide +kernel

/-- R79: the quotient of -2^63 by -1 is -2^63; the remainder of -7 by 2 is -1. -/
theorem test_division_corners :
    flying (ran (.div 3 4 5 false false) (put (put user 4 0x8000000000000000) 5 0xFFFFFFFFFFFFFFFF)) =
      [.reg 3 0x8000000000000000] ∧
    flying (ran (.rem 3 4 5 false false) (put (put user 4 0xFFFFFFFFFFFFFFF9) 5 2)) = [.reg 3 0xFFFFFFFFFFFFFFFF] := by
  decide +kernel

/-- R85: two of the bits 0, 1, 3 lie below 2, and the third of them is 3. -/
theorem test_rank_and_select :
    (ran (.rank 3 4 5 false false) (put (put user 4 0xB) 5 2)).g 3 = 2 ∧
    (ran (.select 3 4 5 false false) (put (put user 4 0xB) 5 2)).g 3 = 3 := by decide +kernel

/-- R87: CALL links the address after its word. -/
theorem test_call_links :
    (ran (.call { lo := 0x1FFFFF, hi := none }) (core user fun x => { x with pc := 0x100 })).core.pc = 0xFC ∧
    (ran (.call { lo := 0x1FFFFF, hi := none }) (core user fun x => { x with pc := 0x100 })).g 31 = 0x104 := by decide +kernel

/-- R95, R201, R205: SYSCALL saves the address after it, raises the level and masks interrupts. -/
theorem test_syscall_frame :
    (ran .syscall (core user fun x => { x with pc := 0x100 })).readCsr 0x041 = 0x104 ∧
    (ran .syscall (core user fun x => { x with pc := 0x100 })).system = true ∧
    (ran .syscall user).readCsr 0x042 = 0x16 := by decide +kernel

/-- R107, R228: a store asks its port to write the low byte first. -/
theorem test_store_is_little_endian :
    ((ran (.stw 5 { arg with sp := 0 } none) (put (put user 2 0x100) 5 0x1234)).core.posted.map fun p => (p.st, p.parts)) =
      [(0, [(0x100, [0x34, 0x12, 0, 0])])] := by
  decide +kernel

/-- R45, R137: 1.0 and 1.0 in lane 0 of v2 give 2.0 there. -/
theorem test_vfadd :
    ((flying (ran (.vfadd 1 2 2 false false 0) { withK user 1 with cell := { user.cell with rsp := [(128, 0x3F800000)] } })).map
      fun t => match t with
        | .vec off lanes data => (off, lanes, data[0]?)
        | .reg _ _ => (0, 0, none)) = [(256, 1, some 0x40000000)] := by decide +kernel

/-- R57, R80, R191: the word of `addi g3, g0, -1` at the pc is fetched, decoded and run. -/
theorem test_step_runs_the_unit :
    (match step (State.reset.withFetchWord 32 0x1060FFFF) with
      | .next t => some (t.g 3)
      | _ => none) = some 0xFFFFFFFFFFFFFFFF := by decide +kernel

end Sys2Proof.Tests
end

section
/-!
Vector operands that are ready pass the checks of a lane-by-lane instruction, which then latches its result (R130, R133).
-/

namespace Sys2Proof.Machine

open Sys2Proof.Claims

/-! ### Lanes and their locations (R45, R194) -/

/-- A vector's byte offset is that of its lane 0, whole words from the start of register space. -/
theorem State.vOff_eq (s : State) (n : Nat) : s.vOff n = 4 * laneWord s n 0 := by
  simp only [State.vOff, laneWord, Word.bits, bits]
  omega

theorem State.vOff_lt (s : State) (n l : Nat) (hl : l < 64) : s.vOff n + 4 * l < 0x40000 := by
  simp only [State.vOff, Word.bits, bits]
  omega

theorem State.vOff_div (s : State) (n l : Nat) : (s.vOff n + 4 * l) / 4 = laneWord s n l := by
  rw [s.vOff_eq]
  simp only [laneWord]
  omega

theorem State.mem_vLocs {s : State} {n a : Nat} {k : Word} :
    a ∈ s.vLocs n k ↔ ∃ l, l < 64 ∧ k.getLsbD l = true ∧ s.vOff n + 4 * l = a := by
  simp [State.vLocs, and_assoc]

/-- Lane l of a vector that is read as a whole. -/
theorem State.laneOf_v (s : State) (n : Nat) {l : Nat} (hl : l < 64) : laneOf (s.v n) l = lane s n l := by
  have hw : s.vOff n / 4 + l = laneWord s n l := by
    rw [s.vOff_eq]
    simp only [laneWord]
    omega
  simp [laneOf, State.v, State.lanesAt, Sparse.getRun_eq, hl, lane, State.word, hw]

/-- Words that are ready make locations that are full and not late. -/
theorem State.vLocs_ready {s : State} {n : Nat} {k : Word} (h : LanesReady s n k) :
    ∀ a ∈ s.vLocs n k, s.emptyLoc a = false ∧ s.lateLoc a = false := by
  intro a ha
  obtain ⟨l, hl, hk, rfl⟩ := State.mem_vLocs.1 ha
  have hlt : ¬ 0x40000 ≤ s.vOff n + 4 * l := Nat.not_le.2 (s.vOff_lt n l hl)
  simpa only [State.emptyLoc, State.lateLoc, if_neg hlt, s.vOff_div] using h.2 l hl hk

/-- Words outside the matrix slot's banks make locations that are not lent. -/
theorem State.vLocs_free {s : State} {n : Nat} {k : Word} (h : LanesFree s n k) :
    ∀ a ∈ s.vLocs n k, s.lentLoc a = false := by
  intro a ha
  obtain ⟨l, hl, hk, rfl⟩ := State.mem_vLocs.1 ha
  simp only [State.lentLoc, s.vOff_div, State.matrixBank, bankOf, h l hl hk, Bool.and_false]

/-! ### Latching (R133) -/

/-- The checks of vector sources and a destination that are ready and outside the matrix slot's banks. -/
theorem vectorChecks_ready {s : State} {srcs : List (Nat × Word × Bool)} {d : Nat} {k : Word}
    (hs : ∀ p ∈ srcs, LanesReady s p.1 p.2.1) (hd : LanesReady s d k) (hb : LanesFree s d k) :
    firstOf (vectorChecks s (srcs.map fun p => (s.vLocs p.1 p.2.1, p.2.2)) (s.vLocs d k)) = .pass := by
  refine vectorChecks_pass (fun q hq => ?_) (fun a ha => ?_) hd.1
  · obtain ⟨p, hp, rfl⟩ := List.mem_map.1 hq
    exact State.vLocs_ready (hs p hp)
  · obtain ⟨hfull, hlate⟩ := State.vLocs_ready hd a ha
    exact ⟨hfull, hlate, State.vLocs_free hb a ha⟩

/-- A vector unit whose checks pass and whose delay has gone by latches the lanes it computes. -/
theorem settleV_latches {i : Instr} {s : State} {l : BitVec 2} {checks : List Verdict} {r : VRow} {f : Nat → Lane}
    (he : exec i s = settleV i l s checks (s.vresult r.lat (s.vOff r.dst) r.written ((List.range 64).map f)))
    (hw : i.wellFormed = true) (hl : l.toNat ≤ s.core.delayClk) (hc : firstOf checks = .pass)
    (hf : ∀ n, n < 64 → f n = r.val n) : Latches i s r := by
  rw [settleV_ready hl, settle_pass hw hc, nextPc_eq, s.vOff_eq] at he
  exact ⟨_, (List.range 64).map f, ⟨he, rfl, rfl, rfl⟩, rfl, fun n hn _ => by simp [hn, hf n hn], rfl, rfl, rfl, rfl⟩

/-- One source, lane by lane (R130): `f` is what the unit computes, `g` what its row says. -/
theorem execLanes1_latches {i : Instr} {s : State} {r : VRow} {lat : Nat} {f g : Lane → Lane} {d a : BitVec 6} {x : Bool}
    {l : BitVec 2} (he : exec i s = execLanes1 i lat f d a x l s) (hr : v1 s lat d a l g = some r)
    (hw : i.wellFormed = true) (h : VectorReady s r) (hfg : ∀ u, f u = g u) : Latches i s r := by
  cases hr
  obtain ⟨hl, -, hs, hd, hb⟩ := h
  refine settleV_latches he hw hl (vectorChecks_ready (srcs := [(a.toNat, s.k, x)]) ?_ hd hb) fun n hn => ?_
  · simpa using hs
  · simp only [s.laneOf_v _ hn, hfg]

/-- Two sources, lane by lane (R130). -/
theorem execLanes2_latches {i : Instr} {s : State} {r : VRow} {lat : Nat} {f g : Lane → Lane → Lane} {d a b : BitVec 6}
    {x y : Bool} {l : BitVec 2} (he : exec i s = execLanes2 i lat f d a b x y l s) (hr : v2 s lat d a b l g = some r)
    (hw : i.wellFormed = true) (h : VectorReady s r) (hfg : ∀ u v, f u v = g u v) : Latches i s r := by
  cases hr
  obtain ⟨hl, -, hs, hd, hb⟩ := h
  refine settleV_latches he hw hl (vectorChecks_ready (srcs := [(a.toNat, s.k, x), (b.toNat, s.k, y)]) ?_ hd hb)
    fun n hn => ?_
  · simpa using hs
  · simp only [s.laneOf_v _ hn, hfg]

/-- Two sources and the old destination, lane by lane (R130). -/
theorem execLanes3_latches {i : Instr} {s : State} {r : VRow} {lat : Nat} {f g : Lane → Lane → Lane → Lane}
    {d a b : BitVec 6} {x y : Bool} {l : BitVec 2} (he : exec i s = execLanes3 i lat f d a b x y l s)
    (hr : v3 s lat d a b l g = some r) (hw : i.wellFormed = true) (h : VectorReady s r)
    (hfg : ∀ u v w, f u v w = g u v w) : Latches i s r := by
  cases hr
  obtain ⟨hl, -, hs, hd, hb⟩ := h
  refine settleV_latches he hw hl
    (vectorChecks_ready (srcs := [(a.toNat, s.k, x), (b.toNat, s.k, y), (d.toNat, s.k, false)]) ?_ hd hb) fun n hn => ?_
  · simpa using hs
  · simp only [s.laneOf_v _ hn, hfg]

end Sys2Proof.Machine
end

section
/-!
The floating-point lanes, conversions and compares (R33, R137-R145): what each lane function of the model is in the words of the
table, and O40.
-/

namespace Sys2Proof.Machine

open Sys2Proof.Claims

/-- BF16 halves (R139): each half is decoded, combined and rounded on its own. -/
theorem halves_eq_bothHalves {s : State} {h : Nat → Nat → Nat → Nat} {f : FVal → FVal → FVal → FVal}
    {u v w : Lane} (hf : ∀ a b d, h a b d = bfOut s (f (bfIn s a) (bfIn s b) (bfIn s d))) :
    halves h u v w = bothHalves s f u v w := by
  simp only [halves, hf]
  rfl

/-- All ones where a relation holds (R145). -/
theorem maskLane_eq (b : Bool) : maskLane b = allOnesIf b := by
  cases b <;> rfl

/-- A half lane is the lane's low 16 bits (R143). -/
theorem bits_low_half (u : Lane) : bits u.toNat 0 16 = u.toNat % 2 ^ 16 := by
  simp [bits]

end Sys2Proof.Machine

namespace Sys2Proof.Proofs

open Sys2Proof.Machine Sys2Proof.Claims

/-- Settles O40: every row's unit is one of the shared lane forms, and its lane function is the row's. -/
theorem floatLanes : Obligations.FloatLanes := by
  intro i s r hr hw h
  unfold Claims.floatLanes at hr
  split at hr
  · exact execLanes2_latches (exec_vfadd s) hr hw h fun u v => rfl
  · exact execLanes2_latches (exec_vfsub s) hr hw h fun u v => rfl
  · exact execLanes2_latches (exec_vfmul s) hr hw h fun u v => rfl
  · exact execLanes3_latches (exec_vfma s) hr hw h fun u v w => rfl
  · exact execLanes3_latches (exec_vfms s) hr hw h fun u v w => rfl
  · exact execLanes3_latches (exec_vfnma s) hr hw h fun u v w => rfl
  · exact execLanes2_latches (exec_vfmin s) hr hw h fun u v => rfl
  · exact execLanes2_latches (exec_vfmax s) hr hw h fun u v => rfl
  · exact execLanes1_latches (exec_vfabs s) hr hw h fun u => rfl
  · exact execLanes1_latches (exec_vfneg s) hr hw h fun u => rfl
  · exact execLanes2_latches (exec_vbadd s) hr hw h fun u v => halves_eq_bothHalves fun _ _ _ => rfl
  · exact execLanes2_latches (exec_vbsub s) hr hw h fun u v => halves_eq_bothHalves fun _ _ _ => rfl
  · exact execLanes2_latches (exec_vbmul s) hr hw h fun u v => halves_eq_bothHalves fun _ _ _ => rfl
  · exact execLanes3_latches (exec_vbfma s) hr hw h fun u v w => halves_eq_bothHalves fun _ _ _ => rfl
  · exact execLanes2_latches (exec_vbmin s) hr hw h fun u v => halves_eq_bothHalves fun _ _ _ => rfl
  · exact execLanes2_latches (exec_vbmax s) hr hw h fun u v => halves_eq_bothHalves fun _ _ _ => rfl
  · exact execLanes1_latches (exec_frcp s) hr hw h fun u => rfl
  · exact execLanes1_latches (exec_frsq s) hr hw h fun u => rfl
  · exact execLanes1_latches (exec_fexp2 s) hr hw h fun u => rfl
  · exact execLanes1_latches (exec_flog2 s) hr hw h fun u => rfl
  · exact execLanes1_latches (exec_vcvtfh s) hr hw h fun u => rfl
  · exact execLanes1_latches (exec_vcvthf s) hr hw h fun u => by rw [cvtHF, bits_low_half]; rfl
  · exact execLanes1_latches (exec_vcvtfs s) hr hw h fun u => rfl
  · exact execLanes1_latches (exec_vcvtsf s) hr hw h fun u => by rw [cvtSF, bits_low_half]; rfl
  · exact execLanes1_latches (exec_vcvtfi s) hr hw h fun u => rfl
  · exact execLanes1_latches (exec_vcvtif s) hr hw h fun u => rfl
  · exact execLanes1_latches (exec_vcvtfu s) hr hw h fun u => rfl
  · exact execLanes1_latches (exec_vcvtuf s) hr hw h fun u => rfl
  · exact execLanes1_latches (exec_vrnd s) hr hw h fun u => rfl
  · exact execLanes2_latches (exec_vfceq s) hr hw h fun u v => maskLane_eq _
  · exact execLanes2_latches (exec_vfclt s) hr hw h fun u v => maskLane_eq _
  · exact execLanes2_latches (exec_vfcle s) hr hw h fun u v => maskLane_eq _
  · cases hr

end Sys2Proof.Proofs
end

section
/-!
An acquire that the statements' `Acquired` does not see: it asks of the rows that stores are still to read only whether they are
of queue 15, the control core's, while an access waits for an acquire in any of them (`acquireWait`). A state with such a row of
another queue meets `Acquired`, and yet every access whose operands are usable waits in it, charged to ORDERWAIT.
-/

namespace Sys2Proof.Machine

open Sys2Proof.Claims

/-! ### A row that carries an acquire in the name of queue 0 -/

/-- A request for a row of store 0, of queue 0, with an acquire. -/
def strayRow : Posted :=
  { st := 0, clk := 0, enq := 0, parts := []
    row := some { id := 0, dest := .none, size := 0, val := 0, lanes := [], clock := [], bad := false, addr := 0, queue := 0
                  seq := 0, acq := true, row := none } }

/-- The state with that request as the core's only one. -/
def State.withStrayRow (s : State) : State := s.setCore { s.core with posted := [strayRow] }

/-- Where no acquire of the core was outstanding, none is for `Acquired`. -/
theorem acquired_withStrayRow {s : State} (h : Acquired s) : Acquired s.withStrayRow := by
  obtain ⟨hlanded, hreq, hreply⟩ := h
  refine ⟨hlanded, hreq, ?_⟩
  have hreplies : s.sys.replies.all (fun r => r.queue != 15 || !r.acq) = true := by
    rw [List.all_append, Bool.and_eq_true] at hreply
    exact hreply.1
  rw [List.all_append, Bool.and_eq_true]
  exact ⟨hreplies, rfl⟩

theorem accessOpen_withStrayRow {s : State} (h : AccessOpen s) : AccessOpen s.withStrayRow := by
  obtain ⟨hacquired, hflowing, hroom, hplain⟩ := h
  exact ⟨acquired_withStrayRow hacquired, hflowing, hroom, hplain⟩

/-- Every access waits for the row (R259). -/
theorem acquireWait_withStrayRow (s : State) : acquireWait s.withStrayRow = .wait .orderWait := by
  have hrow : (s.withStrayRow.core.posted.filterMap Posted.row).any Reply.acq = true := rfl
  simp [acquireWait, await, hrow]

/-! ### An access that waits for an acquire -/

/-- Checks that pass leave the decision to those after them. -/
theorem firstOf_append_of_pass {vs ws : List Verdict} (h : firstOf vs = .pass) : firstOf (vs ++ ws) = firstOf ws := by
  induction vs with
  | nil => rfl
  | cons v vs ih =>
    obtain ⟨rfl, hvs⟩ := firstOf_cons.1 h
    exact ih hvs

/-- An access whose operands are usable comes to wait for an earlier acquire before it looks at its address (R103, R195). -/
theorem memChecks_acquireWait {s : State} {pre : List Verdict} {srcs : List Source} {dst : List Nat}
    {steps own : List Verdict} {c : Cause} (hpre : firstOf pre = .pass)
    (hs : ∀ p ∈ srcs, ∀ l ∈ p.1, s.emptyLoc l = false ∧ s.lateLoc l = false)
    (hd : ∀ l ∈ dst, s.emptyLoc l = false ∧ s.lateLoc l = false) (ha : acquireWait s = .wait c) :
    firstOf (memChecks s pre srcs dst steps own) = .wait c := by
  have hall : ∀ l ∈ (srcs.map Prod.fst).flatten, s.emptyLoc l = false ∧ s.lateLoc l = false := by
    intro l hl
    obtain ⟨ls, hls, hl⟩ := List.mem_flatten.1 hl
    obtain ⟨p, hp, rfl⟩ := List.mem_map.1 hls
    exact hs p hp l hl
  have hread : firstOf (srcs.map (emptyReadTrap s)) = .pass := by
    refine firstOf_eq_pass.2 fun v hv => ?_
    obtain ⟨p, hp, rfl⟩ := List.mem_map.1 hv
    exact emptyReadTrap_pass fun l hl => (hs p hp l hl).1
  have hfull : awaitFull s ((srcs.map Prod.fst).flatten ++ dst) = .pass :=
    awaitFull_eq_pass.2 fun l hl => (List.mem_append.1 hl).elim (fun hl => (hall l hl).1) fun hl => (hd l hl).1
  have hlate : (if s.latmode then Verdict.pass else lateRead s (srcs.map Prod.fst).flatten) = .pass := by
    rw [lateRead_eq_pass.2 fun l hl => (hall l hl).2, ite_self]
  have hwrite : lateWrite s dst = .pass := lateWrite_eq_pass.2 fun l hl => (hd l hl).2
  simp only [memChecks, List.append_assoc]
  rw [firstOf_append_of_pass hpre, firstOf_append_of_pass hread, hfull, hlate, hwrite, ha]
  rfl

/-- A LATLD that is not under way yet waits with every other access for an earlier acquire. -/
theorem execLatld_acquireWait {s : State} {a p : BitVec 5} {x : Bool} {c : Cause} (hp : p.toNat < 4)
    (hnone : s.core.latWait = none) (hlat : s.hasLat2 = true) (hu : Usable s [a.toNat]) (ha : acquireWait s = .wait c) :
    exec (.latld a p x) s = .next (s.hold (.latld a p x) c) := by
  have hlegal : legal (.latld a p x) = .pass := legal_eq_pass.2 (decide_eq_true hp)
  have hpre : firstOf [require s.hasLat2 Code.absent] = .pass := by simp [hlat, require]
  have hsrc : ∀ q ∈ [([gLoc a.toNat], x)], ∀ l ∈ q.1, s.emptyLoc l = false ∧ s.lateLoc l = false := by
    simpa using hu a.toNat (List.mem_singleton.2 rfl)
  rw [exec_latld, execLatld]
  simp only [hnone]
  rw [hlegal, firstOf_pass, memChecks_acquireWait hpre hsrc (by simp) ha]
  rfl

/-! ### A state to begin from -/

/-- The state after reset, with a misaligned address in g1. -/
def State.misalignedTable : State := State.reset.setCore (State.reset.core.putG 1 0x20)

theorem accessOpen_misalignedTable : AccessOpen State.misalignedTable :=
  ⟨⟨by decide, by decide, by decide⟩, by decide, by decide, by decide⟩

end Sys2Proof.Machine

namespace Sys2Proof.Proofs

open Sys2Proof.Machine Sys2Proof.Claims

/-- Refutes O33: in a state with an acquire in a row of queue 0, which the statement's hypotheses allow, LATLD of a misaligned
address does not trap with ALIGN but waits, charged to ORDERWAIT. -/
theorem not_tableLoad : ¬ Obligations.TableLoad := by
  unfold Obligations.TableLoad
  intro h
  let s := State.misalignedTable.withStrayRow
  have hopen : AccessOpen s := accessOpen_withStrayRow accessOpen_misalignedTable
  have husable : Usable s [(1 : BitVec 5).toNat] := by
    unfold Usable
    decide
  have henters : EntersAtOnce s := ⟨by decide, fun l hl => absurd hl (List.not_mem_nil (a := l))⟩
  have hwaits : exec (.latld 1 0 false) s = .next (s.hold (.latld 1 0 false) .orderWait) :=
    execLatld_acquireWait (by decide) rfl (by decide) husable (acquireWait_withStrayRow _)
  obtain ⟨-, halign, -⟩ :=
    (h s 1 0 false _ (by decide) rfl).1 (s.g 1) { asid := 0, base := 0, size := 0, w0 := 0, w1 := 0 } rfl hopen husable rfl
  obtain ⟨t, hrun, htraps⟩ := halign (by decide) (by decide) henters
  rw [hwaits] at hrun
  cases hrun
  obtain ⟨-, -, -, -, -, -, -, -, -, -, -, -, hcharge, -⟩ := htraps
  cases hcharge

end Sys2Proof.Proofs
end

section
/-!
The state after reset, and O1.
-/

namespace Sys2Proof.Proofs

/-- Settles O1: the values the spec gives are those of `State.reset`. -/
theorem resetState : Obligations.ResetState := by
  unfold Obligations.ResetState
  decide

end Sys2Proof.Proofs
end

section
/-!
The operands of format M (R61, R62), and O14.
-/

namespace Sys2Proof.Machine

open Sys2Proof.Claims

/-- The step of format M in the words of R61: eight bits of offset with a vector access, nine with any other. -/
theorem memStep_eq (m : MemArg) (sc : Scale) :
    memStep m sc = (if sc = .b256 then signedImm ⟨m.off.setWidth 8, m.hi⟩ else signedImm ⟨m.off, m.hi⟩) *
      BitVec.ofNat 64 sc.bytes := by
  cases sc <;> rfl

end Sys2Proof.Machine

namespace Sys2Proof.Proofs

open Sys2Proof.Machine Sys2Proof.Claims

/-- Settles O14, mode by mode. -/
theorem memoryOperands : Obligations.MemoryOperands := by
  intro s m sc step w hstep hw
  rw [← memStep_eq] at hstep
  subst hstep hw
  refine ⟨fun h => ?_, fun h => ?_, fun h => ?_, fun h => ?_⟩
  · simp [State.address, State.newBase, h]
  · simp [State.address, State.newBase, h]
  · refine ⟨by simp [State.address, h], ?_⟩
    simp only [State.newBase, h, Word.bits, bits]
    simp
    split <;> rfl
  · simp [State.address, State.newBase, h, MemArg.index, MemArg.shift, bits]

end Sys2Proof.Proofs
end

section
/-!
Trap entry in the words of the statements (R200, R201): fields of a word, runs of register writes, and what `syncTrap` does in a
state that `EntersAtOnce` allows.
-/

namespace Sys2Proof.Machine

open Sys2Proof.Claims

/-! ### Fields and runs of writes -/

/-- A number as the part above a field, the field, and the part below it. -/
theorem eq_fields (x lo n : Nat) :
    x = 2 ^ lo * (2 ^ n * (x / 2 ^ (lo + n)) + bits x lo n) + x % 2 ^ lo := by
  rw [bits, Nat.pow_add, ← Nat.div_div_eq_div_mul, Nat.div_add_mod, Nat.div_add_mod]

/-- A field is replaced, every other bit stands. -/
theorem Word.getLsbD_setBits (w : Word) {lo n : Nat} (v i : Nat) (h : lo + n ≤ 64) :
    (Word.setBits w lo n v).getLsbD i = if lo ≤ i ∧ i < lo + n then v.testBit (i - lo) else w.getLsbD i := by
  have hw : w.toNat - Word.bits w lo n * 2 ^ lo + v % 2 ^ n * 2 ^ lo =
      2 ^ lo * (2 ^ n * (w.toNat / 2 ^ (lo + n)) + v % 2 ^ n) + w.toNat % 2 ^ lo := by
    have hx := eq_fields w.toNat lo n
    rw [Nat.mul_add] at hx ⊢
    rw [Word.bits, Nat.mul_comm (Sys2Proof.bits ..), Nat.mul_comm (v % 2 ^ n)]
    omega
  by_cases hi : i < 64
  · rw [Word.setBits, hw, BitVec.getLsbD_ofNat, Nat.testBit_two_pow_mul_add _ (Nat.mod_lt _ (Nat.two_pow_pos lo)),
      Nat.testBit_two_pow_mul_add _ (Nat.mod_lt _ (Nat.two_pow_pos n))]
    simp only [Nat.testBit_mod_two_pow, Nat.testBit_div_two_pow, BitVec.testBit_toNat, hi, decide_true, Bool.true_and]
    by_cases hlo : i < lo
    · rw [if_pos hlo, if_neg (by omega)]
      simp [hlo]
    · by_cases hn : i - lo < n
      · rw [if_neg hlo, if_pos hn, if_pos (by omega)]
        simp [hn]
      · rw [if_neg hlo, if_neg hn, if_neg (by omega), show i - lo - n + (lo + n) = i by omega]
  · rw [BitVec.getLsbD_of_ge _ i (by omega), BitVec.getLsbD_of_ge w i (by omega), if_neg (by omega)]

/-- A run of writes leaves every key alone that none of them names. -/
theorem Sparse.get_foldl_set_of_ne {w k : Nat} {ps : List (Nat × BitVec w)} (m : Sparse w) (h : ∀ p ∈ ps, k ≠ p.1) :
    Sparse.get (ps.foldl (fun c p => Sparse.set c p.1 p.2) m) k = Sparse.get m k := by
  induction ps generalizing m with
  | nil => rfl
  | cons p ps ih =>
    rw [List.foldl_cons, ih _ fun q hq => h q (List.mem_cons_of_mem _ hq), Sparse.get_set_ne _ _ (h p (List.mem_cons_self ..))]

/-- A run of writes of different keys: each reads back. -/
theorem Sparse.get_foldl_set_of_mem {w k : Nat} {v : BitVec w} {ps : List (Nat × BitVec w)} (m : Sparse w)
    (hd : (ps.map Prod.fst).Nodup) (h : (k, v) ∈ ps) :
    Sparse.get (ps.foldl (fun c p => Sparse.set c p.1 p.2) m) k = v := by
  induction ps generalizing m with
  | nil => cases h
  | cons p ps ih =>
    obtain ⟨hp, hps⟩ := List.nodup_cons.1 hd
    rcases List.mem_cons.1 h with rfl | h
    · rw [List.foldl_cons, Sparse.get_foldl_set_of_ne, Sparse.get_set_eq]
      exact fun q hq e => hp (List.mem_map.2 ⟨q, hq, e.symm⟩)
    · exact ih _ hps h

/-! ### What trap entry leaves as it was -/

/-- What landing a result leaves: all but the g registers and register space. -/
structure LandsBetween (s t : State) : Prop where
  csr : t.csr = s.csr
  mem : t.mem = s.mem
  sys : t.sys = s.sys
  store0 : t.cell.store0 = s.cell.store0
  store1 : t.cell.store1 = s.cell.store1
  store2 : t.cell.store2 = s.cell.store2
  queues : t.cell.queues = s.cell.queues
  q : t.core.q = s.core.q
  z : t.core.z = s.core.z
  mask : t.core.mask = s.core.mask

theorem State.land_between (s : State) (t : Target) : LandsBetween s (s.land t) := by
  cases t with
  | reg r v => constructor <;> simp [State.land]
  | vec off lanes data =>
    simp only [State.land, State.putLanes, Cell.putLanes]
    split <;> constructor <;> rfl

theorem State.landAll_between (s : State) (ls : List Latch) : LandsBetween s (s.landAll ls) := by
  induction ls generalizing s with
  | nil => constructor <;> rfl
  | cons l ls ih =>
    obtain ⟨csr, mem, sys, store0, store1, store2, queues, q, z, mask⟩ := s.land_between l.target
    obtain ⟨csr', mem', sys', store0', store1', store2', queues', q', z', mask'⟩ := ih (s.land l.target)
    exact ⟨csr'.trans csr, mem'.trans mem, sys'.trans sys, store0'.trans store0, store1'.trans store1,
      store2'.trans store2, queues'.trans queues, q'.trans q, z'.trans z, mask'.trans mask⟩

/-! ### The frame (R204, R205) -/

/-- What entry writes to the frame and the modes, register by register. -/
def State.frameWrites (s : State) (t : TrapInfo) (fpc : Word) (nlat : Nat) : List (Nat × Word) :=
  [(0x040, BitVec.ofNat 64 (3 + 4 * Word.bits (s.readCsr 1) 8 1 + 8 * Word.bits (s.readCsr 0x100) 0 1 + 16 * nlat)),
   (0x041, BitVec.ofNat 64 (Word.bits fpc 0 56)), (0x042, BitVec.ofNat 64 (t.code + 256 * t.sub)), (0x043, t.addr),
   (0x044, t.info0), (0x045, t.info1), (0x046, t.info2),
   (0x1C5, if t.code = Code.machine then t.mc else s.readCsr 0x1C5), (0x048, BitVec.ofNat 64 s.msp)] ++
  (List.range 8).map (fun i => (0x049 + i, s.core.mask[i]?.getD 0)) ++
  [(1, Word.setBits (s.readCsr 1) 8 1 1), (0x100, Word.setBits (s.readCsr 0x100) 0 1 0), (0x014, 0)]

theorem State.frameWrites_keys (s : State) (t : TrapInfo) (fpc : Word) (nlat : Nat) :
    (s.frameWrites t fpc nlat).map Prod.fst =
      [0x040, 0x041, 0x042, 0x043, 0x044, 0x045, 0x046, 0x1C5, 0x048, 0x049, 0x04A, 0x04B, 0x04C, 0x04D, 0x04E, 0x04F,
       0x050, 1, 0x100, 0x014] := rfl

/-- A register that entry writes holds what it writes. -/
theorem State.readCsr_writeFrame {s : State} {t : TrapInfo} {fpc : Word} {nlat k : Nat} {v : Word}
    (h : (k, v) ∈ s.frameWrites t fpc nlat) : (s.writeFrame t fpc nlat).readCsr k = v := by
  have hd : ((s.frameWrites t fpc nlat).map Prod.fst).Nodup := by
    rw [State.frameWrites_keys]
    decide
  exact Sparse.get_foldl_set_of_mem _ hd h

/-- A register that entry does not write stands. -/
theorem State.readCsr_writeFrame_of_notMem (s : State) (t : TrapInfo) (fpc : Word) (nlat : Nat) {k : Nat}
    (h : k ∉ entryCsrs) : (s.writeFrame t fpc nlat).readCsr k = s.readCsr k := by
  refine Sparse.get_foldl_set_of_ne _ fun p hp e => h ?_
  have hk : k ∈ (s.frameWrites t fpc nlat).map Prod.fst := e ▸ List.mem_map_of_mem hp
  rw [State.frameWrites_keys] at hk
  revert hk
  simp only [entryCsrs, List.mem_cons]
  tauto

/-- FSTAT as entry leaves it: VALID and HELD set, the old level and IE, and the number of latches saved. -/
theorem getLsbD_fstat (a b n : Nat) (ha : a < 2) (hb : b < 2) :
    (BitVec.ofNat 64 (3 + 4 * a + 8 * b + 16 * n)).getLsbD 0 = true ∧
      (BitVec.ofNat 64 (3 + 4 * a + 8 * b + 16 * n)).getLsbD 1 = true ∧
      (BitVec.ofNat 64 (3 + 4 * a + 8 * b + 16 * n)).getLsbD 2 = decide (a = 1) ∧
      (BitVec.ofNat 64 (3 + 4 * a + 8 * b + 16 * n)).getLsbD 3 = decide (b = 1) := by
  simp only [BitVec.getLsbD_ofNat, Nat.testBit_eq_decide_div_mod_eq, Nat.reduceLT, decide_true, Bool.true_and,
    decide_eq_true_eq, decide_eq_decide]
  omega

theorem Word.bits_one_eq (w : Word) (i : Nat) : Word.bits w i 1 = (w.getLsbD i).toNat := by
  rw [BitVec.getLsbD, Nat.toNat_testBit]
  rfl

theorem length_savedLatches (s : State) : (savedLatches (s.core.pending s.clk) s.clk).length = toSave s := by
  simp [savedLatches, toSave, pendingAt, Core.pending, List.countP_eq_length_filter]

/-- The state whose frame entry writes: results due before the resume point have landed. -/
def State.atEntry (s : State) : State :=
  s.landAll ((s.core.pending s.clk).filter fun l => decide (l.visible ≤ s.clk))

theorem State.atEntry_between (s : State) : LandsBetween s s.atEntry := s.landAll_between _

theorem State.enterNow_csr (s : State) (x : TrapInfo) (pc : Word) :
    (s.enterNow x pc s.clk 0).csr = (s.atEntry.writeFrame x pc (toSave s)).csr := by
  rw [← length_savedLatches]
  unfold State.enterNow State.atEntry
  dsimp only

theorem State.readCsr_enterNow (s : State) (x : TrapInfo) (pc : Word) (k : Nat) :
    (s.enterNow x pc s.clk 0).readCsr k = (s.atEntry.writeFrame x pc (toSave s)).readCsr k :=
  State.readCsr_congr _ (s.enterNow_csr x pc) k

/-- What entry writes is what the registers hold after it. -/
theorem State.readCsr_enterNow_of_mem {s : State} {x : TrapInfo} {pc : Word} {k : Nat} {v : Word}
    (h : (k, v) ∈ s.frameWrites x pc (toSave s)) : (s.enterNow x pc s.clk 0).readCsr k = v := by
  rw [s.readCsr_enterNow]
  refine State.readCsr_writeFrame ?_
  have hread := s.readCsr_congr s.atEntry_between.csr
  simpa only [State.frameWrites, State.msp, hread, s.atEntry_between.mask] using h

theorem State.readCsr_enterNow_of_notMem (s : State) (x : TrapInfo) (pc : Word) {k : Nat} (h : k ∉ entryCsrs) :
    (s.enterNow x pc s.clk 0).readCsr k = s.readCsr k := by
  rw [s.readCsr_enterNow, State.readCsr_writeFrame_of_notMem _ _ _ _ h]
  exact s.readCsr_congr s.atEntry_between.csr k

theorem State.readCsr_enterNow_fstat (s : State) (x : TrapInfo) (pc : Word) :
    (s.enterNow x pc s.clk 0).readCsr 0x040 =
      BitVec.ofNat 64 (3 + 4 * (s.system).toNat + 8 * ((s.readCsr 0x100).getLsbD 0).toNat + 16 * toSave s) :=
  State.readCsr_enterNow_of_mem (by simp [State.frameWrites, Word.bits_one_eq, State.system])

theorem State.enterNow_frames (s : State) (x : TrapInfo) (pc : Word) : Frames s (s.enterNow x pc s.clk 0) x pc := by
  obtain ⟨hvalid, hheld, hlevel, hie⟩ :=
    getLsbD_fstat s.system.toNat ((s.readCsr 0x100).getLsbD 0).toNat (toSave s) (Bool.toNat_lt _) (Bool.toNat_lt _)
  rw [← s.readCsr_enterNow_fstat x pc] at hvalid hheld hlevel hie
  unfold Frames
  have hread : ∀ k, Sparse.get (s.enterNow x pc s.clk 0).csr k = (s.enterNow x pc s.clk 0).readCsr k := fun _ => rfl
  simp only [hread]
  refine ⟨State.readCsr_enterNow_of_mem ?_, State.readCsr_enterNow_of_mem ?_, State.readCsr_enterNow_of_mem ?_,
    State.readCsr_enterNow_of_mem ?_, State.readCsr_enterNow_of_mem ?_, State.readCsr_enterNow_of_mem ?_,
    hvalid, hheld, hlevel.trans ?_, hie.trans ?_⟩
  all_goals simp [State.frameWrites, Word.bits, bits]

theorem State.system_enterNow (s : State) (x : TrapInfo) (pc : Word) : (s.enterNow x pc s.clk 0).system = true := by
  rw [State.system, State.readCsr_enterNow_of_mem (v := Word.setBits (s.readCsr 1) 8 1 1) (by simp [State.frameWrites]),
    Word.getLsbD_setBits _ _ _ (by decide)]
  simp

theorem State.msp_enterNow (s : State) (x : TrapInfo) (pc : Word) : (s.enterNow x pc s.clk 0).msp = 0 := by
  rw [State.msp, State.readCsr_enterNow_of_mem (v := 0) (by simp [State.frameWrites])]
  decide

theorem State.k_enterNow (s : State) (x : TrapInfo) (pc : Word) : (s.enterNow x pc s.clk 0).k = BitVec.allOnes 64 := by
  rw [State.k, State.msp_enterNow]
  unfold State.enterNow
  simp

theorem State.ie_enterNow (s : State) (x : TrapInfo) (pc : Word) :
    ((s.enterNow x pc s.clk 0).readCsr 0x100).getLsbD 0 = false := by
  rw [State.readCsr_enterNow_of_mem (v := Word.setBits (s.readCsr 0x100) 0 1 0) (by simp [State.frameWrites]),
    Word.getLsbD_setBits _ _ _ (by decide)]
  simp

theorem State.nlat_enterNow (s : State) (x : TrapInfo) (pc : Word) :
    ((s.enterNow x pc s.clk 0).readCsr 0x040).toNat / 16 % 16 = toSave s := by
  have hn : toSave s ≤ 12 := Nat.min_le_left ..
  have ha := s.system.toNat_le
  have hb := ((s.readCsr 0x100).getLsbD 0).toNat_le
  rw [s.readCsr_enterNow_fstat, BitVec.toNat_ofNat]
  omega

/-- The handler's address (R201). -/
theorem State.handler_eq (s : State) :
    s.handler = ((s.readCsr 0x101).setWidth 56 &&& 0xFFFFFFFFFFFFFC).signExtend 64 := by
  rw [State.handler, canon]
  congr 1
  refine BitVec.eq_of_getLsbD_eq fun i hi => ?_
  have hmask : ∀ j < 56, BitVec.getLsbD (0xFFFFFFFFFFFFFC : BitVec 56) j = decide (2 ≤ j) := by decide
  rw [BitVec.getLsbD_and, hmask i hi, BitVec.getLsbD_ofNat, Word.bits, bits, show 4 = 2 ^ 2 from rfl,
    Nat.testBit_mul_two_pow]
  by_cases h2 : 2 ≤ i
  · rw [Nat.testBit_mod_two_pow, Nat.testBit_div_two_pow, show i - 2 + 2 = i by omega, BitVec.testBit_toNat]
    simp [h2, hi, show i - 2 < 54 by omega]
  · simp [h2]

/-- Entry in the clk of recognition does what the statements say of it. -/
theorem State.enterNow_enters (s : State) (x : TrapInfo) (pc : Word) : Enters s (s.enterNow x pc s.clk 0) x pc := by
  obtain ⟨-, mem, sys, store0, store1, store2, queues, q, z, -⟩ := s.atEntry_between
  refine ⟨s.enterNow_frames x pc, s.system_enterNow x pc, s.ie_enterNow x pc, s.msp_enterNow x pc, s.k_enterNow x pc,
    ?_, s.nlat_enterNow x pc, ?_, ?_, State.readCsr_enterNow_of_mem (by simp [State.frameWrites]),
    fun i hi => State.readCsr_enterNow_of_mem (by simp [State.frameWrites]; omega), ?_, ?_, ?_,
    fun k hk => s.readCsr_enterNow_of_notMem x pc hk, ?_⟩
  · rw [s.readCsr_enterNow_of_notMem x pc (by decide), ← State.handler_eq]
    rfl
  · unfold State.enterNow
    rfl
  · rfl
  · rw [← length_savedLatches]
    rfl
  · rfl
  · rfl
  · simp only [State.enterNow, State.writeFrame]
    exact ⟨mem, sys, store0, store1, store2, q, z, queues⟩

/-- Counting errors changes the manager alone. -/
theorem State.countErrors_eq (s : State) (d c u : Nat) : ∃ m, s.countErrors d c u = { s with mgr := m } := by
  unfold State.countErrors
  dsimp only
  split
  · exact ⟨_, rfl⟩
  · exact ⟨s.mgr, rfl⟩

/-- With no data of a store load outstanding and no frame held, a trap is entered at once, but for the manager's count of
errors (R200, R201, R390). -/
theorem State.syncTrap_eq_enterNow {s : State} (h : EntersAtOnce s) (x : TrapInfo) (pc : Word) :
    ∃ m, s.syncTrap x pc = { s with mgr := m }.enterNow x pc s.clk 0 := by
  obtain ⟨hfree, harrived⟩ := h
  have hlanded : (s.core.inflight.any fun l => l.outstanding s.clk) = false := by
    refine List.any_eq_false.2 fun l hl => ?_
    simp [Latch.outstanding, harrived l hl]
  unfold State.syncTrap State.enterTrap
  rw [hfree]
  split
  · obtain ⟨m, hm⟩ := s.countErrors_eq (s.gcell / 64) 0 1
    refine ⟨m, ?_⟩
    simp only [hm, hlanded]
    rfl
  · refine ⟨s.mgr, ?_⟩
    simp only [hlanded]
    rfl

theorem State.syncTrap_enters {s : State} (h : EntersAtOnce s) (x : TrapInfo) (pc : Word) :
    Enters s (s.syncTrap x pc) x pc := by
  obtain ⟨m, hm⟩ := State.syncTrap_eq_enterNow h x pc
  rw [hm]
  exact State.enterNow_enters { s with mgr := m } x pc

end Sys2Proof.Machine
end

section
/-!
What a unit does at its issue clk, from its checks: it retires, waits or traps (R65, R195, R200).
-/

namespace Sys2Proof.Machine

open Sys2Proof.Claims

/-! ### Units that retire or wait -/

/-- Leaving the head changes no register, no result in flight and nothing outside the core. -/
theorem State.goto_keepsCore (s : State) (i : Instr) (pc : Word) : KeepsCore s (s.goto i pc) :=
  ⟨rfl, rfl, rfl, rfl⟩

theorem State.goto_onlyCore (s : State) (i : Instr) (pc : Word) : OnlyCore s (s.goto i pc) := rfl

/-- A unit whose checks pass and whose effect leaves the pc alone retires. -/
theorem retires_of_settle {i : Instr} {s e : State} {checks : List Verdict} (he : exec i s = settle i s checks e)
    (hw : i.wellFormed = true) (hc : firstOf checks = .pass) (hpc : e.core.pc = s.core.pc) :
    Retires i s (e.goto i (following i s)) (following i s) := by
  rw [settle_pass hw hc, nextPc_eq] at he
  exact ⟨he, rfl, rfl, hpc⟩

/-- A unit that the first failing check holds. -/
theorem waits_of_hold {i : Instr} {s : State} {c : Cause} (he : exec i s = .next (s.hold i c)) :
    Waits i s (s.hold i c) c :=
  ⟨he, rfl, rfl, rfl, rfl, rfl, rfl, rfl⟩

/-- The first failing check of a unit traps with a code and nothing further to report. -/
theorem settleTo_traps {i : Instr} {s e : State} {checks : List Verdict} {pc : Word} {c : Nat} (h : EntersAtOnce s)
    (he : exec i s = settleTo i s checks e pc) (hc : firstOf (legal i :: checks) = trapWith c) : TrapsWith i s c := by
  refine ⟨_, ?_, State.syncTrap_enters h { code := c } s.core.pc⟩
  rw [he, settleTo, hc]
  rfl

/-! ### The first failing check -/

/-- A unit whose first failing check waits. -/
theorem settle_waits {i : Instr} {s e : State} {checks : List Verdict} {c : Cause} (he : exec i s = settle i s checks e)
    (hw : i.wellFormed = true) (hc : firstOf checks = .wait c) : ∃ t, Waits i s t c := by
  refine ⟨_, waits_of_hold (he.trans ?_)⟩
  rw [settle, settleTo, legal_eq_pass.2 hw, firstOf_pass, hc]
  rfl

/-- A unit whose first failing check traps. -/
theorem settle_traps {i : Instr} {s e : State} {checks : List Verdict} {c : Nat} (h : EntersAtOnce s)
    (he : exec i s = settle i s checks e) (hw : i.wellFormed = true) (hc : firstOf checks = trapWith c) : TrapsWith i s c :=
  settleTo_traps h he (by rw [legal_eq_pass.2 hw, firstOf_pass, hc])

/-- An encoding that a rule rejects traps with ILLEGAL (R68). -/
theorem settle_illegal {i : Instr} {s e : State} {checks : List Verdict} (h : EntersAtOnce s)
    (he : exec i s = settle i s checks e) (hw : i.wellFormed = false) : TrapsWith i s 0x01 :=
  settleTo_traps h he (by rw [legal, hw]; rfl)

/-- One scalar source that is ready passes its checks. -/
theorem scalarChecks_one {s : State} {r : Nat} (x : Bool) (h : Usable s [r]) : firstOf (scalarChecks s [(r, x)] []) = .pass :=
  scalarChecks_pass h

/-- A destination that is ready passes its checks. -/
theorem scalarChecks_dest {s : State} {r : Nat} (h : Usable s [r]) : firstOf (scalarChecks s [] [r]) = .pass :=
  scalarChecks_pass h

end Sys2Proof.Machine
end

section
/-!
LEND (R49, R128), and O32.
-/

namespace Sys2Proof.Machine

open Sys2Proof.Claims

/-- The slot LEND names is the one the bank has. -/
theorem lendsToItsSlot_iff (s : State) (k p : BitVec 5) :
    (s.matrixBank k.toNat == (p == 1)) = true ↔ (s.readCsr 0x013).getLsbD k.toNat = decide (p.toNat = 1) := by
  have hp : (p == 1) = decide (p.toNat = 1) := by
    rw [Bool.eq_iff_iff]
    simp [← BitVec.toNat_inj]
  rw [hp, beq_iff_eq, State.matrixBank]

end Sys2Proof.Machine

namespace Sys2Proof.Proofs

open Sys2Proof.Machine Sys2Proof.Claims

/-- Settles O32: LEND compares the bank's slot, and its one check is the bank's results in flight. -/
theorem bankLending : Obligations.BankLending := by
  intro s k p hk hp
  have hw : (Instr.lend k p).wellFormed = true := by simp [Instr.wellFormed, hk, hp]
  refine ⟨fun hsame => ?_, fun hother => ?_⟩
  · have he : exec (.lend k p) s = settle (.lend k p) s [] s := by
      rw [exec_lend, execLend, if_pos ((lendsToItsSlot_iff s k p).2 hsame)]
    exact ⟨_, ⟨retires_of_settle he hw rfl rfl, s.goto_keepsCore _ _⟩, s.goto_onlyCore _ _⟩
  · have he : exec (.lend k p) s = settle (.lend k p) s [require (!s.bankBusy k.toNat) Code.lend]
        (s.setCsr 0x013 (Word.setBits (s.readCsr 0x013) k.toNat 1 (p.toNat % 2))) := by
      rw [exec_lend, execLend, if_neg]
      rw [lendsToItsSlot_iff, hother]
      simp
    refine ⟨fun hidle => ?_, fun hbusy henters => ?_⟩
    · refine ⟨_, ⟨retires_of_settle he hw (by simp [hidle, require]) rfl, State.goto_keepsCore _ _ _⟩,
        ⟨fun m hm => Sparse.get_set_ne _ _ hm, rfl, rfl⟩, fun j hj => ?_⟩
      rw [State.readCsr, State.goto_csr, State.setCsr_csr, Sparse.get_set_eq, Word.getLsbD_setBits _ _ _ (by omega)]
      by_cases hjk : j = k.toNat
      · rw [if_pos (by omega), if_pos hjk, hjk, Nat.sub_self, Nat.mod_eq_of_lt hp, Nat.testBit_zero, Nat.mod_eq_of_lt hp]
      · rw [if_neg (by omega), if_neg hjk]
    · exact settleTo_traps henters he (by simp [legal, hw, require, hbusy]; rfl)

end Sys2Proof.Proofs
end

section
/-!
The shape registers (R93, R94), and O7.
-/

namespace Sys2Proof.Machine

open Sys2Proof.Claims

/-- A source that fits in 32 bits is a shape; one above traps with SHAPE (R93). -/
theorem shapeOk_of_lt {s : State} {a : BitVec 5} (h : (s.g a.toNat).toNat < 2 ^ 32) : shapeOk s a = .pass := by
  have hb : Word.bits (s.g a.toNat) 32 32 = 0 := by rw [Word.bits, bits, Nat.div_eq_of_lt h, Nat.zero_mod]
  rw [shapeOk, hb]
  rfl

theorem shapeOk_of_le {s : State} {a : BitVec 5} (h : 2 ^ 32 ≤ (s.g a.toNat).toNat) : shapeOk s a = trapWith 0x10 := by
  have hb : (Word.bits (s.g a.toNat) 32 32 == 0) = false := by
    have hlt := (s.g a.toNat).isLt
    simp only [Word.bits, bits, beq_eq_false_iff_ne]
    omega
  rw [shapeOk, hb]
  rfl

theorem Word.half_zero (w : Word) : Word.half w 0 = w.setWidth 32 := by
  apply BitVec.eq_of_toNat_eq
  simp [Word.half, Word.bits, Sys2Proof.bits]

/-- A write of a shape register, in the words of the statement; the vector holds sixteen. -/
theorem State.putZ_writesShape (s : State) (i : Instr) (pc : Word) {n : Nat} (v : Lane) (hn : n < 16) :
    WritesShape s ((s.putZ n v).goto i pc) n v := by
  have hz : ∀ m, ((s.putZ n v).goto i pc).z m = if m = n then v else s.z m := by
    intro m
    by_cases hm : m = n
    · simp [State.z, State.putZ, hm, hn]
    · simp [State.z, State.putZ, hm, Vector.getElem?_setIfInBounds_ne (Ne.symm hm)]
  refine ⟨⟨rfl, rfl, rfl, rfl⟩, rfl, fun m _ => hz m, fun m => ?_⟩
  have hold : ((s.putZ n v).goto i pc).core.zOld = some (n, s.z n) := rfl
  rw [State.zForEngine, hold]
  by_cases hm : n = m
  · simp [hm]
  · simp [hm, hz m, Ne.symm hm]

theorem shapeReads : ShapeReads := by
  intro i s r hr hw hu
  have hd := scalarChecks_dest hu
  unfold shapeRead at hr
  split at hr
  · cases hr
    exact settle_result_writes (BitVec.isLt _) (exec_zget s) hw hd
  · cases hr
    exact settle_result_writes (BitVec.isLt _) (exec_zpend s) hw hd
  · cases hr

theorem shapeWrites : ShapeWrites := by
  intro d a x s hu
  have hsrc := scalarChecks_one x hu
  refine ⟨fun hd hfit _ => ?_, fun hd hbig henters => ?_, fun hd henters => ?_⟩
  · have hw : decide (d.toNat < 16) = true := decide_eq_true hd
    have hval : Word.half (s.g a.toNat) 0 = (s.g a.toNat).setWidth 32 := Word.half_zero _
    have hok : firstOf [shapeOk s a] = .pass := by rw [shapeOk_of_lt hfit]; rfl
    refine ⟨⟨_, retires_of_settle (exec_zset s) hw (firstOf_append.2 ⟨hsrc, hok⟩) rfl, ?_⟩, fun hidle => ⟨_,
      retires_of_settle (exec_zsetW s) hw (firstOf_append.2 ⟨hsrc, ?_⟩) rfl, ?_⟩, fun hpend =>
      settle_waits (exec_zsetW s) hw ?_⟩
    · rw [← hval]
      exact s.putZ_writesShape _ _ _ hd
    · rw [shapeOk_of_lt hfit, hidle]
      rfl
    · rw [← hval]
      exact s.putZ_writesShape _ _ _ hd
    · rw [firstOf_append_of_pass hsrc, shapeOk_of_lt hfit]
      simp [await, hpend, firstOf]
  · have hw : decide (d.toNat < 16) = true := decide_eq_true hd
    exact ⟨settle_traps henters (exec_zset s) hw (by rw [shapeOk_of_le hbig, firstOf_append_of_pass hsrc]; rfl),
      settle_traps henters (exec_zsetW s) hw (by rw [shapeOk_of_le hbig, firstOf_append_of_pass hsrc]; rfl)⟩
  · have hw : decide (d.toNat < 16) = false := decide_eq_false (Nat.not_lt.2 hd)
    exact ⟨settle_illegal henters (exec_zset s) hw, settle_illegal henters (exec_zsetW s) hw⟩

end Sys2Proof.Machine

namespace Sys2Proof.Proofs

open Sys2Proof.Machine Sys2Proof.Claims

/-- Settles O7: what the reads return, and what the writes do. -/
theorem shapeRegisters : Obligations.ShapeRegisters := ⟨shapeReads, shapeWrites⟩

end Sys2Proof.Proofs
end

section
/-!
CSR accesses that trap or whose write is ignored (R56, R68, R100), and O13.
-/

namespace Sys2Proof.Machine

open Sys2Proof.Claims

/-- A form of R100 that may not write its register only reads it. -/
theorem execCsrOp_of_forbidden {i : Instr} (g : Word → Word → Word) {d a : BitVec 5} {c : BitVec 12} {s : State}
    (hp : s.csrPermits c.toNat = false) (hc : csrCaptured c.toNat = false) :
    execCsrOp i g d a c s = settle i s (csrAccess s c.toNat ++ scalarChecks s [(a.toNat, false)] [d.toNat])
      ((s.advance c.toNat).result 1 d.toNat (s.csrRead c.toNat)) := by
  rw [execCsrOp, hp, State.csrResult, hc]
  rfl

/-- The same for every form, after the checks of the number and of its operands. -/
theorem exec_csrForm {i : Instr} {s : State} {d a n : Nat} {f : Word → Word → Option Word} (hi : csrForm i = some (d, a, n, f))
    (hp : s.csrPermits n = false) (hc : csrCaptured n = false) :
    d < 32 ∧ ∃ srcs : List (Nat × Bool), (∀ r ∈ srcs.map Prod.fst, r = a) ∧
      exec i s = settle i s (csrAccess s n ++ scalarChecks s srcs [d]) ((s.advance n).result 1 d (s.csrRead n)) := by
  unfold csrForm at hi
  split at hi <;> cases hi
  next d n =>
    refine ⟨d.isLt, [], by simp, ?_⟩
    rw [exec_csrr, execCsrr, if_neg (by simp [hc]), State.csrResult, hc]
    rfl
  next d a n =>
    exact ⟨d.isLt, [(a.toNat, false)], by simp, by rw [exec_csrw, execCsrw, execCsrOp_of_forbidden _ hp hc]⟩
  next d a n =>
    exact ⟨d.isLt, [(a.toNat, false)], by simp, by rw [exec_csrs, execCsrs, execCsrOp_of_forbidden _ hp hc]⟩
  next d a n =>
    exact ⟨d.isLt, [(a.toNat, false)], by simp, by rw [exec_csrc, execCsrc, execCsrOp_of_forbidden _ hp hc]⟩
  next d a n =>
    exact ⟨d.isLt, [(a.toNat, false)], by simp, by rw [exec_csrx, execCsrx, execCsrOp_of_forbidden _ hp hc]⟩

/-- The numbers that R56 does not assign among those of traps and of interrupts. -/
theorem csrRow_unassigned {n : Nat} (h : 0x053 ≤ n ∧ n ≤ 0x07F ∨ 0x107 ≤ n ∧ n ≤ 0x11F) : csrRow n = none := by
  have hall : ∀ n ∈ List.range' 0x053 45 ++ List.range' 0x107 25, csrRow n = none := by decide +kernel
  exact hall n (by simp; omega)

/-- The system registers among those of traps and of interrupts are neither read nor written at user level. -/
theorem csrRow_system {n : Nat} (h : 0x040 ≤ n ∧ n ≤ 0x046 ∨ 0x048 ≤ n ∧ n ≤ 0x052 ∨ 0x100 ≤ n ∧ n ≤ 0x106) :
    ∃ w, csrRow n = some (false, false, w) := by
  have hall : ∀ n ∈ List.range' 0x040 7 ++ List.range' 0x048 11 ++ List.range' 0x100 7,
      (csrRow n).map (fun r => (r.1, r.2.1)) = some (false, false) := by decide +kernel
  have hn := hall n (by simp; omega)
  obtain ⟨⟨r, v, w⟩, hrow, he⟩ := Option.map_eq_some_iff.1 hn
  cases he
  exact ⟨w, hrow⟩

/-- Four registers are read, and not written, at user level. -/
theorem csrRow_readOnly {n : Nat} (h : n = 0x000 ∨ n = 0x013 ∨ n = 0x014 ∨ n = 0x047) :
    ∃ w, csrRow n = some (true, false, w) := by
  rcases h with rfl | rfl | rfl | rfl <;> exact ⟨_, rfl⟩

/-- Four of the registers have nothing to an access but the read. -/
theorem csrRead_readOnly {n : Nat} (s : State) (h : n = 0x000 ∨ n = 0x013 ∨ n = 0x014 ∨ n = 0x047) :
    s.csrRead n = s.readCsr n ∧ s.advance n = s := by
  rcases h with rfl | rfl | rfl | rfl <;> exact ⟨rfl, rfl⟩

/-- CAPDATA and CLOCK are the registers whose values are captured. -/
theorem csrCaptured_eq_false {n : Nat} (h : n ≠ 0x083 ∧ n ≠ 0x180) : csrCaptured n = false := by
  simp [csrCaptured, h]

end Sys2Proof.Machine

namespace Sys2Proof.Proofs

open Sys2Proof.Machine Sys2Proof.Claims

/-- Settles O13: what the register map says of the number decides. -/
theorem csrPermission : Obligations.CsrPermission := by
  intro i s d a n f hi hw
  refine ⟨fun hn henters => ?_, fun hu henters hn => ?_, fun hu hready hn => ?_⟩
  · have hrow := csrRow_unassigned hn
    obtain ⟨-, srcs, -, he⟩ := exec_csrForm (s := s) hi (by rw [State.csrPermits, hrow])
      (csrCaptured_eq_false (by omega))
    exact settle_traps henters he hw (by rw [csrAccess, hrow]; rfl)
  · obtain ⟨w, hrow⟩ := csrRow_system hn
    obtain ⟨-, srcs, -, he⟩ := exec_csrForm (s := s) hi (by simp [State.csrPermits, hrow, hu])
      (csrCaptured_eq_false (by omega))
    exact settle_traps henters he hw (by rw [csrAccess, hrow, hu]; rfl)
  · obtain ⟨w, hrow⟩ := csrRow_readOnly hn
    obtain ⟨hd, srcs, hsrcs, he⟩ := exec_csrForm (s := s) hi (by simp [State.csrPermits, hrow, hu])
      (csrCaptured_eq_false (by omega))
    obtain ⟨hread, hplain⟩ := csrRead_readOnly s hn
    rw [hread, hplain] at he
    have haccess : firstOf (csrAccess s n) = .pass := by
      rw [csrAccess, hrow]
      simp [require]
    have hoperands : firstOf (scalarChecks s srcs [d]) = .pass := by
      refine scalarChecks_pass fun r hr => ?_
      rcases List.mem_append.1 hr with hr | hr
      · exact hready r (by simp [hsrcs r hr])
      · exact hready r (by simpa using Or.inr hr)
    exact settle_result_writes hd he hw (firstOf_append.2 ⟨haccess, hoperands⟩)

end Sys2Proof.Proofs
end

section
/-!
RETT (R92, R95, R203), and O10.
-/

namespace Sys2Proof.Machine

open Sys2Proof.Claims

/-! ### The frame restored -/

/-- What RETT writes, register by register. -/
def State.returnWrites (s : State) : List (Nat × Word) :=
  [(1, Word.setBits (s.readCsr 1) 8 1 (Word.bits (s.readCsr 0x040) 2 1)),
   (0x100, Word.setBits (s.readCsr 0x100) 0 1 (Word.bits (s.readCsr 0x040) 3 1)),
   (0x014, BitVec.ofNat 64 (Word.bits (s.readCsr 0x048) 0 3)), (0x040, Word.setBits (s.readCsr 0x040) 0 2 0)]

theorem State.readCsr_restoreFrame_of_mem {s : State} {k : Nat} {v : Word} (h : (k, v) ∈ s.returnWrites) :
    s.restoreFrame.readCsr k = v := by
  have hd : (s.returnWrites.map Prod.fst).Nodup := (by decide : [1, 0x100, 0x014, 0x040].Nodup)
  exact Sparse.get_foldl_set_of_mem _ hd h

theorem State.readCsr_restoreFrame_of_notMem (s : State) {k : Nat} (h : k ∉ [0x001, 0x100, 0x014, 0x040]) :
    s.restoreFrame.readCsr k = s.readCsr k := by
  refine Sparse.get_foldl_set_of_ne (ps := s.returnWrites) _ fun p hp e => h ?_
  have hk : k ∈ s.returnWrites.map Prod.fst := e ▸ List.mem_map_of_mem hp
  exact hk

/-- A one-bit field written from a one-bit field. -/
theorem Word.getLsbD_setBits_bits (w u : Word) (i j : Nat) (hi : i < 64) :
    (Word.setBits w i 1 (Word.bits u j 1)).getLsbD i = u.getLsbD j := by
  rw [Word.getLsbD_setBits _ _ _ hi, if_pos (by omega), Word.bits_one_eq, Nat.sub_self]
  cases u.getLsbD j <;> rfl

theorem State.system_restoreFrame (s : State) : s.restoreFrame.system = (s.readCsr 0x040).getLsbD 2 := by
  rw [State.system, State.readCsr_restoreFrame_of_mem (List.mem_cons_self ..), Word.getLsbD_setBits_bits _ _ _ _ (by decide)]

theorem State.ie_restoreFrame (s : State) : (s.restoreFrame.readCsr 0x100).getLsbD 0 = (s.readCsr 0x040).getLsbD 3 := by
  rw [State.readCsr_restoreFrame_of_mem (List.mem_cons_of_mem _ (List.mem_cons_self ..)),
    Word.getLsbD_setBits_bits _ _ _ _ (by decide)]

theorem State.msp_restoreFrame (s : State) : s.restoreFrame.msp = (s.readCsr 0x048).toNat % 8 := by
  rw [State.msp, State.readCsr_restoreFrame_of_mem (v := BitVec.ofNat 64 (Word.bits (s.readCsr 0x048) 0 3))
    (by simp [State.returnWrites])]
  simp [Word.bits, bits]

/-- VALID and HELD are clear. -/
theorem State.fstat_restoreFrame (s : State) {i : Nat} (hi : i < 2) : (s.restoreFrame.readCsr 0x040).getLsbD i = false := by
  rw [State.readCsr_restoreFrame_of_mem (v := Word.setBits (s.readCsr 0x040) 0 2 0) (by simp [State.returnWrites]),
    Word.getLsbD_setBits _ _ _ (by decide), if_pos (by omega), Nat.zero_testBit]

theorem canon_bits (w : Word) : canon (Word.bits w 0 56) = (w.setWidth 56).signExtend 64 := by
  rw [canon]
  congr 1
  apply BitVec.eq_of_toNat_eq
  simp [Word.bits, bits]

/-! ### RETT's checks -/

/-- The frame is held, and every record is sound and names no bank of the matrix slot. -/
theorem rettChecks_pass {s : State} (hvalid : (s.readCsr 0x040).getLsbD 0 = true)
    (hrec : ∀ j, j < s.nlat → s.latchBad j = false ∧ s.latchLent j = false) : firstOf (rettChecks s) = .pass := by
  have hbad : (List.range s.nlat).any s.latchBad = false :=
    List.any_eq_false.2 fun j hj => by simp [(hrec j (List.mem_range.1 hj)).1]
  have hlent : (List.range s.nlat).any s.latchLent = false :=
    List.any_eq_false.2 fun j hj => by simp [(hrec j (List.mem_range.1 hj)).2]
  rw [rettChecks, hvalid, hbad, hlent]
  rfl

theorem rettChecks_fail {s : State} (h : (s.readCsr 0x040).getLsbD 0 = false ∨
    ∃ j, j < s.nlat ∧ (s.latchBad j = true ∨ s.latchLent j = true)) : firstOf (rettChecks s) ≠ .pass := by
  intro hpass
  simp only [rettChecks, firstOf_cons, require_eq_pass, Bool.not_eq_true', List.any_eq_false, List.mem_range] at hpass
  obtain ⟨hvalid, hbad, hlent, -⟩ := hpass
  rcases h with h | ⟨j, hj, h | h⟩
  · exact absurd (hvalid.symm.trans h) (by decide)
  · exact hbad j hj h
  · exact hlent j hj h

theorem trapReturn : TrapReturn := by
  intro s hsys hvalid hrec
  have he : exec .rett s = .next s.restoreFrame := by
    rw [exec_rett, execRett, privileged, hsys, rettChecks_pass hvalid hrec]
    rfl
  refine ⟨_, he, rfl, rfl, canon_bits _, s.system_restoreFrame, s.ie_restoreFrame, s.msp_restoreFrame, fun i hi => ?_,
    s.fstat_restoreFrame (by decide), s.fstat_restoreFrame (by decide), rfl, rfl, rfl, rfl,
    fun n hn => s.readCsr_restoreFrame_of_notMem hn, rfl⟩
  simp [State.restoreFrame, hi]

theorem trapReturnRefused : TrapReturnRefused := by
  intro s
  refine ⟨fun huser henters => ?_, fun hsys hfail => ?_⟩
  · refine ⟨_, ?_, State.syncTrap_enters henters { code := 0x02 } s.core.pc⟩
    rw [exec_rett, execRett, privileged, huser]
    rfl
  · refine ⟨s.rettTraps, ?_, nextPc_eq _ _, rfl, rfl, ⟨rfl, rfl, rfl, rfl⟩, rfl⟩
    rw [exec_rett, execRett, privileged, hsys]
    cases hf : firstOf (rettChecks s)
    case pass => exact absurd hf (rettChecks_fail hfail)
    all_goals rfl

end Sys2Proof.Machine

namespace Sys2Proof.Proofs

open Sys2Proof.Machine Sys2Proof.Claims

/-- Settles O10: what RETT restores, and when it is refused. -/
theorem trapReturns : Obligations.TrapReturns := ⟨trapReturn, trapReturnRefused⟩

end Sys2Proof.Proofs
end

section
/-!
QTERM in the state of a stray acquire (`State.withStrayRow`), and O29: the statement's `AccessOpen` leaves out that row, and QTERM,
an access of the weight store, waits for it.
-/

namespace Sys2Proof.Machine

open Sys2Proof.Claims

/-- QTERM, with an address that is ready, waits with every other access for an earlier acquire. -/
theorem execQterm_acquireWait {s : State} {a : BitVec 5} {n : BitVec 4} {c : Cause} (hu : Usable s [a.toNat])
    (ha : acquireWait s = .wait c) : exec (.qterm a n) s = .next (s.hold (.qterm a n) c) := by
  have hsrc : ∀ q ∈ [([gLoc a.toNat], false)], ∀ l ∈ q.1, s.emptyLoc l = false ∧ s.lateLoc l = false := by
    simpa using hu a.toNat (List.mem_singleton.2 rfl)
  rw [exec_qterm, execQterm, settle, settleTo, legal_eq_pass.2 rfl, firstOf_pass,
    memChecks_acquireWait rfl hsrc (by simp) ha]
  rfl

theorem accessOpen_reset : AccessOpen State.reset :=
  ⟨⟨by decide, by decide, by decide⟩, by decide, by decide, by decide⟩

end Sys2Proof.Machine

namespace Sys2Proof.Proofs

open Sys2Proof.Machine Sys2Proof.Claims

/-- Refutes O29: after reset, but with an acquire in a row of queue 0, which the statement's hypotheses allow, QTERM of the zeros
at the start of the weight store does not retire but waits, charged to ORDERWAIT. -/
theorem not_cueBoard : ¬ Obligations.CueBoard := by
  unfold Obligations.CueBoard
  rintro ⟨-, hterm⟩
  let s := State.reset.withStrayRow
  have husable : Usable s [(0 : BitVec 5).toNat] := by
    unfold Usable
    decide
  have hzero : (List.range 8).map (fun j => BitVec.ofNat 64
      (Memory.readLE (seen s 0) ((s.g (0 : BitVec 5).toNat).toNat + 8 * j) 8)) = List.replicate 8 0 := by decide
  obtain ⟨hretires, -⟩ := hterm s 0 0 _ husable (accessOpen_withStrayRow accessOpen_reset) (by decide)
    ⟨by decide, rfl⟩ hzero.symm
  obtain ⟨t, ⟨hrun, -, hcharge, -⟩, -⟩ := hretires (by decide)
  rw [execQterm_acquireWait husable (acquireWait_withStrayRow _)] at hrun
  cases hrun
  cases hcharge

end Sys2Proof.Proofs
end

section
/-!
Which lanes a unit names: the model's lane masks in the words of the statements (R131, R149).
-/

namespace Sys2Proof.Machine

open Sys2Proof.Claims

/-! ### Masks -/

/-- The bits of a number built from the least significant one up. -/
theorem testBit_foldr_bit (p : Nat → Bool) (ns : List Nat) (i : Nat) :
    (ns.foldr (fun n acc => bit (p n) + 2 * acc) 0).testBit i = (ns.map p).getD i false := by
  induction ns generalizing i with
  | nil => simp
  | cons n ns ih =>
    have hbit : bit (p n) < 2 := by cases p n <;> decide
    cases i with
    | zero =>
      rw [List.foldr_cons, Nat.testBit_zero, Nat.add_mul_mod_self_left]
      cases h : p n <;> simp [bit, h]
    | succ i =>
      rw [List.foldr_cons, Nat.testBit_succ, show ∀ x, (bit (p n) + 2 * x) / 2 = x by omega, ih]
      simp

theorem getLsbD_maskOf (p : Nat → Bool) {i : Nat} (hi : i < 64) : (maskOf p).getLsbD i = p i := by
  have h : (maskOf p).getLsbD i = ((List.range 64).map p).getD i false := BitVec.getLsbD_ofBoolListLE
  rw [h]
  simp [hi]

/-- The lanes a test names. -/
theorem laneMask_eq_maskOf (p : Nat → Bool) : laneMask p = maskOf p := by
  refine BitVec.eq_of_getLsbD_eq fun i hi => ?_
  rw [getLsbD_maskOf p hi, laneMask, BitVec.getLsbD_ofNat, testBit_foldr_bit]
  simp [hi]

/-- Masks whose tests agree on the lanes. -/
theorem maskOf_congr {p q : Nat → Bool} (h : ∀ n, n < 64 → p n = q n) : maskOf p = maskOf q := by
  refine BitVec.eq_of_getLsbD_eq fun i hi => ?_
  rw [getLsbD_maskOf p hi, getLsbD_maskOf q hi, h i hi]

/-- The lanes read for the enabled lanes. -/
theorem readLanes_eq_readFor {k : Word} {f g : Nat → Option Nat} (h : ∀ n, n < 64 → f n = g n) :
    readLanes k f = readFor k g := by
  rw [readLanes, readFor, laneMask_eq_maskOf]
  refine maskOf_congr fun j _ => ?_
  rw [enabled, List.any_filter]
  rw [Bool.eq_iff_iff, List.any_eq_true, List.any_eq_true]
  refine exists_congr fun n => and_congr_right fun hn => ?_
  rw [h n (List.mem_range.1 hn)]

/-! ### Lanes that another vector selects -/

/-- The lanes VCOMPRESS and VEXPAND select. -/
theorem filter_selected_eq_sel (s : State) (b : BitVec 6) :
    (List.range 64).filter (selected s.k (s.v b.toNat)) = sel s b := by
  rw [sel, enabled, List.filter_filter]
  refine List.filter_congr fun j hj => ?_
  rw [selected, s.laneOf_v _ (List.mem_range.1 hj), Bool.and_comm]

theorem laneMask_selected_eq (s : State) (b : BitVec 6) :
    laneMask (selected s.k (s.v b.toNat)) = maskOf (sel s b).contains := by
  rw [laneMask_eq_maskOf]
  refine maskOf_congr fun n hn => ?_
  rw [← filter_selected_eq_sel, Bool.eq_iff_iff]
  simp [hn]

/-- How many lanes below n are selected. -/
theorem length_filter_selected (s : State) (b : BitVec 6) {n : Nat} (hn : n < 64) :
    ((List.range n).filter (selected s.k (s.v b.toNat))).length = (sel s b).countP (· < n) := by
  have hcut : (List.range 64).filter (fun j => decide (j < n)) = List.range n := by
    rw [show 64 = n + (64 - n) by omega, List.range_add, List.filter_append, List.filter_eq_self.2, List.filter_eq_nil_iff.2,
      List.append_nil]
    · simp
    · exact fun j hj => decide_eq_true (List.mem_range.1 hj)
  rw [← filter_selected_eq_sel, List.countP_eq_length_filter, List.filter_filter, ← hcut, List.filter_filter]
  simp only [Bool.and_comm]

end Sys2Proof.Machine
end

section
/-!
Every row of the vector tables is issued through the checks of R132 with its delay count (R130-R134).
-/

namespace Sys2Proof.Machine

open Sys2Proof.Claims

/-! ### What a row's unit checks -/

/-- The locations of a source are those of one of the row's sources. -/
def NamesSource (s : State) (r : VRow) (p : Source) : Prop :=
  (∃ x ∈ r.srcs, p.1 = s.vLocs x.1 x.2) ∨ ∃ g ∈ r.gsrcs, p.1 = [gLoc g]

/-- The unit is issued by format V with the row's delay count and destination, after the checks of R132, which may be preceded by
tests of a source for empty words (R131). -/
def IssuesAs (i : Instr) (s : State) (r : VRow) : Prop :=
  ∃ (l : BitVec 2) (pre : List Verdict) (srcs : List Source) (e : State), l.toNat = r.delay ∧
    exec i s = settleV i l s (pre ++ vectorChecks s srcs (s.vLocs r.dst r.written)) e ∧
    (∀ p ∈ srcs, NamesSource s r p) ∧ ∀ v ∈ pre, ∃ p ∈ srcs, v = emptyReadTrap s p ∨ v = awaitFull s p.1

theorem namesSource_vector {s : State} {r : VRow} {n : Nat} {k : Word} (x : Bool) (h : (n, k) ∈ r.srcs) :
    NamesSource s r (s.vLocs n k, x) := .inl ⟨_, h, rfl⟩

theorem namesSource_scalar {s : State} {r : VRow} {g : Nat} (x : Bool) (h : g ∈ r.gsrcs) :
    NamesSource s r ([gLoc g], x) := .inr ⟨_, h, rfl⟩

/-- A unit without tests before the checks of R132. -/
theorem issuesAs_of_checks {i : Instr} {s e : State} {r : VRow} {l : BitVec 2} {srcs : List Source} (hl : l.toNat = r.delay)
    (he : exec i s = settleV i l s (vectorChecks s srcs (s.vLocs r.dst r.written)) e) (hs : ∀ p ∈ srcs, NamesSource s r p) :
    IssuesAs i s r := ⟨l, [], srcs, e, hl, he, hs, by simp⟩

/-! ### The shared forms -/

section
variable {i : Instr} {s : State} {r : VRow} {d a b : BitVec 6} {x y : Bool} {l : BitVec 2}

theorem execLanes1_issues {lat : Nat} {f g : Lane → Lane} (he : exec i s = execLanes1 i lat f d a x l s)
    (hr : v1 s lat d a l g = some r) : IssuesAs i s r := by
  cases hr
  exact issuesAs_of_checks rfl he (by simpa using namesSource_vector x (by simp))

theorem execLanes2_issues {lat : Nat} {f g : Lane → Lane → Lane} (he : exec i s = execLanes2 i lat f d a b x y l s)
    (hr : v2 s lat d a b l g = some r) : IssuesAs i s r := by
  cases hr
  exact issuesAs_of_checks rfl he (by simpa using ⟨namesSource_vector x (by simp), namesSource_vector y (by simp)⟩)

theorem execLanes3_issues {lat : Nat} {f g : Lane → Lane → Lane → Lane} (he : exec i s = execLanes3 i lat f d a b x y l s)
    (hr : v3 s lat d a b l g = some r) : IssuesAs i s r := by
  cases hr
  exact issuesAs_of_checks rfl he (by
    simpa using ⟨namesSource_vector x (by simp), namesSource_vector y (by simp), namesSource_vector false (by simp)⟩)

theorem execReduce_issues {lat : Nat} {f g : Lane → Lane → Lane} {u v : Lane} (he : exec i s = execReduce i lat f u d a x l s)
    (hr : reduction s lat d a l g v = some r) : IssuesAs i s r := by
  cases hr
  exact issuesAs_of_checks rfl he (by simpa using namesSource_vector x (by simp))

theorem execMove_issues {f g : Nat → Option Nat} (he : exec i s = execMove i f d a x l s)
    (hr : moveRow s d a l s.k [] g = some r) (hfg : ∀ n, n < 64 → f n = g n) : IssuesAs i s r := by
  cases hr
  exact issuesAs_of_checks rfl he (by
    simpa [readLanes_eq_readFor hfg] using namesSource_vector x (by simp))

theorem execMoveBy_issues {f : List Lane → Nat → Option Nat} {g : Nat → Option Nat} {lanes written : Word}
    (he : exec i s = execMoveBy i f lanes d a b x y l s)
    (hr : moveRow s d a l written [(b.toNat, s.k)] g = some r) (hw : lanes = written)
    (hfg : ∀ n, n < 64 → f (s.v b.toNat) n = g n) : IssuesAs i s r := by
  cases hr
  subst hw
  refine ⟨l, _, _, _, rfl, he, ?_, ?_⟩
  · simpa [readLanes_eq_readFor hfg] using ⟨namesSource_vector y (by simp), namesSource_vector x (by simp)⟩
  · simp

theorem execMerge_issues {f : Nat → Bool × Nat} {g : VRow} {p q : Nat → Option Nat} (he : exec i s = execMerge i f d a b x y l s)
    (hg : g.delay = l.toNat ∧ g.dst = d.toNat ∧ g.written = s.k)
    (hs : g.srcs = [(a.toNat, readFor s.k p), (b.toNat, readFor s.k q)])
    (hp : ∀ n, n < 64 → (if (f n).1 = true then some (f n).2 else none) = p n)
    (hq : ∀ n, n < 64 → (if (f n).1 = false then some (f n).2 else none) = q n) : IssuesAs i s g := by
  obtain ⟨hdelay, hdst, hwritten⟩ := hg
  have hsrcs : NamesSource s g (s.vLocs a.toNat (readFor s.k p), x) ∧ NamesSource s g (s.vLocs b.toNat (readFor s.k q), y) :=
    ⟨namesSource_vector x (by simp [hs]), namesSource_vector y (by simp [hs])⟩
  rw [execMerge, ← hdst, readLanes_eq_readFor hp, readLanes_eq_readFor hq, ← hwritten] at he
  rw [← hwritten] at hsrcs
  exact issuesAs_of_checks hdelay.symm he (by simpa using hsrcs)
end

/-! ### The tables -/

theorem integerLanes_issues {i : Instr} {s : State} {r : VRow} (hr : integerLanes s i = some r) : IssuesAs i s r := by
  unfold integerLanes at hr
  split at hr
  · exact execLanes2_issues (exec_viadd s) hr
  · exact execLanes2_issues (exec_visub s) hr
  · exact execLanes2_issues (exec_vimul s) hr
  · exact execLanes2_issues (exec_vimulh s) hr
  · exact execLanes2_issues (exec_vimin s) hr
  · exact execLanes2_issues (exec_vimax s) hr
  · exact execLanes2_issues (exec_viminu s) hr
  · exact execLanes2_issues (exec_vimaxu s) hr
  · exact execLanes1_issues (exec_viabs s) hr
  · exact execLanes2_issues (exec_viadds s) hr
  · exact execLanes2_issues (exec_visubs s) hr
  · exact execLanes2_issues (exec_vand s) hr
  · exact execLanes2_issues (exec_vor s) hr
  · exact execLanes2_issues (exec_vxor s) hr
  · exact execLanes2_issues (exec_vandn s) hr
  · exact execLanes2_issues (exec_vshl s) hr
  · exact execLanes2_issues (exec_vshr s) hr
  · exact execLanes2_issues (exec_vsar s) hr
  · exact execLanes1_issues (exec_vnot s) hr
  · exact execLanes1_issues (exec_vpopc s) hr
  · exact execLanes1_issues (exec_vclz s) hr
  · exact execLanes2_issues (exec_viceq s) hr
  · exact execLanes2_issues (exec_viclt s) hr
  · exact execLanes2_issues (exec_vicltu s) hr
  · exact execLanes1_issues (exec_vmov s) hr
  · exact execLanes3_issues (exec_vsel s) hr
  · cases hr

theorem floatLanes_issues {i : Instr} {s : State} {r : VRow} (hr : floatLanes s i = some r) : IssuesAs i s r := by
  unfold floatLanes at hr
  split at hr
  · exact execLanes2_issues (exec_vfadd s) hr
  · exact execLanes2_issues (exec_vfsub s) hr
  · exact execLanes2_issues (exec_vfmul s) hr
  · exact execLanes3_issues (exec_vfma s) hr
  · exact execLanes3_issues (exec_vfms s) hr
  · exact execLanes3_issues (exec_vfnma s) hr
  · exact execLanes2_issues (exec_vfmin s) hr
  · exact execLanes2_issues (exec_vfmax s) hr
  · exact execLanes1_issues (exec_vfabs s) hr
  · exact execLanes1_issues (exec_vfneg s) hr
  · exact execLanes2_issues (exec_vbadd s) hr
  · exact execLanes2_issues (exec_vbsub s) hr
  · exact execLanes2_issues (exec_vbmul s) hr
  · exact execLanes3_issues (exec_vbfma s) hr
  · exact execLanes2_issues (exec_vbmin s) hr
  · exact execLanes2_issues (exec_vbmax s) hr
  · exact execLanes1_issues (exec_frcp s) hr
  · exact execLanes1_issues (exec_frsq s) hr
  · exact execLanes1_issues (exec_fexp2 s) hr
  · exact execLanes1_issues (exec_flog2 s) hr
  · exact execLanes1_issues (exec_vcvtfh s) hr
  · exact execLanes1_issues (exec_vcvthf s) hr
  · exact execLanes1_issues (exec_vcvtfs s) hr
  · exact execLanes1_issues (exec_vcvtsf s) hr
  · exact execLanes1_issues (exec_vcvtfi s) hr
  · exact execLanes1_issues (exec_vcvtif s) hr
  · exact execLanes1_issues (exec_vcvtfu s) hr
  · exact execLanes1_issues (exec_vcvtuf s) hr
  · exact execLanes1_issues (exec_vrnd s) hr
  · exact execLanes2_issues (exec_vfceq s) hr
  · exact execLanes2_issues (exec_vfclt s) hr
  · exact execLanes2_issues (exec_vfcle s) hr
  · cases hr

theorem reductions_issues {i : Instr} {s : State} {r : VRow} (hr : reductions s i = some r) : IssuesAs i s r := by
  unfold reductions at hr
  split at hr
  · exact execReduce_issues (exec_vfrsum s) hr
  · exact execReduce_issues (exec_vfrmax s) hr
  · exact execReduce_issues (exec_vfrmin s) hr
  · exact execReduce_issues (exec_virsum s) hr
  · exact execReduce_issues (exec_virmax s) hr
  · exact execReduce_issues (exec_virmin s) hr
  · exact execReduce_issues (exec_vrand s) hr
  · exact execReduce_issues (exec_vror s) hr
  · cases hr

theorem laneMoves_issues {i : Instr} {s : State} {r : VRow} (hr : laneMoves s i = some r) : IssuesAs i s r := by
  unfold laneMoves at hr
  split at hr
  · exact execMoveBy_issues (exec_vperm s) hr rfl fun n hn => by rw [s.laneOf_v _ hn]
  · exact execMove_issues (exec_vbcast s) hr fun _ _ => rfl
  · exact execMove_issues (exec_vrot s) hr fun _ _ => rfl
  · exact execMove_issues (exec_vslup s) hr fun _ _ => rfl
  · exact execMove_issues (exec_vsldn s) hr fun _ _ => rfl
  · cases hr
    exact execMerge_issues (exec_vzip s) ⟨rfl, rfl, rfl⟩ rfl (fun n _ => by simp) (fun n _ => by simp)
  · cases hr
    exact execMerge_issues (exec_vunzip s) ⟨rfl, rfl, rfl⟩ rfl (fun n _ => by split <;> simp) (fun n _ => by split <;> simp)
  · exact execMoveBy_issues (exec_vcompress s) hr rfl fun n _ => by rw [filter_selected_eq_sel]
  · next d a b x y l =>
    have he := exec_vexpand (d := d) (a := a) (b := b) (x := x) (y := y) (l := l) s
    rw [execVexpand] at he
    exact execMoveBy_issues he hr (laneMask_selected_eq s b) fun n hn => by rw [length_filter_selected s b hn]
  · cases hr
    next d g x l =>
    have he := exec_vsplat (d := d) (g := g) (x := x) (l := l) s
    rw [execVsplat] at he
    exact issuesAs_of_checks rfl he (by simpa using namesSource_scalar _ (by simp))
  · cases hr
    next d g m x l =>
    have he := exec_vins (d := d) (g := g) (n := m) (x := x) (l := l) s
    rw [execVins, laneMask_eq_maskOf, maskOf_congr (q := fun n => n == m.toNat && s.k.getLsbD n)] at he
    · exact issuesAs_of_checks rfl he (by simpa using namesSource_scalar _ (by simp))
    · exact fun n _ => rfl
  · cases hr
    exact issuesAs_of_checks rfl (exec_viota s) (by simp)
  · cases hr

end Sys2Proof.Machine
end

section
/-!
Vector units at issue (R48, R130, R132, R134), the mask stack (R54, R146, R150), and O42.
-/

namespace Sys2Proof.Machine

open Sys2Proof.Claims

/-! ### Issue -/

/-- Sources of a row whose lanes and registers are ready. -/
theorem namesSource_ready {s : State} {r : VRow} {p : Source} (hp : NamesSource s r p) (hg : Usable s r.gsrcs)
    (hv : ∀ x, x ∈ r.srcs → LanesReady s x.1 x.2) : ∀ a ∈ p.1, s.emptyLoc a = false ∧ s.lateLoc a = false := by
  rcases hp with ⟨x, hx, hpx⟩ | ⟨g, hgr, hpg⟩
  · rw [hpx]
    exact State.vLocs_ready (hv x hx)
  · simpa [hpg] using hg g hgr

/-- What comes before the bank check passes where the sources are ready and the destination full. -/
theorem vectorTests_pass {s : State} {pre : List Verdict} {srcs : List Source} {dst : List Nat}
    (hs : ∀ p ∈ srcs, ∀ a ∈ p.1, s.emptyLoc a = false ∧ s.lateLoc a = false) (hd : ∀ a ∈ dst, s.emptyLoc a = false)
    (hpre : ∀ v ∈ pre, ∃ p ∈ srcs, v = emptyReadTrap s p ∨ v = awaitFull s p.1) :
    firstOf (pre ++ (srcs.map (emptyReadTrap s) ++ [awaitFull s ((srcs.map Prod.fst).flatten ++ dst)])) = .pass := by
  have hread : ∀ p ∈ srcs, emptyReadTrap s p = .pass := fun p hp => emptyReadTrap_pass fun a ha => (hs p hp a ha).1
  rw [firstOf_append, firstOf_append]
  refine ⟨firstOf_eq_pass.2 fun v hv => ?_, firstOf_eq_pass.2 fun v hv => ?_, ?_⟩
  · obtain ⟨p, hp, rfl | rfl⟩ := hpre v hv
    · exact hread p hp
    · exact awaitFull_eq_pass.2 fun a ha => (hs p hp a ha).1
  · obtain ⟨p, hp, rfl⟩ := List.mem_map.1 hv
    exact hread p hp
  · rw [awaitFull_eq_pass.2 fun a ha => ?_]
    · rfl
    · rcases List.mem_append.1 ha with ha | ha
      · obtain ⟨ls, hls, ha⟩ := List.mem_flatten.1 ha
        obtain ⟨p, hp, rfl⟩ := List.mem_map.1 hls
        exact (hs p hp a ha).1
      · exact hd a ha

/-- A row that could issue spends its delay count first (R134). -/
theorem issuesAs_delay {i : Instr} {s : State} {r : VRow} (hi : IssuesAs i s r) (hw : i.wellFormed = true)
    (h : VectorReady s { r with delay := 0 }) (hd : s.core.delayClk < r.delay) : exec i s = .next s.spendDelay := by
  obtain ⟨l, pre, srcs, e, hl, he, hs, hpre⟩ := hi
  obtain ⟨-, hg, hv, ht, hb⟩ := h
  have hready := fun p hp => namesSource_ready (hs p hp) hg hv
  rw [he]
  refine settleV_delay hw ?_ (hl ▸ hd)
  have htests := firstOf_append.1 (vectorTests_pass hready (fun a ha => (State.vLocs_ready ht a ha).1) hpre)
  refine firstOf_append.2 ⟨htests.1, vectorChecks_pass hready (fun a ha => ?_) ht.1⟩
  exact ⟨(State.vLocs_ready ht a ha).1, (State.vLocs_ready ht a ha).2, State.vLocs_free hb a ha⟩

/-- A row whose destination lies in a bank of the matrix slot traps with LEND (R48, R130). -/
theorem issuesAs_lend {i : Instr} {s : State} {r : VRow} (hi : IssuesAs i s r) (hw : i.wellFormed = true)
    (hd : r.delay ≤ s.core.delayClk) (hg : Usable s r.gsrcs) (hv : ∀ x, x ∈ r.srcs → LanesReady s x.1 x.2)
    (ht : LanesReady s r.dst r.written) (hb : ¬ LanesFree s r.dst r.written) (henters : EntersAtOnce s) :
    TrapsWith i s 0x09 := by
  obtain ⟨l, pre, srcs, e, hl, he, hs, hpre⟩ := hi
  rw [settleV_ready (hl ▸ hd)] at he
  refine settle_traps henters he hw ?_
  have hlent : (s.vLocs r.dst r.written).any s.lentLoc = true := by
    simp only [LanesFree, not_forall, Bool.not_eq_false] at hb
    obtain ⟨n, hn, hk, hbank⟩ := hb
    refine List.any_eq_true.2 ⟨_, State.mem_vLocs.2 ⟨n, hn, hk, rfl⟩, ?_⟩
    simp [State.lentLoc, State.matrixBank, bankOf, s.vOff_div, hbank, s.vOff_lt r.dst n hn]
  have htests := vectorTests_pass (fun p hp => namesSource_ready (hs p hp) hg hv)
    (fun a ha => (State.vLocs_ready ht a ha).1) hpre
  rw [vectorChecks, show ∀ (a b c : List Verdict) v, a ++ (b ++ v :: c) = (a ++ (b ++ [v])) ++ c by simp,
    firstOf_append_of_pass htests, lendCheck, hlent]
  rfl

/-- The bindings of the banks say nothing of what is full, late or in error. -/
theorem vectorReady_of_unbound {s : State} {r : VRow}
    (h : VectorReady { s with csr := Sparse.set s.csr 0x013 0 } r) : r.delay ≤ s.core.delayClk ∧ Usable s r.gsrcs ∧
      (∀ x, x ∈ r.srcs → LanesReady s x.1 x.2) ∧ LanesReady s r.dst r.written := by
  have hlane : ∀ n l, laneWord { s with csr := Sparse.set s.csr 0x013 0 } n l = laneWord s n l := by
    intro n l
    rw [laneWord, laneWord, State.readCsr, State.readCsr, Sparse.get_set_ne _ _ (by decide)]
  have hready : ∀ n k, LanesReady { s with csr := Sparse.set s.csr 0x013 0 } n k → LanesReady s n k := by
    intro n k hr
    refine ⟨hr.1, fun l hl hk => ?_⟩
    have := hr.2 l hl hk
    rwa [hlane] at this
  obtain ⟨hd, hg, hv, ht, -⟩ := h
  exact ⟨hd, hg, fun x hx => hready _ _ (hv x hx), hready _ _ ht⟩

theorem vectorIssue : VectorIssue := by
  intro i s r hrow hw
  have hi : IssuesAs i s r := by
    rcases hrow with h | h | h | h
    · exact integerLanes_issues h
    · exact floatLanes_issues h
    · exact reductions_issues h
    · exact laneMoves_issues h
  refine ⟨fun hready hdelay => issuesAs_delay hi hw hready hdelay, fun hready hlent henters => ?_⟩
  obtain ⟨hd, hg, hv, ht⟩ := vectorReady_of_unbound hready
  exact issuesAs_lend hi hw hd hg hv ht hlent henters

/-! ### The mask stack (R54, R146) -/

/-- An entry and MSP written, in the words of the statement. -/
theorem State.setMask_is (s : State) (i : Instr) (pc : Word) {msp n : Nat} (v : Word) (hm : msp < 8) :
    MaskIs s ((s.setMask msp n v).goto i pc) msp n v := by
  have hmsp : ((s.setMask msp n v).goto i pc).msp = msp := by
    rw [State.msp, State.readCsr]
    simp only [State.goto_csr, State.setMask, State.setCsr_csr, Sparse.get_set_eq, Word.bits, bits, BitVec.toNat_ofNat]
    omega
  refine ⟨hmsp, fun j hj => ?_, ⟨fun m hm => Sparse.get_set_ne _ _ hm, rfl, rfl⟩, rfl, rfl⟩
  by_cases hjn : j = n
  · subst hjn
    simp [State.setMask, State.setCsr, State.goto, State.setCore, hj]
  · simp [State.setMask, State.setCsr, State.goto, State.setCore, hjn, Vector.getElem?_setIfInBounds_ne (Ne.symm hjn)]

/-- MSP written alone: entry 8 is none. -/
theorem State.setMsp_is (s : State) (i : Instr) (pc : Word) {msp : Nat} (hm : msp < 8) :
    MaskIs s ((s.setCsr 0x014 (BitVec.ofNat 64 msp)).goto i pc) msp 8 0 := by
  have hmsp : ((s.setCsr 0x014 (BitVec.ofNat 64 msp)).goto i pc).msp = msp := by
    rw [State.msp, State.readCsr]
    simp only [State.goto_csr, State.setCsr_csr, Sparse.get_set_eq, Word.bits, bits, BitVec.toNat_ofNat]
    omega
  refine ⟨hmsp, fun j hj => ?_, ⟨fun m hm => Sparse.get_set_ne _ _ hm, rfl, rfl⟩, rfl, rfl⟩
  rw [if_neg (by omega)]
  rfl

theorem State.msp_lt (s : State) : s.msp < 8 := Nat.mod_lt _ (by decide)

/-- A mask instruction whose delay has gone by and whose checks pass retires. -/
theorem retires_of_settleV {i : Instr} {s e : State} {l : BitVec 2} {checks : List Verdict} (hl : l.toNat ≤ s.core.delayClk)
    (he : exec i s = settleV i l s checks e) (hw : i.wellFormed = true) (hc : firstOf checks = .pass)
    (hpc : e.core.pc = s.core.pc) : Retires i s (e.goto i (following i s)) (following i s) :=
  retires_of_settle (he.trans (settleV_ready hl)) hw hc hpc

/-- A g register's latch from the vector slot (R150, R205). -/
theorem latchesTo_of_settleV {i : Instr} {s : State} {l : BitVec 2} {checks : List Verdict} {g : Nat} {v : Word}
    (hl : l.toNat ≤ s.core.delayClk) (he : exec i s = settleV i l s checks (s.vectorToReg 2 g v))
    (hw : i.wellFormed = true) (hc : firstOf checks = .pass) : LatchesTo i s g v := by
  rw [State.vectorToReg] at he
  by_cases hg : g = 0
  · rw [if_pos hg] at he
    exact ⟨_, retires_of_settleV hl he hw hc rfl, rfl, rfl, rfl, rfl, by simp [hg]⟩
  · rw [if_neg hg] at he
    exact ⟨_, retires_of_settleV hl he hw hc rfl, rfl, rfl, rfl, rfl, by simp [hg, State.later]⟩

/-- A g register that is ready, as a destination. -/
theorem gLoc_ready {s : State} {g : Nat} (hg : Usable s [g]) :
    ∀ a ∈ [gLoc g], s.emptyLoc a = false ∧ s.lateLoc a = false ∧ s.lentLoc a = false := by
  have hlent : s.lentLoc (gLoc g) = false := by simp [State.lentLoc, gLoc]
  simpa [hlent] using hg g (List.mem_singleton.2 rfl)

/-- No register-space word read, none in error (R53). -/
theorem secded_nil (s : State) : secded s [] = .pass := by
  simp [secded]

/-- VMASKRD reads no word, so that its one check is its destination's. -/
theorem vectorChecks_noSource {s : State} {g : Nat} (hg : Usable s [g]) : firstOf (vectorChecks s [] [gLoc g]) = .pass := by
  have hready := gLoc_ready hg
  simp only [vectorChecks, List.map_nil, List.flatten_nil, List.nil_append]
  rw [awaitFull_eq_pass.2 fun a ha => (hready a ha).1, lendCheck_pass fun a ha => (hready a ha).2.2,
    lateWrite_eq_pass.2 fun a ha => (hready a ha).2.1, lateRead_eq_pass.2 (by simp), secded_nil]
  rfl

/-- A vector source that is ready, and no destination in register space. -/
theorem vectorChecks_source {s : State} {n : Nat} {k : Word} {dst : List Nat} (x : Bool) (h : LanesReady s n k)
    (hd : ∀ a ∈ dst, s.emptyLoc a = false ∧ s.lateLoc a = false ∧ s.lentLoc a = false) :
    firstOf (vectorChecks s [(s.vLocs n k, x)] dst) = .pass :=
  vectorChecks_pass (by simpa using State.vLocs_ready h) hd h.1

/-- The lanes of k whose lane of a vector is not zero (R146). -/
theorem laneMask_lanes (s : State) (n : Nat) :
    (laneMask fun j => laneOf (s.v n) j != 0) = maskOf fun j => lane s n j != 0 := by
  rw [laneMask_eq_maskOf]
  exact maskOf_congr fun j hj => by rw [s.laneOf_v n hj]

/-- The mask of a single lane. -/
theorem laneMask_single (n : BitVec 6) : (laneMask fun j => decide (j = n.toNat)) = (1 : Word) <<< n.toNat := by
  refine BitVec.eq_of_getLsbD_eq fun j hj => ?_
  rw [laneMask_eq_maskOf, getLsbD_maskOf _ hj, BitVec.getLsbD_shiftLeft,
    show (1 : Word) = 1#64 from rfl, BitVec.getLsbD_one, Bool.eq_iff_iff]
  simp [hj]
  omega

theorem maskPush {s : State} {l : BitVec 2} (hl : l.toNat ≤ s.core.delayClk) (a : BitVec 6) (x : Bool)
    (ha : LanesReady s a.toNat s.k) :
    (s.msp ≠ 7 → ∃ t, Retires (.mpush a x l) s t (following (.mpush a x l) s) ∧
      MaskIs s t (s.msp + 1) (s.msp + 1) (s.k &&& maskOf fun n => lane s a.toNat n != 0)) ∧
    (s.msp = 7 → EntersAtOnce s → TrapsWith (.mpush a x l) s 0x0E) := by
  have hsrc := vectorChecks_source x ha (dst := []) (by simp)
  have he := exec_mpush (a := a) (x := x) (l := l) s
  rw [execMpush, laneMask_lanes] at he
  have hlt := s.msp_lt
  refine ⟨fun hmsp => ?_, fun hmsp henters => ?_⟩
  · exact ⟨_, retires_of_settleV hl he rfl (firstOf_append.2 ⟨hsrc, by simp [require, hmsp]⟩) rfl,
      s.setMask_is _ _ _ (by omega)⟩
  · rw [settleV_ready hl, hmsp] at he
    exact settle_traps henters he rfl (firstOf_append_of_pass hsrc)

theorem maskInvertPop {s : State} {l : BitVec 2} (hl : l.toNat ≤ s.core.delayClk) :
    (s.msp ≠ 0 →
      (∃ t, Retires (.minv l) s t (following (.minv l) s) ∧
        MaskIs s t s.msp s.msp ((s.core.mask[s.msp - 1]?).getD 0 &&& ~~~(s.core.mask[s.msp]?).getD 0)) ∧
      (∃ t, Retires (.mpop l) s t (following (.mpop l) s) ∧ MaskIs s t (s.msp - 1) 8 0)) ∧
    (s.msp = 0 → EntersAtOnce s → TrapsWith (.minv l) s 0x0E ∧ TrapsWith (.mpop l) s 0x0E) := by
  have hinv := exec_minv (l := l) s
  have hpop := exec_mpop (l := l) s
  rw [execMinv] at hinv
  rw [execMpop] at hpop
  have hlt := s.msp_lt
  refine ⟨fun hmsp => ⟨⟨_, retires_of_settleV hl hinv rfl (by simp [require, hmsp]) rfl, s.setMask_is _ _ _ hlt⟩,
    ⟨_, retires_of_settleV hl hpop rfl (by simp [require, hmsp]) rfl, s.setMsp_is _ _ (by omega)⟩⟩, fun hmsp henters => ?_⟩
  rw [settleV_ready hl, hmsp] at hinv hpop
  exact ⟨settle_traps henters hinv rfl rfl, settle_traps henters hpop rfl rfl⟩

theorem maskStack : MaskStack := by
  intro s l hl
  refine ⟨maskPush hl, (maskInvertPop hl).1, (maskInvertPop hl).2, fun g x hw hg hsound => ?_, fun g a n x hw ha hg => ?_,
    fun g hw hg => ?_⟩
  · have hsrc : ∀ p ∈ [(([gLoc g.toNat], x) : Source)], ∀ a ∈ p.1, s.emptyLoc a = false ∧ s.lateLoc a = false := by
      simpa using hg g.toNat (List.mem_singleton.2 rfl)
    exact ⟨_, retires_of_settleV hl (exec_vmaskwr s) hw (vectorChecks_pass hsrc (by simp) hsound) rfl,
      s.setMask_is _ _ _ s.msp_lt⟩
  · rw [← s.laneOf_v _ n.isLt]
    refine latchesTo_of_settleV hl (exec_vext s) hw (vectorChecks_source x ?_ (gLoc_ready hg))
    rwa [laneMask_single]
  · exact latchesTo_of_settleV hl (exec_vmaskrd s) hw (vectorChecks_noSource hg)

end Sys2Proof.Machine

namespace Sys2Proof.Proofs

open Sys2Proof.Machine Sys2Proof.Claims

/-- Settles O42: the rows of the tables at issue, and the instructions of the mask stack. -/
theorem vectorIssues : Obligations.VectorIssues := ⟨vectorIssue, maskStack⟩

end Sys2Proof.Proofs
end

section
/-!
Register accesses from outside the core (log 19): an access takes effect in one step, register by register.
-/

namespace Sys2Proof.Machine

open Sys2Proof.Claims

/-! ### An access takes effect -/

/-- An access whose number a step takes has that step's effect, and is done. -/
theorem accessed_of_outsideStep {i : Instr} {s : State} {n : Nat} {v : Word} {p : Nat → Bool} {f : Nat → Word → State → State}
    (h : s.inp.csr = some (n, v)) (he : exec i s = outsideStep p f s) (hp : p n = true) (hf : (f n v s).inp = s.inp) :
    Accessed i s (f n v s).outsideDone := by
  refine ⟨?_, by rw [State.outsideDone, hf]⟩
  rw [he, outsideStep, State.outside, h]
  simp only [hp]
  rfl

/-- The low bits of a word. -/
theorem Word.and_low (v : Word) {w : Nat} (hw : w ≤ 64) :
    v &&& BitVec.ofNat 64 (2 ^ w - 1) = (v.setWidth w).setWidth 64 := by
  have hle : 2 ^ w ≤ 2 ^ 64 := Nat.pow_le_pow_right (by decide) hw
  have hpos := Nat.two_pow_pos w
  apply BitVec.eq_of_toNat_eq
  rw [BitVec.toNat_and, BitVec.toNat_ofNat, Nat.mod_eq_of_lt (by omega), Nat.and_two_pow_sub_one_eq_mod, BitVec.toNat_setWidth,
    BitVec.toNat_setWidth, Nat.mod_eq_of_lt (a := v.toNat % 2 ^ w)]
  exact Nat.lt_of_lt_of_le (Nat.mod_lt _ hpos) hle

/-- A field after a write of another, or of the same. -/
theorem field_setBits_same (w : Word) {lo n : Nat} (v : Nat) (h : lo + n ≤ 64) :
    field (Word.setBits w lo n v) lo n = v % 2 ^ n := by
  refine Nat.eq_of_testBit_eq fun i => ?_
  have hbit := Word.getLsbD_setBits w v (lo + i) h
  rw [field, Nat.testBit_mod_two_pow, Nat.testBit_div_two_pow, Nat.testBit_mod_two_pow, Nat.add_comm i lo]
  by_cases hi : i < n
  · rw [if_pos (by omega), Nat.add_sub_cancel_left, BitVec.getLsbD] at hbit
    rw [hbit]
  · simp [hi]

theorem field_setBits_below (w : Word) {lo n m : Nat} (v : Nat) (h : lo + n ≤ 64) (hm : m ≤ lo) :
    field (Word.setBits w lo n v) 0 m = field w 0 m := by
  refine Nat.eq_of_testBit_eq fun i => ?_
  have hbit := Word.getLsbD_setBits w v i h
  simp only [field, Nat.testBit_mod_two_pow, Nat.pow_zero, Nat.div_one]
  by_cases hi : i < m
  · rw [if_neg (by omega), BitVec.getLsbD, BitVec.getLsbD] at hbit
    rw [hbit]
  · simp [hi]

/-! ### Timer, bindings, frame, capture sets and cue interrupts -/

section
variable {s : State} {v : Word}

theorem tmrcntWrite_accessed (h : s.inp.csr = some (0x105, v)) :
    ∃ t, Accessed .tmrcntWrite s t ∧ t.readCsr 0x105 = (v.setWidth 48).setWidth 64 ∧ t.core.tmrSet = true ∧
      (∀ m, m ≠ 0x105 → t.readCsr m = s.readCsr m) := by
  refine ⟨_, accessed_of_outsideStep h (exec_tmrcntWrite s) rfl rfl, ?_, rfl, fun m hm => Sparse.get_set_ne _ _ hm⟩
  exact (Sparse.get_set_eq ..).trans (Word.and_low v (w := 48) (by decide))

/-- A bank that the value binds anew has a result in flight. -/
theorem bindBusy_eq (s : State) (v : Word) : s.bindBusy v =
    (List.range 12).any fun b => (s.readCsr 0x013).getLsbD b != v.getLsbD b && s.bankBusy b := by
  rw [State.bindBusy, State.boundChanges, List.any_filter]
  rfl

theorem bankbindWrite_accessed (h : s.inp.csr = some (0x013, v)) :
    ∃ t, Accessed .bankbindWrite s t ∧ (∀ m, m ≠ 0x013 → t.readCsr m = s.readCsr m) ∧
      t.readCsr 0x013 = if (List.range 12).any (fun b => (s.readCsr 0x013).getLsbD b != v.getLsbD b && s.bankBusy b)
        then s.readCsr 0x013 else (v.setWidth 12).setWidth 64 := by
  rw [← bindBusy_eq]
  refine ⟨_, accessed_of_outsideStep h (exec_bankbindWrite s) rfl ?_, ?_⟩
  · split <;> rfl
  · by_cases hb : s.bindBusy v = true
    · rw [if_pos hb, if_pos hb]
      exact ⟨fun m _ => rfl, rfl⟩
    · rw [if_neg hb, if_neg hb]
      exact ⟨fun m hm => Sparse.get_set_ne _ _ hm, (Sparse.get_set_eq ..).trans (Word.and_low v (w := 12) (by decide))⟩

/-- A write of the frame's latch records changes no register. -/
theorem State.writeFrameWord_keeps (s : State) (v : Word) :
    (s.writeFrameWord v).csr = s.csr ∧ (s.writeFrameWord v).inp = s.inp := by
  unfold State.writeFrameWord
  dsimp only
  split <;> exact ⟨rfl, rfl⟩

theorem get_writeFrameWord (s : State) (v : Word) (a : Nat) {w : Nat} (hw : w = (s.readCsr 0x051).toNat % 512) :
    Sparse.get (s.writeFrameWord v).cell.fx a =
      if a = w ∧ w < 408 then (if w % 34 = 0 then v &&& 0x3FFFF00000F07 else v) else Sparse.get s.cell.fx a := by
  have hsel : Word.bits (s.readCsr 0x051) 0 9 = w := by simp [hw, Word.bits, bits]
  have hkeep : (v &&& if w % 34 = 0 then 0x3FFFF00000F07 else BitVec.allOnes 64) =
      if w % 34 = 0 then v &&& 0x3FFFF00000F07 else v := by
    split
    · rfl
    · exact BitVec.and_allOnes
  rw [State.writeFrameWord, hsel]
  by_cases hlt : w < 408
  · rw [if_pos hlt, State.setCell_cell, Sparse.get_set, hkeep]
    simp [hlt]
  · rw [if_neg hlt, if_neg (by omega)]

theorem fxdata_accessed (h : s.inp.csr = some (0x052, v)) (w : Nat) (hw : w = (s.readCsr 0x051).toNat % 512) :
    ∃ t, Accessed .fxdata s t ∧
      (∀ a, Sparse.get t.cell.fx a = if a = w ∧ w < 408 then (if w % 34 = 0 then v &&& 0x3FFFF00000F07 else v)
        else Sparse.get s.cell.fx a) ∧
      t.readCsr 0x051 = BitVec.ofNat 64 ((w + 1) % 512) ∧ ∀ m, m ≠ 0x051 → t.readCsr m = s.readCsr m := by
  obtain ⟨hcsr, hinp⟩ := s.writeFrameWord_keeps v
  have hread := s.readCsr_congr hcsr
  refine ⟨_, accessed_of_outsideStep h (exec_fxdata s) rfl hinp, fun a => get_writeFrameWord s v a hw, ?_, fun m hm => ?_⟩
  · refine (Sparse.get_set_eq ..).trans ?_
    simp [hread, hw, Word.bits, bits]
  · exact (Sparse.get_set_ne _ _ hm).trans (hread m)

theorem capdata_accessed (h : s.inp.csr = some (0x083, v)) :
    ∃ t, Accessed .capdata s t ∧ field (t.readCsr 0x082) 8 7 = (field (s.readCsr 0x082) 8 7 + 1) % 128 ∧
      field (t.readCsr 0x082) 0 3 = field (s.readCsr 0x082) 0 3 ∧ t.acct = s.acct := by
  have hset : ((s.advance 0x083).outsideDone).readCsr 0x082 = Word.setBits (s.readCsr 0x082) 8 7 (s.capIndex + 1) :=
    Sparse.get_set_eq ..
  refine ⟨_, accessed_of_outsideStep h (exec_capdata s) rfl rfl, ?_, ?_, rfl⟩
  · rw [hset, field_setBits_same _ _ (by decide)]
    rfl
  · rw [hset, field_setBits_below _ _ (by decide) (by decide)]

/-- Capture sets cleared one after another; those that are not named stand. -/
theorem clearCaps_foldl (v : Word) (ns : List Nat) (s : State) :
    let t := ns.foldl (fun t i => if v.getLsbD i then t.setCap i { st := 0, base := [], vals := [] } else t) s
    t.csr = s.csr ∧ t.inp = s.inp ∧ ∀ j c, s.acct.caps[j]? = some c → t.acct.caps[j]? =
      some (if v.getLsbD j = true ∧ j ∈ ns then { st := 0, base := [], vals := [] } else c) := by
  induction ns generalizing s with
  | nil => simp
  | cons i ns ih =>
    rw [List.foldl_cons]
    by_cases hi : v.getLsbD i = true
    · rw [if_pos hi]
      obtain ⟨hcsr, hinp, hcaps⟩ := ih (s.setCap i { st := 0, base := [], vals := [] })
      refine ⟨hcsr, hinp, fun j c hc => ?_⟩
      have hj : j < 8 := (Vector.getElem?_eq_some_iff.1 hc).1
      by_cases hji : j = i
      · subst hji
        rw [hcaps j { st := 0, base := [], vals := [] } (by simp [State.setCap, hj])]
        simp [hi]
      · rw [hcaps j c (by simp [State.setCap, Vector.getElem?_setIfInBounds_ne (Ne.symm hji), hc])]
        simp [hji]
    · rw [if_neg hi]
      obtain ⟨hcsr, hinp, hcaps⟩ := ih s
      refine ⟨hcsr, hinp, fun j c hc => ?_⟩
      rw [hcaps j c hc]
      by_cases hji : j = i
      · simp [hji, hi]
      · simp [hji]

theorem capclr_accessed (h : s.inp.csr = some (0x084, v)) :
    ∃ t, Accessed .capclr s t ∧ t.csr = s.csr ∧ ∀ j c, s.acct.caps[j]? = some c → t.acct.caps[j]? =
      some (if v.getLsbD j then { st := 0, base := [], vals := [] } else c) := by
  obtain ⟨hcsr, hinp, hcaps⟩ := clearCaps_foldl v (List.range 8) s
  refine ⟨_, accessed_of_outsideStep h (exec_capclr s) rfl hinp, hcsr, fun j c hc => (hcaps j c hc).trans ?_⟩
  have hj : j < 8 := (Vector.getElem?_eq_some_iff.1 hc).1
  simp [hj]

theorem cueirqClear_accessed (h : s.inp.csr = some (0x151, v)) :
    ∃ t, Accessed .cueirqClear s t ∧ t.readCsr 0x151 = s.readCsr 0x151 &&& ~~~v ∧
      ∀ m, m ≠ 0x151 → t.readCsr m = s.readCsr m :=
  ⟨_, accessed_of_outsideStep h (exec_cueirqClear s) rfl rfl, Sparse.get_set_eq .., fun _ hm => Sparse.get_set_ne _ _ hm⟩

end
end Sys2Proof.Machine
end

section
/-!
Accesses of QCMD from outside the core (R158, R160): a queue's faulted entry goes on, is dropped, or the queue is reset.
-/

namespace Sys2Proof.Machine

open Sys2Proof.Claims

/-! ### What the entries that are dropped held -/

/-- What the release of an entry leaves: the core, the inputs, the queues and the chained entries. -/
structure KeepsEntries (s t : State) : Prop where
  core : t.core = s.core
  inp : t.inp = s.inp
  queues : t.cell.queues = s.cell.queues
  chained : t.cell.chained = s.cell.chained

theorem KeepsEntries.refl (s : State) : KeepsEntries s s := ⟨rfl, rfl, rfl, rfl⟩

theorem KeepsEntries.trans {s t u : State} (h : KeepsEntries s t) (k : KeepsEntries t u) : KeepsEntries s u :=
  ⟨k.core.trans h.core, k.inp.trans h.inp, k.queues.trans h.queues, k.chained.trans h.chained⟩

theorem Cell.moveTile_keeps (c : Cell) (h x y : Nat) :
    (c.moveTile h x y).queues = c.queues ∧ (c.moveTile h x y).chained = c.chained := by
  unfold Cell.moveTile
  split <;> exact ⟨rfl, rfl⟩

theorem Cell.foldl_moveTile_keeps (c : Cell) (hs : List Nat) (x y : Nat) :
    (hs.foldl (fun c h => c.moveTile h x y) c).queues = c.queues ∧
      (hs.foldl (fun c h => c.moveTile h x y) c).chained = c.chained := by
  induction hs generalizing c with
  | nil => exact ⟨rfl, rfl⟩
  | cons h hs ih =>
    obtain ⟨hq, hc⟩ := ih (c.moveTile h x y)
    exact ⟨hq.trans (c.moveTile_keeps h x y).1, hc.trans (c.moveTile_keeps h x y).2⟩

theorem Cell.popHeld_keeps (c : Cell) (e : Entry) (b : Bool) :
    (c.popHeld e b).queues = c.queues ∧ (c.popHeld e b).chained = c.chained := by
  constructor
  · simp only [Cell.popHeld, apply_ite Cell.queues, ite_self]
  · simp only [Cell.popHeld, apply_ite Cell.chained, ite_self]

theorem Cell.release_keeps (c : Cell) (e : Entry) :
    ((c.releaseTiles e).popRows e).queues = c.queues ∧ ((c.releaseTiles e).popRows e).chained = c.chained := by
  have htiles : (c.releaseTiles e).queues = c.queues ∧ (c.releaseTiles e).chained = c.chained := by
    obtain ⟨hq, hc⟩ := c.foldl_moveTile_keeps e.fill 1 0
    obtain ⟨hq', hc'⟩ := (e.fill.foldl (fun c h => c.moveTile h 1 0) c).foldl_moveTile_keeps e.drain 3 2
    exact ⟨hq'.trans hq, hc'.trans hc⟩
  generalize c.releaseTiles e = d at htiles
  obtain ⟨hq, hc⟩ := d.popHeld_keeps e false
  obtain ⟨hq', hc'⟩ := (d.popHeld e false).popHeld_keeps e true
  unfold Cell.popRows
  split
  · exact ⟨(hq'.trans hq).trans htiles.1, (hc'.trans hc).trans htiles.2⟩
  · exact ⟨(hq'.trans hq).trans htiles.1, (hc'.trans hc).trans htiles.2⟩
  · exact ⟨(hq'.trans hq).trans htiles.1, (hc'.trans hc).trans htiles.2⟩
  · exact htiles

theorem State.withdraw_keeps (s : State) (cidx epoch : Nat) : KeepsEntries s (s.withdraw cidx epoch) := by
  unfold State.withdraw
  split
  · exact .refl s
  · next p _ => exact ⟨rfl, rfl, (s.cell.moveTile_keeps p.tile 1 0).1, (s.cell.moveTile_keeps p.tile 1 0).2⟩

theorem State.release_keeps (s : State) (e : Entry) : KeepsEntries s (s.release e) := by
  have hcell : KeepsEntries s (s.setCell ((s.cell.releaseTiles e).popRows e)) :=
    ⟨rfl, rfl, (s.cell.release_keeps e).1, (s.cell.release_keeps e).2⟩
  unfold State.release
  dsimp only
  split
  · exact hcell.trans (State.withdraw_keeps ..)
  · exact hcell

theorem foldl_release_keeps (es : List Entry) (s : State) : KeepsEntries s (es.foldl State.release s) := by
  induction es generalizing s with
  | nil => exact .refl s
  | cons e es ih => exact (s.release_keeps e).trans (ih _)

/-- Words that leave a queue lower the counts of pending readers alone. -/
theorem State.readers_eq (s : State) (up : Bool) (ws : List EWord) :
    ∃ z, s.readers up ws = s.setCore { s.core with zpend := z } := by
  induction ws generalizing s with
  | nil => exact ⟨s.core.zpend, rfl⟩
  | cons w ws ih =>
    rw [State.readers]
    dsimp only
    split
    · next z _ =>
      obtain ⟨y, hy⟩ := ih (s.setZpend z (if up then s.zpend z + 1 else s.zpend z - 1))
      exact ⟨y, hy⟩
    · exact ih s

/-! ### A queue replaced -/

/-- A queue written is the queue, the others stand. -/
theorem State.setQueue_is (s : State) {q : Nat} (u : Queue) (hq : q < 13) : QueueIs s (s.setQueue q u) q u := by
  intro p hp
  by_cases hpq : p = q
  · simp [State.setQueue, hpq, hq]
  · simp [State.setQueue, hpq, Vector.getElem?_setIfInBounds_ne (Ne.symm hpq)]

theorem queueIs_of_queues {s t t' : State} {q : Nat} {u : Queue} (h : QueueIs s t q u) (ht : t'.cell.queues = t.cell.queues) :
    QueueIs s t' q u := by
  unfold QueueIs
  rw [ht]
  exact h

theorem State.queue_eq {s : State} {q : Nat} {u : Queue} (h : s.cell.queues[q]? = some u) : s.queue q = u := by
  rw [State.queue, h]
  rfl

/-! ### The commands -/

section
variable {s : State} {v : Word} {q : Nat} {u : Queue}

/-- An access of QCMD has the effect of its command. -/
theorem accessed_of_qcmdStep {i : Instr} {c : Nat} (h : s.inp.csr = some (0x130 + q, v)) (he : exec i s = qcmdStep c s)
    (hq : q < 13) (hc : v.toNat % 4 = c) (hinp : (s.queueCommand q v).inp = s.inp) :
    Accessed i s (s.queueCommand q v).outsideDone := by
  have hcmd : Word.bits v 0 2 = c := by simpa [Word.bits, bits] using hc
  refine ⟨?_, by rw [State.outsideDone, hinp]⟩
  rw [he, qcmdStep, h]
  simp only [hcmd]
  rw [if_pos ⟨by omega, by omega, trivial⟩, Nat.add_sub_cancel_left]

/-- A queue that is neither faulted nor stopped takes neither RESUME nor DISCARD. -/
theorem queueCommand_idle (hu : s.queue q = u) (hc : v.toNat % 4 ≠ 3) (hf : u.fault = none) (hs : u.stopped = false) :
    s.queueCommand q v = s := by
  have hcmd : Word.bits v 0 2 ≠ 3 := by simpa [Word.bits, bits] using hc
  rw [State.queueCommand]
  simp [hcmd, hu, hf, hs]

theorem qcmdResume_accessed (h : s.inp.csr = some (0x130 + q, v)) (hq : q < 13) (hu : s.cell.queues[q]? = some u)
    (hc : v.toNat % 4 = 1) (hf : u.fault.isSome = true ∨ u.stopped = true) :
    ∃ t w, Accessed .qcmdResume s t ∧
      QueueIs s t q w ∧ w.fault = none ∧ w.stopped = false ∧ w.words = u.words ∧ w.run.map Entry.seq = u.run.map Entry.seq ∧
      (∀ e, e ∈ w.run → e.next = e.done) ∧ t.core.engPend = s.core.engPend.filter (· != q) := by
  have hqueue := State.queue_eq hu
  have hcmd : s.queueCommand q v = s.resumeQueue q := by
    have hbits : Word.bits v 0 2 = 1 := by simpa [Word.bits, bits] using hc
    rw [State.queueCommand, hqueue, hbits]
    rcases hf with hf | hf <;> simp [hf]
  refine ⟨_, { u with run := u.run.map Entry.restart, armed := u.armed.map Entry.restart, fault := none, stopped := false },
    accessed_of_qcmdStep h (exec_qcmdResume s) hq hc (by rw [hcmd]; rfl), ?_, rfl, rfl, rfl, ?_, ?_, ?_⟩
  · rw [hcmd, State.resumeQueue, hqueue]
    exact s.setQueue_is _ hq
  · rw [List.map_map]
    rfl
  · intro e he
    obtain ⟨e', -, rfl⟩ := List.mem_map.1 he
    rfl
  · rw [hcmd]
    rfl

/-- A queue written twice holds what was written last. -/
theorem queueIs_setQueue {t : State} {w w' : Queue} (h : QueueIs s t q w) (hq : q < 13) : QueueIs s (t.setQueue q w') q w' := by
  intro p hp
  rw [t.setQueue_is w' hq p hp]
  split
  · rfl
  · next hpq => rw [h p hp, if_neg hpq]

/-- The entries released leave the queues as they were. -/
theorem KeepsEntries.queueIs {t t' : State} {w : Queue} (h : KeepsEntries s t) (ht : t'.cell.queues = (t.setQueue q w).cell.queues)
    (hq : q < 13) : QueueIs s t' q w := by
  intro p hp
  rw [ht, t.setQueue_is w hq p hp, h.queues]

/-- DISCARD of a started entry: it leaves its queue, and what it held is released. -/
theorem State.discardEntry_started (s : State) (n : Nat) (hq : q < 13) (hu : s.queue q = u) (hch : u.inChain = false) :
    ∃ w, QueueIs s (s.discardEntry q false n) q w ∧ (s.discardEntry q false n).core = s.core ∧
      (s.discardEntry q false n).inp = s.inp ∧ w.run = u.run.filter (fun e => e.seq != n) ∧ w.words = u.words := by
  unfold State.discardEntry
  simp only [hu, hch, Bool.and_false, Bool.false_eq_true, if_false]
  generalize (u.run ++ u.armed ++ s.cell.chained.filter fun e => e.queue == q).filter (fun e => e.seq == n) = gone
  have hkeeps := foldl_release_keeps gone s
  generalize gone.foldl State.release s = t at hkeeps
  have hwords : (t.queue q).words = u.words := by rw [State.queue, hkeeps.queues, ← hu, State.queue]
  generalize hw : ({ (t.queue q) with
    run := u.run.filter fun e => e.seq != n
    armed := u.armed.filter fun e => e.seq != n
    chain := if gone.any Entry.chains = true then [] else u.chain
    inChain := false && !gone.any Entry.chains
    chainEntry := if gone.any Entry.chains = true then none else u.chainEntry } : Queue) = w
  exact ⟨w, hkeeps.queueIs rfl hq, hkeeps.core, hkeeps.inp, by rw [← hw], by rw [← hw]; exact hwords⟩

/-- DISCARD of a queue's faulted entry. -/
theorem State.discardQueue_is (s : State) (hq : q < 13) (hu : s.queue q = u) {f : QFault} (hf : u.fault = some f)
    (hw : f.atWord = false) (hch : u.inChain = false) :
    ∃ w, QueueIs s (s.discardQueue q) q w ∧ (s.discardQueue q).inp = s.inp ∧ w.fault = none ∧ w.stopped = false ∧
      w.run = u.run.filter (fun e => e.seq != f.seq) ∧ w.words = u.words ∧
      (s.discardQueue q).core.engPend = s.core.engPend.filter (· != q) := by
  obtain ⟨w, his, hcore, hinp, hrun, hwords⟩ := s.discardEntry_started f.seq hq hu hch
  rw [State.discardQueue, hu]
  simp only [hf, hw]
  generalize s.discardEntry q false f.seq = t at his hcore hinp
  have hafter : t.queue q = w := State.queue_eq (by rw [his q hq, if_pos rfl])
  rw [hafter, ← hcore]
  exact ⟨{ w with fault := none, stopped := false }, queueIs_setQueue his hq, hinp, rfl, rfl, hrun, hwords, rfl⟩

theorem qcmdDiscard_accessed (h : s.inp.csr = some (0x130 + q, v)) (hq : q < 13) (hu : s.cell.queues[q]? = some u)
    (hc : v.toNat % 4 = 2) {f : QFault} (hf : u.fault = some f) (hw : f.atWord = false) (hch : u.inChain = false) :
    ∃ t w, Accessed .qcmdDiscard s t ∧ QueueIs s t q w ∧ w.fault = none ∧ w.stopped = false ∧
      w.run = u.run.filter (fun e => e.seq != f.seq) ∧ w.words = u.words ∧
      t.core.engPend = s.core.engPend.filter (· != q) := by
  have hqueue := State.queue_eq hu
  have hcmd : s.queueCommand q v = s.discardQueue q := by
    have hbits : Word.bits v 0 2 = 2 := by simpa [Word.bits, bits] using hc
    rw [State.queueCommand, hqueue, hbits]
    simp [hf]
  obtain ⟨w, his, hinp, hrest⟩ := s.discardQueue_is hq hqueue hf hw hch
  rw [← hcmd] at his hinp hrest
  exact ⟨_, w, accessed_of_qcmdStep h (exec_qcmdDiscard s) hq hc hinp, his, hrest⟩

/-- RESET: nothing of the queue is left, and what its entries held is released; numbering continues. -/
theorem State.resetQueue_is (s : State) (hq : q < 13) (hu : s.queue q = u) :
    ∃ w, QueueIs s (s.resetQueue q) q w ∧ (s.resetQueue q).inp = s.inp ∧ w.fault = none ∧ w.stopped = false ∧ w.words = [] ∧
      w.stack = [] ∧ w.run = [] ∧ w.nextSeq = u.nextSeq ∧ ∀ e, e ∈ (s.resetQueue q).cell.chained → e.queue ≠ q := by
  unfold State.resetQueue
  dsimp only
  obtain ⟨z, hz⟩ := s.readers_eq false (s.queue q).words
  rw [hz]
  generalize hv : s.setCore { s.core with zpend := z } = s0
  generalize (_ ++ _ : List Entry) = gone
  have hkeeps := foldl_release_keeps gone s0
  generalize gone.foldl State.release s0 = t at hkeeps
  have hqueues : t.cell.queues = s.cell.queues := hkeeps.queues.trans (by rw [← hv]; rfl)
  have hseq : (t.queue q).nextSeq = u.nextSeq := by rw [State.queue, hqueues, ← hu, State.queue]
  generalize hw : ({ (t.queue q) with
    words := [], stack := [], chain := [], inChain := false, chainEntry := none, run := []
    armed := _, fault := none, stopped := false, issued := 0, waited := 0, gateWait := 0 } : Queue) = w
  have hwords : w.fault = none ∧ w.stopped = false ∧ w.words = [] ∧ w.stack = [] ∧ w.run = [] ∧ w.nextSeq = u.nextSeq := by
    rw [← hw]
    exact ⟨rfl, rfl, rfl, rfl, rfl, hseq⟩
  obtain ⟨hfault, hstop, hws, hst, hrun, hnext⟩ := hwords
  refine ⟨w, fun p hp => ?_, hkeeps.inp.trans (by rw [← hv]; rfl), hfault, hstop, hws, hst, hrun, hnext, fun e he => ?_⟩
  · rw [← hqueues]
    exact t.setQueue_is w hq p hp
  · simpa using (List.mem_filter.1 he).2

theorem qcmdReset_accessed (h : s.inp.csr = some (0x130 + q, v)) (hq : q < 13) (hu : s.cell.queues[q]? = some u)
    (hc : v.toNat % 4 = 3) (hf : u.fault.isSome = true ∨ u.stopped = true) :
    ∃ t w, Accessed .qcmdReset s t ∧ QueueIs s t q w ∧
        w.fault = none ∧ w.stopped = false ∧ w.words = [] ∧ w.stack = [] ∧ w.run = [] ∧ w.nextSeq = u.nextSeq ∧
        (∀ e, e ∈ t.cell.chained → e.queue ≠ q) := by
  have hqueue := State.queue_eq hu
  have hcmd : s.queueCommand q v = (s.resetQueue q).setCore
      { (s.resetQueue q).core with engPend := (s.resetQueue q).core.engPend.filter (· != q) } := by
    have hbits : Word.bits v 0 2 = 3 := by simpa [Word.bits, bits] using hc
    rw [State.queueCommand, hbits, if_pos rfl, State.resetCmd, hqueue, if_pos (by simpa using hf)]
  obtain ⟨w, his, hinp, hrest⟩ := s.resetQueue_is hq hqueue
  generalize s.resetQueue q = r at hcmd his hinp hrest
  refine ⟨_, w, accessed_of_qcmdStep h (exec_qcmdReset s) hq hc (by rw [hcmd]; exact hinp), ?_, ?_⟩
  · rw [hcmd]
    exact his
  · rw [hcmd]
    exact hrest

end

end Sys2Proof.Machine
end

section
/-!
XINV, WARPOP, registers with no behaviour of their own and watchpoints from outside the core, and O44.
-/

namespace Sys2Proof.Machine

open Sys2Proof.Claims

section
variable {s : State} {v : Word}

/-! ### QCMD of a queue that runs -/

theorem qcmdIdle_accessed {i : Instr} {c q : Nat} {u : Queue} (h : s.inp.csr = some (0x130 + q, v))
    (he : exec i s = qcmdStep c s) (hq : q < 13) (hu : s.cell.queues[q]? = some u) (hv : v.toNat % 4 = c) (hc : c ≠ 3)
    (hf : u.fault = none) (hs : u.stopped = false) : ∃ t, Accessed i s t ∧ t.cell = s.cell := by
  have hidle := queueCommand_idle (v := v) (State.queue_eq hu) (hv ▸ hc) hf hs
  exact ⟨_, accessed_of_qcmdStep h he hq hv (by rw [hidle]), by rw [hidle]; rfl⟩

/-! ### XINV -/

theorem accessed_of_xinvStep {i : Instr} {c : Nat} (h : s.inp.csr = some (0x190, v)) (he : exec i s = xinvStep c s)
    (hc : field v 56 2 = c) : Accessed i s (s.invalidate v).outsideDone := by
  refine ⟨?_, rfl⟩
  have hbits : Word.bits v 56 2 = c := hc
  rw [he, xinvStep, h]
  simp [hbits]

/-- The pages named leave the caches of the scope. -/
theorem invalidate_invalidates {named : Page → Prop} (hn : ∀ p, xinvNames v p = true ↔ named p) :
    Invalidates s (s.invalidate v).outsideDone (v.getLsbD 58) named := by
  have hkeep : ∀ (l : List Page) p, p ∈ l.filter (fun p => !xinvNames v p) ↔ p ∈ l ∧ ¬ named p := by
    intro l p
    simp [List.mem_filter, ← hn]
  refine ⟨rfl, hkeep _, hkeep _, fun p => ?_⟩
  have hicache : (s.invalidate v).outsideDone.fab.icache =
    if v.getLsbD 58 then s.fab.icache.filter (fun p => !xinvNames v p) else s.fab.icache := rfl
  rw [hicache]
  cases v.getLsbD 58
  · simp
  · simpa using hkeep s.fab.icache p

theorem xinvNames_page (h : field v 56 2 = 0) (p : Page) : xinvNames v p = true ↔
    p.asid = field v 0 16 ∧ p.base / 2 ^ 16 ≤ field v 16 40 ∧ field v 16 40 < (p.base + p.size) / 2 ^ 16 := by
  have hbits : Word.bits v 56 2 = 0 := h
  simp only [xinvNames, hbits, Bool.and_eq_true, decide_eq_true_eq, and_assoc]
  rfl

theorem xinvNames_asid (h : field v 56 2 = 1) (p : Page) : xinvNames v p = true ↔ p.asid = field v 0 16 := by
  have hbits : Word.bits v 56 2 = 1 := h
  simp only [xinvNames, hbits, decide_eq_true_eq]
  rfl

theorem xinvNames_all (h : field v 56 2 = 2) (p : Page) : xinvNames v p = true ↔ True := by
  have hbits : Word.bits v 56 2 = 2 := h
  simp only [xinvNames, hbits]

/-! ### WARPOP -/

/-- WATCHASYNC is pended, or no longer. -/
theorem getLsbD_pend (s : State) : ((s.pend 3).readCsr 0x100).getLsbD 19 = true := by
  rw [State.readCsr, State.pend, State.setCsr_csr, Sparse.get_set_eq, BitVec.getLsbD_or]
  simp

theorem getLsbD_unpend (s : State) : ((s.unpend 3).readCsr 0x100).getLsbD 19 = false := by
  rw [State.readCsr, State.unpend, State.setCsr_csr, Sparse.get_set_eq, BitVec.getLsbD_and]
  simp

theorem warpop_accessed (h : s.inp.csr = some (0x0E4, v)) :
    ∃ t, Accessed .warpop s t ∧ t.dbg.war = s.dbg.war.drop 1 ∧
      (t.readCsr 0x100).getLsbD 19 = !(s.dbg.war.drop 1).isEmpty ∧
      t.dbg.warLost = if (s.dbg.war.drop 1).isEmpty then 0 else s.dbg.warLost := by
  refine ⟨s.popReport.outsideDone, accessed_of_outsideStep h (exec_warpop s) rfl ?_, ?_⟩
  · unfold State.popReport
    dsimp only
    split <;> rfl
  · unfold State.popReport
    dsimp only
    split
    · next he =>
      rw [he]
      exact ⟨rfl, getLsbD_unpend _, rfl⟩
    · next he =>
      rw [Bool.not_eq_true] at he
      rw [he]
      exact ⟨rfl, getLsbD_pend _, rfl⟩

/-! ### Registers with no behaviour of their own -/

/-- The registers whose fields are plain: REGISTER_WRITE takes them, and no value is rejected or altered. -/
theorem plainCsrs_mask {n : Nat} {w : Word} (h : (n, w) ∈ plainCsrs) :
    csrMask n = w ∧ w ≠ 0 ∧ ((csrRow n).isSome &&
      !([0x013, 0x052, 0x083, 0x084, 0x0E4, 0x105, 0x151, 0x190].contains n) && !(decide (0x130 ≤ n) && decide (n ≤ 0x13C))) ∧
      n < 0x1000 ∧ ¬ (0x0D0 ≤ n ∧ n ≤ 0x0D7) ∧
      n ∉ [0x001, 0x010, 0x011, 0x012, 0x013, 0x040, 0x052, 0x080, 0x084, 0x0C0, 0x0E4, 0x105, 0x151, 0x190, 0x1C1, 0x1C6] := by
  have hall : ∀ r ∈ plainCsrs, csrMask r.1 = r.2 ∧ r.2 ≠ 0 ∧ ((csrRow r.1).isSome &&
      !([0x013, 0x052, 0x083, 0x084, 0x0E4, 0x105, 0x151, 0x190].contains r.1) &&
        !(decide (0x130 ≤ r.1) && decide (r.1 ≤ 0x13C))) ∧
      r.1 < 0x1000 ∧ ¬ (0x0D0 ≤ r.1 ∧ r.1 ≤ 0x0D7) ∧
      r.1 ∉ [0x001, 0x010, 0x011, 0x012, 0x013, 0x040, 0x052, 0x080, 0x084, 0x0C0, 0x0E4, 0x105, 0x151, 0x190, 0x1C1,
        0x1C6] := by decide +kernel
  exact hall _ h

theorem managerWrite_plain {n : Nat} {w : Word} (h : (n, w) ∈ plainCsrs) :
    s.managerWrite n v = s.setCsr n ((s.readCsr n &&& ~~~w) ||| (v &&& w)) := by
  obtain ⟨hmask, hw, htakes, hlt, hwp, hne⟩ := plainCsrs_mask h
  simp only [List.mem_cons, List.not_mem_nil, or_false, not_or] at hne
  simp only [Bool.and_eq_true, Bool.not_eq_true', Bool.and_eq_false_iff, decide_eq_false_iff_not] at htakes
  have hrejects : csrRejects n v = false := by simp [csrRejects, hne]
  have hmoves : s.wpMoves n v = false := by
    rw [State.wpMoves, ← Bool.decide_and, decide_eq_false hwp, Bool.false_and]
  have hfields : fieldsOf n w (s.readCsr n) v = (s.readCsr n &&& ~~~w) ||| (v &&& w) := by simp [fieldsOf, hne]
  have hqcmd : ¬ (0x130 ≤ n ∧ n ≤ 0x13C) := by omega
  rw [State.managerWrite, if_neg (by omega), hmask, if_neg hw, hrejects, hmoves]
  have hw' : ¬ w = 0#64 := hw
  simp [State.csrWrite, hne, hqcmd, hw', hfields]

theorem registerWrite_accessed_plain {n : Nat} {w : Word} (h : s.inp.csr = some (n, v)) (hw : (n, w) ∈ plainCsrs) :
    ∃ t, Accessed .registerWrite s t ∧ t.readCsr n = (s.readCsr n &&& ~~~w) ||| (v &&& w) ∧
      ∀ m, m ≠ n → t.readCsr m = s.readCsr m := by
  obtain ⟨-, -, htakes, -⟩ := plainCsrs_mask hw
  have hwrite := managerWrite_plain (s := s) (v := v) hw
  refine ⟨_, accessed_of_outsideStep h (exec_registerWrite s) (by rw [htakes, Bool.or_true]) (by rw [hwrite]; rfl), ?_, ?_⟩
  · rw [hwrite]
    exact Sparse.get_set_eq ..
  · rw [hwrite]
    exact fun m hm => Sparse.get_set_ne _ _ hm

theorem registerWrite_accessed_fixed {n : Nat} (h : s.inp.csr = some (n, v)) (hn : n = 0x000 ∨ n = 0x180) :
    ∃ t, Accessed .registerWrite s t ∧ t.csr = s.csr := by
  have hwrite : s.managerWrite n v = s := by rcases hn with rfl | rfl <;> rfl
  refine ⟨_, accessed_of_outsideStep h (exec_registerWrite s) ?_ (by rw [hwrite]), by rw [hwrite]; rfl⟩
  rcases hn with rfl | rfl <;> rfl

theorem registerWrite_accessed_jobkey (h : s.inp.csr = some (0x103, v)) :
    ∃ t, Accessed .registerWrite s t ∧ t.readCsr 0x103 = v &&& 0xFFFF ∧ ∀ m, m ≠ 0x103 → t.readCsr m = s.readCsr m := by
  have hwrite : s.managerWrite 0x103 v = s.setCsr 0x103 (v &&& 0xFFFF) := rfl
  refine ⟨_, accessed_of_outsideStep h (exec_registerWrite s) rfl (by rw [hwrite]; rfl), ?_, ?_⟩
  · rw [hwrite]
    exact Sparse.get_set_eq ..
  · rw [hwrite]
    exact fun m hm => Sparse.get_set_ne _ _ hm

/-- TICKPER takes a period of 2000 or more. -/
theorem managerWrite_tickper :
    s.managerWrite 0x181 v = if 2000 ≤ v.toNat % 2 ^ 40 then s.setCsr 0x181 (v &&& 0xFFFFFFFFFF) else s := by
  have hmod : (v &&& 0xFFFFFFFFFF).toNat = v.toNat % 2 ^ 40 := Nat.and_two_pow_sub_one_eq_mod v.toNat 40
  have htakes : managerTakes 0x181 v = decide (2000 ≤ v.toNat % 2 ^ 40) := by
    rw [← hmod]
    simp [managerTakes, managerMask]
  have hwrite : s.managerWrite 0x181 v = if managerTakes 0x181 v then s.setCsr 0x181 (v &&& 0xFFFFFFFFFF) else s := rfl
  rw [hwrite, htakes]
  simp only [decide_eq_true_eq]

theorem registerWrite_accessed_tickper (h : s.inp.csr = some (0x181, v)) :
    ∃ t, Accessed .registerWrite s t ∧
      t.readCsr 0x181 = (if 2000 ≤ v.toNat % 2 ^ 40 then (v.setWidth 40).setWidth 64 else s.readCsr 0x181) ∧
      ∀ m, m ≠ 0x181 → t.readCsr m = s.readCsr m := by
  have hwrite := managerWrite_tickper (s := s) (v := v)
  refine ⟨_, accessed_of_outsideStep h (exec_registerWrite s) rfl (by rw [hwrite]; split <;> rfl), ?_⟩
  rw [hwrite]
  split
  · exact ⟨(Sparse.get_set_eq ..).trans (Word.and_low v (w := 40) (by decide)), fun m hm => Sparse.get_set_ne _ _ hm⟩
  · exact ⟨rfl, fun _ _ => rfl⟩

theorem registerWrite_accessed_pair {p : Nat} (h : s.inp.csr = some (0x1000 + p, v)) :
    ∃ t, Accessed .registerWrite s t ∧ (Sparse.get t.sys.pairctl p).toNat = v.toNat % 256 ∧
      p ∈ t.sys.pairset ∧ t.csr = s.csr := by
  have hle : 0x1000 ≤ 0x1000 + p := Nat.le_add_right ..
  have hwrite : s.managerWrite (0x1000 + p) v = { s with sys := { s.sys with
      pairctl := Sparse.set s.sys.pairctl p (BitVec.ofNat 8 (Word.bits v 0 8))
      pairset := if s.sys.pairset.contains p then s.sys.pairset else p :: s.sys.pairset } } := by
    rw [State.managerWrite, if_pos hle, Nat.add_sub_cancel_left]
  refine ⟨_, accessed_of_outsideStep h (exec_registerWrite s) (by simp) (by rw [hwrite]), ?_, ?_, by rw [hwrite]; rfl⟩
  · rw [hwrite]
    simp [State.outsideDone, Sparse.get_set_eq, Word.bits, bits]
  · rw [hwrite]
    dsimp only [State.outsideDone]
    split
    · next hmem => simpa using hmem
    · exact List.mem_cons_self

/-! ### Watchpoints -/

theorem watchpointChange_takes {m : Nat} {w : Word} (h : s.core.wpSent = some (m, w, false)) :
    ∃ t, exec .watchpointChange s = .next t ∧ t.core = { s.core with wpSent := some (m, w, true) } ∧ t.csr = s.csr ∧
      t.mem = s.mem := by
  refine ⟨(s.wpArm m w).setCore { s.core with wpSent := some (m, w, true) }, ?_, rfl, rfl, rfl⟩
  rw [exec_watchpointChange, execWatchpointChange, h]

end

end Sys2Proof.Machine

namespace Sys2Proof.Proofs

open Sys2Proof.Machine Sys2Proof.Claims

/-- Settles O44: the access of each register is that register's write, done in one step. -/
theorem outsideAccesses : Obligations.OutsideAccesses := by
  intro s n v h
  refine ⟨?_, ?_, ?_, ?_, ?_, ?_, ?_, ?_, ?_, fun w => registerWrite_accessed_plain h, registerWrite_accessed_fixed h, ?_, ?_, ?_,
    fun m w => watchpointChange_takes⟩
  · rintro rfl
    exact tmrcntWrite_accessed h
  · rintro rfl
    exact bankbindWrite_accessed h
  · rintro rfl
    exact fxdata_accessed h
  · rintro rfl
    exact capdata_accessed h
  · rintro rfl
    exact capclr_accessed h
  · rintro rfl
    exact cueirqClear_accessed h
  · rintro q u rfl hq hu
    exact ⟨qcmdResume_accessed h hq hu, fun hc f => qcmdDiscard_accessed h hq hu hc, qcmdReset_accessed h hq hu,
      fun hc => qcmdIdle_accessed h (exec_qcmdResume s) hq hu hc (by decide),
      fun hc => qcmdIdle_accessed h (exec_qcmdDiscard s) hq hu hc (by decide)⟩
  · rintro rfl
    exact ⟨fun hc => ⟨_, accessed_of_xinvStep h (exec_xinvPage s) hc, invalidate_invalidates (xinvNames_page hc)⟩,
      fun hc => ⟨_, accessed_of_xinvStep h (exec_xinvAsid s) hc, invalidate_invalidates (xinvNames_asid hc)⟩,
      fun hc => ⟨_, accessed_of_xinvStep h (exec_xinvAll s) hc, invalidate_invalidates (xinvNames_all hc)⟩⟩
  · rintro rfl
    exact warpop_accessed h
  · rintro rfl
    exact registerWrite_accessed_jobkey h
  · rintro rfl
    exact registerWrite_accessed_tickper h
  · rintro p rfl
    exact registerWrite_accessed_pair h

end Sys2Proof.Proofs
end

section
/-!
Homes and clocks (R252-R256): the oldest request is performed, clocks are joined, bytes are written.
-/

namespace Sys2Proof.Machine

open Sys2Proof.Claims

/-! ### Clocks -/

theorem maxClock_getD (a b : List Nat) (e : Nat) : (maxClock a b)[e]?.getD 0 = max (a[e]?.getD 0) (b[e]?.getD 0) := by
  induction a generalizing b e with
  | nil => simp [maxClock]
  | cons x a ih =>
    cases b with
    | nil => simp [maxClock]
    | cons y b =>
      cases e with
      | zero => simp [maxClock]
      | succ e => simpa [maxClock] using ih b e

theorem length_maxClock (a b : List Nat) : (maxClock a b).length = max a.length b.length := by
  induction a generalizing b with
  | nil => simp [maxClock]
  | cons x a ih =>
    cases b with
    | nil => simp [maxClock]
    | cons y b => simp [maxClock, ih, Nat.add_max_add_right]

/-- Component e of a clock of 28 components kept at key k. -/
theorem clock_getD (m : Sparse 40) (k : Nat) {e : Nat} (he : e < 28) :
    ((List.range 28).map fun e => (Sparse.get m (k + e)).toNat)[e]?.getD 0 = (Sparse.get m (k + e)).toNat := by
  simp [he]

/-- A clock of 28 components raised by another. -/
theorem get_setRun_maxClock (m : Sparse 40) (k : Nat) (v : List Nat) {e : Nat} (he : e < 28) :
    Sparse.get (Sparse.setRun m k
      ((maxClock ((List.range 28).map fun e => (Sparse.get m (k + e)).toNat) v).map (BitVec.ofNat 40))) (k + e) =
      BitVec.ofNat 40 (max (Sparse.get m (k + e)).toNat (v[e]?.getD 0)) := by
  have hlen : e < (maxClock ((List.range 28).map fun e => (Sparse.get m (k + e)).toNat) v).length := by
    rw [length_maxClock, List.length_map, List.length_range]
    omega
  rw [Sparse.get_setRun, List.length_map, if_pos (by omega), Nat.add_sub_cancel_left, List.getElem?_map,
    List.getElem?_eq_getElem hlen, ← clock_getD m k he, ← maxClock_getD, List.getElem?_eq_getElem hlen]
  rfl

/-- Nothing but the vector clocks differs. -/
def SameButClocks (s t : State) : Prop := ∃ vc, t = { s with sys := { s.sys with vc := vc } }

theorem State.joinVc_same (s : State) (d : Nat) (c : List Nat) : SameButClocks s (s.joinVc d c) := by
  unfold State.joinVc
  split
  · exact ⟨s.sys.vc, rfl⟩
  · exact ⟨_, rfl⟩

theorem State.joinVc_joins (s : State) (c : List Nat) : Joins s (s.joinVc s.die c) c := by
  intro e he
  unfold State.joinVc
  split
  · next hc => simp [List.isEmpty_iff.1 hc]
  · exact get_setRun_maxClock s.sys.vc (32 * s.die) c he

/-- What joins a clock and then leaves the clocks alone has joined it. -/
theorem joins_of_vc {s t u : State} {c : List Nat} (h : Joins s t c) (hu : u.sys.vc = t.sys.vc) : Joins s u c := by
  intro e he
  rw [hu]
  exact h e he

/-! ### The request that its home performs -/

/-- A home holds a clock where its frontiers have reached every component but one. -/
theorem holds_of_le {s : State} {v : List Nat} {out : Option Nat}
    (h : ∀ e, e < 28 → out ≠ some e → v[e]?.getD 0 ≤ (Sparse.get s.sys.front e).toNat) : s.holds v out = true := by
  refine List.all_eq_true.2 fun e he => ?_
  by_cases ho : out = some e
  · simp [ho]
  · simp [State.frontier, h e (List.mem_range.1 he) ho]

theorem clockHeld_of_homeHolds {s : State} {r : Req} (h : HomeHolds s r) : s.clockHeld r = true := by
  have hstamped : s.stamped r = true := by
    cases hw : r.op.writes with
    | false => simp [State.stamped, hw]
    | true =>
      obtain ⟨hle, hd⟩ := h.stamped hw
      have hvc : (s.vcOf r.die)[r.die]?.getD 0 = (Sparse.get s.sys.vc (33 * r.die)).toNat := by
        rw [State.vcOf, clock_getD _ _ hd, show 32 * r.die + r.die = 33 * r.die by omega]
      simp [State.stamped, hvc, hle]
  have hwrite : (!r.op.writes || s.holds r.stamp (some r.die)) = true := by
    cases hw : r.op.writes with
    | false => rfl
    | true => exact holds_of_le fun e he ho => h.write hw e he fun hd => ho (congrArg some hd.symm)
  have hread : (!r.op.reads || s.holds r.rclk none) = true := by
    cases hr : r.op.reads with
    | false => rfl
    | true => exact holds_of_le fun e he _ => h.read hr e he
  rw [State.clockHeld, hstamped, hwrite, hread]
  rfl

/-- The oldest request waits behind no other. -/
theorem behind_of_oldest {s : State} {r : Req} (h : Oldest s r) : s.behind r = false := by
  refine List.any_eq_false.2 fun q hq => ?_
  have hle : ¬ q.id < r.id := Nat.not_lt.2 (h.2 q hq)
  simp [hle]

theorem firstDue_of_oldest {s : State} {r : Req} {kind : Req → Bool} (h : Oldest s r) (hh : HomeHolds s r) (hk : kind r = true) :
    s.firstDue kind = some r := by
  obtain ⟨rs, hrs⟩ : ∃ rs, s.sys.reqs = r :: rs := List.head?_eq_some_iff.1 h.1
  rw [State.firstDue, hrs, List.find?_cons_of_pos]
  simp [hk, clockHeld_of_homeHolds hh, behind_of_oldest h]

/-- A write outside the notify window that brings the cell no contribution is for WRITE_APPLIED_AT_HOME. -/
theorem writeKind_of {s : State} {r : Req} (hw : r.op.writes = true) (hv : r.op.isVat = false) (hn : inNotify r.pa = false)
    (hc : s.contribOf r = none) : s.writeKind r = true := by
  have hnot : r.notifies = false := by
    unfold Req.notifies
    split
    · exact hn
    · rfl
  simp [State.writeKind, hw, hv, hnot, hc]

/-! ### Bytes at a home -/

theorem Memory.get_writeBytes (m : Memory) (bs : List (Nat × Byte)) (a : Nat) :
    Sparse.get (Memory.writeBytes m bs) a = lastByte bs a (Sparse.get m a) := by
  induction bs generalizing m with
  | nil => rfl
  | cons x bs ih =>
    obtain ⟨p, b⟩ := x
    rw [Memory.writeBytes, ih, Sparse.get_set, lastByte, lastByte, List.reverse_cons, List.find?_append]
    cases bs.reverse.find? (fun b => decide (b.1 = a)) with
    | some y => rfl
    | none => by_cases hp : a = p <;> simp [hp, Ne.symm]

theorem Memory.get_writeLE (m : Memory) (a n v b : Nat) :
    Sparse.get (Memory.writeLE m a n v) b =
      if a ≤ b ∧ b < a + n then BitVec.ofNat 8 (v / 256 ^ (b - a)) else Sparse.get m b := by
  induction n generalizing m a v with
  | zero => rw [Memory.writeLE, if_neg (by omega)]
  | succ n ih =>
    rw [Memory.writeLE, ih, Sparse.get_set]
    by_cases hb : b = a
    · simp [hb]
    · by_cases hin : a + 1 ≤ b ∧ b < a + 1 + n
      · have hpow : 256 ^ (b - a) = 256 * 256 ^ (b - (a + 1)) := by
          rw [← Nat.pow_succ', show (b - (a + 1)).succ = b - a by omega]
        rw [if_pos hin, if_pos (by omega), hpow, Nat.div_div_eq_div_mul]
      · rw [if_neg hin, if_neg hb, if_neg (by omega)]

/-- No line is in error where none is recorded. -/
theorem readLines_clean {s : State} (h : s.mgr.memErr = []) (rs : List (Nat × Nat)) : s.readLines rs = (s, false) := by
  simp [State.readLines, State.lineErr, h]

theorem writeHome_clean {s : State} (h : s.mgr.memErr = []) (bs : List (Nat × Byte)) :
    s.writeHome bs = ({ s with mem := s.mem.writeBytes bs }, false) := by
  simp [State.writeHome, readLines_clean h, State.lineErr, h]

/-- The number that n bytes of memory hold. -/
theorem numOfBytes_bytes (m : Memory) (a n : Nat) : numOfBytes (Sparse.getRun m a n) = Memory.readLE m a n := by
  rw [Sparse.getRun_eq]
  induction n generalizing a with
  | zero => rfl
  | succ n ih =>
    rw [List.range_succ_eq_map, List.map_cons, List.map_map, numOfBytes, Memory.readLE, Nat.add_zero, ← ih]
    simp [Function.comp_def, Nat.add_left_comm, Nat.add_comm]

/-! ### What a write brings about at its home -/

/-- Nothing differs but the counts of events, watch reports and queues left undefined. -/
def SameButCounts (s t : State) : Prop := ∃ a l d, t = { s with acct := a, lq := l, dbg := d }

theorem SameButCounts.trans {s t u : State} (h : SameButCounts s t) (k : SameButCounts t u) : SameButCounts s u := by
  obtain ⟨a, l, d, rfl⟩ := h
  obtain ⟨a', l', d', rfl⟩ := k
  exact ⟨a', l', d', rfl⟩

theorem State.count_same (s : State) (e n : Nat) : SameButCounts s (s.count e n) := ⟨_, s.lq, s.dbg, rfl⟩

theorem State.countHome_same (s : State) (r : Req) (n : Nat) : SameButCounts s (s.countHome r n) := by
  unfold State.countHome
  split
  · exact s.count_same _ _
  · exact ⟨s.acct, s.lq, s.dbg, rfl⟩

theorem State.touched_same (s : State) (m : Memory) (r : Req) (rs : List (Nat × Nat)) : SameButCounts s (s.touched m r rs) := by
  have hmark : SameButCounts s (s.markQueues m rs) := by
    unfold State.markQueues
    split
    · exact ⟨s.acct, s.lq, s.dbg, rfl⟩
    · dsimp only
      split
      · exact ⟨s.acct, s.lq, s.dbg, rfl⟩
      · exact ⟨s.acct, _, s.dbg, rfl⟩
  refine hmark.trans ?_
  rw [State.touched]
  generalize s.markQueues m rs = t
  unfold State.watched
  split
  · exact ⟨t.acct, t.lq, t.dbg, rfl⟩
  · dsimp only
    split
    · exact ⟨t.acct, t.lq, t.dbg, rfl⟩
    · exact ⟨t.acct, t.lq, _, rfl⟩

/-- The maximum of the one home of a request. -/
theorem raiseHomes_of_homes {s : State} {r : Req} (h : r.homes = [r.home]) : s.raiseHomes r = s.raiseMax r.home r.stamp := by
  rw [State.raiseHomes, h]
  rfl

theorem homesMax_getD {s : State} {r : Req} (h : r.homes = [r.home]) {e : Nat} (he : e < 28) :
    (s.homesMax r)[e]?.getD 0 = (Sparse.get s.sys.maxv (32 * r.home + e)).toNat := by
  have hmax : s.homesMax r = maxClock [] (s.maxOf r.home) := by rw [State.homesMax, h]; rfl
  rw [hmax, maxClock]
  exact clock_getD _ _ he

theorem State.raiseMax_get (s : State) (h : Nat) (v : List Nat) {e : Nat} (he : e < 28) :
    Sparse.get (s.raiseMax h v).sys.maxv (32 * h + e) =
      BitVec.ofNat 40 (max (Sparse.get s.sys.maxv (32 * h + e)).toNat (v[e]?.getD 0)) :=
  get_setRun_maxClock s.sys.maxv (32 * h) v he

end Sys2Proof.Machine
end

section
/-!
Writes, atomics and reads performed at their homes, and requests refused there (R114, R115, R256, R312, R329).
-/

namespace Sys2Proof.Machine

open Sys2Proof.Claims

section
variable {s : State} {r : Req}

/-! ### What the oldest request does -/

theorem exec_write_of_due (h : DueFirst s r) (hk : s.writeKind r = true) :
    exec .writeAppliedAtHome s = .next ((s.dropReq r.id).applyWrite r) := by
  simp only [exec_writeAppliedAtHome, execWriteAppliedAtHome, firstDue_of_oldest h.first h.held hk, h.present, if_true]

theorem exec_read_of_due (h : DueFirst s r) (hk : readKind r = true) :
    exec .readAnsweredAtHome s = .next ((s.dropReq r.id).answerRead r) := by
  simp only [exec_readAnsweredAtHome, execReadAnsweredAtHome, firstDue_of_oldest h.first h.held hk, h.present, if_true]

/-- The answer to a request of the cell is one reply more. -/
theorem answer_of_own (h : r.origin = .own) (n : Nat) (v : Word) (ls : List Lane) (row : Option OqRow) (bad : Bool) :
    ∃ a : Reply, s.answer r n v ls row bad = { s with sys := { s.sys with replies := s.sys.replies ++ [a] } } ∧
      a.id = r.id ∧ a.dest = r.dest ∧ a.size = n ∧ a.val = v ∧ a.bad = bad ∧ a.clock = s.homesMax r := by
  rw [State.answer, if_neg (by simp [h])]
  exact ⟨_, rfl, rfl, rfl, rfl, rfl, rfl, rfl⟩

/-! ### Writes -/

/-- r is performed: memory is m, the home's maximum has taken its stamp, and the acknowledgements and answers under way are
these; of the rest, counts and reports alone differ. -/
def Performs (s t : State) (r : Req) (m : Memory) (acks : List (Nat × Nat)) (replies : List Reply) : Prop :=
  ∃ a l d, t = { s with
    acct := a, lq := l, dbg := d, mem := m
    sys := { s.sys with
      reqs := s.sys.reqs.filter fun q => q.id != r.id
      maxv := (s.raiseMax r.home r.stamp).sys.maxv, acks := acks, replies := replies } }

theorem Performs.performedAt {t : State} {m : Memory} {acks : List (Nat × Nat)} {replies : List Reply}
    (h : Performs s t r m acks replies) : PerformedAt s t r := by
  obtain ⟨a, l, d, rfl⟩ := h
  exact ⟨rfl, fun e he => s.raiseMax_get r.home r.stamp he⟩

theorem Performs.counted {t u : State} {m : Memory} {acks : List (Nat × Nat)} {replies : List Reply}
    (h : Performs s t r m acks replies) (hu : SameButCounts t u) : Performs s u r m acks replies := by
  obtain ⟨a, l, d, rfl⟩ := h
  obtain ⟨a', l', d', rfl⟩ := hu
  exact ⟨a', l', d', rfl⟩

/-- Memory written, the maximum raised and what the write brings about. -/
theorem performs_touched (m : Memory) (hh : r.homes = [r.home]) (rs : List (Nat × Nat)) :
    Performs s ((({ s.dropReq r.id with mem := m } : State).raiseHomes r).touched s.mem r rs) r m s.sys.acks s.sys.replies := by
  rw [raiseHomes_of_homes hh]
  exact Performs.counted ⟨s.acct, s.lq, s.dbg, rfl⟩ (State.touched_same ..)

theorem store_performs (h : DueFirst s r) {bs : List (Nat × Byte)} (hop : r.op = .store bs) :
    Performs s ((s.dropReq r.id).applyWrite r) r (s.mem.writeBytes bs) (s.sys.acks ++ [(r.queue, r.seq)]) s.sys.replies := by
  have hhomes : r.homes = [r.home] := by rw [Req.homes, hop]; rfl
  have hmine : r.mine = true := by rw [Req.mine, h.own]
  have hclean : (s.dropReq r.id).mgr.memErr = [] := h.clean
  rw [State.applyWrite, hop]
  simp only [if_neg (Nat.not_le.2 h.memory), writeHome_clean hclean]
  refine Performs.counted ?_ (State.countHome_same ..)
  obtain ⟨a, l, d, ht⟩ := performs_touched (s := s) (s.mem.writeBytes bs) hhomes r.ranges
  refine ⟨a, l, d, ?_⟩
  rw [State.acknowledge, if_pos hmine, if_neg Bool.false_ne_true]
  exact congrArg (fun t : State => { t with sys := { t.sys with acks := t.sys.acks ++ [(r.queue, r.seq)] } }) ht

theorem store_performed (h : DueFirst s r) (hn : inNotify r.pa = false) {bs : List (Nat × Byte)} (hop : r.op = .store bs) :
    ∃ t, exec .writeAppliedAtHome s = .next t ∧ PerformedAt s t r ∧
      (∀ a, Sparse.get t.mem a = lastByte bs a (Sparse.get s.mem a)) ∧ t.sys.acks = s.sys.acks ++ [(r.queue, r.seq)] ∧
      t.core = s.core ∧ t.csr = s.csr ∧ t.cell = s.cell := by
  have hkind : s.writeKind r = true :=
    writeKind_of (by rw [hop]; rfl) (by rw [hop]; rfl) hn (by rw [State.contribOf, hop])
  have hperforms := store_performs h hop
  refine ⟨_, exec_write_of_due h hkind, hperforms.performedAt, ?_⟩
  obtain ⟨a, l, d, ht⟩ := hperforms
  rw [ht]
  exact ⟨Memory.get_writeBytes s.mem bs, rfl, rfl, rfl, rfl⟩

/-! ### Atomic operations -/

/-- A word read, and written over, at its home. -/
theorem rmw_performs (h : DueFirst s r) (hh : r.homes = [r.home]) (n v : Nat) {f : Nat → Option Nat}
    (hf : f (Memory.readLE s.mem r.pa n) = some v) :
    ∃ a : Reply, Performs s ((s.dropReq r.id).rmw r n f) r (Memory.writeLE s.mem r.pa n v) s.sys.acks (s.sys.replies ++ [a]) ∧
      a.id = r.id ∧ a.dest = r.dest ∧ a.size = n ∧ a.val = BitVec.ofNat 64 (Memory.readLE s.mem r.pa n) ∧ a.bad = false := by
  have hclean : (s.dropReq r.id).mgr.memErr = [] := h.clean
  have hold : f (Memory.readLE (s.dropReq r.id).mem r.pa n) = some v := hf
  rw [State.rmw, readLines_clean hclean]
  simp only [hold]
  obtain ⟨c, l, d, ht⟩ := performs_touched (s := s) (Memory.writeLE s.mem r.pa n v) hh [(r.pa, n)]
  have ht' : ((({ s.dropReq r.id with mem := Memory.writeLE (s.dropReq r.id).mem r.pa n v } : State).raiseHomes r).touched
    (s.dropReq r.id).mem r [(r.pa, n)]) = _ := ht
  rw [if_neg Bool.false_ne_true, ht']
  generalize hu : ({ s with acct := c, lq := l, dbg := d, mem := _, sys := _ } : State) = u
  obtain ⟨a, ha, hid, hdest, hsize, hval, hbad, -⟩ := answer_of_own (s := u) h.own n
    (BitVec.ofNat 64 (Memory.readLE s.mem r.pa n)) [] none false
  refine ⟨a, ⟨c, l, d, ?_⟩, hid, hdest, hsize, hval, hbad⟩
  refine Eq.trans ha ?_
  rw [← hu]

/-- A word read at its home, and left as it is. -/
theorem rmw_leaves (h : DueFirst s r) (n : Nat) {f : Nat → Option Nat} (hf : f (Memory.readLE s.mem r.pa n) = none) :
    ∃ a : Reply, (s.dropReq r.id).rmw r n f =
        { s.dropReq r.id with sys := { (s.dropReq r.id).sys with replies := s.sys.replies ++ [a] } } ∧
      a.id = r.id ∧ a.dest = r.dest ∧ a.size = n ∧ a.val = BitVec.ofNat 64 (Memory.readLE s.mem r.pa n) ∧ a.bad = false := by
  have hclean : (s.dropReq r.id).mgr.memErr = [] := h.clean
  have hold : f (Memory.readLE (s.dropReq r.id).mem r.pa n) = none := hf
  rw [State.rmw, readLines_clean hclean]
  simp only [hold]
  obtain ⟨a, ha, hid, hdest, hsize, hval, hbad, -⟩ := answer_of_own (s := s.dropReq r.id) h.own n
    (BitVec.ofNat 64 (Memory.readLE s.mem r.pa n)) [] none false
  exact ⟨a, ha, hid, hdest, hsize, hval, hbad⟩

theorem atomic_performed (h : DueFirst s r) (hn : inNotify r.pa = false) {f n : Nat} {b : Word} (hop : r.op = .atomic f n b) :
    ∃ t, exec .writeAppliedAtHome s = .next t ∧ PerformedAt s t r ∧
      MemHolds s t r.pa n (atomicFn f n (Memory.readLE s.mem r.pa n) (b.toNat % 2 ^ (8 * n))) ∧
      Answers s t r (BitVec.ofNat 64 (Memory.readLE s.mem r.pa n)) (fun a => a.size = n) ∧ t.core = s.core ∧ t.cell = s.cell := by
  have hkind : s.writeKind r = true :=
    writeKind_of (by rw [hop]; rfl) (by rw [hop]; rfl) hn (by rw [State.contribOf, hop])
  have happly : (s.dropReq r.id).applyWrite r =
      ((s.dropReq r.id).rmw r n fun a => some (atomicFn f n a (b.toNat % 2 ^ (8 * n)))).countHome r n := by
    rw [State.applyWrite, hop]
  obtain ⟨a, hp, hid, hdest, hsize, hval, hbad⟩ := rmw_performs h (by rw [Req.homes, hop]; rfl) n
    (atomicFn f n (Memory.readLE s.mem r.pa n) (b.toNat % 2 ^ (8 * n)))
    (f := fun a => some (atomicFn f n a (b.toNat % 2 ^ (8 * n)))) rfl
  have hperforms := hp.counted (State.countHome_same _ r n)
  rw [← happly] at hperforms
  refine ⟨_, exec_write_of_due h hkind, hperforms.performedAt, ?_⟩
  obtain ⟨c, l, d, ht⟩ := hperforms
  rw [ht]
  exact ⟨Memory.get_writeLE s.mem r.pa n _, ⟨a, rfl, hid, hdest, hval, hbad, hsize⟩, rfl, rfl⟩

theorem cas_performed (h : DueFirst s r) (hn : inNotify r.pa = false) {n : Nat} {x v : Word} (hop : r.op = .cas n x v) :
    ∃ t, exec .writeAppliedAtHome s = .next t ∧ t.sys.reqs = s.sys.reqs.filter (fun q => q.id != r.id) ∧
      (if Memory.readLE s.mem r.pa n = x.toNat % 2 ^ (8 * n) then MemHolds s t r.pa n (v.toNat % 2 ^ (8 * n))
        else t.mem = s.mem) ∧
      Answers s t r (BitVec.ofNat 64 (Memory.readLE s.mem r.pa n)) (fun a => a.size = n) ∧ t.core = s.core ∧ t.cell = s.cell := by
  have hkind : s.writeKind r = true :=
    writeKind_of (by rw [hop]; rfl) (by rw [hop]; rfl) hn (by rw [State.contribOf, hop])
  refine ⟨_, exec_write_of_due h hkind, ?_⟩
  rw [State.applyWrite, hop]
  dsimp only
  generalize hg : (fun a => if a = x.toNat % 2 ^ (8 * n) then some (v.toNat % 2 ^ (8 * n)) else none) = g
  by_cases he : Memory.readLE s.mem r.pa n = x.toNat % 2 ^ (8 * n)
  · obtain ⟨a, hp, hid, hdest, hsize, hval, hbad⟩ := rmw_performs h (by rw [Req.homes, hop]; rfl) n (v.toNat % 2 ^ (8 * n))
      (f := g) (by rw [← hg]; exact if_pos he)
    obtain ⟨c, l, d, ht⟩ := hp.counted (State.countHome_same _ r n)
    rw [ht, if_pos he]
    exact ⟨rfl, Memory.get_writeLE s.mem r.pa n _, ⟨a, rfl, hid, hdest, hval, hbad, hsize⟩, rfl, rfl⟩
  · obtain ⟨a, ha, hid, hdest, hsize, hval, hbad⟩ := rmw_leaves h n (f := g) (by rw [← hg]; exact if_neg he)
    obtain ⟨c, l, d, ht⟩ := State.countHome_same ((s.dropReq r.id).rmw r n g) r n
    rw [ht, ha, if_neg he]
    exact ⟨rfl, rfl, ⟨a, rfl, hid, hdest, hval, hbad, hsize⟩, rfl, rfl⟩

/-! ### Reads -/

theorem load_answered (h : DueFirst s r) (hn : inNotify r.pa = false) {n : Nat} (hop : r.op = .load n) (hle : n ≤ 8) :
    ∃ t, exec .readAnsweredAtHome s = .next t ∧
      t.sys.reqs = s.sys.reqs.filter (fun q => q.id != r.id) ∧ t.mem = s.mem ∧ t.core = s.core ∧ t.cell = s.cell ∧
      Answers s t r (BitVec.ofNat 64 (Memory.readLE s.mem r.pa n)) fun a => a.size = n ∧
        ∀ e, e < 28 → a.clock[e]?.getD 0 = (Sparse.get s.sys.maxv (32 * r.home + e)).toNat := by
  have hhomes : r.homes = [r.home] := by rw [Req.homes, hop]; rfl
  have hclean : (s.dropReq r.id).mgr.memErr = [] := h.clean
  have hown : (s.dropReq r.id).ownWindow r.pa = false := by
    rw [State.ownWindow, decide_eq_false (Nat.not_le.2 h.memory), Bool.false_and]
  have hbytes : (s.dropReq r.id).homeBytes r.pa n = Sparse.getRun s.mem r.pa n := by
    rw [State.homeBytes, hown, hn]
    rfl
  have hval : numOfBytes ((Sparse.getRun s.mem r.pa n).take 8) = Memory.readLE s.mem r.pa n := by
    rw [List.take_of_length_le (by rw [Sparse.getRun_eq]; simpa using hle), numOfBytes_bytes]
  refine ⟨_, exec_read_of_due h (by rw [readKind, hop]; rfl), ?_⟩
  rw [State.answerRead, readLines_clean hclean]
  simp only [hop, hbytes, hval]
  obtain ⟨c, l, d, ht⟩ := State.countHome_same (s.dropReq r.id) r (ReqOp.load n).size
  rw [ht]
  generalize hu : ({ s.dropReq r.id with acct := c, lq := l, dbg := d } : State) = u
  obtain ⟨a, ha, hid, hdest, hsize, hv, hbad, hclock⟩ := answer_of_own (s := u) h.own n
    (BitVec.ofNat 64 (Memory.readLE s.mem r.pa n)) [] (some (rawPart (0, 0) (Sparse.getRun s.mem r.pa n))) false
  rw [ha]
  subst hu
  refine ⟨rfl, rfl, rfl, rfl, a, rfl, hid, hdest, hv, hbad, hsize, fun e he => ?_⟩
  rw [hclock]
  exact homesMax_getD hhomes he

/-! ### Requests refused -/

theorem contribOf_of_absent (h : s.reqPresent r = false) : s.contribOf r = none := by
  unfold State.contribOf
  split
  · next c hop => simp [State.reqPresent, hop] at h
  · rfl

theorem refuse_own (ho : r.origin = .own) (hq : r.queue = 15) (ht : ∀ n, r.dest ≠ .table n) (hv : r.dest ≠ .vat)
    (hm : r.dest ≠ .mgr) (w d : Nat) :
    (s.refuse r w d).sys.reqs = s.sys.reqs ∧ (s.refuse r w d).mem = s.mem ∧
      (s.refuse r w d).core = { s.core with
        refusals := s.core.refusals ++ [{ va := r.va, why := w, dev := d }]
        far := s.core.far.filter fun f => f.id != r.id } := by
  have hmine : r.mine = true := by rw [Req.mine, ho]
  unfold State.refuse
  rw [if_neg hm, hmine, if_neg (by simp), if_pos hq]
  cases hd : r.dest with
  | table n => exact absurd hd (ht n)
  | vat => exact absurd hd hv
  | _ =>
    refine ⟨List.filter_eq_self.2 fun q _ => ?_, rfl, by simp⟩
    cases q.dest <;> rfl

theorem absent_refused (ho : Oldest s r) (hh : HomeHolds s r) (hp : s.reqPresent r = false) (hown : r.origin = .own)
    (hq : r.queue = 15) (ht : ∀ n, r.dest ≠ .table n) (hv : r.dest ≠ .vat) (hm : r.dest ≠ .mgr) (hn : inNotify r.pa = false)
    (hvat : r.op.isVat = false) {i : Instr}
    (hi : i = if r.op.writes = true then Instr.writeAppliedAtHome else Instr.readAnsweredAtHome) :
    ∃ t, exec i s = .next t ∧ t.sys.reqs = s.sys.reqs.filter (fun q => q.id != r.id) ∧ t.mem = s.mem ∧
      t.core = { s.core with
        refusals := s.core.refusals ++ [{ va := r.va, why := 7, dev := s.devid }]
        far := s.core.far.filter fun f => f.id != r.id } := by
  have hexec : exec i s = .next ((s.dropReq r.id).refuse r 7 s.devid) := by
    cases hw : r.op.writes with
    | true =>
      rw [hi, if_pos hw, exec_writeAppliedAtHome, execWriteAppliedAtHome,
        firstDue_of_oldest ho hh (writeKind_of hw hvat hn (contribOf_of_absent hp))]
      simp [hp]
    | false =>
      rw [hi, if_neg (by simp [hw]), exec_readAnsweredAtHome, execReadAnsweredAtHome,
        firstDue_of_oldest ho hh (by simp [readKind, hw])]
      simp [hp]
  obtain ⟨hreqs, hmem, hcore⟩ := refuse_own (s := s.dropReq r.id) hown hq ht hv hm 7 s.devid
  exact ⟨_, hexec, hreqs, hmem, hcore⟩

end

end Sys2Proof.Machine
end

section
/-!
Frontiers, answers that land at the cell, acknowledgements and renormalisation (R50, R112, R129, R255, R256, R359, R395), and O47.
-/

namespace Sys2Proof.Machine

open Sys2Proof.Claims

section
variable {s : State}

/-! ### Frontiers -/

/-- The least of a number and of a list's values: it is below each of them, and is one of them. -/
theorem foldl_min_le (f : Req → Nat) (rs : List Req) (n : Nat) :
    rs.foldl (fun n r => min n (f r)) n ≤ n ∧ (∀ r ∈ rs, rs.foldl (fun n r => min n (f r)) n ≤ f r) ∧
      (rs.foldl (fun n r => min n (f r)) n < n → ∃ r ∈ rs, rs.foldl (fun n r => min n (f r)) n = f r) := by
  induction rs generalizing n with
  | nil => simp
  | cons q rs ih =>
    obtain ⟨hle, hall, hex⟩ := ih (min n (f q))
    rw [List.foldl_cons]
    refine ⟨by omega, fun r hr => ?_, fun hlt => ?_⟩
    · rcases List.mem_cons.1 hr with rfl | hr
      · omega
      · exact hall r hr
    · by_cases hq : rs.foldl (fun n r => min n (f r)) (min n (f q)) < min n (f q)
      · obtain ⟨r, hr, he⟩ := hex hq
        exact ⟨r, List.mem_cons_of_mem _ hr, he⟩
      · clear hex hall
        exact ⟨q, List.mem_cons_self, by omega⟩

theorem mem_unapplied (d : Nat) (r : Req) : r ∈ s.unapplied d ↔
    r ∈ s.sys.reqs ++ s.sys.held.map Held.req ∧ r.die = d ∧ r.op.writes = true := by
  simp [State.unapplied, List.mem_filter, or_and_right]

theorem frontier_sent (d : Nat) (hd : s.actq = d) : ∃ t n, exec .frontierSend s = .next t ∧
    t = { s with sys := { s.sys with front := t.sys.front } } ∧
    (∀ e, Sparse.get t.sys.front e = if e = d then BitVec.ofNat 40 n else Sparse.get s.sys.front e) ∧
    n ≤ (Sparse.get s.sys.vc (33 * d)).toNat ∧
    (∀ r, r ∈ s.sys.reqs ++ s.sys.held.map Held.req → r.die = d → r.op.writes = true → n ≤ r.stamp[d]?.getD 0 - 1) ∧
    (n < (Sparse.get s.sys.vc (33 * d)).toNat → ∃ r, r ∈ s.sys.reqs ++ s.sys.held.map Held.req ∧ r.die = d ∧
      r.op.writes = true ∧ n = r.stamp[d]?.getD 0 - 1) := by
  obtain ⟨hle, hall, hex⟩ := foldl_min_le (fun r => r.stamp[d]?.getD 0 - 1) (s.unapplied d)
    (Sparse.get s.sys.vc (33 * d)).toNat
  refine ⟨_, s.frontierOf d, exec_frontierSend s, rfl, fun e => ?_, hle, fun r hr hdie hw => ?_, fun hlt => ?_⟩
  · rw [hd]
    exact Sparse.get_set ..
  · exact hall r ((mem_unapplied d r).2 ⟨hr, hdie, hw⟩)
  · obtain ⟨r, hr, he⟩ := hex hlt
    obtain ⟨hmem, hdie, hw⟩ := (mem_unapplied d r).1 hr
    exact ⟨r, hmem, hdie, hw, he⟩

/-! ### Answers that land -/

/-- The answer taken: it has left the replies, and the die has joined its clock. -/
def State.taken (s : State) (a : Reply) (rs : List Reply) : State :=
  State.joinVc { s with sys := { s.sys with replies := rs } } s.die a.clock

theorem State.taken_same (s : State) (a : Reply) (rs : List Reply) :
    ∃ vc, s.taken a rs = { s with sys := { s.sys with replies := rs, vc := vc } } := by
  obtain ⟨vc, h⟩ := State.joinVc_same { s with sys := { s.sys with replies := rs } } s.die a.clock
  exact ⟨vc, h⟩

theorem State.taken_joins (s : State) (a : Reply) (rs : List Reply) : Joins s (s.taken a rs) a.clock :=
  State.joinVc_joins { s with sys := { s.sys with replies := rs } } a.clock

/-- The oldest answer, if it is one that LONG_LATENCY_RETURN lands. -/
theorem exec_longLatencyReturn_of_landable {a : Reply} {rs : List Reply} (h : s.sys.replies = a :: rs) (hl : a.landable = true) :
    exec .longLatencyReturn s = .next (if a.bad then
      (match a.dest with
        | .table off => (s.taken a rs).tablePart off [] [BitVec.ofNat 64 a.addr]
        | .far => (s.taken a rs).farAnswer a.id [] true
        | _ => (s.taken a rs).deferMachine (BitVec.ofNat 64 a.addr) ((s.taken a rs).replyKind a) 0 a.dest.code)
      else (s.taken a rs).landReply a) := by
  have hany : s.sys.replies.any Reply.landable = true := by simp [h, hl]
  have hfind : s.sys.replies.find? Reply.landable = some a := by simp [h, hl]
  have htake : takeReply (fun x => x.landable) s.sys.replies = rs := by rw [h, takeReply, if_pos hl]
  simp only [exec_longLatencyReturn, execLongLatencyReturn, hany, if_true, hfind, htake]
  cases a.bad <;> rfl

theorem capture_off {t : State} (h : t.trace 3 = false) (w : Who) (d : Nat) (bs : List Byte) : t.capture w d bs = t := by
  rw [State.capture, h]
  rfl

theorem reg_lands {a : Reply} {rs : List Reply} {n : Nat} (h : s.sys.replies = a :: rs) (htr : s.trace 3 = false)
    (hd : a.dest = .reg n) (hn : n < 32) (hn0 : n ≠ 0) (hb : a.bad = false) :
    ∃ t, exec .longLatencyReturn s = .next t ∧ t.sys.replies = rs ∧ Joins s t a.clock ∧
      (∀ m, m < 32 → t.g m = (if m = n then a.val else s.g m) ∧ t.emptyG m = (if m = n then false else s.emptyG m)) ∧
      t.cell = s.cell ∧ t.mem = s.mem ∧ t.csr = s.csr := by
  have hexec := exec_longLatencyReturn_of_landable h (by rw [Reply.landable, hd])
  have hjoins := s.taken_joins a rs
  obtain ⟨vc, ht⟩ := s.taken_same a rs
  rw [ht] at hexec hjoins
  generalize hu : ({ s with sys := { s.sys with replies := rs, vc := vc } } : State) = u at hexec hjoins
  have hland : u.landReply a = u.setCore (u.core.putG n a.val) := by
    rw [State.landReply, hd]
    exact capture_off (by rw [← hu]; exact htr) ..
  rw [hb, if_neg Bool.false_ne_true, hland] at hexec
  have hcore : u.core = s.core := by rw [← hu]
  refine ⟨_, hexec, by rw [← hu]; rfl, hjoins, fun m _ => ?_, by rw [← hu]; rfl, by rw [← hu]; rfl, by rw [← hu]; rfl⟩
  have hg := State.g_congr (s := s.putG n a.val) (t := u.setCore (u.core.putG n a.val)) (by rw [hcore]; rfl) m
  have hempty := State.emptyG_congr (s := s.putG n a.val) (t := u.setCore (u.core.putG n a.val)) (by rw [hcore]; rfl) m
  rw [hg, hempty]
  by_cases hmn : m = n
  · rw [hmn, s.g_putG_self a.val hn0 hn, s.emptyG_putG_self a.val hn, if_pos rfl, if_pos rfl]
    exact ⟨rfl, rfl⟩
  · rw [s.g_putG_ne a.val hmn, s.emptyG_putG_ne a.val hmn hn, if_neg hmn, if_neg hmn]
    exact ⟨rfl, rfl⟩

theorem reg_bad {a : Reply} {rs : List Reply} {n : Nat} (h : s.sys.replies = a :: rs) (hd : a.dest = .reg n)
    (hb : a.bad = true) :
    ∃ t m, exec .longLatencyReturn s = .next t ∧ t.sys.replies = rs ∧ t.core.g = s.core.g ∧ t.core.gEmpty = s.core.gEmpty ∧
      t.core.machines = s.core.machines ++ [m] ∧ m.addr = BitVec.ofNat 64 a.addr := by
  have hexec := exec_longLatencyReturn_of_landable h (by rw [Reply.landable, hd])
  obtain ⟨vc, ht⟩ := s.taken_same a rs
  simp only [hd, hb, if_true] at hexec
  rw [ht, State.deferMachine] at hexec
  exact ⟨_, _, hexec, rfl, rfl, rfl, rfl, rfl⟩

/-- What a write of lanes leaves in each word. -/
theorem putLanes_word (off : Nat) (ls : Word) (data : List Lane) (w : Nat) :
    ((s.putLanes off ls data).word w, (s.putLanes off ls data).emptyWord w) =
      if off / 4 ≤ w ∧ w < off / 4 + 64 ∧ ls.getLsbD (w - off / 4) = true then (data[w - off / 4]?.getD 0, false)
      else (s.word w, s.emptyWord w) := by
  unfold State.putLanes Cell.putLanes
  by_cases hls : ls = 0
  · rw [if_pos hls, if_neg (by simp [hls])]
    rfl
  · rw [if_neg hls]
    dsimp only [State.word, State.emptyWord, State.setCell]
    rw [Sparse.get_setRun, Sparse.get_setRun, List.length_map, List.length_map, List.length_range]
    by_cases hin : off / 4 ≤ w ∧ w < off / 4 + 64
    · obtain ⟨hlo, hhi⟩ := hin
      have hlt : w - off / 4 < 64 := by omega
      have hadd : off / 4 + (w - off / 4) = w := by omega
      rw [BitVec.getLsbD_eq_getElem hlt]
      cases hbit : ls[w - off / 4] <;> simp [Sparse.getRun_eq, hlo, hhi, hlt, hadd, hbit]
    · rw [if_neg hin, if_neg hin, if_neg fun hw => hin ⟨hw.1, hw.2.1⟩]

theorem vec_lands {a : Reply} {rs : List Reply} {off : Nat} {ls : Word} (h : s.sys.replies = a :: rs) (htr : s.trace 3 = false)
    (hd : a.dest = .vec off ls) (hb : a.bad = false) :
    ∃ t, exec .longLatencyReturn s = .next t ∧ t.sys.replies = rs ∧ Joins s t a.clock ∧ t.core = s.core ∧ t.mem = s.mem ∧
      ∀ w, (t.word w, t.emptyWord w) =
        if off / 4 ≤ w ∧ w < off / 4 + 64 ∧ ls.getLsbD (w - off / 4) = true then (a.lanes[w - off / 4]?.getD 0, false)
        else (s.word w, s.emptyWord w) := by
  have hexec := exec_longLatencyReturn_of_landable h (by rw [Reply.landable, hd])
  have hjoins := s.taken_joins a rs
  obtain ⟨vc, ht⟩ := s.taken_same a rs
  rw [ht] at hexec hjoins
  generalize hu : ({ s with sys := { s.sys with replies := rs, vc := vc } } : State) = u at hexec hjoins
  have hland : u.landReply a = u.putLanes off ls a.lanes := by
    rw [State.landReply, hd]
    dsimp only
    rw [capture_off (by rw [← hu]; exact htr), ite_self]
  rw [hb, if_neg Bool.false_ne_true, hland] at hexec
  refine ⟨_, hexec, by rw [← hu]; rfl, hjoins, by rw [← hu]; rfl, by rw [← hu]; rfl, fun w => ?_⟩
  rw [putLanes_word, ← hu]
  rfl

/-- A part of a table is kept in its place among those that have come. -/
theorem insertPart_adds (p : Nat × List Byte) (l : List (Nat × List Byte)) :
    (insertPart p l).length = l.length + 1 ∧ ∀ x, x ∈ insertPart p l ↔ x = p ∨ x ∈ l := by
  induction l with
  | nil => simp [insertPart]
  | cons q l ih =>
    obtain ⟨hlen, hmem⟩ := ih
    rw [insertPart]
    split
    · simp
    · simp [hlen, hmem, or_left_comm]

theorem table_lands {a : Reply} {rs : List Reply} {n : Nat} {w : LatWait} (h : s.sys.replies = a :: rs)
    (hd : a.dest = .table n) (hw : s.core.latWait = some w) :
    ∃ t g bs e, exec .longLatencyReturn s = .next t ∧ t.sys.replies = rs ∧ Joins s t a.clock ∧
      t.core = { s.core with latWait := some { w with got := g, bad := w.bad ++ e } } ∧
      t.cell = s.cell ∧ g.length = w.got.length + 1 ∧ (∀ x, x ∈ g ↔ x = (n, bs) ∨ x ∈ w.got) ∧
      (a.bad = false → e = [] ∧ bs = (a.row.map OqRow.bytes).getD []) ∧ (a.bad = true → e = [BitVec.ofNat 64 a.addr]) := by
  have hexec := exec_longLatencyReturn_of_landable h (by rw [Reply.landable, hd])
  have hjoins := s.taken_joins a rs
  obtain ⟨vc, ht⟩ := s.taken_same a rs
  rw [ht] at hexec hjoins
  generalize hu : ({ s with sys := { s.sys with replies := rs, vc := vc } } : State) = u at hexec hjoins
  have hpart : ∀ bs e, (u.tablePart n bs e).core =
      { s.core with latWait := some { w with got := insertPart (n, bs) w.got, bad := w.bad ++ e } } := by
    intro bs e
    rw [State.tablePart, ← hu]
    simp only [hw, Option.map_some]
    rfl
  cases hb : a.bad with
  | false =>
    have hland : u.landReply a = u.tablePart n ((a.row.map OqRow.bytes).getD []) [] := by rw [State.landReply, hd]
    rw [hb, if_neg Bool.false_ne_true, hland] at hexec
    exact ⟨_, _, _, [], hexec, by rw [← hu]; rfl, hjoins, hpart _ _, by rw [← hu]; rfl, (insertPart_adds _ _).1,
      (insertPart_adds _ _).2, fun _ => ⟨rfl, rfl⟩, by simp⟩
  | true =>
    simp only [hd, hb, if_true] at hexec
    exact ⟨_, _, _, _, hexec, by rw [← hu]; rfl, hjoins, hpart _ _, by rw [← hu]; rfl, (insertPart_adds _ _).1,
      (insertPart_adds _ _).2, by simp, fun _ => rfl⟩

/-! ### Parts of rows -/

theorem join_eq_partJoined (x d : OqRow) : x.join d = PartJoined x d := by
  by_cases h : d.off ≤ x.off
  · simp [OqRow.join, PartJoined, h]
  · simp [OqRow.join, PartJoined, h, Nat.min_eq_left (by omega : x.off ≤ d.off)]

theorem row_lands {a : Reply} {rs : List Reply} {q n o : Nat} {d : OqRow} {u : List OqRow} (h : s.sys.replies = a :: rs)
    (htr : s.trace 3 = false) (hd : a.dest = .row q n o) (hb : a.bad = false) (hr : a.row = some d)
    (hu : s.cell.oq[q]? = some u) (hq : q < 4) :
    ∃ t, exec .operandQueueRowLands s = .next t ∧ t.sys.replies = rs ∧ Joins s t a.clock ∧ t.core = s.core ∧
      t.mem = s.mem ∧ t.cell.oq[q]? = some (u.map fun x => if x.id = n then PartJoined x d else x) ∧
      ∀ p, p < 4 → p ≠ q → t.cell.oq[p]? = s.cell.oq[p]? := by
  have hrow : a.isRow = true := by rw [Reply.isRow, hd]
  have hany : s.sys.replies.any Reply.isRow = true := by simp [h, hrow]
  have hfind : s.sys.replies.find? Reply.isRow = some a := by simp [h, hrow]
  have htake : takeReply Reply.isRow s.sys.replies = rs := by rw [h, takeReply, if_pos hrow]
  have hjoins := s.taken_joins a rs
  obtain ⟨vc, htaken⟩ := s.taken_same a rs
  generalize hv : ({ s with sys := { s.sys with replies := rs, vc := vc } } : State) = v at htaken
  rw [htaken] at hjoins
  generalize hrows : u.map (fun x => if x.id = n then PartJoined x d else x) = rows
  have hq' : (v.cell.oq[q]?.getD []).map (fun x => if x.id = n then (a.row.map x.join).getD { x with parts := x.parts - 1 } else x) =
      rows := by
    rw [← hrows, ← hv, hu, hr]
    simp [join_eq_partJoined]
  generalize ht : v.setCell { v.cell with oq := v.cell.oq.setIfInBounds q rows } = t
  have hexec : ∃ t', exec .operandQueueRowLands s = .next t' ∧ SameButCounts t t' := by
    have hoff : ∀ e n w d bs, (t.count e n).capture w d bs = t.count e n := fun e n w d bs =>
      capture_off (by rw [← ht, ← hv]; exact htr) w d bs
    have hstep : exec .operandQueueRowLands s = match rows.find? fun x => x.id == n && x.landed with
        | some x => .next ((t.count 13 1).capture t.self 0x7FFFF (x.image x.geo))
        | none => .next t := by
      have hjoined : State.joinVc { s with sys := { s.sys with replies := rs } } s.die a.clock = v := htaken
      rw [exec_operandQueueRowLands, execOperandQueueRowLands]
      simp only [hany, if_true, hfind, htake, hd, hb]
      rw [if_neg Bool.false_ne_true, ← ht, ← hq', ← hjoined]
      rfl
    rw [hstep]
    split
    · next x _ => exact ⟨_, rfl, by rw [hoff]; exact t.count_same 13 1⟩
    · exact ⟨t, rfl, t.acct, t.lq, t.dbg, rfl⟩
  obtain ⟨t', hexec, acct, lq, dbg, rfl⟩ := hexec
  subst ht hv
  refine ⟨_, hexec, rfl, hjoins, rfl, rfl, ?_, fun p hp hpq => ?_⟩
  · simp [State.setCell, hq]
  · simp [State.setCell, Vector.getElem?_setIfInBounds_ne (Ne.symm hpq)]

/-! ### Acknowledgements and renormalisation -/

theorem writeAcknowledged_takes {x : Nat × Nat} {as : List (Nat × Nat)} (h : s.sys.acks = x :: as) :
    exec .writeAcknowledged s = .next { s with sys := { s.sys with acks := as } } := by
  rw [exec_writeAcknowledged, execWriteAcknowledged, h]

theorem renormalises (hh : s.sys.hold = true) (hr : s.sys.reqs = []) (hp : s.sys.held = []) :
    ∃ t, exec .clockRenormalisation s = .next t ∧ t.sys.vc = [] ∧ t.sys.front = [] ∧ t.sys.maxv = [] ∧ t.sys.hold = false ∧
      t.mem = s.mem ∧ t.core = { s.core with readClk := [] } ∧ t.cell = s.cell ∧
      t.sys.parked = s.sys.parked.map fun r => { r with stamp := List.replicate 28 0 } := by
  rw [exec_clockRenormalisation, execClockRenormalisation, if_pos (by simp [State.quiescent, hh, hr, hp])]
  exact ⟨_, rfl, rfl, rfl, rfl, rfl, rfl, rfl, rfl, rfl⟩

theorem renormalisation_held (hh : s.sys.hold = false) {k : Nat} {v : BitVec 40} (hm : (k, v) ∈ s.sys.vc)
    (hv : 2 ^ 39 ≤ v.toNat) : exec .clockRenormalisation s = .next { s with sys := { s.sys with hold := true } } := by
  have hhigh : s.clocksHigh = true := by
    refine List.any_eq_true.2 ⟨(k, v), ?_, by simpa using hv⟩
    exact List.mem_append_left _ (List.mem_append_left _ hm)
  rw [exec_clockRenormalisation, execClockRenormalisation, if_neg (by simp [hh]), if_pos hhigh]

end

end Sys2Proof.Machine

namespace Sys2Proof.Proofs

open Sys2Proof.Machine Sys2Proof.Claims

/-- Settles O47: the oldest request is the one its home performs, and the oldest answer the one that lands. -/
theorem homeEvents : Obligations.HomeEvents := by
  intro s
  refine ⟨fun r h hn => ⟨fun bs => store_performed h hn, fun f n b old hop _ hold => ?_, fun n x v old hop _ hold => ?_,
      fun n => load_answered h hn⟩,
    fun r i ho hh hp hown hq ht hv hm hn hvat => absent_refused ho hh hp hown hq ht hv hm hn hvat, fun d hd _ => frontier_sent d hd,
    fun a rs h htr => ⟨fun n hd hn hn0 => ⟨reg_lands h htr hd hn hn0, reg_bad h hd⟩, fun off ls => vec_lands h htr,
      fun n w => table_lands h, fun q n o d u => row_lands h htr⟩,
    fun x as => writeAcknowledged_takes, renormalises, ?_⟩
  · subst hold
    exact atomic_performed h hn hop
  · subst hold
    exact cas_performed h hn hop
  · rintro hh ⟨k, v, hm, hv⟩
    exact renormalisation_held hh hm hv

end Sys2Proof.Proofs
end

section
/-!
The canonical form of memory and the stores (R43, R105, R252), for O58: what it says of the parts of a state, of
outcomes, of starts and of the core's moves, and how folds keep it. In the sections that follow each function of the
model that makes a state has one lemma: an equation where it leaves memory and the stores alone, and otherwise that
canonical memories stay canonical.
-/

namespace Sys2Proof.Machine

/-- The canonical form of memory and of the stores of a cell. -/
def memoriesOk (m : Memory) (c : Cell) : Bool :=
  Memory.wf m && Memory.wf c.store0 && Memory.wf c.store1 && Memory.wf c.store2

/-- The canonical form of four memories. -/
def fourOk (m a b c : Memory) : Bool := Memory.wf m && Memory.wf a && Memory.wf b && Memory.wf c

@[simp] theorem State.memoriesWf_mk
    {clk gcell core csr cell mem sys coll hubs acct dbg mgr lq fab pwr inp agenda actq} :
    (State.mk clk gcell core csr cell mem sys coll hubs acct dbg mgr lq fab pwr inp agenda actq).memoriesWf =
      memoriesOk mem cell := rfl

@[simp] theorem memoriesOk_self (s : State) : memoriesOk s.mem s.cell = s.memoriesWf := rfl

@[simp] theorem memoriesOk_mk {m rsp rspEmpty store0 store1 store2 dirtyBanks dirtyGran rspErr storeErr ports lat2 tiles
    ready rings allocs terms bars endedRanks troupeSize rank oq queues chained endStatus endCause rankCache enqNo evals
    copyTurn xferTurn fx bumps} :
    memoriesOk m (Cell.mk rsp rspEmpty store0 store1 store2 dirtyBanks dirtyGran rspErr storeErr ports lat2 tiles ready
      rings allocs terms bars endedRanks troupeSize rank oq queues chained endStatus endCause rankCache enqNo evals
      copyTurn xferTurn fx bumps) = fourOk m store0 store1 store2 := rfl

@[simp] theorem fourOk_cell (m : Memory) (c : Cell) : fourOk m c.store0 c.store1 c.store2 = memoriesOk m c := rfl

@[simp] theorem State.memoriesWf_ite (p : Prop) [Decidable p] (s t : State) :
    (if p then s else t).memoriesWf = if p then s.memoriesWf else t.memoriesWf := apply_ite ..

@[simp] theorem memoriesOk_ite (m : Memory) (p : Prop) [Decidable p] (c d : Cell) :
    memoriesOk m (if p then c else d) = if p then memoriesOk m c else memoriesOk m d := apply_ite ..

@[simp] theorem foldl_memoriesWf {α : Type} (f : State → α → State) (l : List α) (s : State)
    (h : ∀ t x, (f t x).memoriesWf = t.memoriesWf) : (l.foldl f s).memoriesWf = s.memoriesWf :=
  List.foldlRecOn (motive := fun t : State => t.memoriesWf = s.memoriesWf) l f rfl fun t ht x _ => (h t x).trans ht

@[simp] theorem foldl_memoriesOk {α : Type} (m : Memory) (f : Cell → α → Cell) (l : List α) (c : Cell)
    (h : ∀ d x, memoriesOk m (f d x) = memoriesOk m d) : memoriesOk m (l.foldl f c) = memoriesOk m c :=
  List.foldlRecOn (motive := fun d => memoriesOk m d = memoriesOk m c) l f rfl fun d hd x _ => (h d x).trans hd

theorem foldl_keeps {α : Type} {f : State → α → State} {l : List α} {s : State} (hs : s.memoriesWf = true)
    (h : ∀ t x, t.memoriesWf = true → (f t x).memoriesWf = true) : (l.foldl f s).memoriesWf = true :=
  List.foldlRecOn (motive := fun t : State => t.memoriesWf = true) l f hs fun t ht x _ => h t x ht

/-- The canonical form of what a start goes on with. -/
def Begin.memoriesWf : Begin → Bool
  | .go s _ => s.memoriesWf
  | .wait s _ => s.memoriesWf
  | .fault _ _ => true

def Move.state : Move → State
  | .rest s => s
  | .run _ s => s
  | .event _ s => s

/-- The canonical form of what an outcome goes on with. -/
def outMemoriesWf : Out → Bool
  | .next t => t.memoriesWf
  | .fault _ => true
  | .refused _ => true

@[simp] theorem outMemoriesWf_next (t : State) : outMemoriesWf (.next t) = t.memoriesWf := rfl
@[simp] theorem outMemoriesWf_ite (p : Prop) [Decidable p] (s t : Out) :
    outMemoriesWf (if p then s else t) = if p then outMemoriesWf s else outMemoriesWf t := apply_ite ..
@[simp] theorem fst_ite_state {α : Type} (p : Prop) [Decidable p] (s t : State × α) :
    (if p then s else t).1 = if p then s.1 else t.1 := apply_ite ..
@[simp] theorem Begin.memoriesWf_ite (p : Prop) [Decidable p] (b c : Begin) :
    (if p then b else c).memoriesWf = if p then b.memoriesWf else c.memoriesWf := apply_ite ..
@[simp] theorem Move.state_ite (p : Prop) [Decidable p] (s t : Move) :
    (if p then s else t).state = if p then s.state else t.state := apply_ite ..
@[simp] theorem Move.rest_state (s : State) : (Move.rest s).state = s := rfl
@[simp] theorem Move.run_state (i : Instr) (s : State) : (Move.run i s).state = s := rfl
@[simp] theorem Move.event_state (i : Instr) (s : State) : (Move.event i s).state = s := rfl
@[simp] theorem Begin.memoriesWf_go (s : State) (e : Entry) : (Begin.go s e).memoriesWf = s.memoriesWf := rfl
@[simp] theorem Begin.memoriesWf_wait (s : State) (c : Cause) : (Begin.wait s c).memoriesWf = s.memoriesWf := rfl
@[simp] theorem Begin.memoriesWf_fault (c : Nat) (a : Word) : (Begin.fault c a).memoriesWf = true := rfl

@[simp] theorem State.setQueue_memoriesOk (s : State) (m : Memory) (q : Nat) (v : Queue) :
    memoriesOk m (s.setQueue q v).cell = memoriesOk m s.cell := rfl
@[simp] theorem State.setAlloc_memoriesOk (s : State) (m : Memory) (i : Nat) (a : Alloc) :
    memoriesOk m (s.setAlloc i a).cell = memoriesOk m s.cell := rfl
@[simp] theorem State.setRing_memoriesOk (s : State) (m : Memory) (i : Nat) (r : Ring) :
    memoriesOk m (s.setRing i r).cell = memoriesOk m s.cell := rfl
@[simp] theorem State.setStorePort_memoriesOk (s : State) (m : Memory) (i : Nat) (p : StorePort) :
    memoriesOk m (s.setStorePort i p).cell = memoriesOk m s.cell := rfl

theorem memoriesOk_iff {m : Memory} {c : Cell} : memoriesOk m c = true ↔ Memory.wf m = true ∧
    (Memory.wf c.store0 = true ∧ Memory.wf c.store1 = true ∧ Memory.wf c.store2 = true) := by
  simp [memoriesOk, and_assoc]

theorem State.mem_wf {s : State} (h : s.memoriesWf = true) : Memory.wf s.mem = true := (memoriesOk_iff.1 h).1

/-- A canonical memory beside the stores of a state whose memories are canonical. -/
theorem memoriesOk_with {m : Memory} {t : State} (hm : Memory.wf m = true) (h : t.memoriesWf = true) :
    memoriesOk m t.cell = true := memoriesOk_iff.2 ⟨hm, (memoriesOk_iff.1 h).2⟩
/-- The state in an answer. -/
theorem memoriesWf_of_fst {α : Type} {x : State × α} {t : State} {a : α} (e : x = (t, a)) (h : x.1.memoriesWf = true) :
    t.memoriesWf = true := by
  rw [e] at h
  exact h

theorem foldl_keepsCell {α : Type} {m : Memory} {f : Cell → α → Cell} {l : List α} {c : Cell}
    (hc : memoriesOk m c = true) (h : ∀ d x, memoriesOk m d = true → memoriesOk m (f d x) = true) :
    memoriesOk m (l.foldl f c) = true :=
  List.foldlRecOn (motive := fun d => memoriesOk m d = true) l f hc fun d hd x _ => h d x hd

theorem Cell.store_wf {m : Memory} {c : Cell} {st : Nat}
    (h : memoriesOk m c = true) : Memory.wf (c.store st) = true := by
  obtain ⟨-, h0, h1, h2⟩ := memoriesOk_iff.1 h
  unfold Cell.store
  split <;> assumption

end Sys2Proof.Machine
end

section
/-!
Memory and the stores stay canonical: the shared operations on the state: registers, latches, CSRs, counters and the
way a unit issues.
-/

namespace Sys2Proof.Machine

@[simp] theorem State.setCsr_memoriesWf (s : State) {n : Nat} {v : Word} :
    (s.setCsr n v).memoriesWf = s.memoriesWf := rfl

@[simp] theorem State.pend_memoriesWf (s : State) {i : Nat} : (s.pend i).memoriesWf = s.memoriesWf := rfl

@[simp] theorem State.unpend_memoriesWf (s : State) {i : Nat} : (s.unpend i).memoriesWf = s.memoriesWf := rfl

@[simp] theorem State.count_memoriesWf (s : State) {e n : Nat} : (s.count e n).memoriesWf = s.memoriesWf := rfl

@[simp] theorem State.setCore_memoriesWf (s : State) {c : Core} : (s.setCore c).memoriesWf = s.memoriesWf := rfl

@[simp] theorem State.setCell_memoriesWf (s : State) (c : Cell) : (s.setCell c).memoriesWf = memoriesOk s.mem c := rfl

@[simp] theorem State.putG_memoriesWf (s : State) {r : Nat} {v : Word} : (s.putG r v).memoriesWf = s.memoriesWf := rfl

@[simp] theorem State.later_memoriesWf (s : State) {l : Nat} {t : Target} {scalar : Bool} :
    (s.later l t scalar).memoriesWf = s.memoriesWf := rfl

@[simp] theorem State.result_memoriesWf (s : State) {l r : Nat} {v : Word} :
    (s.result l r v).memoriesWf = s.memoriesWf := by simp [State.result]

@[simp] theorem State.emptyReg_memoriesWf (s : State) {r : Nat} :
    (s.emptyReg r).memoriesWf = s.memoriesWf := by simp [State.emptyReg]

@[simp] theorem Cell.putLanes_memoriesWf (c : Cell) {off : Nat} {lanes : Word} {data : List Lane} {m : Memory} :
    memoriesOk m (c.putLanes off lanes data) = memoriesOk m c := by simp [Cell.putLanes]

@[simp] theorem Cell.putWord_memoriesWf (c : Cell) {w : Nat} {v : Lane} {m : Memory} :
    memoriesOk m (c.putWord w v) = memoriesOk m c := rfl

@[simp] theorem Cell.putWords_memoriesWf (c : Cell) {w : Nat} {vs : List Lane} {m : Memory} :
    memoriesOk m (c.putWords w vs) = memoriesOk m c := rfl

@[simp] theorem State.putLanes_memoriesWf (s : State) {off : Nat} {lanes : Word} {data : List Lane} :
    (s.putLanes off lanes data).memoriesWf = s.memoriesWf := by simp [State.putLanes]

@[simp] theorem State.emptyLanes_memoriesWf (s : State) {off : Nat} {lanes : Word} :
    (s.emptyLanes off lanes).memoriesWf = s.memoriesWf := rfl

@[simp] theorem State.land_memoriesWf (s : State) {t : Target} : (s.land t).memoriesWf = s.memoriesWf := by
  unfold State.land
  (repeat' split) <;> simp [*]

@[simp] theorem State.landAll_memoriesWf (s : State) {ls : List Latch} :
    (s.landAll ls).memoriesWf = s.memoriesWf := by
  induction ls generalizing s with
  | nil => rfl
  | cons l ls ih => simp [State.landAll, ih]

@[simp] theorem State.writeFrame_memoriesWf (s : State) {t : TrapInfo} {fpc : Word} {nlat : Nat} :
    (s.writeFrame t fpc nlat).memoriesWf = s.memoriesWf := by simp [State.writeFrame]

@[simp] theorem State.enterNow_memoriesWf (s : State) {t : TrapInfo} {fpc : Word} {b spent : Nat} :
    (s.enterNow t fpc b spent).memoriesWf = s.memoriesWf := by
  simp [State.enterNow]

@[simp] theorem State.enterTrap_memoriesWf (s : State) {t : TrapInfo} {fpc : Word} {b e spent : Nat} :
    (s.enterTrap t fpc b e spent).memoriesWf = s.memoriesWf := by simp [State.enterTrap]

@[simp] theorem State.doubleTrap_memoriesWf (s : State) {t : TrapInfo} :
    (s.doubleTrap t).memoriesWf = s.memoriesWf := rfl

@[simp] theorem State.countErrors_memoriesWf (s : State) {die ce ue : Nat} :
    (s.countErrors die ce ue).memoriesWf = s.memoriesWf := by simp [State.countErrors]

@[simp] theorem State.syncTrap_memoriesWf (s : State) {t : TrapInfo} {fpc : Word} :
    (s.syncTrap t fpc).memoriesWf = s.memoriesWf := by simp [State.syncTrap]

@[simp] theorem State.hold_memoriesWf (s : State) {i : Instr} {c : Cause} :
    (s.hold i c).memoriesWf = s.memoriesWf := rfl

@[simp] theorem State.goto_memoriesWf (s : State) {i : Instr} {pc : Word} :
    (s.goto i pc).memoriesWf = s.memoriesWf := rfl

@[simp] theorem State.correct_memoriesWf (s : State) {ws : List Nat} :
    (s.correct ws).memoriesWf = s.memoriesWf := by simp [State.correct]

@[simp] theorem State.correctStore_memoriesWf (s : State) {ks : List Nat} :
    (s.correctStore ks).memoriesWf = s.memoriesWf := by simp [State.correctStore]

@[simp] theorem State.askWalk_memoriesWf (s : State) {va : Word} {acc : Access} :
    (s.askWalk va acc).memoriesWf = s.memoriesWf := by simp [State.askWalk]

@[simp] theorem State.noteRead_memoriesWf (s : State) :
    s.noteRead.memoriesWf = s.memoriesWf := by simp [State.noteRead]

@[simp] theorem State.blocked_memoriesWf (s : State) {i : Instr} {x2 : Verdict} :
    (s.blocked i x2).memoriesWf = s.memoriesWf := by
  unfold State.blocked
  (repeat' split) <;> simp [*]

@[simp] theorem settleTo_memoriesWf {i : Instr} {s e : State} {checks : List Verdict} {pc : Word}
    (h : s.memoriesWf = true) (he : e.memoriesWf = true) : outMemoriesWf (settleTo i s checks e pc) = true := by
  unfold settleTo
  split <;> simp [h, he]

@[simp] theorem settle_memoriesWf {i : Instr} {s e : State} {checks : List Verdict}
    (h : s.memoriesWf = true) (he : e.memoriesWf = true) : outMemoriesWf (settle i s checks e) = true :=
  settleTo_memoriesWf h he

@[simp] theorem State.restoreFrame_memoriesWf (s : State) : s.restoreFrame.memoriesWf = s.memoriesWf := rfl

end Sys2Proof.Machine
end

section
/-!
Memory and the stores stay canonical: scalar, branch, system and vector instructions, and translation (R78-R101,
R130-R150, R322-R324).
-/

namespace Sys2Proof.Machine

@[simp] theorem execAlu_memoriesWf {i : Instr} {l : Nat} {f : Word → Word → Word} {d a b : BitVec 5} {x y : Bool}
    {s : State} (h : s.memoriesWf = true) :
    outMemoriesWf (execAlu i l f d a b x y s) = true := by simp [execAlu, h]

@[simp] theorem execUnary_memoriesWf {i : Instr} {f : Word → Word} {d a : BitVec 5} {x : Bool}
    {s : State} (h : s.memoriesWf = true) :
    outMemoriesWf (execUnary i f d a x s) = true := by simp [execUnary, h]

@[simp] theorem execImm_memoriesWf {i : Instr} {l : Nat} {f : Word → Word → Word} {d a : BitVec 5} {v : Word}
    {s : State} (h : s.memoriesWf = true) :
    outMemoriesWf (execImm i l f d a v s) = true := by simp [execImm, h]

theorem execSel_memoriesWf {d a b : BitVec 5} {x y : Bool} {s : State} (h : s.memoriesWf = true) :
    outMemoriesWf (execSel d a b x y s) = true := by simp [execSel, h]

theorem execAddpc_memoriesWf {d : BitVec 5} {i : Imm 16} {s : State} (h : s.memoriesWf = true) :
    outMemoriesWf (execAddpc d i s) = true := by simp [execAddpc, h]

@[simp] theorem State.lastBr_memoriesWf (s : State) : s.lastBr.memoriesWf = s.memoriesWf := rfl

@[simp] theorem execBranch_memoriesWf {i : Instr} {p : Imm 21} {checks : List Verdict}
    {taken : Bool} (effect s : State) (h0 : effect.memoriesWf = true) (h1 : s.memoriesWf = true) :
    outMemoriesWf (execBranch i p checks taken effect s) = true := by simp [execBranch, h0, h1]

theorem execJ_memoriesWf {p : Imm 21} (s : State) : outMemoriesWf (execJ p s) = s.memoriesWf := rfl

theorem execCall_memoriesWf {p : Imm 21} {s : State} (h : s.memoriesWf = true) :
    outMemoriesWf (execCall p s) = true := by simp [execCall, h]

@[simp] theorem execBranchOn_memoriesWf {i : Instr} {p : Imm 21} {a : BitVec 5} {taken : Bool}
    {s : State} (h : s.memoriesWf = true) :
    outMemoriesWf (execBranchOn i p a taken s) = true := by simp [execBranchOn, h]

theorem execBknone_memoriesWf {p : Imm 21} {s : State} (h : s.memoriesWf = true) :
    outMemoriesWf (execBknone p s) = true := by simp [execBknone, h]

theorem execBkany_memoriesWf {p : Imm 21} {s : State} (h : s.memoriesWf = true) :
    outMemoriesWf (execBkany p s) = true := by simp [execBkany, h]

theorem execBkall_memoriesWf {p : Imm 21} {s : State} (h : s.memoriesWf = true) :
    outMemoriesWf (execBkall p s) = true := by simp [execBkall, h]

theorem execLoop_memoriesWf {a : BitVec 5} {p : Imm 21} {s : State} (h : s.memoriesWf = true) :
    outMemoriesWf (execLoop a p s) = true := by simp [execLoop, h]

theorem execJr_memoriesWf {a : BitVec 5} {x : Bool} {s : State} (h : s.memoriesWf = true) :
    outMemoriesWf (execJr a x s) = true := by simp [execJr, h]

theorem execCallr_memoriesWf {a : BitVec 5} {x : Bool} {s : State} (h : s.memoriesWf = true) :
    outMemoriesWf (execCallr a x s) = true := by simp [execCallr, h]

theorem execNop_memoriesWf (s : State) : outMemoriesWf (execNop s) = s.memoriesWf := rfl

@[simp] theorem State.putZ_memoriesWf (s : State) {n : Nat} {v : Lane} : (s.putZ n v).memoriesWf = s.memoriesWf := rfl

@[simp] theorem State.setZpend_memoriesWf (s : State) {n c : Nat} : (s.setZpend n c).memoriesWf = s.memoriesWf := rfl

theorem execZset_memoriesWf {d a : BitVec 5} {x : Bool} {s : State} (h : s.memoriesWf = true) :
    outMemoriesWf (execZset d a x s) = true := by simp [execZset, h]

theorem execZsetW_memoriesWf {d a : BitVec 5} {x : Bool} {s : State} (h : s.memoriesWf = true) :
    outMemoriesWf (execZsetW d a x s) = true := by simp [execZsetW, h]

theorem execZget_memoriesWf {d a : BitVec 5} {s : State} (h : s.memoriesWf = true) :
    outMemoriesWf (execZget d a s) = true := by simp [execZget, h]

theorem execZpend_memoriesWf {d a : BitVec 5} {s : State} (h : s.memoriesWf = true) :
    outMemoriesWf (execZpend d a s) = true := by simp [execZpend, h]

theorem execSyscall_memoriesWf (s : State) : outMemoriesWf (execSyscall s) = s.memoriesWf := by simp [execSyscall]

theorem execBrk_memoriesWf (s : State) : outMemoriesWf (execBrk s) = s.memoriesWf := by simp [execBrk]

@[simp] theorem State.rettTraps_memoriesWf (s : State) : s.rettTraps.memoriesWf = s.memoriesWf := rfl

theorem execRett_memoriesWf (s : State) : outMemoriesWf (execRett s) = s.memoriesWf := by
  unfold execRett
  (repeat' split) <;> simp [*]

@[simp] theorem State.setIe_memoriesWf (s : State) {v : Nat} : (s.setIe v).memoriesWf = s.memoriesWf := rfl

theorem execIen_memoriesWf {s : State} (h : s.memoriesWf = true) :
    outMemoriesWf (execIen s) = true := by simp [execIen, h]

theorem execIdis_memoriesWf {s : State} (h : s.memoriesWf = true) :
    outMemoriesWf (execIdis s) = true := by simp [execIdis, h]

theorem execWfi_memoriesWf {s : State} (h : s.memoriesWf = true) :
    outMemoriesWf (execWfi s) = true := by simp [execWfi, h]

@[simp] theorem State.spendDelay_memoriesWf (s : State) : s.spendDelay.memoriesWf = s.memoriesWf := rfl

@[simp] theorem settleV_memoriesWf {i : Instr} {l : BitVec 2} (s : State)
    {checks : List Verdict} (effect : State) (h0 : s.memoriesWf = true) (h1 : effect.memoriesWf = true) :
    outMemoriesWf (settleV i l s checks effect) = true := by simp [settleV, h0, h1]

@[simp] theorem State.vresult_memoriesWf (s : State) {lat off : Nat} {lanes : Word} {data : List Lane} :
    (s.vresult lat off lanes data).memoriesWf = s.memoriesWf := rfl

@[simp] theorem State.vlanes_memoriesWf (s : State) {lat d : Nat} {f : Nat → Lane} :
    (s.vlanes lat d f).memoriesWf = s.memoriesWf := rfl

@[simp] theorem execLanes2_memoriesWf {i : Instr} {lat : Nat} {f : Lane → Lane → Lane} {d a b : BitVec 6}
    {x y : Bool} {l : BitVec 2} {s : State} (h : s.memoriesWf = true) :
    outMemoriesWf (execLanes2 i lat f d a b x y l s) = true := by simp [execLanes2, h]

@[simp] theorem execLanes3_memoriesWf {i : Instr} {lat : Nat} {f : Lane → Lane → Lane → Lane} {d a b : BitVec 6}
    {x y : Bool} {l : BitVec 2} {s : State} (h : s.memoriesWf = true) :
    outMemoriesWf (execLanes3 i lat f d a b x y l s) = true := by simp [execLanes3, h]

@[simp] theorem execLanes1_memoriesWf {i : Instr} {lat : Nat} {f : Lane → Lane} {d a : BitVec 6} {x : Bool}
    {l : BitVec 2} {s : State} (h : s.memoriesWf = true) :
    outMemoriesWf (execLanes1 i lat f d a x l s) = true := by simp [execLanes1, h]

@[simp] theorem State.updateBase_memoriesWf (s : State) {m : MemArg} {sc : Scale} :
    (s.updateBase m sc).memoriesWf = s.memoriesWf := by
  unfold State.updateBase
  (repeat' split) <;> simp [*]

@[simp] theorem execConv_memoriesWf {i : Instr} {f : Nat → Lane → Lane} {d a : BitVec 6} {fl : Bool} {m : BitVec 3}
    {x : Bool} {l : BitVec 2} {s : State} (h : s.memoriesWf = true) :
    outMemoriesWf (execConv i f d a fl m x l s) = true := by simp [execConv, h]

@[simp] theorem execReduce_memoriesWf {i : Instr} {lat : Nat} {f : Lane → Lane → Lane} {ident : Lane}
    {d a : BitVec 6} {x : Bool} {l : BitVec 2} {s : State} (h : s.memoriesWf = true) :
    outMemoriesWf (execReduce i lat f ident d a x l s) = true := by simp [execReduce, h]

@[simp] theorem execMove_memoriesWf {i : Instr} {src : Nat → Option Nat} {d a : BitVec 6} {x : Bool} {l : BitVec 2}
    {s : State} (h : s.memoriesWf = true) :
    outMemoriesWf (execMove i src d a x l s) = true := by simp [execMove, h]

@[simp] theorem execMoveBy_memoriesWf {i : Instr} {src : List Lane → Nat → Option Nat} {lanes : Word}
    {d a b : BitVec 6} {x y : Bool} {l : BitVec 2} {s : State} (h : s.memoriesWf = true) :
    outMemoriesWf (execMoveBy i src lanes d a b x y l s) = true := by simp [execMoveBy, h]

@[simp] theorem execMerge_memoriesWf {i : Instr} {src : Nat → Bool × Nat} {d a b : BitVec 6} {x y : Bool}
    {l : BitVec 2} {s : State} (h : s.memoriesWf = true) :
    outMemoriesWf (execMerge i src d a b x y l s) = true := by simp [execMerge, h]

theorem execVexpand_memoriesWf {d a b : BitVec 6} {x y : Bool} {l : BitVec 2} {s : State} (h : s.memoriesWf = true) :
    outMemoriesWf (execVexpand d a b x y l s) = true := by simp [execVexpand, h]

theorem execVsplat_memoriesWf {d g : BitVec 6} {x : Bool} {l : BitVec 2} {s : State} (h : s.memoriesWf = true) :
    outMemoriesWf (execVsplat d g x l s) = true := by simp [execVsplat, h]

theorem execVins_memoriesWf {d g n : BitVec 6} {x : Bool} {l : BitVec 2} {s : State} (h : s.memoriesWf = true) :
    outMemoriesWf (execVins d g n x l s) = true := by simp [execVins, h]

@[simp] theorem State.vectorToReg_memoriesWf (s : State) {lat r : Nat} {v : Word} :
    (s.vectorToReg lat r v).memoriesWf = s.memoriesWf := by simp [State.vectorToReg]

theorem execVext_memoriesWf {g a n : BitVec 6} {x : Bool} {l : BitVec 2} {s : State} (h : s.memoriesWf = true) :
    outMemoriesWf (execVext g a n x l s) = true := by simp [execVext, h]

theorem execViota_memoriesWf {d : BitVec 6} {l : BitVec 2} {s : State} (h : s.memoriesWf = true) :
    outMemoriesWf (execViota d l s) = true := by simp [execViota, h]

theorem execVmaskrd_memoriesWf {g : BitVec 6} {l : BitVec 2} {s : State} (h : s.memoriesWf = true) :
    outMemoriesWf (execVmaskrd g l s) = true := by simp [execVmaskrd, h]

@[simp] theorem State.setMask_memoriesWf (s : State) {msp i : Nat} {v : Word} :
    (s.setMask msp i v).memoriesWf = s.memoriesWf := rfl

theorem execMpush_memoriesWf {a : BitVec 6} {x : Bool} {l : BitVec 2} {s : State} (h : s.memoriesWf = true) :
    outMemoriesWf (execMpush a x l s) = true := by simp [execMpush, h]

theorem execMinv_memoriesWf {l : BitVec 2} {s : State} (h : s.memoriesWf = true) :
    outMemoriesWf (execMinv l s) = true := by simp [execMinv, h]

theorem execMpop_memoriesWf {l : BitVec 2} {s : State} (h : s.memoriesWf = true) :
    outMemoriesWf (execMpop l s) = true := by simp [execMpop, h]

theorem execVmaskwr_memoriesWf {g : BitVec 6} {x : Bool} {l : BitVec 2} {s : State} (h : s.memoriesWf = true) :
    outMemoriesWf (execVmaskwr g x l s) = true := by simp [execVmaskwr, h]

@[simp] theorem State.joinVc_memoriesWf (s : State) {d : Nat} {c : List Nat} :
    (s.joinVc d c).memoriesWf = s.memoriesWf := by simp [State.joinVc]

@[simp] theorem State.raiseMax_memoriesWf (s : State) {h : Nat} {c : List Nat} :
    (s.raiseMax h c).memoriesWf = s.memoriesWf := rfl

@[simp] theorem State.joinHomes_memoriesWf (s : State) {pas : List Nat} :
    (s.joinHomes pas).memoriesWf = s.memoriesWf := by simp [State.joinHomes]

@[simp] theorem State.marksWrite_memoriesWf (s : State) {d : Nat} :
    (s.marksWrite d).memoriesWf = s.memoriesWf := by simp [State.marksWrite]

@[simp] theorem State.writeEntry_memoriesWf {s : State} {die e : Nat} {w0 : Word} (h : s.memoriesWf = true) :
    (s.writeEntry die e w0).memoriesWf = true := by
  simp only [State.writeEntry, State.memoriesWf_mk]
  exact memoriesOk_with (Memory.writeLE_wf _ _ _ (State.mem_wf h)) (by simp [h])

@[simp] theorem State.walk_memoriesWf {s : State} {va : Word} {acc : Access} {system : Bool} (h : s.memoriesWf = true) :
    (s.walk va acc system).1.memoriesWf = true := by
  unfold State.walk
  split
  · simp [h]
  · simp [h]

end Sys2Proof.Machine
end

section
/-!
Memory and the stores stay canonical: the memory system: requests, stamps, windows and what a write does to the
stores (R107, R252-R257, R321).
-/

namespace Sys2Proof.Machine

theorem Cell.withStore_memoriesOk {m b : Memory} {c : Cell} {st : Nat} (h : memoriesOk m c = true)
    (hb : Memory.wf b = true) : memoriesOk m (c.withStore st b) = true := by
  obtain ⟨hm, h0, h1, h2⟩ := memoriesOk_iff.1 h
  rw [memoriesOk_iff]
  unfold Cell.withStore
  split
  · exact ⟨hm, hb, h1, h2⟩
  · exact ⟨hm, h0, hb, h2⟩
  · exact ⟨hm, h0, h1, hb⟩

@[simp] theorem Cell.putStore_memoriesOk {m : Memory} {c : Cell} {st off : Nat} {bs : List Byte}
    (h : memoriesOk m c = true) : memoriesOk m (c.putStore st off bs) = true := by
  have hw : memoriesOk m (c.withStore st (Sparse.setRun (c.store st) off bs)) = true :=
    Cell.withStore_memoriesOk h (Sparse.setRun_wf off bs (Cell.store_wf h))
  simp [Cell.putStore, h, hw]

@[simp] theorem Cell.perform_memoriesOk {m : Memory} {c : Cell} {p : Posted} (h : memoriesOk m c = true) :
    memoriesOk m (c.perform p) = true :=
  foldl_keepsCell h fun _ _ hd => Cell.putStore_memoriesOk hd

@[simp] theorem State.askPort_memoriesWf (s : State) {st : Nat} {parts : List (Nat × List Byte)}
    {row : Option Reply} :
    (s.askPort st parts row).memoriesWf = s.memoriesWf := rfl

@[simp] theorem State.grantCore_memoriesWf {s : State} {st clk : Nat} (h : s.memoriesWf = true) :
    (s.grantCore st clk).memoriesWf = true :=
  foldl_keepsCell h fun _ _ hd => Cell.perform_memoriesOk hd

@[simp] theorem State.setStorePort_memoriesWf (s : State) {st : Nat} {p : StorePort} :
    (s.setStorePort st p).memoriesWf = s.memoriesWf := rfl

@[simp] theorem State.takePorts_memoriesWf (s : State) {sts : List Nat} :
    (s.takePorts sts).memoriesWf = s.memoriesWf :=
  foldl_memoriesWf _ _ _ fun _ _ => rfl

@[simp] theorem State.refusePorts_memoriesWf (s : State) {who : Nat} {sts : List Nat} :
    (s.refusePorts who sts).memoriesWf = s.memoriesWf := by simp [State.refusePorts]

@[simp] theorem State.endPort_memoriesWf {s : State} {ticks : Bool} {st : Nat} (h : s.memoriesWf = true) :
    (s.endPort ticks st).memoriesWf = true := by
  unfold State.endPort
  dsimp only
  split
  · split <;> split <;> simp [h]
  · split <;> simp [h]

@[simp] theorem State.storeLoad_memoriesWf (s : State) {lat st off n : Nat} {t : Target} {scalar acq : Bool} :
    (s.storeLoad lat st off n t scalar acq).memoriesWf = s.memoriesWf := by
  unfold State.storeLoad
  (repeat' split) <;> simp [*]

@[simp] theorem State.corePut_memoriesWf (s : State) {st : Nat} {parts : List (Nat × List Byte)} {n : Nat} :
    (s.corePut st parts n).memoriesWf = s.memoriesWf := rfl

@[simp] theorem State.storeWrite_memoriesWf {s : State} {st off : Nat} {bs : List Byte} (h : s.memoriesWf = true) :
    (s.storeWrite st off bs).memoriesWf = true := by
  simp [State.storeWrite, h]

@[simp] theorem State.sendAs_memoriesWf (s : State) {d : Nat} {src : Who} {op : ReqOp} {va : Word} {p : Option Page}
    {pa : Nat} {dest : Dest} {acq : Bool} :
    (s.sendAs d src op va p pa dest acq).memoriesWf = s.memoriesWf := by simp [State.sendAs]

@[simp] theorem State.send_memoriesWf (s : State) {src : Who} {op : ReqOp} {va : Word} {p : Option Page} {pa : Nat}
    {dest : Dest} {acq : Bool} :
    (s.send src op va p pa dest acq).memoriesWf = s.memoriesWf := by simp [State.send]

@[simp] theorem State.farRead_memoriesWf (s : State) {va : Word} {p : Page} {n : Nat} :
    (s.farRead va p n).1.memoriesWf = s.memoriesWf := by
  unfold State.farRead
  (repeat' split) <;> simp [*]

@[simp] theorem State.farAnswer_memoriesWf (s : State) {id : Nat} {bs : List Byte} {bad : Bool} :
    (s.farAnswer id bs bad).memoriesWf = s.memoriesWf := rfl

@[simp] theorem State.reach_memoriesWf {s : State} {va : Word} {acc : Access} {system : Bool}
    (h : s.memoriesWf = true) :
    (s.reach va acc system).1.memoriesWf = true := by
  have hw := State.walk_memoriesWf (va := va) (acc := acc) (system := system) h
  unfold State.reach
  split
  · exact h
  · split
    · exact h
    · split
      · exact memoriesWf_of_fst ‹_› hw
      · split <;> exact memoriesWf_of_fst ‹_› hw

@[simp] theorem State.readLines_memoriesWf (s : State) {rs : List (Nat × Nat)} :
    (s.readLines rs).1.memoriesWf = s.memoriesWf := by simp [State.readLines]

@[simp] theorem State.traceLost_memoriesWf (s : State) : s.traceLost.memoriesWf = s.memoriesWf := rfl

@[simp] theorem State.traceSlot_memoriesWf {s : State} {va : Word} {ws : List Word} (h : s.memoriesWf = true) :
    (s.traceSlot va ws).1.memoriesWf = true := by
  unfold State.traceSlot
  split <;> simp [memoriesWf_of_fst ‹_› (State.reach_memoriesWf h)]

@[simp] theorem State.traceSlots_memoriesWf {s : State} {at' : Nat} {l : List (List Word)} (h : s.memoriesWf = true) :
    (s.traceSlots at' l).1.memoriesWf = true := by
  induction l generalizing s at' with
  | nil => exact h
  | cons ws r ih =>
    unfold State.traceSlots
    dsimp only
    split
    · exact ih (memoriesWf_of_fst ‹_› (State.traceSlot_memoriesWf h))
    · exact memoriesWf_of_fst ‹_› (State.traceSlot_memoriesWf h)

@[simp] theorem State.record_memoriesWf {s : State} {ws : List Word} {capture : Bool} (h : s.memoriesWf = true) :
    (s.record ws capture).memoriesWf = true := by
  unfold State.record
  dsimp only
  split
  · exact h
  · split
    · simp [h]
    · split
      · simp [memoriesWf_of_fst ‹_› (State.traceSlots_memoriesWf h)]
      · simp [h]

@[simp] theorem State.emit_memoriesWf (s : State) {type : Nat} {src : Who} {w2 w3 : Word} (h : s.memoriesWf = true) :
    (s.emit type src w2 w3).memoriesWf = true := by simp [State.emit, h]

@[simp] theorem State.capture_memoriesWf (s : State) {src : Who} {dest : Nat}
    {bs : List Byte} (h : s.memoriesWf = true) :
    (s.capture src dest bs).memoriesWf = true := by simp [State.capture, h]

@[simp] theorem State.traceRead_memoriesWf {s : State} {at' n : Nat} (h : s.memoriesWf = true) :
    (s.traceRead at' n).1.memoriesWf = true := by
  unfold State.traceRead
  dsimp only
  split
  · exact h
  · split <;> simp [memoriesWf_of_fst ‹_› (State.reach_memoriesWf h)]

@[simp] theorem State.traceReads_memoriesWf {s : State} {at' n : Nat} (h : s.memoriesWf = true) :
    (s.traceReads at' n).1.memoriesWf = true := by
  induction n generalizing s at' with
  | zero => exact h
  | succ k ih =>
    have hread := State.traceRead_memoriesWf (at' := at') (n := 16) h
    unfold State.traceReads
    split
    · have hrest := ih (at' := at' + 16) (memoriesWf_of_fst ‹_› hread)
      split
      · exact memoriesWf_of_fst ‹_› hrest
      · exact hrest
    · exact hread

@[simp] theorem State.nextCapture_memoriesWf {s : State} {at' n : Nat} (h : s.memoriesWf = true) :
    (s.nextCapture at' n).1.memoriesWf = true := by
  induction n generalizing s at' with
  | zero => exact h
  | succ fuel ih =>
    have hhead := State.traceReads_memoriesWf (at' := at') (n := 2) h
    unfold State.nextCapture
    split
    · exact memoriesWf_of_fst ‹_› hhead
    · exact memoriesWf_of_fst ‹_› hhead
    · have ht := memoriesWf_of_fst ‹_› hhead
      dsimp only
      split
      · split <;> exact memoriesWf_of_fst ‹_› (State.traceReads_memoriesWf ht)
      · exact ih ht
      · exact ih ht

@[simp] theorem State.replay_memoriesWf {s : State} {dest n : Nat} (h : s.memoriesWf = true) :
    (s.replay dest n).1.memoriesWf = true := by
  unfold State.replay
  dsimp only
  split
  · exact memoriesWf_of_fst ‹_› (State.nextCapture_memoriesWf h)
  · exact h
  · split <;> exact h

@[simp] theorem State.replyBytes_memoriesWf (s : State) {dest : Dest} {bs : List Byte} :
    (s.replyBytes dest bs).memoriesWf = s.memoriesWf := rfl

@[simp] theorem State.emptyDest_memoriesWf (s : State) {x1 : Dest} : (s.emptyDest x1).memoriesWf = s.memoriesWf := by
  unfold State.emptyDest
  (repeat' split) <;> simp [*]

@[simp] theorem settleReplay_memoriesWf {i : Instr} {s : State} {pre checks : List Verdict} {dest : Dest} {n : Nat}
    {base effect : State} (h : s.memoriesWf = true) (hb : base.memoriesWf = true) (he : effect.memoriesWf = true) :
    outMemoriesWf (settleReplay i s pre checks dest n base effect) = true := by
  unfold settleReplay
  split
  · split
    · split
      · simp [hb]
      · simp [memoriesWf_of_fst ‹_› (State.replay_memoriesWf h)]
    · simp [h]
  · exact settle_memoriesWf h he

end Sys2Proof.Machine
end

section
/-!
Memory and the stores stay canonical: instructions on memory, atomics and values attached to addresses (R103-R119).
-/

namespace Sys2Proof.Machine

@[simp] theorem State.sendContrib_memoriesWf (s : State) {src : Who} {va : Word} {p : Page} {c : Contrib} :
    (s.sendContrib src va p c).memoriesWf = s.memoriesWf := by simp [State.sendContrib]

@[simp] theorem State.sendStore_memoriesWf (s : State) {src : Who} {va : Word} {p : Page} {bs : List Byte} :
    (s.sendStore src va p bs).memoriesWf = s.memoriesWf := by simp [State.sendStore]

@[simp] theorem State.windowOver_memoriesWf (s : State) : s.windowOver.memoriesWf = s.memoriesWf := rfl

@[simp] theorem State.sendWindow_memoriesWf (s : State) {op : ReqOp} {va : Word} {acq : Bool} :
    (s.sendWindow op va acq).memoriesWf = s.memoriesWf := rfl

@[simp] theorem execWindow_memoriesWf {i : Instr} {s : State} {checks : List Verdict} {op : ReqOp} {va : Word}
    {acq : Bool}
    {finish : List Byte → List Lane → State → State} (h : s.memoriesWf = true)
    (hf : ∀ bs ls, (finish bs ls s).memoriesWf = true) :
    outMemoriesWf (execWindow i s checks op va acq finish) = true := by
  unfold execWindow
  split
  · simp [h, hf]
  · simp [h]
  · simp [h]
  · split <;> simp [h]

@[simp] theorem execLoad_memoriesWf {i : Instr} {n : Nat} {d : BitVec 5} {m : MemArg} {od : Option Ord}
    {s : State} (h : s.memoriesWf = true) :
    outMemoriesWf (execLoad i n d m od s) = true := by simp [execLoad, h]

@[simp] theorem execStore_memoriesWf {i : Instr} {n : Nat} {d : BitVec 5} {m : MemArg} {od : Option Ord}
    {s : State} (h : s.memoriesWf = true) :
    outMemoriesWf (execStore i n d m od s) = true := by simp [execStore, h]

theorem execVld_memoriesWf {d : BitVec 5} {m : MemArg} {od : Option Ord} {s : State} (h : s.memoriesWf = true) :
    outMemoriesWf (execVld d m od s) = true := by simp [execVld, h]

@[simp] theorem State.vstSpan_memoriesWf (s : State) {src : Who} {va k : Word} {v : List Lane} {sp : Span} :
    (s.vstSpan src va k v sp).memoriesWf = s.memoriesWf := by simp [State.vstSpan]

theorem execVst_memoriesWf {d : BitVec 5} {m : MemArg} {od : Option Ord} {s : State} (h : s.memoriesWf = true) :
    outMemoriesWf (execVst d m od s) = true := by simp [execVst, h]

@[simp] theorem State.addRow_memoriesWf (s : State) {q : Nat} {row : OqRow} :
    (s.addRow q row).memoriesWf = s.memoriesWf := rfl

@[simp] theorem State.reserveRow_memoriesWf (s : State) {q parts fmt geo lslot : Nat} :
    (s.reserveRow q parts fmt geo lslot).memoriesWf = s.memoriesWf := rfl

@[simp] theorem State.storeRow_memoriesWf (s : State) {q st off : Nat} {acq : Bool} :
    (s.storeRow q st off acq).memoriesWf = s.memoriesWf := rfl

@[simp] theorem execOqld_memoriesWf {d : BitVec 5} {m : MemArg} {od : Option Ord} {s : State}
    (h : s.memoriesWf = true) :
    outMemoriesWf (execOqld d m od s) = true := by
  unfold execOqld
  dsimp only
  split
  · simp [h]
  · split
    · simp [h]
    · split
      · simp [h]
      · split
        · split
          · split
            · simp [h]
            · simp [memoriesWf_of_fst ‹_› (State.replay_memoriesWf h)]
          · simp [h]
        · simp [h]

@[simp] theorem execAtomic_memoriesWf {i : Instr} {fn size : Nat} {d a b : BitVec 5} {x y : Bool} {od : Option Ord}
    {s : State} (h : s.memoriesWf = true) :
    outMemoriesWf (execAtomic i fn size d a b x y od s) = true := by simp [execAtomic, h]

@[simp] theorem execCompare_memoriesWf {i : Instr} {size : Nat} {d a b : BitVec 5} {x y : Bool} {od : Option Ord}
    {s : State} (h : s.memoriesWf = true) :
    outMemoriesWf (execCompare i size d a b x y od s) = true := by simp [execCompare, h]

@[simp] theorem State.vatOver_memoriesWf (s : State) : s.vatOver.memoriesWf = s.memoriesWf := rfl

@[simp] theorem execVatReplay_memoriesWf {i : Instr} {dsts : List Nat} {s : State} (h : s.memoriesWf = true) :
    outMemoriesWf (execVatReplay i dsts s) = true := by
  unfold execVatReplay
  dsimp only
  split
  · refine settle_memoriesWf h (List.foldlRecOn (motive := fun x : State × Bool => x.1.memoriesWf = true) _ _ h ?_)
    intro x hx d _
    split
    · split <;> simp [memoriesWf_of_fst ‹_› (State.replay_memoriesWf hx)]
    · exact hx
  · simp [h]

@[simp] theorem execVat_memoriesWf {i : Instr} {op : VatOp} {a : BitVec 5} {x : Bool} {val : Word} {srcs : List Source}
    {dsts : List Nat} {od : Option Ord} {finish : VatReply → State → State} {s : State} (h : s.memoriesWf = true)
    (hf : ∀ r, (finish r s).memoriesWf = true) :
    outMemoriesWf (execVat i op a x val srcs dsts od finish s) = true := by
  unfold execVat
  dsimp only
  split
  · simp [h, hf]
  · simp [h]
  · simp [h]
  · simp [h]
  · split
    · split <;> simp [h]
    · simp [h]

@[simp] theorem State.vatResult_memoriesWf {s : State} {r : Nat} {v : Word} (h : s.memoriesWf = true) :
    (s.vatResult r v).memoriesWf = true := by simp [State.vatResult, h]

theorem execVpush_memoriesWf {d a b : BitVec 5} {x y : Bool} {od : Option Ord} {s : State} (h : s.memoriesWf = true) :
    outMemoriesWf (execVpush d a b x y od s) = true := by simp [execVpush, h]

theorem execVpop_memoriesWf {d a : BitVec 5} {x : Bool} {od : Option Ord} {s : State} (h : s.memoriesWf = true) :
    outMemoriesWf (execVpop d a x od s) = true := by simp [execVpop, h]

@[simp] theorem execVpopnb_memoriesWf {d a b : BitVec 5} {x : Bool} {od : Option Ord} {s : State}
    (h : s.memoriesWf = true) : outMemoriesWf (execVpopnb d a b x od s) = true :=
  execVat_memoriesWf h fun _ => State.vatResult_memoriesWf (State.vatResult_memoriesWf h)

@[simp] theorem execRoute_memoriesWf {i : Instr} {op : ReqOp} {d a : BitVec 5} {srcs : List Source}
    {od : Option Ord} {s : State} (h : s.memoriesWf = true) :
    outMemoriesWf (execRoute i op d a srcs od s) = true := by simp [execRoute, h]

end Sys2Proof.Machine
end

section
/-!
Memory and the stores stay canonical: tiles, rings, allocators, barriers, cues and fences (R121-R128, R214-R219).
-/

namespace Sys2Proof.Machine

@[simp] theorem Cell.setTileState_memoriesWf (c : Cell) {h v : Nat} {m : Memory} :
    memoriesOk m (c.setTileState h v) = memoriesOk m c := rfl

@[simp] theorem Cell.dropReady_memoriesWf (c : Cell) {h : Nat} {m : Memory} :
    memoriesOk m (c.dropReady h) = memoriesOk m c := rfl

@[simp] theorem State.pendReady_memoriesWf (s : State) {h : Nat} {ring : Bool} :
    (s.pendReady h ring).memoriesWf = s.memoriesWf := rfl

theorem execTnew_memoriesWf {a b : BitVec 5} {x y : Bool} {s : State} (h : s.memoriesWf = true) :
    outMemoriesWf (execTnew a b x y s) = true := by simp [execTnew, h]

theorem execTfree_memoriesWf {a : BitVec 5} {x : Bool} {s : State} (h : s.memoriesWf = true) :
    outMemoriesWf (execTfree a x s) = true := by simp [execTfree, h]

theorem execTstate_memoriesWf {d a : BitVec 5} {x : Bool} {s : State} (h : s.memoriesWf = true) :
    outMemoriesWf (execTstate d a x s) = true := by simp [execTstate, h]

theorem execTsetrdy_memoriesWf {a : BitVec 5} {x : Bool} {s : State} (h : s.memoriesWf = true) :
    outMemoriesWf (execTsetrdy a x s) = true := by simp [execTsetrdy, h]

theorem execTwait_memoriesWf {a b : BitVec 5} {x y : Bool} {s : State} (h : s.memoriesWf = true) :
    outMemoriesWf (execTwait a b x y s) = true := by simp [execTwait, h]

@[simp] theorem State.setRing_memoriesWf (s : State) {n : Nat} {r : Ring} :
    (s.setRing n r).memoriesWf = s.memoriesWf := rfl

theorem execRgset_memoriesWf {n b : BitVec 5} {y : Bool} {s : State} (h : s.memoriesWf = true) :
    outMemoriesWf (execRgset n b y s) = true := by simp [execRgset, h]

theorem execRwfill_memoriesWf {d n : BitVec 5} {s : State} (h : s.memoriesWf = true) :
    outMemoriesWf (execRwfill d n s) = true := by simp [execRwfill, h]

theorem execRwfree_memoriesWf {d n : BitVec 5} {s : State} (h : s.memoriesWf = true) :
    outMemoriesWf (execRwfree d n s) = true := by simp [execRwfree, h]

@[simp] theorem State.claim_memoriesWf (s : State) {n : Nat} {producer : Bool} :
    (s.claim n producer).memoriesWf = s.memoriesWf := by simp [State.claim]

theorem execRclaim_memoriesWf {d n p : BitVec 5} {s : State} (h : s.memoriesWf = true) :
    outMemoriesWf (execRclaim d n p s) = true := by simp [execRclaim, h]

theorem execRrelease_memoriesWf {n p : BitVec 5} {s : State} (h : s.memoriesWf = true) :
    outMemoriesWf (execRrelease n p s) = true := by simp [execRrelease, h]

@[simp] theorem State.setAlloc_memoriesWf (s : State) {st : Nat} {a : Alloc} :
    (s.setAlloc st a).memoriesWf = s.memoriesWf := rfl

theorem execAbump_memoriesWf {d p b : BitVec 5} {y : Bool} {s : State} (h : s.memoriesWf = true) :
    outMemoriesWf (execAbump d p b y s) = true := by simp [execAbump, h]

theorem execAmark_memoriesWf {d p : BitVec 5} {s : State} (h : s.memoriesWf = true) :
    outMemoriesWf (execAmark d p s) = true := by simp [execAmark, h]

theorem execArelmark_memoriesWf {p b : BitVec 5} {y : Bool} {s : State} (h : s.memoriesWf = true) :
    outMemoriesWf (execArelmark p b y s) = true := by simp [execArelmark, h]

theorem execAring_memoriesWf {d p b : BitVec 5} {y : Bool} {s : State} (h : s.memoriesWf = true) :
    outMemoriesWf (execAring d p b y s) = true := by simp [execAring, h]

theorem execAfree_memoriesWf {p b : BitVec 5} {y : Bool} {s : State} (h : s.memoriesWf = true) :
    outMemoriesWf (execAfree p b y s) = true := by simp [execAfree, h]

theorem execAstate_memoriesWf {d p w : BitVec 5} {s : State} (h : s.memoriesWf = true) :
    outMemoriesWf (execAstate d p w s) = true := by simp [execAstate, h]

@[simp] theorem State.bump_memoriesWf (s : State) {n : Nat} {v : Lane} {agent : Nat} :
    (s.bump n v agent).memoriesWf = s.memoriesWf := rfl

@[simp] theorem State.waitRecord_memoriesWf {s : State} {who : Who} {n agent : Nat} {term : Option Nat}
    {clk : Nat} (h : s.memoriesWf = true) :
    (s.waitRecord who n agent term clk).memoriesWf = true := by simp [State.waitRecord, h]

theorem execQadd_memoriesWf {a : BitVec 5} {n : BitVec 6} {s : State} (h : s.memoriesWf = true) :
    outMemoriesWf (execQadd a n s) = true := by simp [execQadd, h]

theorem execQread_memoriesWf {d : BitVec 5} {n : BitVec 6} {s : State} (h : s.memoriesWf = true) :
    outMemoriesWf (execQread d n s) = true := by simp [execQread, h]

theorem execQwait_memoriesWf {a : BitVec 5} {n : BitVec 6} {s : State} (h : s.memoriesWf = true) :
    outMemoriesWf (execQwait a n s) = true := by simp [execQwait, h]

theorem execQterm_memoriesWf {a : BitVec 5} {t : BitVec 4} {s : State} (h : s.memoriesWf = true) :
    outMemoriesWf (execQterm a t s) = true := by simp [execQterm, h]

@[simp] theorem State.acquireAll_memoriesWf (s : State) : s.acquireAll.memoriesWf = s.memoriesWf := rfl

@[simp] theorem State.acquireSide_memoriesWf (s : State) {od : Option Ord} :
    (s.acquireSide od).memoriesWf = s.memoriesWf := by simp [State.acquireSide]

@[simp] theorem State.noteFence_memoriesWf (s : State) :
    s.noteFence.memoriesWf = s.memoriesWf := by simp [State.noteFence]

@[simp] theorem State.addFence_memoriesWf (s : State) {scope : Nat} :
    (s.addFence scope).memoriesWf = s.memoriesWf := rfl

theorem execFence_memoriesWf {od : Option Ord} {s : State} (h : s.memoriesWf = true) :
    outMemoriesWf (execFence od s) = true := by simp [execFence, h]

@[simp] theorem State.arrive_memoriesWf (s : State) {n rank : Nat} :
    (s.arrive n rank).memoriesWf = s.memoriesWf := rfl

@[simp] theorem State.endRank_memoriesWf (s : State) {rank : Nat} : (s.endRank rank).memoriesWf = s.memoriesWf := rfl

theorem execBararr_memoriesWf {d n : BitVec 5} {od : Option Ord} {s : State} (h : s.memoriesWf = true) :
    outMemoriesWf (execBararr d n od s) = true := by simp [execBararr, h]

theorem execBarwait_memoriesWf {n b : BitVec 5} {y : Bool} {od : Option Ord} {s : State} (h : s.memoriesWf = true) :
    outMemoriesWf (execBarwait n b y od s) = true := by simp [execBarwait, h]

theorem execBarsync_memoriesWf {n : BitVec 5} {od : Option Ord} {s : State} (h : s.memoriesWf = true) :
    outMemoriesWf (execBarsync n od s) = true := by
  unfold execBarsync
  dsimp only
  (repeat' split) <;> simp [*]

theorem execLend_memoriesWf {k p : BitVec 5} {s : State} (h : s.memoriesWf = true) :
    outMemoriesWf (execLend k p s) = true := by simp [execLend, h]

@[simp] theorem State.tableOver_memoriesWf (s : State) : s.tableOver.memoriesWf = s.memoriesWf := rfl

@[simp] theorem State.askTable_memoriesWf (s : State) {va : Word} {slot : Nat} {sps : List Span} :
    (s.askTable va slot sps).memoriesWf = s.memoriesWf := by simp [State.askTable]

@[simp] theorem execLatld_memoriesWf {a p : BitVec 5} {x : Bool} {s : State} (h : s.memoriesWf = true) :
    outMemoriesWf (execLatld a p x s) = true := by
  unfold execLatld
  dsimp only
  split
  · split
    · simp [h]
    · split
      · simp [h]
      · split
        · simp [h]
        · simp [h, State.tableOver]
  · split <;> simp [h]

end Sys2Proof.Machine
end

section
/-!
Memory and the stores stay canonical: engine queues and the shared work of the engines (R152-R160, R176).
-/

namespace Sys2Proof.Machine

@[simp] theorem State.setQueue_memoriesWf (s : State) {q : Nat} {v : Queue} :
    (s.setQueue q v).memoriesWf = s.memoriesWf := rfl

@[simp] theorem State.readers_memoriesWf (s : State) {up : Bool} {ws : List EWord} :
    (s.readers up ws).memoriesWf = s.memoriesWf := by
  induction ws generalizing s with
  | nil => rfl
  | cons w ws ih =>
    unfold State.readers
    rw [ih]
    split <;> rfl

@[simp] theorem State.enqueue_memoriesWf (s : State) {q : Nat} {ws : List EWord} :
    (s.enqueue q ws).memoriesWf = s.memoriesWf := by simp [State.enqueue]

theorem execEnqw_memoriesWf {q : BitVec 5} {w : BitVec 16} {s : State} (h : s.memoriesWf = true) :
    outMemoriesWf (execEnqw q w s) = true := by simp [execEnqw, h]

theorem execEnqg_memoriesWf {q : BitVec 5} {n : BitVec 2} {a : BitVec 5} {s : State} (h : s.memoriesWf = true) :
    outMemoriesWf (execEnqg q n a s) = true := by simp [execEnqg, h]

theorem execEnqm_memoriesWf {q n : BitVec 5} {p : BitVec 2} {a : BitVec 5} {s : State} (h : s.memoriesWf = true) :
    outMemoriesWf (execEnqm q n p a s) = true := by simp [execEnqm, h]

@[simp] theorem State.dropTail_memoriesWf (s : State) {q : Nat} :
    (s.dropTail q).memoriesWf = s.memoriesWf := by simp [State.dropTail]

@[simp] theorem State.discardFrames_memoriesWf (s : State) :
    s.discardFrames.memoriesWf = s.memoriesWf := by simp [State.discardFrames]

@[simp] theorem State.endCell_memoriesWf (s : State) : s.endCell.memoriesWf = s.memoriesWf := by simp [State.endCell]

theorem execEndI_memoriesWf {s : State} (h : s.memoriesWf = true) :
    outMemoriesWf (execEndI s) = true := by simp [execEndI, h]

@[simp] theorem State.chargeEng_memoriesWf (s : State) {slot enq : Nat} {c : Cause} {pc : Word} :
    (s.chargeEng slot enq c pc).memoriesWf = s.memoriesWf := rfl

@[simp] theorem State.chargeEntry_memoriesWf (s : State) {e : Entry} {c : Cause} :
    (s.chargeEntry e c).memoriesWf = s.memoriesWf := rfl

@[simp] theorem Cell.moveTile_memoriesWf (c : Cell) {h from' to' : Nat} {m : Memory} :
    memoriesOk m (c.moveTile h from' to') = memoriesOk m c := by simp [Cell.moveTile]

@[simp] theorem Cell.releaseTiles_memoriesWf (c : Cell) {e : Entry} {m : Memory} :
    memoriesOk m (c.releaseTiles e) = memoriesOk m c := by simp [Cell.releaseTiles]

@[simp] theorem Cell.completeTiles_memoriesWf (c : Cell) {e : Entry} {m : Memory} :
    memoriesOk m (c.completeTiles e) = memoriesOk m c := by simp [Cell.completeTiles]

@[simp] theorem State.withdraw_memoriesWf (s : State) {cidx epoch : Nat} :
    (s.withdraw cidx epoch).memoriesWf = s.memoriesWf := by
  unfold State.withdraw
  (repeat' split) <;> simp [*]

@[simp] theorem Cell.popHeld_memoriesWf (c : Cell) {e : Entry} {isB : Bool} {m : Memory} :
    memoriesOk m (c.popHeld e isB) = memoriesOk m c := by simp [Cell.popHeld]

@[simp] theorem Cell.popRows_memoriesWf (c : Cell) {e : Entry} {m : Memory} :
    memoriesOk m (c.popRows e) = memoriesOk m c := by
  unfold Cell.popRows
  (repeat' split) <;> simp [*]

@[simp] theorem State.release_memoriesWf (s : State) {e : Entry} :
    (s.release e).memoriesWf = s.memoriesWf := by simp [State.release]

@[simp] theorem State.resetQueue_memoriesWf (s : State) {q : Nat} : (s.resetQueue q).memoriesWf = s.memoriesWf := by
  simp [State.resetQueue, -List.foldl_append]

@[simp] theorem State.forgetReads_memoriesWf (s : State) {q seq : Nat} :
    (s.forgetReads q seq).memoriesWf = s.memoriesWf := rfl

@[simp] theorem State.dropWords_memoriesWf (s : State) {q n : Nat} :
    (s.dropWords q n).memoriesWf = s.memoriesWf := by simp [State.dropWords]

@[simp] theorem State.discardEntry_memoriesWf (s : State) {q : Nat} {atWord : Bool} {seq : Nat} :
    (s.discardEntry q atWord seq).memoriesWf = s.memoriesWf := by simp [State.discardEntry]

@[simp] theorem State.faultQueue_memoriesWf (s0 : State) {q : Nat} {f : QFault} :
    (s0.faultQueue q f).memoriesWf = s0.memoriesWf := by simp [State.faultQueue]

@[simp] theorem State.faultEntry_memoriesWf (s : State) {e : Entry} {cause : Nat} {addr : Word} :
    (s.faultEntry e cause addr).memoriesWf = s.memoriesWf := by simp [State.faultEntry]

@[simp] theorem State.faultSeq_memoriesWf (s : State) {q seq cause : Nat} {addr : Word} :
    (s.faultSeq q seq cause addr).memoriesWf = s.memoriesWf := by
  unfold State.faultSeq
  (repeat' split) <;> simp [*]

@[simp] theorem State.wordFault_memoriesWf (s : State) {cause : Nat} {addr : Word} :
    (s.wordFault cause addr).memoriesWf = s.memoriesWf := by simp [State.wordFault]

@[simp] theorem State.takeWord_memoriesWf (s : State) :
    s.takeWord.memoriesWf = s.memoriesWf := by simp [State.takeWord]

@[simp] theorem State.setStack_memoriesWf (s : State) {st : List Word} :
    (s.setStack st).memoriesWf = s.memoriesWf := rfl

@[simp] theorem State.chargeWord_memoriesWf (s : State) {c : Cause} : (s.chargeWord c).memoriesWf = s.memoriesWf := by
  unfold State.chargeWord
  (repeat' split) <;> simp [*]

@[simp] theorem stackWord_memoriesWf {need : Nat} {argOk : Bool} {f : List Word → List Word}
    {s : State} (h : s.memoriesWf = true) :
    outMemoriesWf (stackWord need argOk f s) = true := by
  unfold stackWord
  (repeat' split) <;> simp [*]

@[simp] theorem binaryWord_memoriesWf {f : Word → Word → Word} {s : State} (h : s.memoriesWf = true) :
    outMemoriesWf (binaryWord f s) = true := by simp [binaryWord, h]

@[simp] theorem State.started_memoriesWf (s : State) {e : Entry} :
    (s.started e).memoriesWf = s.memoriesWf := by simp [State.started]

@[simp] theorem State.keepChained_memoriesWf (s : State) {e : Entry} :
    (s.keepChained e).memoriesWf = s.memoriesWf := by simp [State.keepChained]

@[simp] theorem State.termRecord_memoriesWf {s : State} {who : Who} {t clk : Nat} (h : s.memoriesWf = true) :
    (s.termRecord who t clk).memoriesWf = true := by simp [State.termRecord, h]

@[simp] theorem State.gateRecord_memoriesWf {s : State} {who : Who} (h : s.memoriesWf = true) :
    (s.gateRecord who).memoriesWf = true := by
  unfold State.gateRecord
  dsimp only
  (repeat' split) <;> simp [*]

@[simp] theorem State.wordWaits_memoriesWf (s : State) {c : Cause} :
    (s.wordWaits c).memoriesWf = s.memoriesWf := by simp [State.wordWaits]

@[simp] theorem State.pastGate_memoriesWf {s : State} {i : Instr} (h : s.memoriesWf = true) :
    (s.pastGate i).memoriesWf = true := by simp [State.pastGate, h]

theorem terminalStart_memoriesWf {i : Instr} {pops : Nat} {argOk : Bool} {start : State → Entry → Begin} {s : State}
    (h : s.memoriesWf = true) (hs : ∀ e, (start s e).memoriesWf = true) :
    (terminalStart i pops argOk start s).memoriesWf = true := by
  have hb := hs (s.newEntry i)
  unfold terminalStart
  dsimp only
  split
  · simp [h]
  · split
    · simp [h]
    · split
      · simp [h]
      · split
        · rename_i e
          rw [e] at hb
          simpa using hb
        · rename_i e
          rw [e] at hb
          simpa using hb
        · simp [h]

theorem terminalWord_memoriesWf {i : Instr} {pops : Nat} {argOk : Bool} {start : State → Entry → Begin} {s : State}
    (h : s.memoriesWf = true) (hs : ∀ t e, t.memoriesWf = true → (start t e).memoriesWf = true) :
    outMemoriesWf (terminalWord i pops argOk start s) = true := by
  have ht : (s.pastGate i).memoriesWf = true := State.pastGate_memoriesWf h
  unfold terminalWord
  dsimp only
  split
  · simp [ht]
  · exact terminalStart_memoriesWf ht fun e => hs _ e ht

@[simp] theorem beginDone_memoriesWf {s : State} {e : Entry} (h : s.memoriesWf = true) :
    (beginDone s e).memoriesWf = true := h

@[simp] theorem beginWaiting_memoriesWf {s : State} {e : Entry} (h : s.memoriesWf = true) :
    (beginWaiting s e).memoriesWf = true := h

theorem execControlNop_memoriesWf {s : State} (h : s.memoriesWf = true) : outMemoriesWf (execControlNop s) = true :=
  terminalWord_memoriesWf h fun _ _ => beginDone_memoriesWf

theorem execFenceq_memoriesWf {s : State} (h : s.memoriesWf = true) : outMemoriesWf (execFenceq s) = true :=
  terminalWord_memoriesWf h fun _ _ ht => by simp [ht]

theorem execGate_memoriesWf {t : BitVec 4} {s : State} (h : s.memoriesWf = true) :
    outMemoriesWf (execGate t s) = true :=
  terminalWord_memoriesWf h fun _ _ => beginWaiting_memoriesWf

theorem execQgate_memoriesWf {n : BitVec 6} {s : State} (h : s.memoriesWf = true) :
    outMemoriesWf (execQgate n s) = true :=
  terminalWord_memoriesWf h fun _ _ ht => by simp [ht]

theorem execSignal_memoriesWf {n : BitVec 6} {s : State} (h : s.memoriesWf = true) :
    outMemoriesWf (execSignal n s) = true :=
  terminalWord_memoriesWf h fun _ _ => beginWaiting_memoriesWf

theorem execMark_memoriesWf {s : State} (h : s.memoriesWf = true) : outMemoriesWf (execMark s) = true :=
  terminalWord_memoriesWf h fun _ _ ht => by simp [ht]

theorem execCapstart_memoriesWf {c : BitVec 3} {s : State} (h : s.memoriesWf = true) :
    outMemoriesWf (execCapstart c s) = true := terminalWord_memoriesWf h fun _ _ => beginWaiting_memoriesWf

theorem execCapstop_memoriesWf {c : BitVec 3} {s : State} (h : s.memoriesWf = true) :
    outMemoriesWf (execCapstop c s) = true := terminalWord_memoriesWf h fun _ _ => beginWaiting_memoriesWf

@[simp] theorem State.putEntry_memoriesWf (s : State) {e : Entry} : (s.putEntry e).memoriesWf = s.memoriesWf := rfl

@[simp] theorem begins_memoriesWf {cs : List Check} {k : Begin} (hk : k.memoriesWf = true) :
    (begins cs k).memoriesWf = true := by
  unfold begins
  split
  · rfl
  · exact hk

@[simp] theorem State.takeTiles_memoriesWf (s : State) {e : Entry} {hs : List (Nat × Role)} :
    (s.takeTiles e hs).1.memoriesWf = s.memoriesWf := by
  induction hs generalizing s e with
  | nil => rfl
  | cons x hs ih =>
    unfold State.takeTiles
    split <;> simp [ih]

theorem startWith_memoriesWf {s : State} {e : Entry} {hs : List (Nat × Role)} {k : State → Entry → Begin}
    (h : s.memoriesWf = true) (hk : ∀ t e, t.memoriesWf = true → (k t e).memoriesWf = true) :
    (startWith s e hs k).memoriesWf = true := by
  unfold startWith
  split
  · exact hk _ _ (by simp [h])
  · exact h

@[simp] theorem State.countMem_memoriesWf (s : State) {pa n : Nat} :
    (s.countMem pa n).memoriesWf = s.memoriesWf := rfl

@[simp] theorem State.enginePage_memoriesWf {s : State} {e : Entry} {va : Word} {acc : Access}
    (h : s.memoriesWf = true) :
    (s.enginePage e va acc).1.memoriesWf = true := by
  have hr : ((s.count 21 1).reach va acc s.system).1.memoriesWf = true := State.reach_memoriesWf h
  unfold State.enginePage
  dsimp only
  split
  · exact h
  · split
    · split <;> exact memoriesWf_of_fst ‹_› hr
    · split
      · exact h
      · split
        · split <;> exact memoriesWf_of_fst ‹_› hr
        · exact h

@[simp] theorem State.dropReplies_memoriesWf (s : State) {e : Entry} :
    (s.dropReplies e).memoriesWf = s.memoriesWf := rfl

@[simp] theorem State.noteReads_memoriesWf (s : State) {e : Entry} :
    (s.noteReads e).memoriesWf = s.memoriesWf := by simp [State.noteReads]

@[simp] theorem State.readsDone_memoriesWf (s : State) {e : Entry} : (s.readsDone e).memoriesWf = s.memoriesWf := rfl

@[simp] theorem State.readPage_memoriesWf (s : State) {e : Entry} {va : Word} {p : Page} {n : Nat} :
    (s.readPage e va p n).1.memoriesWf = s.memoriesWf := by
  unfold State.readPage
  dsimp only
  split
  · split
    · split <;> rfl
    · split <;> simp
  · split
    · simp
    · split
      · rfl
      · have hl := s.readLines_memoriesWf (rs := [(p.pa (va56 va), n)])
        split <;> rename_i heq <;> rw [heq] at hl <;> simpa using hl

@[simp] theorem State.fetch_memoriesWf {s : State} {e : Entry} {va : Word} {n : Nat} {ok : Page → Bool}
    (h : s.memoriesWf = true) : (s.fetch e va n ok).1.memoriesWf = true := by
  unfold State.fetch
  split
  · have ht := memoriesWf_of_fst ‹_› (State.enginePage_memoriesWf h)
    split
    · exact ht
    · rename_i p _ _
      have hr := (State.readPage_memoriesWf _ (e := e) (va := va) (p := p) (n := min n (p.room va))).trans ht
      dsimp only
      split
      · have hu := memoriesWf_of_fst ‹_› hr
        split
        · exact hu
        · split
          · have hv := memoriesWf_of_fst ‹_› (State.enginePage_memoriesWf hu)
            split
            · exact hv
            · split
              · exact memoriesWf_of_fst ‹_› ((State.readPage_memoriesWf _).trans hv)
              · exact (State.readPage_memoriesWf _).trans hv
          · exact memoriesWf_of_fst ‹_› (State.enginePage_memoriesWf hu)
          · exact memoriesWf_of_fst ‹_› (State.enginePage_memoriesWf hu)
      · exact hr
  · exact memoriesWf_of_fst ‹_› (State.enginePage_memoriesWf h)
  · exact memoriesWf_of_fst ‹_› (State.enginePage_memoriesWf h)

theorem gather_memoriesWf {ι β : Type} {f : State → ι → State × Got β} {s : State} {l : List ι}
    (h : s.memoriesWf = true)
    (hf : ∀ t i, t.memoriesWf = true → (f t i).1.memoriesWf = true) : (gather f s l).1.memoriesWf = true := by
  induction l generalizing s with
  | nil => exact h
  | cons i is ih =>
    unfold gather
    split
    · have ht := memoriesWf_of_fst ‹_› (hf s i h)
      split
      · exact memoriesWf_of_fst ‹_› (ih ht)
      · exact ih ht
    · have ht := memoriesWf_of_fst ‹_› (hf s i h)
      split
      · exact ht
      · exact memoriesWf_of_fst ‹_› (ih ht)
    · exact memoriesWf_of_fst ‹_› (hf s i h)

@[simp] theorem State.readStore_memoriesWf (s : State) {st off n : Nat} :
    (s.readStore st off n).1.memoriesWf = s.memoriesWf := by
  unfold State.readStore
  dsimp only
  (repeat' split) <;> simp [*]

@[simp] theorem State.writePage_memoriesWf (s : State) {e : Entry} {va : Word} {p : Page} {bs : List Byte} :
    (s.writePage e va p bs).memoriesWf = s.memoriesWf := by simp [State.writePage]

@[simp] theorem State.stalls_memoriesWf (s : State) {e : Entry} {c : Cause} :
    (s.stalls e c).memoriesWf = s.memoriesWf := rfl

@[simp] theorem State.advances_memoriesWf (s : State) {e : Entry} : (s.advances e).memoriesWf = s.memoriesWf := rfl

@[simp] theorem State.breaks_memoriesWf (s : State) {e : Entry} {code : Nat} {addr : Word} :
    (s.breaks e code addr).memoriesWf = s.memoriesWf := by simp [State.breaks]

end Sys2Proof.Machine
end

section
/-!
Memory and the stores stay canonical: the matrix engine (R156, R164-R176).
-/

namespace Sys2Proof.Machine

@[simp] theorem State.readWords_memoriesWf (s : State) {w n : Nat} :
    (s.readWords w n).1.memoriesWf = s.memoriesWf := by
  unfold State.readWords
  dsimp only
  (repeat' split) <;> simp [*]

@[simp] theorem State.clearAccs_memoriesWf (s : State) {e : Entry} {zero : Bool} {fill : Nat} :
    (s.clearAccs e zero fill).memoriesWf = s.memoriesWf := by simp [State.clearAccs]

theorem Rd.read_memoriesWf {r : Rd} {va : Word} {n : Nat} (h : r.s.memoriesWf = true) :
    (r.read va n).1.s.memoriesWf = true := by
  unfold Rd.read
  split
  · exact h
  · split <;> simp [memoriesWf_of_fst ‹_› (State.fetch_memoriesWf h)]

theorem Rd.next_memoriesWf {α β : Type} {x : Rd × Got α} {f : Rd → α → Rd × Got β} (hx : x.1.s.memoriesWf = true)
    (hf : ∀ r a, r.s.memoriesWf = true → (f r a).1.s.memoriesWf = true) : (Rd.next x f).1.s.memoriesWf = true := by
  obtain ⟨r, a | c | ⟨c, a⟩⟩ := x
  · exact hf r a hx
  · exact hx
  · exact hx

theorem Rd.check_memoriesWf {β : Type} {r : Rd} {cs : List Check} {k : Rd × Got β} (h : r.s.memoriesWf = true)
    (hk : k.1.s.memoriesWf = true) : (r.check cs k).1.s.memoriesWf = true := by
  unfold Rd.check
  split
  · exact h
  · exact hk

theorem Rd.record_memoriesWf {r : Rd} {addr : Word} {limit : Nat} {other : Option Nat} (h : r.s.memoriesWf = true) :
    (r.record addr limit other).1.s.memoriesWf = true := by
  refine Rd.next_memoriesWf (Rd.read_memoriesWf h) fun t _ ht => Rd.check_memoriesWf ht ?_
  split
  · exact Rd.next_memoriesWf (Rd.read_memoriesWf ht) fun _ _ hu => Rd.check_memoriesWf hu hu
  · exact ht

theorem Rd.records_memoriesWf {fa : Option Nat} {r : Rd} {ws : List Word} (h : r.s.memoriesWf = true) :
    (Rd.records fa r ws).1.s.memoriesWf = true := by
  induction ws generalizing r with
  | nil => exact h
  | cons w ws ih =>
    unfold Rd.records
    split
    · exact Rd.next_memoriesWf (ih h) fun _ _ ht => ht
    · exact Rd.next_memoriesWf (Rd.record_memoriesWf h) fun _ _ ht => Rd.next_memoriesWf (ih ht) fun _ _ hu => hu

theorem Rd.segments_memoriesWf {r : Rd} {addr : Word} (h : r.s.memoriesWf = true) :
    (r.segments addr).1.s.memoriesWf = true :=
  Rd.next_memoriesWf (Rd.read_memoriesWf h) fun _ _ ht => Rd.check_memoriesWf ht
    (Rd.next_memoriesWf (Rd.read_memoriesWf ht) fun _ _ hu => Rd.check_memoriesWf hu
      (Rd.next_memoriesWf (Rd.read_memoriesWf hu) fun _ _ hv => Rd.check_memoriesWf hv hv))

theorem Rd.setup_memoriesWf {r : Rd} (h : r.s.memoriesWf = true) : r.setup.1.s.memoriesWf = true := by
  refine Rd.next_memoriesWf ?_ fun t _ ht => Rd.next_memoriesWf ?_ fun u _ hu => ?_
  · split
    · exact Rd.next_memoriesWf (Rd.record_memoriesWf h) fun _ _ ht => ht
    · exact h
  · split
    · exact Rd.next_memoriesWf (Rd.read_memoriesWf ht) fun _ _ hu => Rd.check_memoriesWf hu
        (Rd.next_memoriesWf (Rd.records_memoriesWf hu) fun _ _ hv => hv)
    · split
      · exact Rd.next_memoriesWf (Rd.record_memoriesWf ht) fun _ _ hu => hu
      · exact ht
  · split
    · exact Rd.next_memoriesWf (Rd.segments_memoriesWf hu) fun _ _ hv => hv
    · exact hu

@[simp] theorem State.passReady_memoriesWf (s : State) {e : Entry} {fill : Nat} :
    (s.passReady e fill).1.memoriesWf = s.memoriesWf := by simp [State.passReady]

@[simp] theorem State.readBypass_memoriesWf (s : State) {e : Entry} :
    (s.readBypass e).1.memoriesWf = s.memoriesWf := by simp [State.readBypass]

theorem beginPass_memoriesWf {s : State} {e : Entry} (h : s.memoriesWf = true) :
    (beginPass s e).memoriesWf = true := by
  refine begins_memoriesWf (startWith_memoriesWf h fun t e1 ht => begins_memoriesWf ?_)
  split
  · exact h
  · split
    · exact h
    · split
      · rfl
      · exact memoriesWf_of_fst ‹_› ((State.readBypass_memoriesWf _).trans h)
      · dsimp only
        split
        · exact ht
        · exact (State.passReady_memoriesWf _).trans ht

theorem beginDrain_memoriesWf {c d : Bool} {m : Nat} {s : State} {e : Entry} (h : s.memoriesWf = true) :
    (beginDrain c d m s e).memoriesWf = true := by
  refine begins_memoriesWf (startWith_memoriesWf h fun t e1 ht => begins_memoriesWf ?_)
  split
  · exact h
  · cases d <;> exact ht

theorem beginZero_memoriesWf {s : State} {e : Entry} (h : s.memoriesWf = true) : (beginZero s e).memoriesWf = true :=
  begins_memoriesWf (by split <;> exact h)

theorem execMpass_memoriesWf {g f z : Bool} {b a : BitVec 2} {s : State} (h : s.memoriesWf = true) :
    outMemoriesWf (execMpass g f z b a s) = true := terminalWord_memoriesWf h fun _ _ => beginPass_memoriesWf

theorem execMpassseg_memoriesWf {g f z : Bool} {b a : BitVec 2} {s : State} (h : s.memoriesWf = true) :
    outMemoriesWf (execMpassseg g f z b a s) = true := terminalWord_memoriesWf h fun _ _ => beginPass_memoriesWf

theorem execMpassgrp_memoriesWf {z : Bool} {b a : BitVec 2} {s : State} (h : s.memoriesWf = true) :
    outMemoriesWf (execMpassgrp z b a s) = true := terminalWord_memoriesWf h fun _ _ => beginPass_memoriesWf

theorem execMdrain_memoriesWf {c d : Bool} {m : BitVec 2} {s : State} (h : s.memoriesWf = true) :
    outMemoriesWf (execMdrain c d m s) = true := terminalWord_memoriesWf h fun _ _ => beginDrain_memoriesWf

theorem execMzero_memoriesWf {s : State} (h : s.memoriesWf = true) : outMemoriesWf (execMzero s) = true :=
  terminalWord_memoriesWf h fun _ _ => beginZero_memoriesWf

theorem beginMatrix_memoriesWf {s : State} {e : Entry} (h : s.memoriesWf = true) :
    (beginMatrix s e).memoriesWf = true := by
  unfold beginMatrix
  split
  · exact beginDrain_memoriesWf h
  · exact beginZero_memoriesWf h
  · exact beginPass_memoriesWf h

theorem execChainedEntryStart_memoriesWf {s : State} (h : s.memoriesWf = true) :
    outMemoriesWf (execChainedEntryStart s) = true := by
  unfold execChainedEntryStart
  split
  · exact h
  · rename_i e es _
    have hb := beginMatrix_memoriesWf (e := e) h
    split
    · exact h
    · split <;> rename_i heq <;> rw [heq] at hb <;> simp_all

theorem tileLine_memoriesWf {e : Entry} {f : Nat × Nat × Nat} {desc : Word} {k lines k0 nv r : Nat} {s : State}
    (h : s.memoriesWf = true) : (tileLine e f desc k lines k0 nv s r).1.memoriesWf = true := by
  have hread : ∀ {t : State} {st off n}, t.memoriesWf = true → (t.readStore st off n).1.memoriesWf = true := by
    simp
  unfold tileLine
  dsimp only
  split
  · split <;> exact memoriesWf_of_fst ‹_› (hread h)
  · split
    · have ht := memoriesWf_of_fst ‹_› (hread h)
      split <;> exact memoriesWf_of_fst ‹_› (hread ht)
    · exact memoriesWf_of_fst ‹_› (hread h)
    · exact memoriesWf_of_fst ‹_› (hread h)

@[simp] theorem State.readScale_memoriesWf {s : State} {va : Word} {b : Block} (h : s.memoriesWf = true) :
    (s.readScale va b).1.memoriesWf = true := by
  have hl : (s.readLines [(b.slot, 96)]).1.memoriesWf = true := by simp [h]
  unfold State.readScale
  split
  · exact memoriesWf_of_fst ‹_› hl
  · split <;> simp [memoriesWf_of_fst ‹_› hl]

@[simp] theorem State.readBlock_memoriesWf {s : State} {e : Entry} {va : Word} {f : Nat × Nat × Nat} {off n : Nat}
    (h : s.memoriesWf = true) : (s.readBlock e va f off n).1.memoriesWf = true := by
  unfold State.readBlock
  split
  · have ht := memoriesWf_of_fst ‹_› (State.enginePage_memoriesWf h)
    dsimp only
    split
    · exact ht
    · split
      · have hu := memoriesWf_of_fst ‹_› ((State.readPage_memoriesWf _).trans ht)
        split <;> exact memoriesWf_of_fst ‹_› (State.readScale_memoriesWf hu)
      · exact memoriesWf_of_fst ‹_› ((State.readPage_memoriesWf _).trans ht)
      · exact memoriesWf_of_fst ‹_› ((State.readPage_memoriesWf _).trans ht)
  · exact memoriesWf_of_fst ‹_› (State.enginePage_memoriesWf h)
  · exact memoriesWf_of_fst ‹_› (State.enginePage_memoriesWf h)

theorem recordLine_memoriesWf {e : Entry} {x : LRec} {k0 nv r : Nat} {s : State} (h : s.memoriesWf = true) :
    (recordLine e x k0 nv s r).1.memoriesWf = true := by
  unfold recordLine
  split
  · exact h
  · split
    · split <;> exact memoriesWf_of_fst ‹_› (State.fetch_memoriesWf h)
    · split <;> exact memoriesWf_of_fst ‹_› (State.readBlock_memoriesWf h)

theorem State.operandLines_memoriesWf {s : State} {e : Entry} {isB : Bool} {k0 nv : Nat} (h : s.memoriesWf = true) :
    (s.operandLines e isB k0 nv).1.memoriesWf = true := by
  unfold State.operandLines
  dsimp only
  generalize (if isB then (passArg e.op).b else (passArg e.op).a) = place
  split
  · exact gather_memoriesWf h fun _ _ => tileLine_memoriesWf
  · split
    · exact gather_memoriesWf h fun _ _ => recordLine_memoriesWf
    · exact h
  · exact h
  · exact h

@[simp] theorem State.popGroup_memoriesWf (s : State) {e : Entry} {isB : Bool} {next : Nat} :
    (s.popGroup e isB next).memoriesWf = s.memoriesWf := by simp [State.popGroup]

@[simp] theorem State.countChunk_memoriesWf (s : State) {fa fb : Nat} :
    (s.countChunk fa fb).memoriesWf = s.memoriesWf := rfl

@[simp] theorem State.passChunk_memoriesWf {s : State} {e : Entry} (h : s.memoriesWf = true) :
    (s.passChunk e).memoriesWf = true := by
  unfold State.passChunk
  dsimp only
  split
  · split <;> simp [h]
  · split
    · simp [h]
    · split
      · have ht := memoriesWf_of_fst ‹_› (State.operandLines_memoriesWf h)
        split
        · have hu := memoriesWf_of_fst ‹_› (State.operandLines_memoriesWf ht)
          split
          · simp [memoriesWf_of_fst ‹_› ((State.readWords_memoriesWf _).trans hu)]
          · simp [memoriesWf_of_fst ‹_› ((State.readWords_memoriesWf _).trans hu)]
          · have hv := memoriesWf_of_fst ‹_› ((State.readWords_memoriesWf _).trans hu)
            split <;> simp [h, hv]
        · simp [memoriesWf_of_fst ‹_› (State.operandLines_memoriesWf ht)]
        · simp [memoriesWf_of_fst ‹_› (State.operandLines_memoriesWf ht)]
      · simp [memoriesWf_of_fst ‹_› (State.operandLines_memoriesWf h)]
      · simp [memoriesWf_of_fst ‹_› (State.operandLines_memoriesWf h)]

@[simp] theorem State.untake_memoriesWf (s : State) {e : Entry} :
    (s.untake e).1.memoriesWf = s.memoriesWf := by simp [State.untake]

@[simp] theorem State.passReads_memoriesWf {s : State} {e : Entry} (h : s.memoriesWf = true) :
    (s.passReads e).memoriesWf = true := by
  have hr := Rd.setup_memoriesWf (r := { s := s, e := e, i := 0 }) h
  unfold State.passReads
  split <;> rename_i heq <;> rw [heq] at hr
  · simp [hr]
  · simp [hr]
  · dsimp only
    split <;> simp [hr]

@[simp] theorem State.drainRow_memoriesWf {s : State} {e : Entry} {c d : Bool} {m : Nat} (h : s.memoriesWf = true) :
    (s.drainRow e c d m).memoriesWf = true := by
  unfold State.drainRow
  extract_lets i desc off at' wrote
  have hw : wrote.1.memoriesWf = true := by
    simp only [wrote]
    split
    · simp [memoriesWf_of_fst ‹_› ((State.readWords_memoriesWf s).trans h)]
    · exact memoriesWf_of_fst ‹_› ((State.readWords_memoriesWf s).trans h)
    · have ht := memoriesWf_of_fst ‹_› ((State.readWords_memoriesWf s).trans h)
      split
      · exact ht
      · split
        · simp [ht]
        · split
          · exact ht
          · split
            · simp [ht]
            · split
              · simp [ht]
              · split
                · simp [memoriesWf_of_fst ‹_› ((State.readStore_memoriesWf _).trans ht)]
                · exact memoriesWf_of_fst ‹_› ((State.readStore_memoriesWf _).trans ht)
                · exact memoriesWf_of_fst ‹_› ((State.readStore_memoriesWf _).trans ht)
  clear_value wrote
  obtain ⟨t, u | w | ⟨w, a⟩⟩ := wrote
  · have ht : ((t.takePorts (if d then [] else [2])).count 8 1).memoriesWf = true := by simpa using hw
    dsimp only
    split
    · cases c <;> exact ht
    · exact ht
  · simpa using hw
  · simpa using hw

theorem execMatrixChunk_memoriesWf {s : State} (h : s.memoriesWf = true) :
    outMemoriesWf (execMatrixChunk s) = true := by
  unfold execMatrixChunk
  (repeat' split) <;> simp [*]

end Sys2Proof.Machine
end

section
/-!
Memory and the stores stay canonical: the copy engine (R177-R184).
-/

namespace Sys2Proof.Machine

theorem State.side_memoriesWf {s : State} {e : Entry} {p : Place} {pos : Nat} {acc : Access} (h : s.memoriesWf = true) :
    (s.side e p pos acc).1.memoriesWf = true := by
  unfold State.side
  split
  · split <;> exact memoriesWf_of_fst ‹_› (State.enginePage_memoriesWf h)
  · exact h

theorem State.readFrom_memoriesWf {s : State} {e : Entry} {p : Place} {pos n : Nat} {ok : Page → Bool}
    (h : s.memoriesWf = true) : (s.readFrom e p pos n ok).1.memoriesWf = true := by
  unfold State.readFrom
  split
  · exact (State.readStore_memoriesWf _).trans h
  · exact State.fetch_memoriesWf h
  · exact h

theorem State.push_memoriesWf {s : State} {e : Entry} {va : Word} {bs : List Byte} {fmts : List Nat}
    (h : s.memoriesWf = true) : (s.push e va bs fmts).1.memoriesWf = true := by
  unfold State.push
  split
  · exact h
  · split
    · have ht := memoriesWf_of_fst ‹_› (State.enginePage_memoriesWf h)
      dsimp only
      split
      · exact ht
      · split
        · exact ht
        · split
          · exact (State.writePage_memoriesWf _).trans ht
          · split
            · have hu := memoriesWf_of_fst ‹_› (State.enginePage_memoriesWf ht)
              split
              · exact hu
              · split
                · exact hu
                · simp [hu]
            · exact memoriesWf_of_fst ‹_› (State.enginePage_memoriesWf ht)
            · exact memoriesWf_of_fst ‹_› (State.enginePage_memoriesWf ht)
    · exact memoriesWf_of_fst ‹_› (State.enginePage_memoriesWf h)
    · exact memoriesWf_of_fst ‹_› (State.enginePage_memoriesWf h)

theorem State.writeTo_memoriesWf {s : State} {e : Entry} {p : Place} {pos : Nat} {bs : List Byte} {fmts : List Nat}
    (h : s.memoriesWf = true) : (s.writeTo e p pos bs fmts).1.memoriesWf = true := by
  unfold State.writeTo
  split
  · exact State.storeWrite_memoriesWf h
  · exact State.push_memoriesWf h
  · exact h

theorem State.withPorts_memoriesWf {s : State} {e : Entry} {src dst : Place} {k : State → State}
    (h : s.memoriesWf = true)
    (hk : ∀ t, t.memoriesWf = true → (k t).memoriesWf = true) : (s.withPorts e src dst k).memoriesWf = true := by
  unfold State.withPorts
  dsimp only
  split
  · simp [h]
  · split
    · exact hk _ (by simp [h])
    · simp [h]

@[simp] theorem State.moved_memoriesWf (s : State) {e : Entry} {n total bytes event : Nat} :
    (s.moved e n total bytes event).memoriesWf = s.memoriesWf := rfl

theorem State.turn_memoriesWf {s : State} {e : Entry} {total : Nat} {move : State → Entry → State}
    (h : s.memoriesWf = true)
    (hm : ∀ t e, t.memoriesWf = true → (move t e).memoriesWf = true) : (s.turn e total move).memoriesWf = true := by
  unfold State.turn
  dsimp only
  split
  · exact h
  · split
    · exact h
    · split
      · exact h
      · exact hm _ _ h

theorem State.got_memoriesWf {α : Type} {e : Entry} {x : State × Got α} {k : State → α → State}
    (hx : x.1.memoriesWf = true)
    (hk : ∀ t a, t.memoriesWf = true → (k t a).memoriesWf = true) : (State.got e x k).memoriesWf = true := by
  obtain ⟨t, a | c | ⟨c, a⟩⟩ := x
  · exact hk t a hx
  · exact hx
  · exact (State.breaks_memoriesWf t).trans hx

theorem State.checked_memoriesWf {s : State} {e : Entry} {cs : List Check} {k : State} (h : s.memoriesWf = true)
    (hk : k.memoriesWf = true) : (s.checked e cs k).memoriesWf = true := by
  unfold State.checked
  split
  · exact (State.breaks_memoriesWf s).trans h
  · exact hk

theorem State.moveBytes_memoriesWf {s : State} {e : Entry} {total most event : Nat} {copy : Bool}
    (h : s.memoriesWf = true) :
    (s.moveBytes e total most event copy).memoriesWf = true :=
  State.got_memoriesWf (State.side_memoriesWf h) fun _ _ ht =>
    State.got_memoriesWf (State.side_memoriesWf ht) fun _ _ hu =>
    State.checked_memoriesWf hu (State.got_memoriesWf (State.readFrom_memoriesWf hu) fun _ _ hv =>
      State.withPorts_memoriesWf hv fun _ hw => State.got_memoriesWf (State.writeTo_memoriesWf hw) fun x _ hx =>
        (State.moved_memoriesWf x).trans hx)

theorem State.pageAttr_memoriesWf {s : State} {e : Entry} {p : Place} {acc : Access} (h : s.memoriesWf = true) :
    (s.pageAttr e p acc).1.memoriesWf = true := by
  unfold State.pageAttr
  split
  · split
    · exact memoriesWf_of_fst ‹_› (State.enginePage_memoriesWf h)
    · exact memoriesWf_of_fst ‹_› (State.enginePage_memoriesWf h)
    · exact h
  · exact h

theorem State.copyFormats_memoriesWf {s : State} {e : Entry} (h : s.memoriesWf = true) :
    (s.copyFormats e).1.memoriesWf = true := by
  unfold State.copyFormats
  extract_lets mode d v n side
  have hside : side.1.memoriesWf = true := by
    simp only [side]
    split <;> exact State.pageAttr_memoriesWf h
  clear_value side mode
  split
  · exact h
  · obtain ⟨t, a | c | ⟨c, x⟩⟩ := side
    · dsimp -zeta only
      extract_lets other
      have hother : other.1.memoriesWf = true := by
        simp only [other]
        split
        · exact State.pageAttr_memoriesWf hside
        · exact State.pageAttr_memoriesWf hside
        · exact hside
      clear_value other
      obtain ⟨u, b | c | ⟨c, x⟩⟩ := other <;> exact hother
    · exact hside
    · exact hside

theorem beginCopy_memoriesWf {s : State} {e : Entry} (h : s.memoriesWf = true) :
    (beginCopy s e).memoriesWf = true := by
  unfold beginCopy
  dsimp only
  split
  · exact memoriesWf_of_fst ‹_› (State.copyFormats_memoriesWf h)
  · rfl
  · exact begins_memoriesWf (startWith_memoriesWf (memoriesWf_of_fst ‹_› (State.copyFormats_memoriesWf h))
      fun _ _ ht => ht)

theorem execCcopy_memoriesWf {f c : Bool} {r : BitVec 3} {m : BitVec 2} {s : State} (h : s.memoriesWf = true) :
    outMemoriesWf (execCcopy f c r m s) = true := terminalWord_memoriesWf h fun _ _ => beginCopy_memoriesWf

theorem State.readBlocks_memoriesWf {s : State} {e : Entry} {va : Word} {a : Nat × Nat × Nat} {n : Nat}
    (h : s.memoriesWf = true) : (s.readBlocks e va a n).1.memoriesWf = true := by
  induction n generalizing s va with
  | zero => exact h
  | succ n ih =>
    unfold State.readBlocks
    dsimp only
    split
    · have ht := memoriesWf_of_fst ‹_› (State.readBlock_memoriesWf h)
      split
      · exact memoriesWf_of_fst ‹_› (ih ht)
      · exact ih ht
    · exact memoriesWf_of_fst ‹_› (State.readBlock_memoriesWf h)
    · exact memoriesWf_of_fst ‹_› (State.readBlock_memoriesWf h)

theorem State.decodeRange_memoriesWf {s : State} {e : Entry} {src : Place} {pos : Nat} {a : Nat × Nat × Nat} {k n : Nat}
    (h : s.memoriesWf = true) : (s.decodeRange e src pos a k n).1.memoriesWf = true := by
  unfold State.decodeRange
  split
  · dsimp only
    split <;> exact memoriesWf_of_fst ‹_› (State.readBlocks_memoriesWf h)
  · split
    · have ht := memoriesWf_of_fst ‹_› (State.fetch_memoriesWf h)
      split <;> exact ht
    · exact memoriesWf_of_fst ‹_› (State.fetch_memoriesWf h)
    · exact memoriesWf_of_fst ‹_› (State.fetch_memoriesWf h)

theorem State.decodeTurn_memoriesWf {s : State} {e : Entry} {total : Nat} (h : s.memoriesWf = true) :
    (s.decodeTurn e total).memoriesWf = true :=
  State.got_memoriesWf (State.enginePage_memoriesWf h) fun _ _ ht => State.checked_memoriesWf ht
    (State.got_memoriesWf (State.side_memoriesWf ht) fun _ _ hu => State.checked_memoriesWf hu
      (State.got_memoriesWf (State.decodeRange_memoriesWf hu) fun _ _ hv => State.withPorts_memoriesWf hv fun _ hw =>
        State.got_memoriesWf (State.writeTo_memoriesWf hw) fun x _ hx => (State.moved_memoriesWf x).trans hx))

theorem State.slotsFine_memoriesWf {s : State} {bs : List Block} {va : Word} (h : s.memoriesWf = true) :
    (s.slotsFine bs va).1.memoriesWf = true := by
  have hread := (s.readLines_memoriesWf (rs := bs.map fun b => (b.slot, 96))).trans h
  unfold State.slotsFine
  split
  · exact memoriesWf_of_fst ‹_› hread
  · exact (State.joinHomes_memoriesWf _).trans (memoriesWf_of_fst ‹_› hread)

theorem State.encodePiece_memoriesWf {s : State} {e : Entry} {va : Word} {p : Page} {ls : List Lane}
    (h : s.memoriesWf = true) : (s.encodePiece e va p ls).1.memoriesWf = true := by
  unfold State.encodePiece
  dsimp only
  split
  · exact h
  · split
    · exact (State.noteReads_memoriesWf s).trans h
    · split
      · exact memoriesWf_of_fst ‹_› (State.slotsFine_memoriesWf h)
      · exact (State.send_memoriesWf _).trans (memoriesWf_of_fst ‹_› (State.slotsFine_memoriesWf h))

theorem State.encodeTurn_memoriesWf {s : State} {e : Entry} {total : Nat} (h : s.memoriesWf = true) :
    (s.encodeTurn e total).memoriesWf = true := by
  refine State.got_memoriesWf (State.enginePage_memoriesWf h) fun _ _ ht => State.checked_memoriesWf ht
    (State.got_memoriesWf (State.side_memoriesWf ht) fun _ _ hu => State.checked_memoriesWf hu
      (State.got_memoriesWf (State.readFrom_memoriesWf hu) fun _ _ hv => State.withPorts_memoriesWf hv fun w hw =>
        State.got_memoriesWf ?_ fun x _ hx => (State.moved_memoriesWf x).trans hx))
  split
  · exact hw
  · split
    · exact State.encodePiece_memoriesWf hw
    · exact State.push_memoriesWf hw

theorem State.blocksTurn_memoriesWf {s : State} {e : Entry} {total : Nat} (h : s.memoriesWf = true) :
    (s.blocksTurn e total).memoriesWf = true :=
  State.got_memoriesWf (State.enginePage_memoriesWf h) fun _ _ ht => State.checked_memoriesWf ht
    (State.got_memoriesWf (State.readBlocks_memoriesWf ht) fun _ _ hu => State.withPorts_memoriesWf hu fun _ hv =>
      State.got_memoriesWf (State.writeTo_memoriesWf hv) fun _ _ hw => State.got_memoriesWf (State.writeTo_memoriesWf hw)
        fun x _ hx => (State.moved_memoriesWf x).trans hx)

theorem State.gatherFormats_memoriesWf {s : State} {e : Entry} (h : s.memoriesWf = true) :
    (s.gatherFormats e).1.memoriesWf = true := by
  unfold State.gatherFormats
  split
  · exact h
  · split
    · have ht := memoriesWf_of_fst ‹_› (State.pageAttr_memoriesWf h)
      split <;> exact memoriesWf_of_fst ‹_› (State.pageAttr_memoriesWf ht)
    · exact memoriesWf_of_fst ‹_› (State.pageAttr_memoriesWf h)
    · exact memoriesWf_of_fst ‹_› (State.pageAttr_memoriesWf h)

theorem beginGather_memoriesWf {s : State} {e : Entry} (h : s.memoriesWf = true) :
    (beginGather s e).memoriesWf = true := by
  unfold beginGather
  dsimp only
  split
  · exact memoriesWf_of_fst ‹_› (State.gatherFormats_memoriesWf h)
  · rfl
  · exact begins_memoriesWf (startWith_memoriesWf (memoriesWf_of_fst ‹_› (State.gatherFormats_memoriesWf h))
      fun _ _ ht => ht)

theorem execCgather_memoriesWf {c : Bool} {m : BitVec 2} {s : State} (h : s.memoriesWf = true) :
    outMemoriesWf (execCgather c m s) = true := terminalWord_memoriesWf h fun _ _ => beginGather_memoriesWf

theorem State.gatherPart_memoriesWf {s : State} {e : Entry} {i pos n : Nat} (h : s.memoriesWf = true) :
    (s.gatherPart e i pos n).1.memoriesWf = true := by
  unfold State.gatherPart
  split
  · have ht := memoriesWf_of_fst ‹_› (State.fetch_memoriesWf h)
    dsimp only
    split
    · exact ht
    · split
      · exact State.decodeRange_memoriesWf ht
      · split
        · exact State.fetch_memoriesWf (memoriesWf_of_fst ‹_› (State.enginePage_memoriesWf ht))
        · exact memoriesWf_of_fst ‹_› (State.enginePage_memoriesWf ht)
        · exact memoriesWf_of_fst ‹_› (State.enginePage_memoriesWf ht)
  · exact memoriesWf_of_fst ‹_› (State.fetch_memoriesWf h)
  · exact memoriesWf_of_fst ‹_› (State.fetch_memoriesWf h)

theorem State.gatherBytes_memoriesWf {s : State} {e : Entry} {fuel k n : Nat} (h : s.memoriesWf = true) :
    (s.gatherBytes e fuel k n).1.memoriesWf = true := by
  induction fuel generalizing s k n with
  | zero => exact h
  | succ fuel ih =>
    unfold State.gatherBytes
    dsimp only
    split
    · exact h
    · split
      · have ht := memoriesWf_of_fst ‹_› (State.gatherPart_memoriesWf h)
        split
        · exact memoriesWf_of_fst ‹_› (ih ht)
        · exact ih ht
      · exact State.gatherPart_memoriesWf h

theorem State.gatherTurn_memoriesWf {s : State} {e : Entry} {total : Nat} (h : s.memoriesWf = true) :
    (s.gatherTurn e total).memoriesWf = true := by
  refine State.got_memoriesWf (State.side_memoriesWf h) fun t _ ht => State.checked_memoriesWf ht
    (State.got_memoriesWf ?_ fun _ _ hu => State.checked_memoriesWf hu
      (State.got_memoriesWf (State.gatherBytes_memoriesWf hu) fun _ _ hv => State.withPorts_memoriesWf hv fun _ hw =>
        State.got_memoriesWf (State.writeTo_memoriesWf hw) fun x _ hx => (State.moved_memoriesWf x).trans hx))
  split
  · exact State.side_memoriesWf ht
  · exact ht

theorem beginFill_memoriesWf {s : State} {e : Entry} (h : s.memoriesWf = true) : (beginFill s e).memoriesWf = true :=
  begins_memoriesWf (startWith_memoriesWf h fun _ _ ht => ht)

theorem execCfill_memoriesWf {s : State} (h : s.memoriesWf = true) : outMemoriesWf (execCfill s) = true :=
  terminalWord_memoriesWf h fun _ _ => beginFill_memoriesWf

theorem State.fillTurn_memoriesWf {s : State} {e : Entry} {total : Nat} (h : s.memoriesWf = true) :
    (s.fillTurn e total).memoriesWf = true :=
  State.got_memoriesWf (State.side_memoriesWf h) fun _ _ ht => State.checked_memoriesWf ht
    (State.withPorts_memoriesWf ht fun _ hu => State.got_memoriesWf (State.writeTo_memoriesWf hu) fun x _ hx =>
      (State.moved_memoriesWf x).trans hx)

theorem execChint_memoriesWf {s : State} (h : s.memoriesWf = true) : outMemoriesWf (execChint s) = true :=
  terminalWord_memoriesWf h fun _ _ => beginDone_memoriesWf

theorem execCopyTurn_memoriesWf {s : State} (h : s.memoriesWf = true) : outMemoriesWf (execCopyTurn s) = true := by
  unfold execCopyTurn
  split
  · exact h
  · next e _ =>
    extract_lets others c s0
    have hs0 : s0.memoriesWf = true := foldl_keeps h fun t x ht => (t.chargeEntry_memoriesWf).trans ht
    clear_value s0
    split
    · exact hs0
    · split
      · refine State.turn_memoriesWf hs0 fun t e1 ht => ?_
        split
        · exact State.moveBytes_memoriesWf ht
        · exact State.decodeTurn_memoriesWf ht
        · exact State.encodeTurn_memoriesWf ht
        · exact State.blocksTurn_memoriesWf ht
      · exact State.turn_memoriesWf hs0 fun _ _ => State.gatherTurn_memoriesWf
      · exact State.turn_memoriesWf hs0 fun _ _ => State.fillTurn_memoriesWf
      · exact hs0

end Sys2Proof.Machine
end

section
/-!
Memory and the stores stay canonical: the transfer engine and its routing (R185-R189).
-/

namespace Sys2Proof.Machine

theorem beginXwrite_memoriesWf {free : Bool} {s : State} {e : Entry} (h : s.memoriesWf = true) :
    (beginXwrite free s e).memoriesWf = true := begins_memoriesWf (startWith_memoriesWf h fun _ _ ht => ht)

theorem execXwrite_memoriesWf {f : Bool} {s : State} (h : s.memoriesWf = true) :
    outMemoriesWf (execXwrite f s) = true :=
  terminalWord_memoriesWf h fun _ _ => beginXwrite_memoriesWf

theorem beginXread_memoriesWf {s : State} {e : Entry} (h : s.memoriesWf = true) :
    (beginXread s e).memoriesWf = true :=
  begins_memoriesWf (startWith_memoriesWf h fun _ _ ht => ht)

theorem execXread_memoriesWf {s : State} (h : s.memoriesWf = true) : outMemoriesWf (execXread s) = true :=
  terminalWord_memoriesWf h fun _ _ => beginXread_memoriesWf

theorem execXrlinv_memoriesWf {s : State} (h : s.memoriesWf = true) : outMemoriesWf (execXrlinv s) = true :=
  terminalWord_memoriesWf h fun _ _ ht => begins_memoriesWf ht

@[simp] theorem State.forgetList_memoriesWf (s : State) {e : Entry} : (s.forgetList e).memoriesWf = s.memoriesWf := by
  unfold State.forgetList
  (repeat' split) <;> simp [*]

theorem Rd.readLong_memoriesWf {r : Rd} {va : Word} {n fuel : Nat} (h : r.s.memoriesWf = true) :
    (r.readLong va n fuel).1.s.memoriesWf = true := by
  induction fuel generalizing r va n with
  | zero => exact h
  | succ fuel ih =>
    unfold Rd.readLong
    split
    · exact Rd.read_memoriesWf h
    · exact Rd.next_memoriesWf (Rd.read_memoriesWf h) fun _ _ ht => Rd.next_memoriesWf (ih ht) fun _ _ hu => hu

theorem Rd.rankList_memoriesWf {r : Rd} {va : Word} {n : Nat} (h : r.s.memoriesWf = true) :
    (r.rankList va n).1.s.memoriesWf = true := by
  unfold Rd.rankList
  split
  · exact h
  · split
    · exact h
    · exact Rd.next_memoriesWf (Rd.readLong_memoriesWf h) fun _ _ ht => ht

theorem Rd.firing_memoriesWf {r : Rd} (h : r.s.memoriesWf = true) : r.firing.1.s.memoriesWf = true := by
  refine Rd.next_memoriesWf (Rd.read_memoriesWf h) fun _ _ ht => Rd.check_memoriesWf ht
    (Rd.next_memoriesWf (Rd.rankList_memoriesWf ht) fun _ _ hu => Rd.check_memoriesWf hu
      (Rd.next_memoriesWf ?_ fun _ _ hv => Rd.check_memoriesWf hv (Rd.next_memoriesWf ?_ fun _ _ hw => hw)))
  · split
    · exact hu
    · exact Rd.next_memoriesWf (Rd.readLong_memoriesWf hu) fun _ _ hv => hv
  · split
    · exact hv
    · exact Rd.next_memoriesWf (Rd.read_memoriesWf hv) fun _ _ hw => hw

@[simp] theorem State.raise_memoriesWf (s : State) {csr n : Nat} : (s.raise csr n).memoriesWf = s.memoriesWf := rfl

@[simp] theorem State.deferMachine_memoriesWf (s : State) {addr : Word} {kind store dest : Nat} :
    (s.deferMachine addr kind store dest).memoriesWf = s.memoriesWf := rfl

@[simp] theorem State.applyWord_memoriesWf {s : State} {tile : Word} {w : Nat} {add : Bool}
    {v : Lane} (h : s.memoriesWf = true) :
    (s.applyWord tile w add v).memoriesWf = true := by simp [State.applyWord, h]

theorem State.drainHeld_memoriesWf {s : State} {p : Posting} {w fuel : Nat} (h : s.memoriesWf = true) :
    (s.drainHeld p w fuel).1.memoriesWf = true := by
  induction fuel generalizing s p with
  | zero => exact h
  | succ fuel ih =>
    unfold State.drainHeld
    split
    · exact h
    · exact ih (State.applyWord_memoriesWf h)

theorem State.takeContribWord_memoriesWf {s : State} {p : Posting} {rank w : Nat} {add : Bool} {v : Lane}
    (h : s.memoriesWf = true) : (s.takeContribWord p rank w add v).1.memoriesWf = true := by
  unfold State.takeContribWord
  split
  · exact State.applyWord_memoriesWf h
  · split
    · exact State.drainHeld_memoriesWf h
    · exact State.drainHeld_memoriesWf (State.applyWord_memoriesWf h)

theorem State.takeWords_memoriesWf {s : State} {p : Posting} {rank : Nat} {add : Bool} {ws : List (Lane × Nat)}
    (h : s.memoriesWf = true) : (s.takeWords p rank add ws).1.memoriesWf = true := by
  induction ws generalizing s p with
  | nil => exact h
  | cons x ws ih => exact ih (State.takeContribWord_memoriesWf h)

@[simp] theorem State.putPosting_memoriesWf (s : State) {p : Posting} :
    (s.putPosting p).memoriesWf = s.memoriesWf := by simp [State.putPosting]

theorem State.applyContrib_memoriesWf {s : State} {p : Posting} {c : Contrib} (h : s.memoriesWf = true) :
    (s.applyContrib p c).memoriesWf = true := by
  unfold State.applyContrib
  split
  · exact h
  · refine (State.putPosting_memoriesWf _).trans (State.takeWords_memoriesWf ?_)
    split <;> exact h

theorem State.accept_memoriesWf {s : State} {c : Contrib} (h : s.memoriesWf = true) :
    (s.accept c).memoriesWf = true := by
  unfold State.accept
  split
  · exact h
  · exact h
  · exact State.applyContrib_memoriesWf h
  · exact h

theorem State.receive_memoriesWf {s : State} {c : Contrib} (h : s.memoriesWf = true) :
    ∀ t ∈ s.receive c, t.memoriesWf = true := by
  unfold State.receive
  split
  · simp
  · rintro _ ⟨⟩
    exact State.accept_memoriesWf h

theorem State.receiveAll_memoriesWf {s : State} {cs : List Contrib} (h : s.memoriesWf = true) :
    (s.receiveAll cs).memoriesWf = true := foldl_keeps h fun _ _ => State.accept_memoriesWf

@[simp] theorem State.refuseAcc_memoriesWf (s : State) : s.refuseAcc.memoriesWf = s.memoriesWf := rfl

theorem State.arrives_memoriesWf {s : State} {c : Contrib} {k : Option State → State} (h : s.memoriesWf = true)
    (hk : ∀ x : Option State, (∀ t ∈ x, t.memoriesWf = true) → (k x).memoriesWf = true) :
    (s.arrives c k).memoriesWf = true := by
  unfold State.arrives
  split
  · exact h
  · refine hk _ (State.receive_memoriesWf ?_)
    split
    · exact (State.takePorts_memoriesWf s).trans h
    · exact h

theorem execReceptionCueIncrement_memoriesWf {s : State} (h : s.memoriesWf = true) :
    outMemoriesWf (execReceptionCueIncrement s) = true := by
  have hbump : (s.coll.cues.foldl (fun t n => t.bump n 1 14) s).memoriesWf = true := foldl_keeps h fun _ _ ht => ht
  unfold execReceptionCueIncrement
  split
  · exact h
  · exact hbump

theorem execBackPressureRelease_memoriesWf {s : State} (h : s.memoriesWf = true) :
    outMemoriesWf (execBackPressureRelease s) = true := by
  unfold execBackPressureRelease
  (repeat' split) <;> simp [*]

theorem execXcoll_memoriesWf {r : Bool} {s : State} (h : s.memoriesWf = true) :
    outMemoriesWf (execXcoll r s) = true := by
  refine terminalWord_memoriesWf h fun t e ht => begins_memoriesWf ?_
  split <;> exact ht

theorem State.firingReads_memoriesWf {s : State} {e : Entry} (h : s.memoriesWf = true) :
    (s.firingReads e).memoriesWf = true := by
  have hr := Rd.firing_memoriesWf (r := { s := s, e := e, i := 0 }) h
  unfold State.firingReads
  split <;> rename_i heq <;> rw [heq] at hr
  · simp [hr]
  · exact hr
  · simp [hr]

theorem execXcollFiring_memoriesWf {s : State} (h : s.memoriesWf = true) :
    outMemoriesWf (execXcollFiring s) = true := by
  unfold execXcollFiring
  split
  · exact h
  · split
    · exact h
    · exact State.firingReads_memoriesWf h

theorem State.post_memoriesWf {s : State} {e : Entry} (h : s.memoriesWf = true) : (s.post e).memoriesWf = true := by
  unfold State.post
  extract_lets th d cidx p c1 c2 mine t k s1
  have hc1 : memoriesOk s.mem c1 = true := (Cell.setTileState_memoriesWf s.cell).trans h
  have hc2 : memoriesOk s.mem c2 = true := by
    simp only [c2]
    split
    · exact Cell.putStore_memoriesOk hc1
    · exact hc1
  have hs1 : s1.memoriesWf = true := hc2
  clear_value s1
  split
  · exact State.receiveAll_memoriesWf ((State.putPosting_memoriesWf s1).trans hs1)
  · exact State.receiveAll_memoriesWf hs1

theorem execPosting_memoriesWf {s : State} (h : s.memoriesWf = true) : outMemoriesWf (execPosting s) = true := by
  unfold execPosting
  split
  · exact h
  · dsimp only
    split
    · exact h
    · split
      · exact (State.breaks_memoriesWf s).trans h
      · split
        · exact h
        · split
          · exact h
          · split
            · exact h
            · refine State.post_memoriesWf ?_
              split
              · exact (State.takePorts_memoriesWf s).trans h
              · exact h

@[simp] theorem State.firingDone_memoriesWf (s : State) {e : Entry} :
    (s.firingDone e).memoriesWf = s.memoriesWf := by simp [State.firingDone]

theorem State.sendChunk_memoriesWf {s : State} {e : Entry} (h : s.memoriesWf = true) :
    (s.sendChunk e).memoriesWf = true := by
  unfold State.sendChunk
  extract_lets np p entry base off va n
  split
  · exact h
  · refine State.got_memoriesWf (State.enginePage_memoriesWf h)
      fun _ _ ht => State.got_memoriesWf (State.fetch_memoriesWf ht)
        fun u _ hu => ?_
    extract_lets dev c q
    split
    · exact hu
    · rw [State.advances_memoriesWf, State.count_memoriesWf, State.dropReplies_memoriesWf, State.sendContrib_memoriesWf]
      exact hu

theorem State.collTurn_memoriesWf {s : State} {e : Entry} (h : s.memoriesWf = true) :
    (s.collTurn e).memoriesWf = true := by
  unfold State.collTurn
  split
  · exact h
  · split
    · exact State.firingReads_memoriesWf h
    · split
      · exact h
      · split
        · exact h
        · extract_lets np e1 here e2
          clear_value e2
          split
          · exact State.sendChunk_memoriesWf h
          · exact (State.firingDone_memoriesWf s).trans h

theorem execTransferChunk_memoriesWf {s : State} (h : s.memoriesWf = true) :
    outMemoriesWf (execTransferChunk s) = true := by
  have hs : (s.setCell { s.cell with xferTurn := s.actq }).memoriesWf = true := h
  unfold execTransferChunk
  generalize s.setCell { s.cell with xferTurn := s.actq } = s0 at hs
  dsimp only
  split
  · exact hs
  · split
    · exact hs
    · split
      · exact State.turn_memoriesWf hs fun _ _ => State.moveBytes_memoriesWf
      · exact State.turn_memoriesWf hs fun _ _ => State.moveBytes_memoriesWf
      · exact State.collTurn_memoriesWf hs
      · exact hs

theorem execXroute_memoriesWf {s : State} (h : s.memoriesWf = true) : outMemoriesWf (execXroute s) = true :=
  terminalWord_memoriesWf h fun _ _ ht => begins_memoriesWf (startWith_memoriesWf ht fun _ _ hu => hu)

theorem Rd.route_memoriesWf {r : Rd} (h : r.s.memoriesWf = true) : r.route.1.s.memoriesWf = true := by
  refine Rd.next_memoriesWf (Rd.read_memoriesWf h) fun t ws ht => Rd.check_memoriesWf ht ?_
  generalize hr1 : ({ t with e := _ } : Rd) = r1
  have h1 : r1.s.memoriesWf = true := by rw [← hr1]; exact ht
  have hread := Rd.read_memoriesWf (va := globAddr (r1.e.descWord 3)) (n := 4 * r1.e.routeE) h1
  split <;> rename_i heq <;> rw [heq] at hread
  · exact Rd.check_memoriesWf hread hread
  · exact hread
  · split <;> exact hread

@[simp] theorem State.setHub_memoriesWf (s : State) {i : Nat} {h : Hub} :
    (s.setHub i h).memoriesWf = s.memoriesWf := rfl

theorem outPage_memoriesWf {e : Entry} {s : State} {o : Nat × Option Nat × Word} (h : s.memoriesWf = true) :
    (outPage e s o).1.memoriesWf = true := by
  unfold outPage
  dsimp only
  split
  · have ht := memoriesWf_of_fst ‹_› (State.enginePage_memoriesWf h)
    split <;> exact ht
  · exact memoriesWf_of_fst ‹_› (State.enginePage_memoriesWf h)
  · exact memoriesWf_of_fst ‹_› (State.enginePage_memoriesWf h)

@[simp] theorem State.sendOutput_memoriesWf (s : State) {e : Entry} {hub : Nat} {x : Page × Nat × Option Nat × Word} :
    (s.sendOutput e hub x).memoriesWf = s.memoriesWf := by simp [State.sendOutput]

theorem State.rowBiases_memoriesWf {s : State} {e : Entry} (h : s.memoriesWf = true) :
    (s.rowBiases e).1.memoriesWf = true := by
  unfold State.rowBiases
  split
  · exact memoriesWf_of_fst ‹_› (State.fetch_memoriesWf h)
  · exact memoriesWf_of_fst ‹_› (State.fetch_memoriesWf h)
  · have ht := memoriesWf_of_fst ‹_› (State.fetch_memoriesWf h)
    split <;> exact ht

theorem State.rowLogits_memoriesWf {s : State} {e : Entry} {xs : List FVal} (h : s.memoriesWf = true) :
    (s.rowLogits e xs).1.memoriesWf = true := by
  unfold State.rowLogits
  dsimp only
  split
  · have ht := memoriesWf_of_fst ‹_› (State.rowBiases_memoriesWf h)
    split
    · simp [ht]
    · split <;> simp [ht]
  · exact memoriesWf_of_fst ‹_› (State.rowBiases_memoriesWf h)
  · exact memoriesWf_of_fst ‹_› (State.rowBiases_memoriesWf h)

theorem State.routeRow_memoriesWf {s : State} {e : Entry} (h : s.memoriesWf = true) :
    (s.routeRow e).memoriesWf = true := by
  unfold State.routeRow
  dsimp only
  split
  · exact h
  · refine State.got_memoriesWf (State.readFrom_memoriesWf h)
      fun _ _ ht => State.got_memoriesWf (State.rowLogits_memoriesWf ht)
      fun _ _ hu => State.got_memoriesWf (gather_memoriesWf hu fun _ _ => outPage_memoriesWf) fun _ _ hv =>
        State.withPorts_memoriesWf hv fun w hw => State.got_memoriesWf ?_ fun x _ hx => ?_
    · split
      · exact State.push_memoriesWf hw
      · exact hw
    · simp [hx]

theorem execRouteRowScored_memoriesWf {s : State} (h : s.memoriesWf = true) :
    outMemoriesWf (execRouteRowScored s) = true := by
  have hs : (s.setCell { s.cell with xferTurn := s.actq }).memoriesWf = true := h
  unfold execRouteRowScored
  generalize s.setCell { s.cell with xferTurn := s.actq } = s0 at hs
  dsimp only
  split
  · exact hs
  · next e _ =>
    have hr := Rd.route_memoriesWf (r := { s := s0, e := e, i := 0 }) hs
    split
    · split
      · exact hs
      · split
        · split <;> rename_i heq <;> rw [heq] at hr <;> simp [hr]
        · exact State.turn_memoriesWf hs fun _ _ => State.routeRow_memoriesWf
    · exact hs

end Sys2Proof.Machine
end

section
/-!
Memory and the stores stay canonical: completions, capabilities of the counters, and the accounts (R195-R198, R346).
-/

namespace Sys2Proof.Machine

theorem execEntryCompletion_memoriesWf {s : State} (h : s.memoriesWf = true) :
    outMemoriesWf (execEntryCompletion s) = true := by
  unfold execEntryCompletion
  (repeat' split) <;> simp [*]

@[simp] theorem State.ends_memoriesWf (s : State) {e : Entry} : (s.ends e).memoriesWf = s.memoriesWf := rfl

theorem State.endsInTurn_memoriesWf {s : State} {e : Entry} {ok : Bool} {effect : State → State}
    (h : s.memoriesWf = true)
    (he : (effect s).memoriesWf = true) : (s.endsInTurn e ok effect).memoriesWf = true := by
  unfold State.endsInTurn
  split
  · exact he
  · exact h

theorem execSignalCompletion_memoriesWf {s : State} (h : s.memoriesWf = true) :
    outMemoriesWf (execSignalCompletion s) = true := by
  unfold execSignalCompletion
  split
  · exact h
  · split
    · split
      · exact State.endsInTurn_memoriesWf h h
      · exact h
    · exact h

@[simp] theorem State.setCap_memoriesWf (s : State) {i : Nat} {c : CapSet} :
    (s.setCap i c).memoriesWf = s.memoriesWf := rfl

@[simp] theorem State.capStart_memoriesWf (s : State) {i : Nat} : (s.capStart i).memoriesWf = s.memoriesWf := rfl

@[simp] theorem State.capStop_memoriesWf (s : State) {i : Nat} :
    (s.capStop i).memoriesWf = s.memoriesWf := by simp [State.capStop]

theorem execControlEntryCompletion_memoriesWf {s : State} (h : s.memoriesWf = true) :
    outMemoriesWf (execControlEntryCompletion s) = true := by
  unfold execControlEntryCompletion
  split
  · exact h
  · split
    · exact h
    · split
      · exact State.endsInTurn_memoriesWf h h
      · split <;> simp [h]
      · split <;> simp [h]
      · exact State.endsInTurn_memoriesWf h ((State.capStart_memoriesWf s).trans h)
      · exact State.endsInTurn_memoriesWf h ((State.capStop_memoriesWf s).trans h)
      · exact h

theorem execDeferredReadiness_memoriesWf {s : State} (h : s.memoriesWf = true) :
    outMemoriesWf (execDeferredReadiness s) = true := by
  unfold execDeferredReadiness
  (repeat' split) <;> simp [*]

theorem execCueTermEvaluation_memoriesWf {s : State} (h : s.memoriesWf = true) :
    outMemoriesWf (execCueTermEvaluation s) = true := by simp [execCueTermEvaluation, h]

@[simp] theorem State.accountRecord_memoriesWf {s : State} {slot cause : Nat} {pc : Word}
    {n : Nat} (h : s.memoriesWf = true) :
    (s.accountRecord slot cause pc n).memoriesWf = true := by simp [State.accountRecord, h]

@[simp] theorem State.closeRun_memoriesWf {s : State} {slot : Nat} (h : s.memoriesWf = true) :
    (s.closeRun slot).memoriesWf = true := by
  unfold State.closeRun
  (repeat' split) <;> simp [*]

theorem State.closeRuns_memoriesWf {s : State} (h : s.memoriesWf = true) : s.closeRuns.memoriesWf = true :=
  foldl_keeps h fun _ _ => State.closeRun_memoriesWf

@[simp] theorem State.extendRun_memoriesWf {s : State} {slot cause : Nat} {pc : Word}
    {n : Nat} (h : s.memoriesWf = true) :
    (s.extendRun slot cause pc n).memoriesWf = true := by
  unfold State.extendRun
  (repeat' split) <;> simp [*]

@[simp] theorem State.chargeSlot_memoriesWf {s : State} {slot : Nat} {c : Cause} {pc : Word}
    {n : Nat} (h : s.memoriesWf = true) :
    (s.chargeSlot slot c pc n).memoriesWf = true := by simp [State.chargeSlot, h]

@[simp] theorem State.chargeUnit_memoriesWf {s : State} {v : Bool} {c : Cause} {pc : Word}
    {n : Nat} (h : s.memoriesWf = true) :
    (s.chargeUnit v c pc n).memoriesWf = true := by simp [State.chargeUnit, h]

theorem State.flushLate_memoriesWf {s : State} (h : s.memoriesWf = true) : s.flushLate.memoriesWf = true :=
  foldl_keeps h fun _ _ => State.chargeUnit_memoriesWf

@[simp] theorem State.squashLate_memoriesWf (s : State) : s.squashLate.memoriesWf = s.memoriesWf := rfl

theorem State.accountUnit_memoriesWf {s : State} (h : s.memoriesWf = true) : s.accountUnit.memoriesWf = true := by
  unfold State.accountUnit
  split
  · exact State.flushLate_memoriesWf h
  · split
    · exact h
    · exact State.chargeUnit_memoriesWf (State.flushLate_memoriesWf h)

theorem State.accountEngines_memoriesWf {s : State} (h : s.memoriesWf = true) :
    s.accountEngines.memoriesWf = true := by
  refine foldl_keeps h fun t slot ht => ?_
  split
  · exact State.chargeSlot_memoriesWf ht
  · exact ht

@[simp] theorem State.accountEnergy_memoriesWf (s : State) :
    s.accountEnergy.memoriesWf = s.memoriesWf := by simp [State.accountEnergy]

theorem State.accountClk_memoriesWf {s : State} (h : s.memoriesWf = true) : s.accountClk.memoriesWf = true := by
  have ht : s.accountUnit.accountEngines.accountEnergy.memoriesWf = true :=
    (State.accountEnergy_memoriesWf _).trans (State.accountEngines_memoriesWf (State.accountUnit_memoriesWf h))
  unfold State.accountClk
  generalize s.accountUnit.accountEngines.accountEnergy = t at ht
  simp [h, ht]

theorem settleCounter_memoriesWf {i : Instr} {s : State} {checks : List Verdict} {d : Nat} {v : Word} {base : State}
    (h : s.memoriesWf = true) (hb : base.memoriesWf = true) :
    outMemoriesWf (settleCounter i s checks d v base) = true := by
  unfold settleCounter
  split
  · split
    · have hr := State.replay_memoriesWf (s := s) (dest := gLoc d) (n := 8) h
      split
      · simp [hb]
      · exact (State.hold_memoriesWf _).trans (memoriesWf_of_fst ‹_› hr)
    · simp [h]
  · simp [h, hb]

theorem execAccrd_memoriesWf {d a : BitVec 5} {x : Bool} {s : State} (h : s.memoriesWf = true) :
    outMemoriesWf (execAccrd d a x s) = true := settleCounter_memoriesWf h h

theorem execEnrgrd_memoriesWf {d a : BitVec 5} {x : Bool} {s : State} (h : s.memoriesWf = true) :
    outMemoriesWf (execEnrgrd d a x s) = true := settleCounter_memoriesWf h h

end Sys2Proof.Machine
end

section
/-!
Memory and the stores stay canonical: CSR instructions and accesses from outside the core (R56, R100, R158, R205).
-/

namespace Sys2Proof.Machine

@[simp] theorem State.advance_memoriesWf (s : State) {n : Nat} :
    (s.advance n).memoriesWf = s.memoriesWf := by simp [State.advance]

theorem State.writeAccctl_memoriesWf {s : State} {v : Word} (h : s.memoriesWf = true) :
    (s.writeAccctl v).memoriesWf = true := by
  have hs : (if s.recording && !v.getLsbD 0 then s.closeRuns else s).memoriesWf = true := by
    split
    · exact State.closeRuns_memoriesWf h
    · exact h
  exact hs

@[simp] theorem State.writeTrctl_memoriesWf (s : State) {v : Word} : (s.writeTrctl v).memoriesWf = s.memoriesWf := rfl

@[simp] theorem State.writeCueirq_memoriesWf (s : State) {v : Word} :
    (s.writeCueirq v).memoriesWf = s.memoriesWf := rfl

@[simp] theorem State.writeTmrcnt_memoriesWf (s : State) {v : Word} :
    (s.writeTmrcnt v).memoriesWf = s.memoriesWf := rfl

@[simp] theorem State.writeFrameWord_memoriesWf (s : State) {v : Word} :
    (s.writeFrameWord v).memoriesWf = s.memoriesWf := by simp [State.writeFrameWord]

@[simp] theorem State.clearCaps_memoriesWf (s : State) {v : Word} :
    (s.clearCaps v).memoriesWf = s.memoriesWf := by simp [State.clearCaps]

@[simp] theorem State.popReport_memoriesWf (s : State) :
    s.popReport.memoriesWf = s.memoriesWf := by simp [State.popReport]

@[simp] theorem State.writeBankbind_memoriesWf (s : State) {v : Word} :
    (s.writeBankbind v).memoriesWf = s.memoriesWf := rfl

@[simp] theorem State.resumeQueue_memoriesWf (s : State) {q : Nat} :
    (s.resumeQueue q).memoriesWf = s.memoriesWf := rfl

@[simp] theorem State.discardQueue_memoriesWf (s : State) {q : Nat} :
    (s.discardQueue q).memoriesWf = s.memoriesWf := by
  unfold State.discardQueue
  dsimp only
  (repeat' split) <;> simp [*]

@[simp] theorem State.resetCmd_memoriesWf (s : State) {q : Nat} :
    (s.resetCmd q).memoriesWf = s.memoriesWf := by simp [State.resetCmd]

@[simp] theorem State.queueCommand_memoriesWf (s : State) {q : Nat} {v : Word} :
    (s.queueCommand q v).memoriesWf = s.memoriesWf := by simp [State.queueCommand]

@[simp] theorem State.invalidate_memoriesWf (s : State) {v : Word} : (s.invalidate v).memoriesWf = s.memoriesWf := rfl

@[simp] theorem State.wpArm_memoriesWf (s : State) {n : Nat} {v : Word} :
    (s.wpArm n v).memoriesWf = s.memoriesWf := rfl

theorem State.csrWrite_memoriesWf {s : State} {n : Nat} {mask v : Word} (h : s.memoriesWf = true) :
    (s.csrWrite n mask v).memoriesWf = true := by
  simp [State.csrWrite, h, State.writeAccctl_memoriesWf h]

@[simp] theorem State.csrResult_memoriesWf {s : State} {n d : Nat} {v : Word} (h : s.memoriesWf = true) :
    (s.csrResult n d v).memoriesWf = true := by simp [State.csrResult, h]

theorem execCsrr_memoriesWf {d : BitVec 5} {c : BitVec 12} {s : State} (h : s.memoriesWf = true) :
    outMemoriesWf (execCsrr d c s) = true := by
  unfold execCsrr
  dsimp only
  split
  · exact settleCounter_memoriesWf h ((State.advance_memoriesWf s).trans h)
  · exact settle_memoriesWf h (State.csrResult_memoriesWf ((State.advance_memoriesWf s).trans h))

theorem execCsrOp_memoriesWf {i : Instr} {f : Word → Word → Word} {d a : BitVec 5} {c : BitVec 12} {s : State}
    (h : s.memoriesWf = true) : outMemoriesWf (execCsrOp i f d a c s) = true := by
  unfold execCsrOp
  extract_lets n old v base checks done
  have hdone : done.memoriesWf = true :=
    State.csrResult_memoriesWf ((State.advance_memoriesWf _).trans (State.csrWrite_memoriesWf h))
  clear_value done
  split
  · exact settle_memoriesWf h (State.csrResult_memoriesWf ((State.advance_memoriesWf s).trans h))
  · split
    · split
      · split
        · exact settle_memoriesWf h hdone
        · exact h
      · exact (State.blocked_memoriesWf s).trans h
    · exact settle_memoriesWf h hdone

theorem execCsrw_memoriesWf {d a : BitVec 5} {c : BitVec 12} {s : State} (h : s.memoriesWf = true) :
    outMemoriesWf (execCsrw d a c s) = true := execCsrOp_memoriesWf h

theorem execCsrs_memoriesWf {d a : BitVec 5} {c : BitVec 12} {s : State} (h : s.memoriesWf = true) :
    outMemoriesWf (execCsrs d a c s) = true := execCsrOp_memoriesWf h

theorem execCsrc_memoriesWf {d a : BitVec 5} {c : BitVec 12} {s : State} (h : s.memoriesWf = true) :
    outMemoriesWf (execCsrc d a c s) = true := execCsrOp_memoriesWf h

theorem execCsrx_memoriesWf {d a : BitVec 5} {c : BitVec 12} {s : State} (h : s.memoriesWf = true) :
    outMemoriesWf (execCsrx d a c s) = true := execCsrOp_memoriesWf h

@[simp] theorem State.outsideDone_memoriesWf (s : State) : s.outsideDone.memoriesWf = s.memoriesWf := rfl

theorem outsideStep_memoriesWf {p : Nat → Bool} {f : Nat → Word → State → State} {s : State} (h : s.memoriesWf = true)
    (hf : ∀ n v, (f n v s).memoriesWf = true) : outMemoriesWf (outsideStep p f s) = true := by
  unfold outsideStep
  split
  · exact hf _ _
  · exact h

theorem execTmrcntWrite_memoriesWf {s : State} (h : s.memoriesWf = true) : outMemoriesWf (execTmrcntWrite s) = true :=
  outsideStep_memoriesWf h fun _ _ => h

theorem execBankbindWrite_memoriesWf {s : State} (h : s.memoriesWf = true) :
    outMemoriesWf (execBankbindWrite s) = true := by
  refine outsideStep_memoriesWf h fun _ _ => ?_
  split <;> exact h

theorem execFxdata_memoriesWf {s : State} (h : s.memoriesWf = true) : outMemoriesWf (execFxdata s) = true :=
  outsideStep_memoriesWf h fun _ _ => by simp [h]

theorem execCapdata_memoriesWf {s : State} (h : s.memoriesWf = true) : outMemoriesWf (execCapdata s) = true :=
  outsideStep_memoriesWf h fun _ _ => by simp [h]

theorem execCapclr_memoriesWf {s : State} (h : s.memoriesWf = true) : outMemoriesWf (execCapclr s) = true :=
  outsideStep_memoriesWf h fun _ _ => by simp [h]

theorem execCueirqClear_memoriesWf {s : State} (h : s.memoriesWf = true) : outMemoriesWf (execCueirqClear s) = true :=
  outsideStep_memoriesWf h fun _ _ => h

@[simp] theorem qcmdStep_memoriesWf {cmd : Nat} {s : State} (h : s.memoriesWf = true) :
    outMemoriesWf (qcmdStep cmd s) = true := by
  unfold qcmdStep
  (repeat' split) <;> simp [*]

@[simp] theorem xinvStep_memoriesWf {op : Nat} {s : State} (h : s.memoriesWf = true) :
    outMemoriesWf (xinvStep op s) = true := by
  unfold xinvStep
  (repeat' split) <;> simp [*]

theorem execWatchpointChange_memoriesWf {s : State} (h : s.memoriesWf = true) :
    outMemoriesWf (execWatchpointChange s) = true := by
  unfold execWatchpointChange
  (repeat' split) <;> simp [*]

theorem execWarpop_memoriesWf {s : State} (h : s.memoriesWf = true) : outMemoriesWf (execWarpop s) = true :=
  outsideStep_memoriesWf h fun _ _ => by simp [h]

theorem State.managerWrite_memoriesWf {s : State} {n : Nat} {v : Word} (h : s.memoriesWf = true) :
    (s.managerWrite n v).memoriesWf = true := by
  unfold State.managerWrite
  split
  · exact h
  · split
    · split <;> exact h
    · split
      · exact h
      · refine State.csrWrite_memoriesWf ?_
        split
        · exact (State.wpArm_memoriesWf s).trans h
        · exact h

theorem execRegisterWrite_memoriesWf {s : State} (h : s.memoriesWf = true) :
    outMemoriesWf (execRegisterWrite s) = true :=
  outsideStep_memoriesWf h fun _ _ => State.managerWrite_memoriesWf h

@[simp] theorem State.dropKey_memoriesWf (s : State) {table : Nat} :
    (s.dropKey table).memoriesWf = s.memoriesWf := rfl

@[simp] theorem State.setPort_memoriesWf (s : State) {i : Nat} {p : Port} :
    (s.setPort i p).memoriesWf = s.memoriesWf := rfl

@[simp] theorem State.enqueueFlits_memoriesWf (s : State) {i : Nat} {f : Flits} :
    (s.enqueueFlits i f).memoriesWf = s.memoriesWf := rfl

@[simp] theorem State.replyTo_memoriesWf (s : State) {dev key cls n why : Nat} {val : Word} :
    (s.replyTo dev key cls n why val).memoriesWf = s.memoriesWf := by
  unfold State.replyTo
  (repeat' split) <;> simp [*]

end Sys2Proof.Machine
end

section
/-!
Memory and the stores stay canonical: contributions, and writes, reads and atomics at their homes (R114, R252-R256,
R273-R288).
-/

namespace Sys2Proof.Machine

@[simp] theorem State.raiseHomes_memoriesWf (s : State) {r : Req} : (s.raiseHomes r).memoriesWf = s.memoriesWf :=
  foldl_memoriesWf _ _ _ fun _ _ => rfl

@[simp] theorem State.dropReq_memoriesWf (s : State) {id : Nat} : (s.dropReq id).memoriesWf = s.memoriesWf := rfl

theorem State.writeHome_memoriesWf {s : State} {bs : List (Nat × Byte)} (h : s.memoriesWf = true) :
    (s.writeHome bs).1.memoriesWf = true := by
  have hr := (s.readLines_memoriesWf (rs := bs.map fun b => (b.1, 1))).trans h
  unfold State.writeHome
  dsimp only
  split
  · exact memoriesOk_with (t := (s.readLines _).1) (Memory.writeBytes_wf _ (State.mem_wf hr)) hr
  · exact memoriesOk_with (t := s) (Memory.writeBytes_wf _ (State.mem_wf h)) h

@[simp] theorem State.reportLost_memoriesWf (s : State) {r : Req} :
    (s.reportLost r).memoriesWf = s.memoriesWf := by simp [State.reportLost]

@[simp] theorem State.sendBack_memoriesWf (s : State) {r : Req} {why : Nat} {val : Word} :
    (s.sendBack r why val).memoriesWf = s.memoriesWf := by
  unfold State.sendBack
  (repeat' split) <;> simp [*]

@[simp] theorem State.countHome_memoriesWf (s : State) {r : Req} {n : Nat} :
    (s.countHome r n).memoriesWf = s.memoriesWf := by simp [State.countHome]

@[simp] theorem State.countReply_memoriesWf (s : State) {r : Req} :
    (s.countReply r).memoriesWf = s.memoriesWf := by simp [State.countReply]

@[simp] theorem State.mgrAnswer_memoriesWf (s : State) {id : Nat} {bs : List Byte} {bad : Bool} :
    (s.mgrAnswer id bs bad).memoriesWf = s.memoriesWf := rfl

@[simp] theorem State.refuse_memoriesWf (s : State) {r : Req} {why dev : Nat} :
    (s.refuse r why dev).memoriesWf = s.memoriesWf := by simp [State.refuse]

@[simp] theorem State.markQueues_memoriesWf (s : State) {before : Memory} {ranges : List (Nat × Nat)} :
    (s.markQueues before ranges).memoriesWf = s.memoriesWf := by
  unfold State.markQueues
  (repeat' split) <;> simp [*]

@[simp] theorem State.watched_memoriesWf (s : State) {r : Req} {ranges : List (Nat × Nat)} :
    (s.watched r ranges).memoriesWf = s.memoriesWf := by simp [State.watched]

@[simp] theorem State.touched_memoriesWf (s : State) {before : Memory} {r : Req} {ranges : List (Nat × Nat)} :
    (s.touched before r ranges).memoriesWf = s.memoriesWf := by simp [State.touched]

@[simp] theorem State.answerOther_memoriesWf (s : State) {r : Req} {val : Word} {clock : List Nat} :
    (s.answerOther r val clock).memoriesWf = s.memoriesWf := by
  unfold State.answerOther
  (repeat' split) <;> simp [*]

@[simp] theorem State.answer_memoriesWf (s : State) {r : Req} {size : Nat} {val : Word} {lanes : List Lane}
    {row : Option OqRow} {bad : Bool} :
    (s.answer r size val lanes row bad).memoriesWf = s.memoriesWf := by simp [State.answer]

@[simp] theorem State.acknowledge_memoriesWf (s : State) {r : Req} :
    (s.acknowledge r).memoriesWf = s.memoriesWf := by simp [State.acknowledge]

theorem State.encodeBlocks_memoriesWf {s : State} {mode : Nat} {bs : List Block} {ls : List Lane}
    (h : s.memoriesWf = true) :
    (s.encodeBlocks mode bs ls).1.memoriesWf = true := by
  induction bs generalizing s ls with
  | nil => exact h
  | cons b bs ih => exact ih (State.writeHome_memoriesWf h)

@[simp] theorem State.snapshot_memoriesWf (s : State) {h key : Nat} :
    (s.snapshot h key).1.memoriesWf = s.memoriesWf := rfl

theorem State.rmw_memoriesWf {s : State} {r : Req} {n : Nat} {f : Nat → Option Nat} (h : s.memoriesWf = true) :
    (s.rmw r n f).memoriesWf = true := by
  have hr := (s.readLines_memoriesWf (rs := [(r.pa, n)])).trans h
  unfold State.rmw
  dsimp only
  split
  · simp [h]
  · split
    · simp [h]
    · simp [memoriesOk_with (Memory.writeLE_wf _ _ _ (State.mem_wf hr)) hr]

theorem State.applyWindow_memoriesWf {s : State} {r : Req} {bs : List (Nat × Byte)} (h : s.memoriesWf = true) :
    (s.applyWindow r bs).memoriesWf = true := by
  unfold State.applyWindow
  split
  · split
    · exact (State.sendBack_memoriesWf s).trans h
    · exact h
  · extract_lets mine words s1 s2
    have hs1 : s1.memoriesWf = true := by
      refine foldl_keepsCell (c := s.cell) ?_ fun _ _ hd => hd
      exact memoriesOk_with (Memory.writeBytes_wf _ (State.mem_wf h)) h
    have hs2 : s2.memoriesWf = true := (State.raiseHomes_memoriesWf s1).trans hs1
    clear_value s2
    split
    · exact (State.sendBack_memoriesWf s2).trans hs2
    · exact hs2

theorem State.applyWrite_memoriesWf {s : State} {r : Req} (h : s.memoriesWf = true) :
    (s.applyWrite r).memoriesWf = true := by
  unfold State.applyWrite
  split
  · split
    · exact State.applyWindow_memoriesWf h
    · simp [State.writeHome_memoriesWf h]
  · simp [State.encodeBlocks_memoriesWf h]
  · exact (State.countHome_memoriesWf _).trans (State.rmw_memoriesWf h)
  · exact (State.countHome_memoriesWf _).trans (State.rmw_memoriesWf h)
  · simp [h]
  · next os bs _ =>
    have hset :
        Memory.wf (os.foldl (fun m o => Memory.writeLE m o.1 8 (Memory.readLE m o.1 8 ||| 2 ^ o.2)) s.mem) = true :=
      List.foldlRecOn (motive := fun m => Memory.wf m = true) os _ (State.mem_wf h)
        fun m hm _ _ => Memory.writeLE_wf _ _ _ hm
    simp [memoriesOk_with (Memory.writeBytes_wf bs hset) h]
  · simp [h]
  · exact h

theorem execWriteAppliedAtHome_memoriesWf {s : State} (h : s.memoriesWf = true) :
    outMemoriesWf (execWriteAppliedAtHome s) = true := by
  unfold execWriteAppliedAtHome
  split
  · exact h
  · dsimp only
    rw [outMemoriesWf_next]
    split
    · exact State.applyWrite_memoriesWf h
    · exact (State.refuse_memoriesWf _).trans h

theorem execContributionArrival_memoriesWf {s : State} (h : s.memoriesWf = true) :
    outMemoriesWf (execContributionArrival s) = true := by
  unfold execContributionArrival
  split
  · split
    · refine State.arrives_memoriesWf h fun x hx => ?_
      split
      · next t => simp [hx t rfl]
      · exact h
    · exact h
  · split
    · exact h
    · refine State.arrives_memoriesWf h fun x hx => ?_
      split
      · next t => exact hx t rfl
      · exact h

@[simp] theorem State.answerRead_memoriesWf (s : State) {r : Req} : (s.answerRead r).memoriesWf = s.memoriesWf := by
  unfold State.answerRead
  (repeat' split) <;> simp [*]

theorem execReadAnsweredAtHome_memoriesWf {s : State} (h : s.memoriesWf = true) :
    outMemoriesWf (execReadAnsweredAtHome s) = true := by
  unfold execReadAnsweredAtHome
  (repeat' split) <;> simp [*]

theorem execFrontierSend_memoriesWf {s : State} (h : s.memoriesWf = true) :
    outMemoriesWf (execFrontierSend s) = true := by simp [execFrontierSend, h]

@[simp] theorem State.outDone_memoriesWf (s : State) {id : Nat} : (s.outDone id).memoriesWf = s.memoriesWf := rfl

@[simp] theorem State.sift_memoriesWf (s : State) : s.sift.memoriesWf = s.memoriesWf :=
  foldl_memoriesWf _ _ _ fun t r => by split <;> rfl

theorem State.fabricAnswer_memoriesWf {s : State} {p : Reply → Bool} (h : s.memoriesWf = true) :
    (s.fabricAnswer p).memoriesWf = true := by
  have hs : s.sift.memoriesWf = true := (State.sift_memoriesWf s).trans h
  unfold State.fabricAnswer
  generalize s.sift = t at hs
  dsimp only
  split
  · exact hs
  · split
    · exact hs
    · simp [hs]

@[simp] theorem State.tablePart_memoriesWf (s : State) {off : Nat} {bs : List Byte} {bad : List Word} :
    (s.tablePart off bs bad).memoriesWf = s.memoriesWf := rfl

@[simp] theorem State.landReply_memoriesWf {s : State} {r : Reply} (h : s.memoriesWf = true) :
    (s.landReply r).memoriesWf = true := by
  unfold State.landReply
  (repeat' split) <;> simp [*]

theorem execLongLatencyReturn_memoriesWf {s : State} (h : s.memoriesWf = true) :
    outMemoriesWf (execLongLatencyReturn s) = true := by
  unfold execLongLatencyReturn
  extract_lets s0 y s1
  have hs0 : s0.memoriesWf = true := by
    simp only [s0]
    split
    · exact h
    · exact State.fabricAnswer_memoriesWf h
  have hs1 : s1.memoriesWf = true := hs0
  clear_value s1 y s0
  split
  · exact hs0
  · dsimp only
    split
    · rw [outMemoriesWf_next]
      split <;> simp [hs1]
    · exact State.landReply_memoriesWf (by simp [hs1])

theorem execOperandQueueRowLands_memoriesWf {s : State} (h : s.memoriesWf = true) :
    outMemoriesWf (execOperandQueueRowLands s) = true := by
  unfold execOperandQueueRowLands
  extract_lets s0 y s1
  have hs0 : s0.memoriesWf = true := by
    simp only [s0]
    split
    · exact h
    · exact State.fabricAnswer_memoriesWf h
  have hs1 : s1.memoriesWf = true := hs0
  clear_value s1 y s0
  split
  · exact hs0
  · dsimp only
    split
    · split
      · simp [hs1]
      · split <;> simp [hs1]
    · simp [hs1]

theorem execWriteAcknowledged_memoriesWf {s : State} (h : s.memoriesWf = true) :
    outMemoriesWf (execWriteAcknowledged s) = true := by
  have hs : s.sift.memoriesWf = true := (State.sift_memoriesWf s).trans h
  unfold execWriteAcknowledged
  split
  · exact h
  · generalize s.sift = t at hs
    dsimp only
    split
    · exact hs
    · exact (State.countReply_memoriesWf _).trans hs

end Sys2Proof.Machine
end

section
/-!
Memory and the stores stay canonical: vat operations, renormalisation and the debug steps (R117, R255, R371-R374).
-/

namespace Sys2Proof.Machine

theorem execClockRenormalisation_memoriesWf {s : State} (h : s.memoriesWf = true) :
    outMemoriesWf (execClockRenormalisation s) = true := by simp [execClockRenormalisation, h]

@[simp] theorem State.queueFlits_memoriesWf (s : State) {r : Req} : (s.queueFlits r).memoriesWf = s.memoriesWf := by
  unfold State.queueFlits
  (repeat' split) <;> simp [*]

@[simp] theorem State.takeVat_memoriesWf (s : State) {id : Nat} : (s.takeVat id).memoriesWf = s.memoriesWf := rfl

@[simp] theorem State.passOn_memoriesWf (s : State) {r : Req} {p : Nat} :
    (s.passOn r p).memoriesWf = s.memoriesWf := by simp [State.passOn]

@[simp] theorem State.vatAnswer_memoriesWf (s : State) {r : Req} {val : Word} {status how : Nat} {clock : List Nat} :
    (s.vatAnswer r val status how clock).memoriesWf = s.memoriesWf := by simp [State.vatAnswer]

@[simp] theorem State.pair_memoriesWf (s : State) {a b : Req} :
    (s.pair a b).memoriesWf = s.memoriesWf := by simp [State.pair]

@[simp] theorem State.passFull_memoriesWf (s : State) {r : Req} {p : Nat} :
    (s.passFull r p).memoriesWf = s.memoriesWf := by simp [State.passFull]

@[simp] theorem State.holdAt_memoriesWf (s : State) {r : Req} {p : Nat} :
    (s.holdAt r p).memoriesWf = s.memoriesWf := rfl

@[simp] theorem State.unmatched_memoriesWf (s : State) {r : Req} {p : Nat} :
    (s.unmatched r p).memoriesWf = s.memoriesWf := by
  unfold State.unmatched
  (repeat' split) <;> simp [*]

theorem execVatArrivalAtPairingPoint_memoriesWf {s : State} (h : s.memoriesWf = true) :
    outMemoriesWf (execVatArrivalAtPairingPoint s) = true := by
  unfold execVatArrivalAtPairingPoint
  dsimp only
  (repeat' split) <;> simp [*]

theorem execPairingWindowExpiry_memoriesWf {s : State} (h : s.memoriesWf = true) :
    outMemoriesWf (execPairingWindowExpiry s) = true := by
  unfold execPairingWindowExpiry
  (repeat' split) <;> simp [*]

@[simp] theorem State.writeWord_memoriesWf {s : State} {pa v : Nat} (h : s.memoriesWf = true) :
    (s.writeWord pa v).memoriesWf = true := memoriesOk_with (t := s) (Memory.writeLE_wf _ _ _ (State.mem_wf h)) h

theorem State.vatPop_memoriesWf {s : State} {pa : Nat} (h : s.memoriesWf = true) :
    (s.vatPop pa).1.memoriesWf = true := by
  unfold State.vatPop
  dsimp only
  split
  · exact State.writeWord_memoriesWf (State.writeWord_memoriesWf h)
  · exact State.writeWord_memoriesWf h

theorem State.vatPush_memoriesWf {s : State} {pa : Nat} {v : Word} (h : s.memoriesWf = true) :
    (s.vatPush pa v).1.memoriesWf = true := State.writeWord_memoriesWf (State.writeWord_memoriesWf h)

theorem State.serveParked_memoriesWf {s : State} {pa home : Nat} (h : s.memoriesWf = true) :
    (s.serveParked pa home).memoriesWf = true := by
  unfold State.serveParked
  split
  · exact h
  · simp [State.vatPop_memoriesWf h]

theorem State.vatHome_memoriesWf {s : State} {r : Req} (h : s.memoriesWf = true) :
    (s.vatHome r).memoriesWf = true := by
  unfold State.vatHome
  split
  · have hs0 : ((s.readLines [(r.pa, 64)]).1.countHome r 8).memoriesWf = true := by simp [h]
    dsimp only
    generalize (s.readLines [(r.pa, 64)]).1.countHome r 8 = s0 at hs0
    split
    · simp [hs0]
    · split
      · simp [hs0]
      · have hraised : (s0.raiseMax r.home r.stamp).memoriesWf = true := hs0
        split
        · split
          · simp [hs0]
          · exact State.serveParked_memoriesWf (by simp [State.vatPush_memoriesWf hraised])
        · split
          · split
            · split <;> exact hs0
            · simp [hs0]
          · simp [State.vatPop_memoriesWf hraised]
  · exact h

theorem execVatHomeOperation_memoriesWf {s : State} (h : s.memoriesWf = true) :
    outMemoriesWf (execVatHomeOperation s) = true := by
  unfold execVatHomeOperation
  split
  · exact h
  · dsimp only
    rw [outMemoriesWf_next]
    split
    · exact State.vatHome_memoriesWf h
    · exact (State.refuse_memoriesWf _).trans h

@[simp] theorem State.takeVatReply_memoriesWf (s : State) {r : Reply} :
    (s.takeVatReply r).memoriesWf = s.memoriesWf := by simp [State.takeVatReply]

theorem execVatReply_memoriesWf {s : State} (h : s.memoriesWf = true) : outMemoriesWf (execVatReply s) = true := by
  unfold execVatReply
  dsimp only
  (repeat' split) <;> simp [*]

@[simp] theorem State.withdrawPop_memoriesWf (s : State) : s.withdrawPop.memoriesWf = s.memoriesWf := by
  unfold State.withdrawPop
  (repeat' split) <;> simp [*]

theorem execTmark_memoriesWf {a : BitVec 5} {x : Bool} {s : State} (h : s.memoriesWf = true) :
    outMemoriesWf (execTmark a x s) = true := by simp [execTmark, h]

@[simp] theorem State.sampleUnit_memoriesWf {s : State} (h : s.memoriesWf = true) :
    s.sampleUnit.memoriesWf = true := by
  unfold State.sampleUnit
  (repeat' split) <;> simp [*]

theorem execSample_memoriesWf {s : State} (h : s.memoriesWf = true) : outMemoriesWf (execSample s) = true := by
  refine foldl_keeps (State.sampleUnit_memoriesWf h) fun t slot ht => ?_
  split
  · exact State.emit_memoriesWf t ht
  · exact ht

theorem execWatchReportEntry_memoriesWf {s : State} (h : s.memoriesWf = true) :
    outMemoriesWf (execWatchReportEntry s) = true := by
  unfold execWatchReportEntry
  (repeat' split) <;> simp [*]

@[simp] theorem State.stopCell_memoriesWf (s : State) {st : Status} :
    (s.stopCell st).memoriesWf = s.memoriesWf := by simp [State.stopCell]

theorem execDebughalt_memoriesWf {s : State} (h : s.memoriesWf = true) :
    outMemoriesWf (execDebughalt s) = true := by simp [execDebughalt, h]

@[simp] theorem State.stopQueues_memoriesWf (s : State) :
    s.stopQueues.memoriesWf = s.memoriesWf := by simp [State.stopQueues]

@[simp] theorem State.dropDead_memoriesWf (s : State) :
    s.dropDead.memoriesWf = s.memoriesWf := by simp [State.dropDead]

theorem execStop_memoriesWf {s : State} (h : s.memoriesWf = true) :
    outMemoriesWf (execStop s) = true := by simp [execStop, h]

@[simp] theorem State.resumeCell_memoriesWf (s : State) {skip : Bool} :
    (s.resumeCell skip).memoriesWf = s.memoriesWf := rfl

end Sys2Proof.Machine
end

section
/-!
Memory and the stores stay canonical: landing results, entry into traps, page walks, and the launch queues
(R192-R202, R294-R324).
-/

namespace Sys2Proof.Machine

@[simp] theorem State.landWhere_memoriesWf (s : State) {p : Latch → Bool} :
    (s.landWhere p).memoriesWf = s.memoriesWf := by simp [State.landWhere]

theorem execResultLands_memoriesWf {s : State} (h : s.memoriesWf = true) :
    outMemoriesWf (execResultLands s) = true := by simp [execResultLands, h]

theorem execStoreLoadDataArrival_memoriesWf {s : State} (h : s.memoriesWf = true) :
    outMemoriesWf (execStoreLoadDataArrival s) = true := by simp [execStoreLoadDataArrival, h]

@[simp] theorem State.countFetch_memoriesWf (s : State) {t : TrapInfo} :
    (s.countFetch t).memoriesWf = s.memoriesWf := by
  unfold State.countFetch
  (repeat' split) <;> simp [*]

theorem execTrapEntry_memoriesWf {s : State} (h : s.memoriesWf = true) : outMemoriesWf (execTrapEntry s) = true := by
  unfold execTrapEntry
  (repeat' split) <;> simp [*]

@[simp] theorem State.asyncTake_memoriesWf (s : State) {x1 : Async} : (s.asyncTake x1).memoriesWf = s.memoriesWf := by
  unfold State.asyncTake
  (repeat' split) <;> simp [*]

theorem execInterruptEntry_memoriesWf {s : State} (h : s.memoriesWf = true) :
    outMemoriesWf (execInterruptEntry s) = true := by
  unfold execInterruptEntry
  (repeat' split) <;> simp [*]

theorem execTimerExpiry_memoriesWf {s : State} (h : s.memoriesWf = true) :
    outMemoriesWf (execTimerExpiry s) = true := by simp [execTimerExpiry, h]

theorem execPageWalk_memoriesWf {s : State} (h : s.memoriesWf = true) : outMemoriesWf (execPageWalk s) = true := by
  unfold execPageWalk
  split
  · exact h
  · next va acc clock ws _ =>
    split
    · exact h
    · have hw : (State.walk { s with sys := { s.sys with walks := ws } } va acc s.system).1.memoriesWf = true :=
        State.walk_memoriesWf h
      dsimp only
      split
      · exact memoriesWf_of_fst ‹_› hw
      · have ht := memoriesWf_of_fst ‹_› hw
        split <;> simp [ht]

@[simp] theorem State.mgrSend_memoriesWf (s : State) {key : Nat} {op : ReqOp} {va : Word} {p : Page} :
    (s.mgrSend key op va p).memoriesWf = s.memoriesWf := rfl

@[simp] theorem State.mgrAsk_memoriesWf (s : State) {key : Nat} {va : Word} {p : Page} {n : Nat} :
    (s.mgrAsk key va p n).1.memoriesWf = s.memoriesWf := by
  unfold State.mgrAsk
  (repeat' split) <;> simp [*]

@[simp] theorem State.mgrPiece_memoriesWf (s : State) {key : Nat} {va : Word} {n : Nat} :
    (s.mgrPiece key va n).1.memoriesWf = s.memoriesWf := by
  unfold State.mgrPiece
  (repeat' split) <;> simp [*]

@[simp] theorem State.mgrRead_memoriesWf (s : State) {key : Nat} {va : Word} {n : Nat} :
    (s.mgrRead key va n).1.memoriesWf = s.memoriesWf := by
  have hpiece := s.mgrPiece_memoriesWf (key := key) (va := va) (n := min n (65536 - va.toNat % 65536))
  unfold State.mgrRead
  dsimp only
  split
  · next t _ heq =>
    rw [heq] at hpiece
    have hrest := t.mgrPiece_memoriesWf (key := key) (va := va + BitVec.ofNat 64 (min n (65536 - va.toNat % 65536)))
      (n := n - min n (65536 - va.toNat % 65536))
    split
    · next heq' =>
      rw [heq'] at hrest
      exact hrest.trans hpiece
    · exact hrest.trans hpiece
  · exact hpiece

@[simp] theorem State.mgrWords_memoriesWf (s : State) {key : Nat} {va : Word} {n : Nat} :
    (s.mgrWords key va n).1.memoriesWf = s.memoriesWf := by
  have hread := s.mgrRead_memoriesWf (key := key) (va := va) (n := 8 * n)
  unfold State.mgrWords
  split <;> rename_i heq <;> rw [heq] at hread <;> exact hread

@[simp] theorem State.reportFault_memoriesWf (s : State) {code : Nat} :
    (s.reportFault code).memoriesWf = s.memoriesWf := rfl

@[simp] theorem State.setQdesc_memoriesWf {s : State} {q off v : Nat} (h : s.memoriesWf = true) :
    (s.setQdesc q off v).memoriesWf = true := by
  unfold State.setQdesc
  split
  · exact memoriesOk_with (t := s) (Memory.writeLE_wf _ _ _ (State.mem_wf h)) h
  · exact h

theorem State.setHead_memoriesWf {s : State} {q v : Nat} (h : s.memoriesWf = true) :
    (s.setHead q v).memoriesWf = true :=
  State.setQdesc_memoriesWf h

theorem State.setTail_memoriesWf {s : State} {q v : Nat} (h : s.memoriesWf = true) :
    (s.setTail q v).memoriesWf = true :=
  State.setQdesc_memoriesWf h

theorem State.setDone_memoriesWf {s : State} {q v : Nat} (h : s.memoriesWf = true) :
    (s.setDone q v).memoriesWf = true :=
  State.setQdesc_memoriesWf h

@[simp] theorem State.headAppears_memoriesWf (s : State) {q : Nat} :
    (s.headAppears q).memoriesWf = s.memoriesWf := by simp [State.headAppears]

@[simp] theorem State.countNotifyBad_memoriesWf (s : State) {q : Nat} :
    (s.countNotifyBad q).memoriesWf = s.memoriesWf := rfl

theorem State.notifyTail_memoriesWf {s : State} {q t : Nat} (h : s.memoriesWf = true) :
    (s.notifyTail q t).memoriesWf = true := by
  unfold State.notifyTail
  split
  · exact h
  · dsimp only
    split
    · exact (State.headAppears_memoriesWf _).trans (State.setTail_memoriesWf h)
    · exact h

theorem State.notifyWord_memoriesWf {s : State} {q : Nat} {bs : List (Nat × Byte)} (h : s.memoriesWf = true) :
    (s.notifyWord q bs).memoriesWf = true := by
  unfold State.notifyWord
  split
  · exact h
  · dsimp only
    split
    · split
      · exact h
      · exact State.notifyTail_memoriesWf h
    · split
      · exact State.notifyTail_memoriesWf h
      · exact h

theorem State.notifyBytes_memoriesWf {s : State} {bs : List (Nat × Byte)} (h : s.memoriesWf = true) :
    (s.notifyBytes bs).memoriesWf = true := foldl_keeps h fun _ _ => State.notifyWord_memoriesWf

theorem execNotify_memoriesWf {s : State} (h : s.memoriesWf = true) : outMemoriesWf (execNotify s) = true := by
  unfold execNotify
  split
  · exact h
  · exact State.notifyBytes_memoriesWf (by simp [h])

theorem State.peerNotify_memoriesWf {s : State} {r : Req} (h : s.memoriesWf = true) :
    (s.peerNotify r).memoriesWf = true := by
  unfold State.peerNotify
  split
  · exact h
  · refine foldl_keeps h fun t q ht => ?_
    split
    · exact ht
    · exact State.notifyWord_memoriesWf ht

theorem execRemoteNotify_memoriesWf {s : State} (h : s.memoriesWf = true) :
    outMemoriesWf (execRemoteNotify s) = true := by
  unfold execRemoteNotify
  split
  · exact h
  · exact (State.sendBack_memoriesWf _).trans (State.peerNotify_memoriesWf (by simp [h]))

@[simp] theorem State.headPacket_memoriesWf (s : State) {q : Nat} : (s.headPacket q).1.memoriesWf = s.memoriesWf := by
  unfold State.headPacket
  split
  · rfl
  · exact State.mgrWords_memoriesWf s

@[simp] theorem State.freeSlots_memoriesWf (s : State) : s.freeSlots.memoriesWf = s.memoriesWf := rfl

@[simp] theorem State.mapQueues_memoriesWf (s : State) {qs : List Nat} {fuel : Nat} :
    (s.mapQueues qs fuel).memoriesWf = s.memoriesWf := by
  induction fuel generalizing s qs with
  | zero => unfold State.mapQueues; rfl
  | succ fuel ih =>
    unfold State.mapQueues
    split
    · rfl
    · split
      · rfl
      · exact ih _

@[simp] theorem State.ageQueues_memoriesWf (s : State) : s.ageQueues.memoriesWf = s.memoriesWf := rfl

@[simp] theorem State.askHeads_memoriesWf (s : State) : s.askHeads.memoriesWf = s.memoriesWf :=
  foldl_memoriesWf _ _ _ fun t _ => t.headPacket_memoriesWf

theorem execMapperRun_memoriesWf {s : State} (h : s.memoriesWf = true) : outMemoriesWf (execMapperRun s) = true := by
  have hs : s.askHeads.freeSlots.memoriesWf = true := (State.askHeads_memoriesWf s).trans h
  unfold execMapperRun
  generalize s.askHeads.freeSlots = t at hs
  dsimp only
  have ht : ((t.mapQueues t.qWaiting 32).ageQueues).memoriesWf = true := (State.mapQueues_memoriesWf t).trans hs
  generalize (t.mapQueues t.qWaiting 32).ageQueues = u at ht
  exact ht

@[simp] theorem State.readyStill_memoriesWf (s : State) :
    s.readyStill.memoriesWf = s.memoriesWf := by simp [State.readyStill]

end Sys2Proof.Machine
end

section
/-!
Memory and the stores stay canonical: packets, placement of troupes, deadlines and completion (R296-R310,
R221-R223).
-/

namespace Sys2Proof.Machine

theorem State.readPart_memoriesWf {s : State} {q : Nat} {va : Word} {n : Nat} {k : State → List Word → State × Accepted}
    (h : s.memoriesWf = true) (hk : ∀ t ws, t.memoriesWf = true → (k t ws).1.memoriesWf = true) :
    (s.readPart q va n k).1.memoriesWf = true := by
  have hread := (s.mgrWords_memoriesWf (key := s.qKey q) (va := va) (n := n)).trans h
  unfold State.readPart
  split <;> rename_i heq <;> rw [heq] at hread
  · exact hk _ _ hread
  · exact hread
  · exact hread

theorem State.acceptRecord_memoriesWf {s : State} {q : Nat} {va : Word} (h : s.memoriesWf = true) :
    (s.acceptRecord q va).1.memoriesWf = true := by
  unfold State.acceptRecord
  refine State.readPart_memoriesWf h fun t r ht => ?_
  split
  · exact ht
  · refine State.readPart_memoriesWf ht fun u tw hu => ?_
    dsimp only
    split
    · exact hu
    · exact State.readPart_memoriesWf hu fun _ _ hv => hv

theorem State.passPacket_memoriesWf {s : State} {q : Nat} {c : Scene} (h : s.memoriesWf = true) :
    (s.passPacket q c).memoriesWf = true :=
  (State.headAppears_memoriesWf _).trans (State.setHead_memoriesWf h)

theorem State.readPacket_memoriesWf {s : State} {q : Nat} (h : s.memoriesWf = true) :
    (s.readPacket q).memoriesWf = true := by
  have hhead := (s.headPacket_memoriesWf (q := q)).trans h
  unfold State.readPacket
  dsimp only
  split <;> rename_i heq <;> rw [heq] at hhead
  · exact hhead
  · exact State.passPacket_memoriesWf ((State.reportFault_memoriesWf _).trans hhead)
  · next t p =>
    split
    · exact State.passPacket_memoriesWf hhead
    · split
      · exact State.passPacket_memoriesWf hhead
      · have hrec := State.acceptRecord_memoriesWf (q := q) (va := canon (Word.bits (wordAt p 0) 0 56)) hhead
        split <;> rename_i hacc <;> rw [hacc] at hrec
        · exact State.passPacket_memoriesWf hrec
        · exact State.passPacket_memoriesWf hrec
        · exact State.passPacket_memoriesWf ((State.reportFault_memoriesWf _).trans hrec)
        · exact hrec

theorem execPacketRead_memoriesWf {s : State} (h : s.memoriesWf = true) :
    outMemoriesWf (execPacketRead s) = true := by
  unfold execPacketRead
  split
  · exact h
  · exact State.readPacket_memoriesWf h

theorem State.loadContext_memoriesWf {s : State} {c : Scene} {v : List (Nat × Bool)} {cells : List Nat}
    (h : s.memoriesWf = true) : (s.loadContext c v cells).memoriesWf = true :=
  memoriesOk_iff.2 ⟨State.mem_wf (s := s) h, rfl, rfl, rfl⟩

theorem State.placeOn_memoriesWf {s : State} {c : Scene} {v : List (Nat × Bool)} {cells : List Nat}
    (h : s.memoriesWf = true) : (s.placeOn c v cells).memoriesWf = true := by
  unfold State.placeOn
  extract_lets t lq s1
  split
  · exact State.loadContext_memoriesWf (s := s1) h
  · exact h

theorem State.placeOne_memoriesWf {s : State} {c : Scene} (h : s.memoriesWf = true) :
    ∀ x ∈ s.placeOne c, x.1.memoriesWf = true := by
  intro x hx
  unfold State.placeOne at hx
  split at hx
  · obtain rfl := Option.mem_some.1 hx
    exact State.placeOn_memoriesWf h
  · exact absurd hx (Option.not_mem_none x)

theorem State.placeGang_memoriesWf {s : State} {c : Scene} {fuel : Nat} (h : s.memoriesWf = true) :
    ∀ x ∈ s.placeGang c fuel, x.1.memoriesWf = true := by
  induction fuel generalizing s c with
  | zero =>
    intro x hx
    obtain rfl := Option.mem_some.1 hx
    exact h
  | succ fuel ih =>
    intro x hx
    unfold State.placeGang at hx
    split at hx
    · obtain rfl := Option.mem_some.1 hx
      exact h
    · split at hx
      · next heq => exact ih (State.placeOne_memoriesWf h _ heq) x hx
      · exact absurd hx (Option.not_mem_none x)

@[simp] theorem State.putScene_memoriesWf (s : State) {c : Scene} : (s.putScene c).memoriesWf = s.memoriesWf := rfl

theorem execTroupePlacement_memoriesWf {s : State} (h : s.memoriesWf = true) :
    outMemoriesWf (execTroupePlacement s) = true := by
  unfold execTroupePlacement
  dsimp only
  split
  · exact h
  · next t c heq =>
    obtain ⟨d, -, hd⟩ := List.exists_of_findSome?_eq_some heq
    have ht : t.memoriesWf = true := by
      split at hd
      · exact State.placeGang_memoriesWf h _ hd
      · exact State.placeOne_memoriesWf h _ hd
    exact (State.headAppears_memoriesWf _).trans ht

theorem execTickEdge_memoriesWf {s : State} (h : s.memoriesWf = true) :
    outMemoriesWf (execTickEdge s) = true := by simp [execTickEdge, h]

theorem execDeadlineExpiry_memoriesWf {s : State} (h : s.memoriesWf = true) :
    outMemoriesWf (execDeadlineExpiry s) = true := by simp [execDeadlineExpiry, h]

@[simp] theorem State.disown_memoriesWf (s : State) : s.disown.memoriesWf = s.memoriesWf := rfl

theorem State.resetQueues_memoriesWf (s : State) {qs : List Nat} :
    (qs.foldl State.resetQueue s).memoriesWf = s.memoriesWf := foldl_memoriesWf _ _ _ fun t _ => t.resetQueue_memoriesWf

theorem State.endContext_memoriesWf {s : State} (h : s.memoriesWf = true) : s.endContext.memoriesWf = true := by
  have hreset := (State.resetQueues_memoriesWf s.closeRuns (qs := List.range 13)).trans (State.closeRuns_memoriesWf h)
  unfold State.endContext
  generalize (List.range 13).foldl State.resetQueue s.closeRuns = t at hreset
  exact hreset

@[simp] theorem State.troupeEnds_memoriesWf (s : State) {t : Troupe} :
    (s.troupeEnds t).memoriesWf = s.memoriesWf := rfl

@[simp] theorem State.endTroupes_memoriesWf (s : State) : s.endTroupes.memoriesWf = s.memoriesWf :=
  foldl_memoriesWf _ _ _ fun t _ => t.troupeEnds_memoriesWf

@[simp] theorem State.cellReports_memoriesWf (s : State) {cell status cause : Nat} :
    (s.cellReports cell status cause).memoriesWf = s.memoriesWf := rfl

theorem execCellCompletion_memoriesWf {s : State} (h : s.memoriesWf = true) :
    outMemoriesWf (execCellCompletion s) = true := by
  unfold execCellCompletion
  extract_lets s1 s2
  have h1 : s1.memoriesWf = true := by
    unfold s1
    split
    · exact (State.cellReports_memoriesWf _).trans (State.endContext_memoriesWf h)
    · exact h
  have h2 : s2.memoriesWf = true := (foldl_memoriesWf _ _ _ fun t _ => t.cellReports_memoriesWf).trans h1
  exact (State.endTroupes_memoriesWf _).trans h2

theorem State.kill_memoriesWf {s : State} {t : Troupe} (h : s.memoriesWf = true) : (s.kill t).memoriesWf = true := by
  unfold State.kill
  extract_lets s1
  have h1 : s1.memoriesWf = true := by
    unfold s1
    split
    · exact State.endContext_memoriesWf h
    · exact h
  exact h1

theorem execWatchdogExpiry_memoriesWf {s : State} (h : s.memoriesWf = true) :
    outMemoriesWf (execWatchdogExpiry s) = true :=
  (State.endTroupes_memoriesWf _).trans (foldl_keeps h fun _ _ => State.kill_memoriesWf)

theorem State.takeKills_memoriesWf {s : State} (h : s.memoriesWf = true) : s.takeKills.memoriesWf = true := by
  have ht := foldl_keeps (f := State.kill)
    (l := s.lq.troupes.filter fun t => !t.reported && s.inp.kills.any t.cells.contains) h
      fun _ _ => State.kill_memoriesWf
  exact ht

theorem State.writeCompletion_memoriesWf {s : State} {c : Scene} (h : s.memoriesWf = true) :
    (s.writeCompletion c).memoriesWf = true := by
  unfold State.writeCompletion
  split
  · exact h
  · split
    · exact (State.reportFault_memoriesWf _).trans h
    · split
      · exact h
      · exact memoriesOk_with (t := s) (Sparse.setRun_wf _ _ (State.mem_wf h)) h

@[simp] theorem State.sendRecord_memoriesWf (s : State) {c : Scene} {p : Page} :
    (s.sendRecord c p).memoriesWf = s.memoriesWf := rfl

theorem State.endScene_memoriesWf {s : State} {c : Scene} (h : s.memoriesWf = true) :
    (s.endScene c).memoriesWf = true :=
  State.setDone_memoriesWf (q := c.queue) (v := (c.index + 1) % 2 ^ 32) h

theorem execSceneCompletion_memoriesWf {s : State} (h : s.memoriesWf = true) :
    outMemoriesWf (execSceneCompletion s) = true := by
  unfold execSceneCompletion
  split
  · exact h
  · split
    · exact (State.sendRecord_memoriesWf _).trans h
    · rw [outMemoriesWf_next]
      split
      · exact h
      · exact State.endScene_memoriesWf (State.writeCompletion_memoriesWf h)

end Sys2Proof.Machine
end

section
/-!
Memory and the stores stay canonical: pre-emption, saving and restoring a context, and the fabric (R328-R343,
R354-R361).
-/

namespace Sys2Proof.Machine

theorem execPreempt_memoriesWf {s : State} (h : s.memoriesWf = true) :
    outMemoriesWf (execPreempt s) = true := by simp [execPreempt, h]

theorem execHardStop_memoriesWf {s : State} (h : s.memoriesWf = true) : outMemoriesWf (execHardStop s) = true := by
  unfold execHardStop
  extract_lets qs t
  have ht : t.memoriesWf = s.memoriesWf :=
    foldl_memoriesWf _ _ _ fun u _ => foldl_memoriesWf _ _ _ fun v _ => v.forgetReads_memoriesWf
  split
  · exact h
  · exact (foldl_memoriesWf _ _ _ fun u q => u.setQueue_memoriesWf).trans (ht.trans h)

theorem execContextSave_memoriesWf {s : State} (h : s.memoriesWf = true) :
    outMemoriesWf (execContextSave s) = true := by
  have hs := (State.disown_memoriesWf s.closeRuns).trans (State.closeRuns_memoriesWf h)
  unfold execContextSave
  split
  · exact h
  · exact hs

theorem State.cleanRest_memoriesWf {s : State} (h : s.memoriesWf = true) : s.cleanRest.memoriesWf = true := by
  obtain ⟨hm, h0, h1, h2⟩ := memoriesOk_iff.1 h
  exact memoriesOk_iff.2 ⟨hm, Sparse.filter_wf _ h0, Sparse.filter_wf _ h1, Sparse.filter_wf _ h2⟩

theorem State.chargeAway_memoriesWf {s : State} {n : Nat} (h : s.memoriesWf = true) :
    (s.chargeAway n).memoriesWf = true := by
  unfold State.chargeAway
  extract_lets s1 s2
  have h1 : s1.memoriesWf = true := by
    unfold s1
    split
    · exact h
    · exact State.chargeSlot_memoriesWf (State.chargeSlot_memoriesWf h)
  have h2 : s2.memoriesWf = true := foldl_keeps h1 fun _ _ => State.chargeSlot_memoriesWf
  exact h2

theorem State.beginRestore_memoriesWf {s : State} (h : s.memoriesWf = true) : s.beginRestore.memoriesWf = true := by
  unfold State.beginRestore
  extract_lets s1
  have h1 : s1.memoriesWf = true :=
    (State.joinVc_memoriesWf _).trans (State.chargeAway_memoriesWf (State.cleanRest_memoriesWf h))
  exact h1

theorem State.unpark_memoriesWf {s : State} (h : s.memoriesWf = true) : s.unpark.memoriesWf = true :=
  State.receiveAll_memoriesWf h

theorem State.endRestore_memoriesWf {s : State} (h : s.memoriesWf = true) : s.endRestore.memoriesWf = true := by
  unfold State.endRestore
  extract_lets mgr s1
  have h1 : s1.memoriesWf = true := h
  clear_value s1
  split
  · exact State.unpark_memoriesWf h1
  · exact State.unpark_memoriesWf ((State.resumeCell_memoriesWf s1).trans h1)

theorem execContextRestore_memoriesWf {s : State} (h : s.memoriesWf = true) :
    outMemoriesWf (execContextRestore s) = true := by
  unfold execContextRestore
  split
  · split
    · exact State.endRestore_memoriesWf h
    · exact h
  · split
    · exact h
    · split
      · exact (State.reportFault_memoriesWf _).trans h
      · dsimp only
        rw [outMemoriesWf_next]
        split
        · exact State.endRestore_memoriesWf (State.beginRestore_memoriesWf h)
        · exact State.beginRestore_memoriesWf h

@[simp] theorem State.dropOut_memoriesWf (s : State) {r : Req} {flits : Nat} :
    (s.dropOut r flits).memoriesWf = s.memoriesWf := by simp [State.dropOut]

theorem execFabricRefusalArrives_memoriesWf {s : State} (h : s.memoriesWf = true) :
    outMemoriesWf (execFabricRefusalArrives s) = true := by
  unfold execFabricRefusalArrives
  (repeat' split) <;> simp [*]

@[simp] theorem State.routeNext_memoriesWf (s : State) : s.routeNext.memoriesWf = s.memoriesWf := by
  unfold State.routeNext
  (repeat' split) <;> simp [*]

@[simp] theorem State.countFlit_memoriesWf (s : State) {p : Port} :
    (s.countFlit p).memoriesWf = s.memoriesWf := by simp [State.countFlit]

theorem execFlitArbitration_memoriesWf {s : State} (h : s.memoriesWf = true) :
    outMemoriesWf (execFlitArbitration s) = true := by
  unfold execFlitArbitration
  dsimp only
  (repeat' split) <;> simp [*]

@[simp] theorem State.portDown_memoriesWf (s : State) {i : Nat} : (s.portDown i).memoriesWf = s.memoriesWf := by
  refine foldl_memoriesWf _ _ _ fun t f => ?_
  split
  · exact t.enqueueFlits_memoriesWf
  · rfl

@[simp] theorem State.recordErr_memoriesWf (s : State) {e : Nat} :
    (s.recordErr e).memoriesWf = s.memoriesWf := by simp [State.recordErr]

theorem execLinkRetry_memoriesWf {s : State} (h : s.memoriesWf = true) : outMemoriesWf (execLinkRetry s) = true := by
  unfold execLinkRetry
  (repeat' split) <;> simp [*]

theorem execLinkDown_memoriesWf {s : State} (h : s.memoriesWf = true) : outMemoriesWf (execLinkDown s) = true := by
  unfold execLinkDown
  (repeat' split) <;> simp [*]

theorem execLinkRetirement_memoriesWf {s : State} (h : s.memoriesWf = true) :
    outMemoriesWf (execLinkRetirement s) = true := by
  unfold execLinkRetirement
  (repeat' split) <;> simp [*]

@[simp] theorem State.setPortmap_memoriesWf (s : State) {i : Nat} {up spare : Bool} :
    (s.setPortmap i up spare).memoriesWf = s.memoriesWf := rfl

theorem execRoutingTableRewrite_memoriesWf {s : State} (h : s.memoriesWf = true) :
    outMemoriesWf (execRoutingTableRewrite s) = true := by simp [execRoutingTableRewrite, h]

@[simp] theorem State.refusePacket_memoriesWf (s : State) {dev key cls why : Nat} :
    (s.refusePacket dev key cls why).memoriesWf = s.memoriesWf := by simp [State.refusePacket]

@[simp] theorem State.passThrough_memoriesWf (s : State) {x : Transit} :
    (s.passThrough x).memoriesWf = s.memoriesWf := by
  unfold State.passThrough
  (repeat' split) <;> simp [*]

@[simp] theorem State.ingressWalk_memoriesWf {s : State} {hub asid root : Nat} {va : Word}
    {acc : Access} (h : s.memoriesWf = true) :
    (s.ingressWalk hub asid root va acc).1.memoriesWf = true := by
  unfold State.ingressWalk
  (repeat' split) <;> simp [*]

theorem State.compatPa_memoriesWf {s : State} {g : Ingress} {asid : Nat} {va : Word} (h : s.memoriesWf = true) :
    (s.compatPa g asid va).1.memoriesWf = true := by
  unfold State.compatPa
  split
  · exact h
  · split
    · exact h
    · next r _ _ =>
      extract_lets acc x
      have hx : x.1.memoriesWf = true := by
        unfold x
        split
        · exact h
        · exact State.ingressWalk_memoriesWf h
      clear_value x
      split
      · exact hx
      · split
        · exact hx
        · exact hx

@[simp] theorem State.letIn_memoriesWf (s : State) {g : Ingress} {pa : Nat} {op : ReqOp} :
    (s.letIn g pa op).memoriesWf = s.memoriesWf := by simp [State.letIn]

theorem State.ingressApply_memoriesWf {s : State} {g : Ingress} (h : s.memoriesWf = true) :
    (s.ingressApply g).memoriesWf = true := by
  unfold State.ingressApply
  extract_lets enter
  have henter (t : State) (pa : Nat) (op : ReqOp) (ht : t.memoriesWf = true) : (enter t pa op).memoriesWf = true := by
    unfold enter
    split
    · exact (State.letIn_memoriesWf t).trans ht
    · exact (State.refusePacket_memoriesWf t).trans ht
  clear_value enter
  split
  · next asid va _ =>
    have hpa := State.compatPa_memoriesWf (g := g) (asid := asid) (va := va) h
    split <;> rename_i heq <;> rw [heq] at hpa
    · exact (State.refusePacket_memoriesWf _).trans hpa
    · exact henter _ _ _ hpa
  · exact henter _ _ _ h

theorem State.ingressTake_memoriesWf {s : State} {g : Ingress} (h : s.memoriesWf = true) :
    (s.ingressTake g).memoriesWf = true := by
  unfold State.ingressTake
  dsimp only
  split
  · exact h
  · exact State.ingressApply_memoriesWf h

theorem State.comesIn_memoriesWf {s : State} {g : Ingress} (h : s.memoriesWf = true) :
    (s.comesIn g).memoriesWf = true := by
  unfold State.comesIn
  split
  · exact h
  · split
    · exact State.ingressTake_memoriesWf h
    · exact h

theorem execIngressRequestArrival_memoriesWf {s : State} (h : s.memoriesWf = true) :
    outMemoriesWf (execIngressRequestArrival s) = true := by
  unfold execIngressRequestArrival
  split
  · exact (State.passThrough_memoriesWf _).trans h
  · split
    · exact State.ingressTake_memoriesWf h
    · split
      · exact h
      · dsimp only
        split
        · exact State.comesIn_memoriesWf ((State.refusePacket_memoriesWf _).trans h)
        · exact State.comesIn_memoriesWf h

@[simp] theorem State.doorbell_memoriesWf (s : State) {v : Word} :
    (s.doorbell v).memoriesWf = s.memoriesWf := by simp [State.doorbell]

@[simp] theorem State.mailWrite_memoriesWf (s : State) {off : Nat} {v : Word} :
    (s.mailWrite off v).memoriesWf = s.memoriesWf := by simp [State.mailWrite]

@[simp] theorem State.hostStore_memoriesWf (s : State) {bs : List (Nat × Byte)} :
    (s.hostStore bs).memoriesWf = s.memoriesWf := by
  unfold State.hostStore
  (repeat' split) <;> simp [*]

theorem execHostWrite_memoriesWf {s : State} (h : s.memoriesWf = true) : outMemoriesWf (execHostWrite s) = true := by
  unfold execHostWrite
  split
  · exact h
  · extract_lets inp s1 pa
    have h1 : s1.memoriesWf = true := h
    clear_value s1
    split
    · exact h1
    · split
      · exact (State.mailWrite_memoriesWf _).trans h1
      · split
        · exact h1
        · split
          · exact h
          · split
            · exact State.notifyBytes_memoriesWf h1
            · split
              · exact State.notifyBytes_memoriesWf h1
              · exact (State.hostStore_memoriesWf _).trans h1

theorem execHostRead_memoriesWf {s : State} (h : s.memoriesWf = true) : outMemoriesWf (execHostRead s) = true := by
  unfold execHostRead
  (repeat' split) <;> simp [*]

end Sys2Proof.Machine
end

section
/-!
Memory and the stores stay canonical: scrubbers, mailbox commands, resets, bring-up, power, the core's move and the
end of a clk (R384-R408).
-/

namespace Sys2Proof.Machine

@[simp] theorem State.reportAddr_memoriesWf (s : State) {kind a : Nat} :
    (s.reportAddr kind a).memoriesWf = s.memoriesWf := rfl

@[simp] theorem State.scrubReg_memoriesWf (s : State) {w : Nat} :
    (s.scrubReg w).memoriesWf = s.memoriesWf := by simp [State.scrubReg]

@[simp] theorem State.scrubStore_memoriesWf (s : State) {st w : Nat} :
    (s.scrubStore st w).memoriesWf = s.memoriesWf := by simp [State.scrubStore]

@[simp] theorem State.scrubLine_memoriesWf (s : State) {l : Nat} :
    (s.scrubLine l).memoriesWf = s.memoriesWf := by simp [State.scrubLine]

@[simp] theorem State.scrubCell_memoriesWf (s : State) :
    s.scrubCell.memoriesWf = s.memoriesWf := by simp [State.scrubCell]

theorem execScrubStep_memoriesWf {s : State} (h : s.memoriesWf = true) : outMemoriesWf (execScrubStep s) = true := by
  unfold execScrubStep
  dsimp only
  (repeat' split) <;> simp [*]

theorem execCellRetirement_memoriesWf {s : State} (h : s.memoriesWf = true) :
    outMemoriesWf (execCellRetirement s) = true := by
  unfold execCellRetirement
  (repeat' split) <;> simp [*]

@[simp] theorem State.endCommand_memoriesWf (s : State) {r : Nat} : (s.endCommand r).memoriesWf = s.memoriesWf := rfl

theorem execAperture_memoriesWf {s : State} (h : s.memoriesWf = true) :
    outMemoriesWf (execAperture s) = true := by simp [execAperture, h]

theorem execQtable_memoriesWf {s : State} (h : s.memoriesWf = true) :
    outMemoriesWf (execQtable s) = true := by simp [execQtable, h]

theorem execCap_memoriesWf {s : State} (h : s.memoriesWf = true) :
    outMemoriesWf (execCap s) = true := by simp [execCap, h]

theorem execTickper_memoriesWf {s : State} (h : s.memoriesWf = true) :
    outMemoriesWf (execTickper s) = true := by simp [execTickper, h]

@[simp] theorem State.setRes1_memoriesWf (s : State) {n : Nat} : (s.setRes1 n).memoriesWf = s.memoriesWf := rfl

theorem execHalt_memoriesWf {s : State} (h : s.memoriesWf = true) : outMemoriesWf (execHalt s) = true := by
  unfold execHalt
  (repeat' split) <;> simp [*]

@[simp] theorem State.resumeHalted_memoriesWf (s : State) : s.resumeHalted.memoriesWf = s.memoriesWf := rfl

theorem execResume_memoriesWf {s : State} (h : s.memoriesWf = true) : outMemoriesWf (execResume s) = true := by
  unfold execResume
  (repeat' split) <;> simp [*]

@[simp] theorem State.reset_memoriesWf : State.reset.memoriesWf = true := rfl

@[simp] theorem State.resetAll_memoriesWf (s : State) : s.resetAll.memoriesWf = true := State.reset_memoriesWf

theorem execWarmreset_memoriesWf {s : State} (h : s.memoriesWf = true) : outMemoriesWf (execWarmreset s) = true := by
  unfold execWarmreset
  split
  · exact h
  · exact memoriesOk_with (t := s.resetAll) (Sparse.filter_wf _ (State.mem_wf h)) s.resetAll_memoriesWf

theorem execColdReset_memoriesWf {s : State} (h : s.memoriesWf = true) : outMemoriesWf (execColdReset s) = true := by
  unfold execColdReset
  split
  · exact State.resetAll_memoriesWf _
  · exact h

theorem execLinkReset_memoriesWf {s : State} (h : s.memoriesWf = true) :
    outMemoriesWf (execLinkReset s) = true := by simp [execLinkReset, h]

theorem execThermalTrip_memoriesWf {s : State} (h : s.memoriesWf = true) :
    outMemoriesWf (execThermalTrip s) = true := by
  unfold execThermalTrip
  split
  · exact h
  · exact State.resetAll_memoriesWf { s with inp := { s.inp with coolantLost := false, sensors := [] } }

@[simp] theorem State.fail_memoriesWf (s : State) {e : Nat} : (s.fail e).memoriesWf = s.memoriesWf := rfl

@[simp] theorem State.toPhase_memoriesWf (s : State) {p : Nat} : (s.toPhase p).memoriesWf = s.memoriesWf := rfl

@[simp] theorem State.selftest_memoriesWf (s : State) :
    s.selftest.memoriesWf = s.memoriesWf := by simp [State.selftest]

@[simp] theorem State.trainMemory_memoriesWf (s : State) :
    s.trainMemory.memoriesWf = s.memoriesWf := by simp [State.trainMemory]

@[simp] theorem State.setMembers_memoriesWf (s : State) {ms : List (Nat × Nat × Bool)} :
    (s.setMembers ms).memoriesWf = s.memoriesWf := rfl

@[simp] theorem State.standalone_memoriesWf (s : State) : s.standalone.memoriesWf = s.memoriesWf := rfl

@[simp] theorem State.fabricReady_memoriesWf (s : State) {pm : Vector Word 28} {alone : Bool} :
    (s.fabricReady pm alone).memoriesWf = s.memoriesWf := by simp [State.fabricReady]

@[simp] theorem State.trainFabric_memoriesWf (s : State) : s.trainFabric.memoriesWf = s.memoriesWf := by
  unfold State.trainFabric
  dsimp only
  (repeat' split) <;> simp [*]

theorem execBringUpPhase_memoriesWf {s : State} (h : s.memoriesWf = true) :
    outMemoriesWf (execBringUpPhase s) = true := by simp [execBringUpPhase, h]

@[simp] theorem State.settleIsland_memoriesWf (s : State) {i : Nat} :
    (s.settleIsland i).memoriesWf = s.memoriesWf := rfl

@[simp] theorem State.heat_memoriesWf (s : State) {i : Nat} :
    (s.heat i).memoriesWf = s.memoriesWf := by simp [State.heat]

theorem execJunctionSensorRead_memoriesWf {s : State} (h : s.memoriesWf = true) :
    outMemoriesWf (execJunctionSensorRead s) = true := by simp [execJunctionSensorRead, h]

theorem execPowerCapStep_memoriesWf {s : State} (h : s.memoriesWf = true) :
    outMemoriesWf (execPowerCapStep s) = true := by
  unfold execPowerCapStep
  dsimp only
  (repeat' split) <;> simp [*]

theorem execRatioChange_memoriesWf {s : State} (h : s.memoriesWf = true) :
    outMemoriesWf (execRatioChange s) = true := by simp [execRatioChange, h]

@[simp] theorem State.countUnit_memoriesWf (t s : State) {i : Instr} :
    (t.countUnit s i).memoriesWf = t.memoriesWf := by simp [State.countUnit]

@[simp] theorem State.chargeCore_memoriesWf (s : State) {c : Cause} {pc : Word} :
    (s.chargeCore c pc).memoriesWf = s.memoriesWf := rfl

@[simp] theorem State.spendBusy_memoriesWf (s : State) : s.spendBusy.memoriesWf = s.memoriesWf := rfl

@[simp] theorem State.spendEntering_memoriesWf (s : State) {x : Entering} :
    (s.spendEntering x).memoriesWf = s.memoriesWf := rfl

@[simp] theorem State.spendFetch_memoriesWf (s : State) {u : FetchedUnit} :
    (s.spendFetch u).memoriesWf = s.memoriesWf := rfl

@[simp] theorem State.reinjected_memoriesWf (s : State) :
    s.reinjected.memoriesWf = s.memoriesWf := by simp [State.reinjected]

@[simp] theorem State.headUnit_memoriesWf (s : State) {u : FetchedUnit} :
    (s.headUnit u).state.memoriesWf = s.memoriesWf := by
  unfold State.headUnit
  (repeat' split) <;> simp [*]

@[simp] theorem State.runningMove_memoriesWf (s : State) : (s.runningMove).state.memoriesWf = s.memoriesWf := by
  unfold State.runningMove
  dsimp only
  (repeat' split) <;> simp [*]

@[simp] theorem State.coreMove_memoriesWf (s : State) : (s.coreMove).state.memoriesWf = s.memoriesWf := by
  unfold State.coreMove
  (repeat' split) <;> simp [*]

@[simp] theorem State.badWord_memoriesWf {s : State} (h : s.memoriesWf = true) : s.badWord.memoriesWf = true := by
  unfold State.badWord
  dsimp only
  (repeat' split) <;> simp [*]

@[simp] theorem State.raiseClocks_memoriesWf (s : State) :
    s.raiseClocks.memoriesWf = s.memoriesWf := by simp [State.raiseClocks]

@[simp] theorem State.forgetOld_memoriesWf (s : State) : s.forgetOld.memoriesWf = s.memoriesWf := rfl

@[simp] theorem State.peerAccess_memoriesWf (s : State) {x : Nat × Nat × Req} :
    (s.peerAccess x).memoriesWf = s.memoriesWf := by simp [State.peerAccess]

@[simp] theorem State.takeInputs_memoriesWf (s : State) : s.takeInputs.memoriesWf = s.memoriesWf := by
  unfold State.takeInputs
  extract_lets s1 s2 inp s3 s4
  have h1 : s1.memoriesWf = s.memoriesWf := foldl_memoriesWf _ _ _ fun t a => by
    split
    · exact t.endRank_memoriesWf
    · exact t.arrive_memoriesWf
  have h2 : s2.memoriesWf = s1.memoriesWf := foldl_memoriesWf _ _ _ fun t _ => t.bump_memoriesWf
  have h3 : s3.memoriesWf = s2.memoriesWf := foldl_memoriesWf _ _ _ fun t _ => t.peerAccess_memoriesWf
  have h4 : s4.memoriesWf = s3.memoriesWf := s3.setMembers_memoriesWf
  exact h4.trans (h3.trans (h2.trans h1))

theorem State.endClk_memoriesWf {s : State} (h : s.memoriesWf = true) : s.endClk.memoriesWf = true := by
  unfold State.endClk
  extract_lets s0 s1
  have h0 : s0.memoriesWf = true := foldl_keeps h fun _ _ => State.endPort_memoriesWf
  have h1 : s1.memoriesWf = true := by
    unfold s1
    rw [State.takeInputs_memoriesWf, State.forgetOld_memoriesWf, State.raiseClocks_memoriesWf, State.dropDead_memoriesWf,
      State.stopQueues_memoriesWf]
    exact State.accountClk_memoriesWf h0
  exact h1

theorem State.edge_memoriesWf {s : State} (h : s.memoriesWf = true) : s.edge.memoriesWf = true := by
  unfold State.edge
  extract_lets s1
  have h1 : s1.memoriesWf = true := by
    unfold s1
    split
    · exact (State.readyStill_memoriesWf _).trans (State.takeKills_memoriesWf (State.endClk_memoriesWf h))
    · exact h
  exact h1

end Sys2Proof.Machine
end

section
/-!
Memory and the stores stay canonical in every step (R43, R105, R252): what an instruction, a word or an event does,
a whole step, and O58.
-/

namespace Sys2Proof.Machine

/-- What an instruction, an engine word or an event does keeps memory and the stores canonical. -/
theorem exec_memoriesWf {i : Instr} {s : State} (h : s.memoriesWf = true) : outMemoriesWf (exec i s) = true := by
  unfold exec
  cases i with
  | add | sub | and | or | xor | andn | shl | shr | sar | mul | mulh | mulhu | div | divu | rem | remu | min
  | max | minu | maxu | ceq | cne | clt | cltu | cle | cleu | rank | select | sext | bext =>
    exact execAlu_memoriesWf h
  | sel => exact execSel_memoriesWf h
  | popc | clz | ctz | brev => exact execUnary_memoriesWf h
  | addi | andi | ori | xori | shli | shri | sari | slti | sltiu | muli => exact execImm_memoriesWf h
  | addpc => exact execAddpc_memoriesWf h
  | j => exact (execJ_memoriesWf s).trans h
  | call => exact execCall_memoriesWf h
  | bez | bnz | bltz => exact execBranchOn_memoriesWf h
  | bknone => exact execBknone_memoriesWf h
  | bkany => exact execBkany_memoriesWf h
  | bkall => exact execBkall_memoriesWf h
  | loop => exact execLoop_memoriesWf h
  | jr => exact execJr_memoriesWf h
  | callr => exact execCallr_memoriesWf h
  | endI => exact execEndI_memoriesWf h
  | nop => exact (execNop_memoriesWf s).trans h
  | syscall => exact (execSyscall_memoriesWf s).trans h
  | rett => exact (execRett_memoriesWf s).trans h
  | ien => exact execIen_memoriesWf h
  | idis => exact execIdis_memoriesWf h
  | wfi => exact execWfi_memoriesWf h
  | csrr => exact execCsrr_memoriesWf h
  | csrw => exact execCsrw_memoriesWf h
  | csrs => exact execCsrs_memoriesWf h
  | csrc => exact execCsrc_memoriesWf h
  | csrx => exact execCsrx_memoriesWf h
  | zset => exact execZset_memoriesWf h
  | zsetW => exact execZsetW_memoriesWf h
  | zget => exact execZget_memoriesWf h
  | zpend => exact execZpend_memoriesWf h
  | ld | ldw => exact execLoad_memoriesWf h
  | st | stw => exact execStore_memoriesWf h
  | vld => exact execVld_memoriesWf h
  | vst => exact execVst_memoriesWf h
  | oqld => exact execOqld_memoriesWf h
  | aadd | aand | aor | axor | amin | amax | aminu | amaxu | aswap | aaddW | aandW | aorW | axorW | aminW
  | amaxW | aminuW | amaxuW | aswapW | afaddW => exact execAtomic_memoriesWf h
  | cas | casW => exact execCompare_memoriesWf h
  | vpush => exact execVpush_memoriesWf h
  | vpop => exact execVpop_memoriesWf h
  | vpopnb => exact execVpopnb_memoriesWf h
  | rcsnap | rcread => exact execRoute_memoriesWf h
  | tnew => exact execTnew_memoriesWf h
  | tfree => exact execTfree_memoriesWf h
  | tstate => exact execTstate_memoriesWf h
  | tsetrdy => exact execTsetrdy_memoriesWf h
  | twait => exact execTwait_memoriesWf h
  | rgset => exact execRgset_memoriesWf h
  | rwfill => exact execRwfill_memoriesWf h
  | rwfree => exact execRwfree_memoriesWf h
  | rclaim => exact execRclaim_memoriesWf h
  | rrelease => exact execRrelease_memoriesWf h
  | abump => exact execAbump_memoriesWf h
  | amark => exact execAmark_memoriesWf h
  | arelmark => exact execArelmark_memoriesWf h
  | aring => exact execAring_memoriesWf h
  | afree => exact execAfree_memoriesWf h
  | astate => exact execAstate_memoriesWf h
  | fence => exact execFence_memoriesWf h
  | bararr => exact execBararr_memoriesWf h
  | barwait => exact execBarwait_memoriesWf h
  | barsync => exact execBarsync_memoriesWf h
  | lend => exact execLend_memoriesWf h
  | latld => exact execLatld_memoriesWf h
  | qadd => exact execQadd_memoriesWf h
  | qread => exact execQread_memoriesWf h
  | qwait => exact execQwait_memoriesWf h
  | qterm => exact execQterm_memoriesWf h
  | vfadd | vfsub | vfmul | vfmin | vfmax | vbadd | vbsub | vbmul | vbmin | vbmax | viadd | visub | vimul
  | vimulh | vimin | vimax | viminu | vimaxu | viadds | visubs | vand | vor | vxor | vandn | vshl | vshr
  | vsar | vfceq | vfclt | vfcle | viceq | viclt | vicltu => exact execLanes2_memoriesWf h
  | vfma | vfms | vfnma | vbfma | vsel => exact execLanes3_memoriesWf h
  | vfabs | vfneg | viabs | vnot | vpopc | vclz | frcp | frsq | fexp2 | flog2 | vmov => exact execLanes1_memoriesWf h
  | vcvtfh | vcvthf | vcvtfs | vcvtsf | vcvtfi | vcvtif | vcvtfu | vcvtuf | vrnd => exact execConv_memoriesWf h
  | mpush => exact execMpush_memoriesWf h
  | minv => exact execMinv_memoriesWf h
  | mpop => exact execMpop_memoriesWf h
  | vfrsum | vfrmax | vfrmin | virsum | virmax | virmin | vrand | vror => exact execReduce_memoriesWf h
  | vperm | vcompress => exact execMoveBy_memoriesWf h
  | vbcast | vrot | vslup | vsldn => exact execMove_memoriesWf h
  | vzip | vunzip => exact execMerge_memoriesWf h
  | vexpand => exact execVexpand_memoriesWf h
  | vsplat => exact execVsplat_memoriesWf h
  | vins => exact execVins_memoriesWf h
  | vext => exact execVext_memoriesWf h
  | viota => exact execViota_memoriesWf h
  | vmaskrd => exact execVmaskrd_memoriesWf h
  | vmaskwr => exact execVmaskwr_memoriesWf h
  | enqw => exact execEnqw_memoriesWf h
  | enqg => exact execEnqg_memoriesWf h
  | enqm => exact execEnqm_memoriesWf h
  | brk => exact (execBrk_memoriesWf s).trans h
  | tmark => exact execTmark_memoriesWf h
  | accrd => exact execAccrd_memoriesWf h
  | enrgrd => exact execEnrgrd_memoriesWf h
  | lit | ext | dup | drop | swap | overI | eshl | zpush => exact stackWord_memoriesWf h
  | eadd | esub | emul | eor => exact binaryWord_memoriesWf h
  | mpass => exact execMpass_memoriesWf h
  | mpassseg => exact execMpassseg_memoriesWf h
  | mpassgrp => exact execMpassgrp_memoriesWf h
  | mdrain => exact execMdrain_memoriesWf h
  | mzero => exact execMzero_memoriesWf h
  | ccopy => exact execCcopy_memoriesWf h
  | cgather => exact execCgather_memoriesWf h
  | cfill => exact execCfill_memoriesWf h
  | chint => exact execChint_memoriesWf h
  | xwrite => exact execXwrite_memoriesWf h
  | xread => exact execXread_memoriesWf h
  | xcoll => exact execXcoll_memoriesWf h
  | xroute => exact execXroute_memoriesWf h
  | xrlinv => exact execXrlinv_memoriesWf h
  | controlNop => exact execControlNop_memoriesWf h
  | fenceq => exact execFenceq_memoriesWf h
  | gate => exact execGate_memoriesWf h
  | qgate => exact execQgate_memoriesWf h
  | signal => exact execSignal_memoriesWf h
  | mark => exact execMark_memoriesWf h
  | capstart => exact execCapstart_memoriesWf h
  | capstop => exact execCapstop_memoriesWf h
  | resultLands => exact execResultLands_memoriesWf h
  | storeLoadDataArrival => exact execStoreLoadDataArrival_memoriesWf h
  | longLatencyReturn => exact execLongLatencyReturn_memoriesWf h
  | vatReply => exact execVatReply_memoriesWf h
  | trapEntry => exact execTrapEntry_memoriesWf h
  | interruptEntry => exact execInterruptEntry_memoriesWf h
  | timerExpiry => exact execTimerExpiry_memoriesWf h
  | tmrcntWrite => exact execTmrcntWrite_memoriesWf h
  | bankbindWrite => exact execBankbindWrite_memoriesWf h
  | fxdata => exact execFxdata_memoriesWf h
  | capdata => exact execCapdata_memoriesWf h
  | capclr => exact execCapclr_memoriesWf h
  | cueirqClear => exact execCueirqClear_memoriesWf h
  | qcmdResume | qcmdDiscard | qcmdReset => exact qcmdStep_memoriesWf h
  | xinvPage | xinvAsid | xinvAll => exact xinvStep_memoriesWf h
  | watchpointChange => exact execWatchpointChange_memoriesWf h
  | warpop => exact execWarpop_memoriesWf h
  | registerWrite => exact execRegisterWrite_memoriesWf h
  | matrixChunk => exact execMatrixChunk_memoriesWf h
  | entryCompletion => exact execEntryCompletion_memoriesWf h
  | chainedEntryStart => exact execChainedEntryStart_memoriesWf h
  | copyTurn => exact execCopyTurn_memoriesWf h
  | transferChunk => exact execTransferChunk_memoriesWf h
  | signalCompletion => exact execSignalCompletion_memoriesWf h
  | controlEntryCompletion => exact execControlEntryCompletion_memoriesWf h
  | deferredReadiness => exact execDeferredReadiness_memoriesWf h
  | cueTermEvaluation => exact execCueTermEvaluation_memoriesWf h
  | xcollFiring => exact execXcollFiring_memoriesWf h
  | posting => exact execPosting_memoriesWf h
  | contributionArrival => exact execContributionArrival_memoriesWf h
  | receptionCueIncrement => exact execReceptionCueIncrement_memoriesWf h
  | backPressureRelease => exact execBackPressureRelease_memoriesWf h
  | routeRowScored => exact execRouteRowScored_memoriesWf h
  | writeAppliedAtHome => exact execWriteAppliedAtHome_memoriesWf h
  | readAnsweredAtHome => exact execReadAnsweredAtHome_memoriesWf h
  | frontierSend => exact execFrontierSend_memoriesWf h
  | vatHomeOperation => exact execVatHomeOperation_memoriesWf h
  | vatArrivalAtPairingPoint => exact execVatArrivalAtPairingPoint_memoriesWf h
  | pairingWindowExpiry => exact execPairingWindowExpiry_memoriesWf h
  | clockRenormalisation => exact execClockRenormalisation_memoriesWf h
  | pageWalk => exact execPageWalk_memoriesWf h
  | notify => exact execNotify_memoriesWf h
  | remoteNotify => exact execRemoteNotify_memoriesWf h
  | mapperRun => exact execMapperRun_memoriesWf h
  | packetRead => exact execPacketRead_memoriesWf h
  | troupePlacement => exact execTroupePlacement_memoriesWf h
  | tickEdge => exact execTickEdge_memoriesWf h
  | deadlineExpiry => exact execDeadlineExpiry_memoriesWf h
  | watchdogExpiry => exact execWatchdogExpiry_memoriesWf h
  | cellCompletion => exact execCellCompletion_memoriesWf h
  | sceneCompletion => exact execSceneCompletion_memoriesWf h
  | preempt => exact execPreempt_memoriesWf h
  | hardStop => exact execHardStop_memoriesWf h
  | contextSave => exact execContextSave_memoriesWf h
  | contextRestore => exact execContextRestore_memoriesWf h
  | debughalt => exact execDebughalt_memoriesWf h
  | stop => exact execStop_memoriesWf h
  | watchReportEntry => exact execWatchReportEntry_memoriesWf h
  | sample => exact execSample_memoriesWf h
  | fabricRefusalArrives => exact execFabricRefusalArrives_memoriesWf h
  | ingressRequestArrival => exact execIngressRequestArrival_memoriesWf h
  | flitArbitration => exact execFlitArbitration_memoriesWf h
  | linkRetry => exact execLinkRetry_memoriesWf h
  | linkDown => exact execLinkDown_memoriesWf h
  | linkRetirement => exact execLinkRetirement_memoriesWf h
  | routingTableRewrite => exact execRoutingTableRewrite_memoriesWf h
  | hostWrite => exact execHostWrite_memoriesWf h
  | hostRead => exact execHostRead_memoriesWf h
  | scrubStep => exact execScrubStep_memoriesWf h
  | cellRetirement => exact execCellRetirement_memoriesWf h
  | aperture => exact execAperture_memoriesWf h
  | qtable => exact execQtable_memoriesWf h
  | cap => exact execCap_memoriesWf h
  | tickper => exact execTickper_memoriesWf h
  | halt => exact execHalt_memoriesWf h
  | resume => exact execResume_memoriesWf h
  | warmreset => exact execWarmreset_memoriesWf h
  | coldReset => exact execColdReset_memoriesWf h
  | linkReset => exact execLinkReset_memoriesWf h
  | bringUpPhase => exact execBringUpPhase_memoriesWf h
  | junctionSensorRead => exact execJunctionSensorRead_memoriesWf h
  | thermalTrip => exact execThermalTrip_memoriesWf h
  | powerCapStep => exact execPowerCapStep_memoriesWf h
  | ratioChange => exact execRatioChange_memoriesWf h
  | writeAcknowledged => exact execWriteAcknowledged_memoriesWf h
  | operandQueueRowLands => exact execOperandQueueRowLands_memoriesWf h

/-! ### One step -/

@[simp] theorem State.withWork_memoriesWf (t s : State) : (t.withWork s).memoriesWf = t.memoriesWf := rfl

@[simp] theorem State.countIssued_memoriesWf (t s : State) {i : Instr} :
    (t.countIssued s i).memoriesWf = t.memoriesWf := by
  simp [State.countIssued]

@[simp] theorem State.keepRest_memoriesWf (l : List Agent) (u : State) : (u.keepRest l).memoriesWf = u.memoriesWf := rfl

/-- What follows a next state and leaves the memories alone leaves the outcome's memories alone. -/
theorem after_memoriesWf {o : Out} {f : State → State} (hf : ∀ u, (f u).memoriesWf = u.memoriesWf) :
    outMemoriesWf (after o f) = outMemoriesWf o := by
  cases o with
  | next u => exact hf u
  | fault r => rfl
  | refused r => rfl

theorem coreStep_memoriesWf {s : State} (h : s.memoriesWf = true) : outMemoriesWf (coreStep s) = true := by
  have hmove := s.coreMove_memoriesWf.trans h
  unfold coreStep
  cases hm : s.coreMove with
  | rest t =>
    rw [hm] at hmove
    exact hmove
  | event i t =>
    rw [hm] at hmove
    exact (after_memoriesWf fun u => u.withWork_memoriesWf s).trans (exec_memoriesWf hmove)
  | run i t =>
    rw [hm] at hmove
    have hafter (u : State) : ((u.countIssued t i).withWork s).memoriesWf = u.memoriesWf :=
      (State.withWork_memoriesWf _ s).trans (u.countIssued_memoriesWf t)
    exact (after_memoriesWf hafter).trans (exec_memoriesWf hmove)

theorem wordStep_memoriesWf {q : Nat} {s : State} (h : s.memoriesWf = true) : outMemoriesWf (wordStep q s) = true := by
  unfold wordStep
  split
  · exact exec_memoriesWf h
  · exact State.badWord_memoriesWf h

/-- A step goes on with canonical memories where it begins with them: each agent of a clk keeps them. -/
theorem step_memoriesWf {s : State} (h : s.memoriesWf = true) : outMemoriesWf (step s) = true := by
  unfold step
  split
  · exact coreStep_memoriesWf h
  · exact (after_memoriesWf (State.keepRest_memoriesWf _)).trans (wordStep_memoriesWf h)
  · exact (after_memoriesWf (State.keepRest_memoriesWf _)).trans (exec_memoriesWf h)
  · exact State.edge_memoriesWf h

end Sys2Proof.Machine

namespace Sys2Proof.Proofs

open Sys2Proof.Machine Sys2Proof.Claims

/-- Settles O58: whatever a step does, it resets memory and the stores or writes them through operations
that keep them canonical. -/
theorem keepsMemories : Obligations.KeepsMemories := by
  unfold Obligations.KeepsMemories
  intro s t h hstep
  have hout := step_memoriesWf h
  rw [hstep] at hout
  exact hout

end Sys2Proof.Proofs
end

section
/-!
Words and their fields: what the encoder writes is a row of fields one above the other, from which the decoder reads
each field by itself (R58, R70).
-/

namespace Sys2Proof

/-! ### Words as fields -/

/-- A number laid out in fields, each a width and a value, the lowest field first. -/
def pack : List (Nat × Nat) → Nat
  | [] => 0
  | (n, v) :: fs => v % 2 ^ n + 2 ^ n * pack fs

theorem testBit_bits (w lo n i : Nat) : (bits w lo n).testBit i = (decide (i < n) && w.testBit (lo + i)) := by
  rw [bits, Nat.testBit_mod_two_pow, Nat.testBit_div_two_pow, Nat.add_comm]

theorem testBit_pack (n v : Nat) (fs : List (Nat × Nat)) (i : Nat) :
    (pack ((n, v) :: fs)).testBit i = if i < n then v.testBit i else (pack fs).testBit (i - n) := by
  rw [pack, Nat.add_comm, Nat.testBit_two_pow_mul_add _ (Nat.mod_lt _ (Nat.two_pow_pos n)), Nat.testBit_mod_two_pow]
  split <;> simp [*]

theorem bits_add (w p n m : Nat) : bits w p (n + m) = bits w p n + 2 ^ n * bits w (p + n) m := by
  unfold bits
  rw [Nat.pow_add, Nat.mod_mul, Nat.pow_add, Nat.div_div_eq_div_mul]

theorem bits_of_lt {v n : Nat} (h : v < 2 ^ n) : bits v 0 n = v := by
  rw [bits, Nat.pow_zero, Nat.div_one, Nat.mod_eq_of_lt h]

/-- A span above the first field is a span of the fields behind it. -/
theorem bits_pack_above {n p : Nat} (v m : Nat) (fs : List (Nat × Nat)) (h : n ≤ p) :
    bits (pack ((n, v) :: fs)) p m = bits (pack fs) (p - n) m := by
  refine Nat.eq_of_testBit_eq fun i => ?_
  rw [testBit_bits, testBit_bits, testBit_pack, if_neg (by omega), Nat.sub_add_comm h]

/-- A span within the first field is a span of its value. -/
theorem bits_pack_within {n p m : Nat} (v : Nat) (fs : List (Nat × Nat)) (h : p + m ≤ n) :
    bits (pack ((n, v) :: fs)) p m = bits v p m := by
  refine Nat.eq_of_testBit_eq fun i => ?_
  rw [testBit_bits, testBit_bits, testBit_pack]
  by_cases hi : i < m
  · rw [if_pos (by omega)]
  · simp [hi]

/-- A span across the end of the first field holds c where both its parts hold their part of c. -/
theorem bits_pack_across_eq_iff {n p m : Nat} (v c : Nat) (fs : List (Nat × Nat)) (hp : p < n) (hm : n < p + m) :
    bits (pack ((n, v) :: fs)) p m = c ↔
      bits v p (n - p) = c % 2 ^ (n - p) ∧ bits (pack fs) 0 (m - (n - p)) = c / 2 ^ (n - p) := by
  have hsplit : m = n - p + (m - (n - p)) := by omega
  have hlow : bits v p (n - p) < 2 ^ (n - p) := Nat.mod_lt _ (Nat.two_pow_pos _)
  rw [hsplit, bits_add, bits_pack_within v fs (by omega), bits_pack_above v _ fs (by omega), ← hsplit,
    Nat.add_sub_of_le hp.le, Nat.sub_self]
  constructor
  · rintro rfl
    rw [Nat.add_mul_mod_self_left, Nat.mod_eq_of_lt hlow, Nat.add_mul_div_left _ _ (Nat.two_pow_pos _),
      Nat.div_eq_of_lt hlow, Nat.zero_add]
    exact ⟨rfl, rfl⟩
  · rintro ⟨h1, h2⟩
    rw [h1, h2, Nat.mod_add_div]

theorem toNat_lt_of_le {n k : Nat} (v : BitVec n) (h : 2 ^ n ≤ k) : v.toNat < k := v.isLt.trans_le h

theorem ofNat_bits_toNat {n : Nat} (v : BitVec n) : BitVec.ofNat n (bits v.toNat 0 n) = v := by
  rw [bits_of_lt v.isLt, BitVec.ofNat_toNat, BitVec.setWidth_eq]

theorem bits_bit (b : Bool) : bits (bit b) 0 1 = bit b := by cases b <;> rfl

theorem bit_beq_one (b : Bool) : (bit b == 1) = b := by cases b <;> rfl

theorem bit_false : bit false = 0 := rfl

theorem bit_lt_two (b : Bool) : bit b < 2 := by cases b <;> decide

/-! ### The formats (R58) -/

theorem encodeA_eq_pack {base d a b : Nat} (x y : Bool) (hlow : base % 2 ^ 26 < 2 ^ 9)
    (hd : d < 2 ^ 5) (ha : a < 2 ^ 5) (hb : b < 2 ^ 5) :
    encodeA base d a b x y % 4294967296 =
      pack [(9, base % 2 ^ 9), (1, bit y), (1, bit x), (5, b), (5, a), (5, d), (6, base / 2 ^ 26)] := by
  have hx := bit_lt_two x
  have hy := bit_lt_two y
  simp only [pack, encodeA]
  omega

theorem encodeV_eq_pack {base d a b l : Nat} (x y : Bool) (hlow : base % 2 ^ 26 < 2 ^ 8) (hfn : base % 2 ^ 4 = 0)
    (hd : d < 2 ^ 6) (ha : a < 2 ^ 6) (hb : b < 2 ^ 6) (hl : l < 2 ^ 2) :
    encodeV base d a b x y l % 4294967296 =
      pack [(2, l), (1, bit y), (1, bit x), (4, base % 2 ^ 8 / 2 ^ 4), (6, b), (6, a), (6, d), (6, base / 2 ^ 26)] := by
  have hx := bit_lt_two x
  have hy := bit_lt_two y
  simp only [pack, encodeV]
  omega

/-- The conversions hold their rounding mode in the field of vb (R67, R143). -/
theorem encodeV_mode_eq_pack {base d a l : Nat} (f : Bool) (m : BitVec 3) (x y : Bool) (hlow : base % 2 ^ 26 < 2 ^ 8)
    (hfn : base % 2 ^ 4 = 0) (hd : d < 2 ^ 6) (ha : a < 2 ^ 6) (hl : l < 2 ^ 2) :
    encodeV base d a (bit f * 8 + m.toNat) x y l % 4294967296 =
      pack [(2, l), (1, bit y), (1, bit x), (4, base % 2 ^ 8 / 2 ^ 4), (3, m.toNat), (1, bit f), (2, 0), (6, a), (6, d),
        (6, base / 2 ^ 26)] := by
  have hf := bit_lt_two f
  have hm := m.isLt
  rw [encodeV_eq_pack x y hlow hfn hd ha (by omega) hl]
  simp only [pack]
  omega

theorem encodeMem_eq_pack {major d : Nat} (m : MemArg) (hd : d < 2 ^ 5) :
    encodeMem major d m % 4294967296 = pack [(9, m.off.toNat), (2, m.sp.toNat), (3, m.mreg.toNat), (2, m.mode.toNat),
      (5, m.base.toNat), (5, d), (6, major)] := by
  simp only [pack, encodeMem]
  omega

/-- Formats I and E with 16 bits below the registers. -/
theorem encodeI_imm16_eq_pack {base d a : Nat} (v : BitVec 16) (hlow : base % 2 ^ 26 = 0)
    (hd : d < 2 ^ 5) (ha : a < 2 ^ 5) :
    encodeI base d a v.toNat % 4294967296 = pack [(16, v.toNat), (5, a), (5, d), (6, base / 2 ^ 26)] := by
  simp only [pack, encodeI]
  omega

/-- Format B: the register field holds a register or the branch's fn. -/
theorem encodeI_imm21_eq_pack {base d : Nat} (v : BitVec 21) (hlow : base % 2 ^ 21 = 0)
    (hd : base / 2 ^ 21 % 2 ^ 5 + d < 2 ^ 5) :
    encodeI base d 0 v.toNat % 4294967296 =
      pack [(21, v.toNat), (5, base / 2 ^ 21 % 2 ^ 5 + d), (6, base / 2 ^ 26)] := by
  simp only [pack, encodeI]
  omega

/-- A CSR number below its fn (R100). -/
theorem encodeI_csr_eq_pack {base d a : Nat} (c : BitVec 12) (hlow : base % 2 ^ 12 = 0) (hfn : base % 2 ^ 26 < 2 ^ 16)
    (hd : d < 2 ^ 5) (ha : a < 2 ^ 5) :
    encodeI base d a c.toNat % 4294967296 =
      pack [(12, c.toNat), (4, base % 2 ^ 16 / 2 ^ 12), (5, a), (5, d), (6, base / 2 ^ 26)] := by
  simp only [pack, encodeI]
  omega

/-- A shift amount or a cue below its fn (R80, R124). -/
theorem encodeI_imm6_eq_pack {base d a : Nat} (n : BitVec 6) (hlow : base % 2 ^ 6 = 0) (hfn : base % 2 ^ 26 < 2 ^ 16)
    (hd : d < 2 ^ 5) (ha : a < 2 ^ 5) :
    encodeI base d a n.toNat % 4294967296 =
      pack [(6, n.toNat), (10, base % 2 ^ 16 / 2 ^ 6), (5, a), (5, d), (6, base / 2 ^ 26)] := by
  simp only [pack, encodeI]
  omega

theorem encodeI_qterm_eq_pack {a : Nat} (t : BitVec 4) (ha : a < 2 ^ 5) :
    encodeI 0xc40000c0 0 a (t.toNat * 1024) % 4294967296 =
      pack [(6, 0), (4, 3), (4, t.toNat), (2, 0), (5, a), (5, 0), (6, 0x31)] := by
  simp only [pack, encodeI]
  omega

theorem encodeI_enqg_eq_pack (q a : BitVec 5) (n : BitVec 2) :
    encodeI 0xf0080000 q.toNat 0 (a.toNat + n.toNat * 32) % 4294967296 =
      pack [(5, a.toNat), (2, n.toNat), (9, 0), (5, 8), (5, q.toNat), (6, 0x3C)] := by
  simp only [pack, encodeI]
  omega

theorem encodeI_enqm_eq_pack (q a n : BitVec 5) (p : BitVec 2) :
    encodeI 0xf4000000 q.toNat 0 (a.toNat + p.toNat * 32 + n.toNat * 128) % 4294967296 =
      pack [(5, a.toNat), (2, p.toNat), (5, n.toNat), (9, 0), (5, q.toNat), (6, 0x3D)] := by
  simp only [pack, encodeI]
  omega

end Sys2Proof
end

section
/-!
The instruction word: each row of the opcode map is read back from its fields (R58, R67).
-/

namespace Sys2Proof

/-! ### The rows of the opcode map (R67) -/

/-- Groups of rows, by the format of their word and the range of their major opcode. -/
inductive RowGroup where
  /-- Format A of majors 0x01-0x1A: scalar, jumps, system and shape registers. -/
  | scalar
  /-- Format A of majors 0x28-0x2B: atomics, CAS, vats, route counters. -/
  | memory
  /-- Format A of majors 0x2E-0x3E: tiles, rings, allocators, barriers, accounts. -/
  | service
  /-- Format V of majors 0x32-0x34: floating-point and integer lanes. -/
  | float
  /-- Format V of majors 0x35-0x38: bitwise lanes, elementary functions, conversions, compares. -/
  | lane
  /-- Format V of majors 0x39-0x3B: reductions and lane moves. -/
  | move
  /-- Formats I, B, M and E, and the cue board. -/
  | field

/-- The group of a control-core instruction. -/
def rowGroup : Instr → Option RowGroup
  | .add .. | .sub .. | .and .. | .or .. | .xor .. | .andn .. | .shl .. | .shr .. | .sar .. | .mul .. | .mulh ..
  | .mulhu .. | .div .. | .divu .. | .rem .. | .remu .. | .min .. | .max .. | .minu .. | .maxu .. | .ceq .. | .cne ..
  | .clt .. | .cltu .. | .cle .. | .cleu .. | .sel .. | .popc .. | .clz .. | .ctz .. | .rank .. | .select ..
  | .sext .. | .bext .. | .brev .. | .jr .. | .callr .. | .zset .. | .zsetW .. | .zget .. | .zpend .. | .endI ..
  | .nop .. | .syscall .. | .rett .. | .ien .. | .idis .. | .wfi .. => some .scalar
  | .aadd .. | .aand .. | .aor .. | .axor .. | .amin .. | .amax .. | .aminu .. | .amaxu .. | .aswap .. | .aaddW ..
  | .aandW .. | .aorW .. | .axorW .. | .aminW .. | .amaxW .. | .aminuW .. | .amaxuW .. | .aswapW .. | .afaddW ..
  | .cas .. | .casW .. | .vpush .. | .vpop .. | .vpopnb .. | .rcsnap .. | .rcread .. => some .memory
  | .tnew .. | .tfree .. | .tstate .. | .tsetrdy .. | .twait .. | .rgset .. | .rwfill .. | .rwfree .. | .rclaim ..
  | .rrelease .. | .abump .. | .amark .. | .arelmark .. | .aring .. | .afree .. | .astate .. | .fence .. | .bararr ..
  | .barwait .. | .barsync .. | .lend .. | .latld .. | .tmark .. | .accrd .. | .enrgrd .. | .brk .. => some .service
  | .vfadd .. | .vfsub .. | .vfmul .. | .vfma .. | .vfms .. | .vfnma .. | .vfmin .. | .vfmax .. | .vfabs ..
  | .vfneg .. | .vbadd .. | .vbsub .. | .vbmul .. | .vbfma .. | .vbmin .. | .vbmax .. | .viadd .. | .visub ..
  | .vimul .. | .vimulh .. | .vimin .. | .vimax .. | .viminu .. | .vimaxu .. | .viabs .. | .viadds ..
  | .visubs .. => some .float
  | .vand .. | .vor .. | .vxor .. | .vandn .. | .vshl .. | .vshr .. | .vsar .. | .vnot .. | .vpopc .. | .vclz ..
  | .frcp .. | .frsq .. | .fexp2 .. | .flog2 .. | .vcvtfh .. | .vcvthf .. | .vcvtfs .. | .vcvtsf .. | .vcvtfi ..
  | .vcvtif .. | .vcvtfu .. | .vcvtuf .. | .vrnd .. | .vfceq .. | .vfclt .. | .vfcle .. | .viceq .. | .viclt ..
  | .vicltu .. | .mpush .. | .minv .. | .mpop .. => some .lane
  | .vfrsum .. | .vfrmax .. | .vfrmin .. | .virsum .. | .virmax .. | .virmin .. | .vrand .. | .vror .. | .vperm ..
  | .vbcast .. | .vrot .. | .vslup .. | .vsldn .. | .vzip .. | .vunzip .. | .vcompress .. | .vexpand .. | .vmov ..
  | .vsplat .. | .vins .. | .vext .. | .viota .. | .vsel .. | .vmaskrd .. | .vmaskwr .. => some .move
  | .addi .. | .andi .. | .ori .. | .xori .. | .shli .. | .shri .. | .sari .. | .slti .. | .sltiu .. | .addpc ..
  | .muli .. | .j .. | .call .. | .bez .. | .bnz .. | .bltz .. | .bknone .. | .bkany .. | .bkall .. | .loop ..
  | .csrr .. | .csrw .. | .csrs .. | .csrc .. | .csrx .. | .ld .. | .ldw .. | .st .. | .stw .. | .vld .. | .vst ..
  | .oqld .. | .qadd .. | .qread .. | .qwait .. | .qterm .. | .enqw .. | .enqg .. | .enqm .. => some .field
  | _ => none

/-- The row of R67 that an instruction's own word belongs to, under its prefixes, is that instruction. -/
def RowReadsBack (i : Instr) : Prop := decodeRow (encodeWord i % 4294967296) i.ximm i.ord = some i

theorem rowReadsBack_scalar {i : Instr} (h : rowGroup i = some .scalar) : RowReadsBack i := by
  cases i <;> cases h
  all_goals delta RowReadsBack encodeWord Instr.ximm Instr.ord
  all_goals simp only [decodeRow, fld, flag, encodeA_eq_pack, bits_pack_above, bits_pack_within,
    bits_pack_across_eq_iff, bits_of_lt, bits_bit, bit_false, bit_beq_one, toNat_lt_of_le, BitVec.ofNat_toNat,
    BitVec.setWidth_eq, Nat.reducePow, Nat.reduceMod, Nat.reduceDiv, Nat.reduceAdd, Nat.reduceSub, Nat.reduceLT,
    Nat.reduceLeDiff, Nat.reduceEqDiff, and_true, false_and, ↓reduceIte]

theorem rowReadsBack_memory {i : Instr} (h : rowGroup i = some .memory) : RowReadsBack i := by
  cases i <;> cases h
  all_goals delta RowReadsBack encodeWord Instr.ximm Instr.ord
  all_goals simp only [decodeRow, fld, flag, encodeA_eq_pack, bits_pack_above, bits_pack_within,
    bits_pack_across_eq_iff, bits_of_lt, bits_bit, bit_false, bit_beq_one, toNat_lt_of_le, BitVec.ofNat_toNat,
    BitVec.setWidth_eq, Nat.reducePow, Nat.reduceMod, Nat.reduceDiv, Nat.reduceAdd, Nat.reduceSub, Nat.reduceLT,
    Nat.reduceLeDiff, Nat.reduceEqDiff, and_true, false_and, ↓reduceIte]

theorem rowReadsBack_service {i : Instr} (h : rowGroup i = some .service) : RowReadsBack i := by
  cases i <;> cases h
  all_goals delta RowReadsBack encodeWord Instr.ximm Instr.ord
  all_goals simp only [decodeRow, fld, flag, encodeA_eq_pack, bits_pack_above, bits_pack_within,
    bits_pack_across_eq_iff, bits_of_lt, bits_bit, bit_false, bit_beq_one, toNat_lt_of_le, BitVec.ofNat_toNat,
    BitVec.setWidth_eq, Nat.reducePow, Nat.reduceMod, Nat.reduceDiv, Nat.reduceAdd, Nat.reduceSub, Nat.reduceLT,
    Nat.reduceLeDiff, Nat.reduceEqDiff, and_true, true_and, false_and, ↓reduceIte]

theorem rowReadsBack_float {i : Instr} (h : rowGroup i = some .float) : RowReadsBack i := by
  cases i <;> cases h
  all_goals delta RowReadsBack encodeWord Instr.ximm Instr.ord
  all_goals simp only [decodeRow, fld, flag, encodeV_eq_pack, bits_pack_above, bits_pack_within,
    bits_pack_across_eq_iff, bits_of_lt, bits_bit, bit_false, bit_beq_one, toNat_lt_of_le, BitVec.ofNat_toNat,
    BitVec.setWidth_eq, Nat.reducePow, Nat.reduceMod, Nat.reduceDiv, Nat.reduceAdd, Nat.reduceSub, Nat.reduceLT,
    Nat.reduceLeDiff, Nat.reduceEqDiff, and_true, and_false, false_and, ↓reduceIte]

theorem rowReadsBack_lane {i : Instr} (h : rowGroup i = some .lane) : RowReadsBack i := by
  cases i <;> cases h
  all_goals delta RowReadsBack encodeWord Instr.ximm Instr.ord
  all_goals simp only [decodeRow, fld, flag, encodeV_mode_eq_pack, encodeV_eq_pack, bits_pack_above, bits_pack_within,
    bits_pack_across_eq_iff, bits_of_lt, bits_bit, bit_false, bit_beq_one, toNat_lt_of_le, BitVec.ofNat_toNat,
    BitVec.setWidth_eq, Nat.reducePow, Nat.reduceMod, Nat.reduceDiv, Nat.reduceAdd, Nat.reduceSub, Nat.reduceLT,
    Nat.reduceLeDiff, Nat.reduceEqDiff, and_true, and_false, ↓reduceIte]

theorem rowReadsBack_move {i : Instr} (h : rowGroup i = some .move) : RowReadsBack i := by
  cases i <;> cases h
  all_goals delta RowReadsBack encodeWord Instr.ximm Instr.ord
  all_goals simp only [decodeRow, fld, flag, encodeV_eq_pack, bits_pack_above, bits_pack_within,
    bits_pack_across_eq_iff, bits_of_lt, bits_bit, bit_false, bit_beq_one, toNat_lt_of_le, BitVec.ofNat_toNat,
    BitVec.setWidth_eq, Nat.reducePow, Nat.reduceMod, Nat.reduceDiv, Nat.reduceAdd, Nat.reduceSub, Nat.reduceLT,
    Nat.reduceLeDiff, Nat.reduceEqDiff, and_true, true_and, and_false, false_and, ↓reduceIte]

theorem rowReadsBack_field {i : Instr} (h : rowGroup i = some .field) : RowReadsBack i := by
  cases i <;> cases h
  all_goals delta RowReadsBack encodeWord Instr.ximm Instr.ord
  all_goals simp only [decodeRow, fld, memArg, encodeMem_eq_pack, encodeI_imm16_eq_pack, encodeI_imm21_eq_pack,
    encodeI_csr_eq_pack, encodeI_imm6_eq_pack, encodeI_qterm_eq_pack, encodeI_enqg_eq_pack, encodeI_enqm_eq_pack,
    Nat.zero_add, bits_pack_above, bits_pack_within, bits_pack_across_eq_iff, bits_of_lt, toNat_lt_of_le,
    BitVec.ofNat_toNat, BitVec.setWidth_eq, Nat.reducePow, Nat.reduceMod, Nat.reduceDiv, Nat.reduceAdd, Nat.reduceSub,
    Nat.reduceLT, Nat.reduceLeDiff, Nat.reduceEqDiff, and_true, true_and, false_and, ↓reduceIte]

theorem rowGroup_isSome (i : Instr) : (rowGroup i).isSome = i.isCore := by
  cases i <;> rfl

theorem rowReadsBack {i : Instr} (h : i.isCore = true) : RowReadsBack i := by
  obtain ⟨g, hg⟩ := Option.isSome_iff_exists.1 ((rowGroup_isSome i).trans h)
  cases g with
  | scalar => exact rowReadsBack_scalar hg
  | memory => exact rowReadsBack_memory hg
  | service => exact rowReadsBack_service hg
  | float => exact rowReadsBack_float hg
  | lane => exact rowReadsBack_lane hg
  | move => exact rowReadsBack_move hg
  | field => exact rowReadsBack_field hg

end Sys2Proof
end

section
/-!
Units with their prefixes, engine words, O55 and O56.
-/

namespace Sys2Proof

/-! ### Units (R63-R65) -/

theorem decodeRow_prefix {w : Nat} (hi : Option (BitVec 26)) (od : Option Ord)
    (h : bits w 26 6 = 0x1C ∨ bits w 26 6 = 0x1D) : decodeRow w hi od = none := by
  obtain h | h := h <;> simp only [decodeRow, h]

/-- A word that is an instruction under its prefixes ends the unit. -/
theorem decodeUnit_instr {w : BitVec 32} {hi : Option (BitVec 26)} {od : Option Ord} {i : Instr} (n : Nat)
    (ws : List (BitVec 32)) (hrow : decodeRow w.toNat hi od = some i) (hwf : i.wellFormed = true) :
    decodeUnit hi od n (w :: ws) = .unit i (n + 1) := by
  have hximm : bits w.toNat 26 6 ≠ 0x1C := fun h => by simp [decodeRow_prefix hi od (.inl h)] at hrow
  have hord : bits w.toNat 26 6 ≠ 0x1D := fun h => by simp [decodeRow_prefix hi od (.inr h)] at hrow
  simp [decodeUnit, hximm, hord, decodeWord, hrow, hwf]

theorem ximmWord_eq_pack (h : BitVec 26) :
    (BitVec.ofNat 32 (0x70000000 + h.toNat)).toNat = pack [(26, h.toNat), (6, 0x1C)] := by
  simp only [pack, BitVec.toNat_ofNat]
  omega

theorem ordWord_eq_pack (o : Ord) :
    (BitVec.ofNat 32 (0x74000000 + o.order.toNat * 2 ^ 24 + o.scope.toNat * 2 ^ 21 + o.ford.toNat * 2 ^ 19)).toNat =
      pack [(19, 0), (2, o.ford.toNat), (3, o.scope.toNat), (2, o.order.toNat), (6, 0x1D)] := by
  simp only [pack, BitVec.toNat_ofNat]
  omega

theorem decodeUnit_ximm (h : BitVec 26) (od : Option Ord) (n : Nat) (ws : List (BitVec 32)) :
    decodeUnit none od n (BitVec.ofNat 32 (0x70000000 + h.toNat) :: ws) = decodeUnit (some h) od (n + 1) ws := by
  simp only [decodeUnit, ximmOf, fld, ximmWord_eq_pack]
  simp [bits_pack_above, bits_pack_within, bits_of_lt, toNat_lt_of_le]

theorem decodeUnit_ord (o : Ord) (hi : Option (BitVec 26)) (n : Nat) (ws : List (BitVec 32)) :
    decodeUnit hi none n (BitVec.ofNat 32
        (0x74000000 + o.order.toNat * 2 ^ 24 + o.scope.toNat * 2 ^ 21 + o.ford.toNat * 2 ^ 19) :: ws) =
      decodeUnit hi (some o) (n + 1) ws := by
  simp only [decodeUnit, ordOf, fld, ordWord_eq_pack]
  simp [bits_pack_above, bits_pack_within, bits_of_lt, toNat_lt_of_le]

/-- A unit is read back with its prefixes, whatever words follow it. -/
theorem decode_encode {i : Instr} (hcore : i.isCore = true) (hwf : i.wellFormed = true) (ws : List (BitVec 32)) :
    decode (encode i ++ ws) = .unit i i.words := by
  have hrow : decodeRow (BitVec.ofNat 32 (encodeWord i)).toNat i.ximm i.ord = some i :=
    (congrArg (decodeRow · _ _) (BitVec.toNat_ofNat ..)).trans (rowReadsBack hcore)
  have hword (n : Nat) := decodeUnit_instr n ws hrow hwf
  unfold decode encode Instr.words
  cases ho : i.ord <;> cases hx : i.ximm <;> rw [ho, hx] at hword <;>
    simp only [List.nil_append, List.cons_append, decodeUnit_ord, decodeUnit_ximm, hword] <;> rfl

/-! ### Engine words (R70, R162-R185) -/

/-- The fields of an engine word, the lowest first: its argument, and its op or its class. -/
def engineFields : Instr → List (Nat × Nat)
  | .lit v => [(15, v.toNat), (1, 0)]
  | .ext v => [(13, v.toNat), (3, 4)]
  | .eshl n => [(8, n.toNat), (8, 0xA7)]
  | .zpush z => [(8, z.toNat), (8, 0xA9)]
  | .mpass g f z b a => [(2, a.toNat), (2, b.toNat), (1, bit z), (1, bit f), (1, bit g), (1, 0), (8, 0xC0)]
  | .mpassseg g f z b a => [(2, a.toNat), (2, b.toNat), (1, bit z), (1, bit f), (1, bit g), (1, 0), (8, 0xC1)]
  | .mpassgrp z b a => [(2, a.toNat), (2, b.toNat), (1, bit z), (3, 0), (8, 0xC2)]
  | .mdrain c d m => [(2, m.toNat), (1, bit d), (1, bit c), (4, 0), (8, 0xC3)]
  | .ccopy f c r m => [(2, m.toNat), (3, r.toNat), (1, bit c), (1, bit f), (1, 0), (8, 0xC0)]
  | .cgather c m => [(2, m.toNat), (3, 0), (1, bit c), (2, 0), (8, 0xC1)]
  | .xwrite f => [(1, bit f), (7, 0), (8, 0xC0)]
  | .xcoll r => [(1, bit r), (7, 0), (8, 0xC2)]
  | .gate t => [(4, t.toNat), (4, 0), (8, 0xE2)]
  | .qgate n => [(6, n.toNat), (2, 0), (8, 0xE3)]
  | .signal n => [(6, n.toNat), (2, 0), (8, 0xE4)]
  | .capstart s => [(3, s.toNat), (5, 0), (8, 0xE6)]
  | .capstop s => [(3, s.toNat), (5, 0), (8, 0xE7)]
  | i => [(16, encodeEngine i)]

theorem bit_mod_two (b : Bool) : bit b % 2 = bit b := by cases b <;> rfl

/-- Nothing of the op is lost: the fields of an engine word make up its 16 bits. -/
theorem encodeEngine_eq_pack {e : EngineKind} {i : Instr} (h : i.onEngine e = true) :
    encodeEngine i = pack (engineFields i) := by
  cases e <;> cases i <;> cases h
  all_goals simp only [encodeEngine, engineFields, pack, bit_mod_two, Nat.reducePow]
  all_goals omega

/-- An engine word is read back on its engine. -/
theorem decodeEngine_encodeEngine {e : EngineKind} {i : Instr} (h : i.onEngine e = true) :
    decodeEngine e (encodeEngine i) = some i := by
  rw [encodeEngine_eq_pack h]
  cases e <;> cases i <;> cases h
  all_goals simp only [decodeEngine, engineFields, fld, flag, bits_pack_above, bits_pack_within,
    bits_pack_across_eq_iff, bits_of_lt, bits_bit, bit_beq_one, toNat_lt_of_le, BitVec.ofNat_toNat,
    BitVec.setWidth_eq, Nat.reducePow, Nat.reduceMod, Nat.reduceDiv, Nat.reduceAdd, Nat.reduceSub, Nat.reduceLT,
    Nat.reduceLeDiff, Nat.reduceEqDiff, and_true, and_false, ↓reduceIte]
  all_goals rfl

end Sys2Proof

namespace Sys2Proof.Proofs

/-- Settles O55: every word that the encoder writes is a row of fields, and the decoder's tests of them meet the
row's own fields first. -/
theorem decodeEncode : Obligations.DecodeEncode := by
  unfold Obligations.DecodeEncode
  exact ⟨fun _ ws hcore hwf => decode_encode hcore hwf ws, fun _ _ h => decodeEngine_encodeEngine h⟩

/-- Settles O56: each word is decoded. -/
theorem decodedWords : Obligations.DecodedWords := by
  unfold Obligations.DecodedWords
  decide

end Sys2Proof.Proofs
end

section
/-!
The unit at the pc, fetched word by word, and the core's move that brings it to issue (R57, R65, R191); O57.
-/

namespace Sys2Proof

/-! ### The words of a unit (R65) -/

/-- Prefixes that a unit may still carry. -/
def prefixRoom (hi : Option (BitVec 26)) (od : Option Ord) : Nat :=
  (if hi.isSome then 0 else 1) + (if od.isSome then 0 else 1)

theorem Decoded.spoilt_ne_unit (d : Decoded) (i : Instr) (n : Nat) : d.spoilt ≠ .unit i n := by
  cases d <;> simp [Decoded.spoilt]

/-- The first word of a complete unit is one of the prefixes, for which there is room, or the instruction, which ends
the unit. -/
theorem decodeUnit_cons_cases {hi : Option (BitVec 26)} {od : Option Ord} {n m : Nat} {w : BitVec 32}
    {ws : List (BitVec 32)} {i : Instr} (h : decodeUnit hi od n (w :: ws) = .unit i m) :
    (∃ hi' od', prefixRoom hi od = prefixRoom hi' od' + 1 ∧
        ∀ us, decodeUnit hi od n (w :: us) = decodeUnit hi' od' (n + 1) us) ∨ m = n + 1 := by
  by_cases hximm : bits w.toNat 26 6 = 0x1C
  · cases hi with
    | some v => simp [decodeUnit, hximm] at h
    | none =>
      exact .inl ⟨some (ximmOf w.toNat), od, by simp [prefixRoom, Nat.add_comm], fun us => by simp [decodeUnit, hximm]⟩
  by_cases hord : bits w.toNat 26 6 = 0x1D
  · cases od with
    | some o => simp [decodeUnit, hord] at h
    | none =>
      by_cases hzero : bits w.toNat 0 19 = 0
      · exact .inl ⟨hi, some (ordOf w.toNat), by simp [prefixRoom], fun us => by simp [decodeUnit, hord, hzero]⟩
      · simp [decodeUnit, hord, hzero, Decoded.spoilt_ne_unit] at h
  · right
    simp only [decodeUnit, if_neg hximm, if_neg hord] at h
    split at h
    · cases h
      rfl
    · cases h

/-- A complete unit has at most as many words in front of its instruction as there is room for prefixes, and cut off
behind one of those it is unfinished. -/
theorem decodeUnit_take {i : Instr} {ws : List (BitVec 32)} {hi : Option (BitVec 26)} {od : Option Ord} {n : Nat}
    (h : decodeUnit hi od n ws = .unit i (n + ws.length)) :
    ws.length ≤ prefixRoom hi od + 1 ∧ ∀ j, j < ws.length → decodeUnit hi od n (ws.take j) = .more := by
  induction ws generalizing hi od n with
  | nil => exact ⟨Nat.zero_le _, fun j hj => absurd hj (Nat.not_lt_zero j)⟩
  | cons w ws ih =>
    obtain ⟨hi', od', hroom, hnext⟩ | hend := decodeUnit_cons_cases h
    · rw [hnext, List.length_cons, Nat.add_comm ws.length, ← Nat.add_assoc] at h
      obtain ⟨hlen, hmore⟩ := ih h
      refine ⟨by rw [hroom]; exact Nat.succ_le_succ hlen, fun j hj => ?_⟩
      cases j with
      | zero => rfl
      | succ j => rw [List.take_succ_cons, hnext]; exact hmore j (Nat.lt_of_succ_lt_succ hj)
    · have hws : ws.length = 0 := by simpa using hend
      refine ⟨by simp [hws], fun j hj => ?_⟩
      have hj0 : j = 0 := by simpa [hws] using hj
      rw [hj0]
      rfl

theorem decode_take {i : Instr} {ws : List (BitVec 32)} (h : decode ws = .unit i ws.length) :
    ws.length ≤ 3 ∧ ∀ j, j < ws.length → decode (ws.take j) = .more :=
  decodeUnit_take (h.trans (by rw [Nat.zero_add]))

end Sys2Proof

namespace Sys2Proof.Machine

open Sys2Proof.Claims

/-! ### Fetch (R57, R322) -/

/-- An address on a page that is cached translates at once (R103, R323). -/
theorem xlate_of_onPage {s : State} {va : Word} {acc : Access} {n : Nat} {p : Page} (h : OnPage s va acc n p) :
    s.xlate va acc = .hit p true := by
  obtain ⟨hcanon, -, hknown, hcached, hdirty, hallowed, -⟩ := h
  have hc : canonical va = true := by
    rw [canonical, canon_bits, hcanon]
    exact beq_self_eq_true va
  have hw : (acc.writes && !p.w0.getLsbD 7) = false := by
    cases hacc : acc.writes with
    | false => rfl
    | true => rw [hdirty hacc]; rfl
  rw [State.xlate, hc, State.walkOutcome, hknown]
  simp only [List.find?_nil, Option.map_none, hcached, hw, hallowed]
  rfl

/-- A word of code on a page of this module, where no line holds an error. -/
theorem fetchWord_of_onPage {s : State} {va : Word} {p : Page} (halign : va.toNat % 4 = 0) (hclean : s.mgr.memErr = [])
    (hp : OnPage s va .fetch 4 p) (hlocal : isLocal s p = none) :
    s.fetchWord va = .word (BitVec.ofNat 32 (Memory.readLE s.mem (p.frame + (va56 va - p.base)) 4)) := by
  have hline (pa : Nat) : s.badLine pa = false := by
    simp [State.badLine, hclean]
  have hremote : s.remote (some p) = none := hlocal
  simp [State.fetchWord, halign, hp.outside, xlate_of_onPage hp, hremote, hline, Page.pa]

/-- The words that stand at the pc are fetched one after another until they are the unit. -/
theorem fetchFrom_of_words {s : State} {i : Instr} {ws : List (BitVec 32)} (h : decode ws = .unit i ws.length)
    (hmore : ∀ j, j < ws.length → decode (ws.take j) = .more)
    (hwords : ∀ j w, ws[j]? = some w → s.fetchWord (s.core.pc + 4 * BitVec.ofNat 64 j) = .word w)
    {j fuel : Nat} (hj : j < ws.length) (hfuel : ws.length ≤ j + fuel) :
    s.fetchFrom (ws.take j) (s.core.pc + 4 * BitVec.ofNat 64 j) fuel = .ok i ws.length := by
  induction fuel generalizing j with
  | zero => omega
  | succ fuel ih =>
    have hget := List.getElem?_eq_getElem hj
    rw [State.fetchFrom, hwords j _ hget]
    have htake : ws.take j ++ [ws[j]] = ws.take (j + 1) := by
      rw [List.take_append_getElem hj]
    simp only [htake]
    rcases Nat.lt_or_ge (j + 1) ws.length with hlt | hge
    · rw [hmore _ hlt]
      have hva : s.core.pc + 4 * BitVec.ofNat 64 j + 4 = s.core.pc + 4 * BitVec.ofNat 64 (j + 1) := by
        rw [BitVec.ofNat_add, BitVec.mul_add, BitVec.add_assoc]
        rfl
      rw [hva]
      exact ih hlt (by omega)
    · rw [List.take_of_length_le hge, h]

theorem fetchUnit_of_unitAtPc {s : State} {i : Instr} {ws : List (BitVec 32)} (h : UnitAtPc s i ws) :
    s.fetchUnit = .ok i ws.length := by
  obtain ⟨hunit, haligned, hclean, -, hwords⟩ := h
  obtain ⟨hlen, hmore⟩ := decode_take hunit
  have hfetch (j : Nat) (w : BitVec 32) (hw : ws[j]? = some w) :
      s.fetchWord (s.core.pc + 4 * BitVec.ofNat 64 j) = .word w := by
    obtain ⟨p, hp, hlocal, rfl⟩ := hwords j w hw
    have halign : (s.core.pc + 4 * BitVec.ofNat 64 j).toNat % 4 = 0 := by
      have h4 : (4 : Word).toNat = 4 := rfl
      simp only [BitVec.toNat_add, BitVec.toNat_mul, BitVec.toNat_ofNat, h4]
      omega
    exact fetchWord_of_onPage halign hclean hp hlocal
  have hne : 0 < ws.length := by
    rcases ws with _ | ⟨w, ws⟩
    · cases hunit
    · exact Nat.succ_pos _
  have h0 := fetchFrom_of_words hunit hmore hfetch hne (fuel := 3) (by omega)
  simpa [State.fetchUnit] using h0

/-! ### The core's move -/

theorem breaks?_unarmed {s : State} (h : ∀ i, i < 4 → (s.readCsr (0x0C8 + i)).getLsbD 0 = false) (pc : Word) :
    s.breaks? pc = false := by
  refine List.any_eq_false.2 fun i hi => ?_
  dsimp only
  rw [h i (List.mem_range.1 hi), Bool.false_and]
  exact Bool.false_ne_true

/-- A core that comes to issue runs the unit at its pc. -/
theorem coreMove_of_comesToIssue {s : State} {i : Instr} {ws : List (BitVec 32)} (hc : ComesToIssue s)
    (hu : UnitAtPc s i ws) : s.coreMove = .run i s := by
  obtain ⟨-, hticks, ⟨hrun, hbusy, hentering, hreinject⟩, ⟨hhalt, hpreempt, hasync⟩, hunarmed⟩ := hc
  have hunit := fetchUnit_of_unitAtPc hu
  have hfetching : s.fetching (.ok i ws.length) = false := by
    have := hu.fetched
    refine decide_eq_false (Nat.not_lt.2 ?_)
    exact Nat.sub_le_of_le_add this
  have hboundary : s.boundary (.ok i ws.length) = none := by
    simp [State.boundary, hhalt, hpreempt, hasync]
  have hmove : s.runningMove = s.headUnit (.ok i ws.length) := by
    simp [State.runningMove, hbusy, hentering, hunit, hboundary, State.reinjected, hreinject]
  rw [State.coreMove, hticks, hrun]
  simp [hmove, State.headUnit, hfetching, breaks?_unarmed hunarmed]

/-! ### Words, events, and the count of a unit -/

theorem wordStep_of_head {s : State} {q : Nat} {v : Queue} {w : EWord} {i : Instr} (hv : s.cell.queues[q]? = some v)
    (hw : v.words.head? = some w)
    (hi : decodeEngine (if q = 0 ∨ v.inChain = true then .matrix else if q ≤ 8 then .copy else .transfer) w.w.toNat =
      some i) : wordStep q s = exec i s := by
  have hhead : s.headInstr q = some i := by
    rw [State.headInstr, State.wordKind, State.queue_eq hv, hw]
    simpa using hi
  rw [wordStep, hhead]

/-- Nothing differs but the counts of energy events (R346). -/
def OnlyOccur (t u : State) : Prop := u = { t with acct := { t.acct with occur := u.acct.occur } }

theorem OnlyOccur.trans {t u v : State} (h : OnlyOccur t u) (k : OnlyOccur u v) : OnlyOccur t v := by
  unfold OnlyOccur at *
  rw [h] at k
  exact k

theorem State.count_onlyOccur (t : State) (e n : Nat) : OnlyOccur t (t.count e n) := rfl

theorem State.countUnit_onlyOccur (t s : State) (i : Instr) : OnlyOccur t (t.countUnit s i) := by
  unfold State.countUnit
  dsimp only
  refine .trans ?_ ((((State.count_onlyOccur ..).trans (State.count_onlyOccur ..)).trans (State.count_onlyOccur ..)).trans
    (State.count_onlyOccur ..))
  split <;> exact State.count_onlyOccur ..

theorem State.countIssued_onlyOccur (t s : State) (i : Instr) : OnlyOccur t (t.countIssued s i) := by
  unfold State.countIssued
  split
  · exact t.countUnit_onlyOccur s i
  · rfl

end Sys2Proof.Machine

namespace Sys2Proof.Proofs

open Sys2Proof.Machine Sys2Proof.Claims

/-- Settles O57: the core's move is the unit at its pc, and the other agents of the clk run what their turn names. -/
theorem stepRuns : Obligations.StepRuns := by
  unfold Obligations.StepRuns
  intro s
  refine ⟨fun i ws hc hu => ?_, fun q rest v w i ha hv hw hi => ?_, fun q i rest ha => ?_, fun t i => ?_⟩
  · rw [step, hc.start]
    simp only [coreStep, coreMove_of_comesToIssue hc hu]
  · rw [step, ha]
    exact congrArg (after · _) (wordStep_of_head hv hw hi)
  · rw [step, ha]
  · exact congrArg (fun u => { u with agenda := clkWork s (t.countIssued s i) }) (t.countIssued_onlyOccur s i)

end Sys2Proof.Proofs
end

section
/-!
ENQW behind an acquire that `Acquired` does not see, and O34: as with the accesses of O33, the row that a store is
still to read in the name of another queue keeps every ENQ waiting (`acquireWait`), with room in the queue and with
words that fit.
-/

namespace Sys2Proof.Machine

open Sys2Proof.Claims

/-- ENQW waits for an acquire before it looks at its queue (R69, R259). -/
theorem execEnqw_acquireWait {s : State} {q : BitVec 5} {w : BitVec 16} {c : Cause}
    (hw : (Instr.enqw q w).wellFormed = true) (ha : acquireWait s = .wait c) : ∃ t, Waits (.enqw q w) s t c :=
  settle_waits (exec_enqw s) hw (by rw [ha]; rfl)

theorem acquired_reset : Acquired State.reset := ⟨by decide, by decide, by decide⟩

end Sys2Proof.Machine

namespace Sys2Proof.Proofs

open Sys2Proof.Machine Sys2Proof.Claims

/-- Refutes O34: after reset, with an acquire in a row of queue 0, which the statement's hypotheses allow, ENQW of a literal to
the empty queue MQ does not retire but waits, charged to ORDERWAIT. -/
theorem not_enqueue : ¬ Obligations.Enqueue := by
  unfold Obligations.Enqueue
  intro h
  let s := State.reset.withStrayRow
  obtain ⟨hplaces, -, -⟩ := (h s 0 Queue.reset (by decide) (by decide) (acquired_withStrayRow acquired_reset)).1 0
  have hfit : EntriesFit Queue.reset [0] := by
    unfold EntriesFit
    decide
  obtain ⟨t, ⟨hrun, -, hissued, -⟩, -⟩ := hplaces hfit (by decide)
  obtain ⟨u, hwait, -, -, -, -, -, -, hcharge⟩ :=
    execEnqw_acquireWait (q := 0) (w := 0) (by decide) (acquireWait_withStrayRow State.reset)
  have htu : t = u := by
    have := hrun.symm.trans hwait
    injection this
  rw [htu, hcharge] at hissued
  cases hissued

end Sys2Proof.Proofs
end

section
/-!
The stack words of the engine queues (R155, R156, R162, R163), and O36.
-/

namespace Sys2Proof.Machine

open Sys2Proof.Claims

/-! ### Readers of shape registers (R41) -/

theorem zpushReg_eq_some_iff {w : BitVec 16} {z : Nat} (hz : z < 16) : zpushReg w = some z ↔ w.toNat = 0xA900 + z := by
  unfold zpushReg
  split
  · simp only [Option.some.injEq]
    omega
  · simp only [reduceCtorEq, false_iff]
    omega

/-- A word that leaves its queue is a reader less of the register that it pushes. -/
theorem State.readers_zpend (s : State) (w : EWord) {z : Nat} (hz : z < 16) :
    (s.readers false [w]).core.zpend[z]? = (s.core.zpend[z]?).map fun n => n - pushes z [w.w] := by
  have hpush : pushes z [w.w] = if zpushReg w.w = some z then 1 else 0 := by
    simp [pushes, List.countP_cons, zpushReg_eq_some_iff hz]
  rw [hpush]
  cases hreg : zpushReg w.w with
  | none => simp [State.readers, hreg]
  | some y =>
    by_cases hyz : y = z
    · simp [State.readers, hreg, hyz, State.setZpend, State.setCore, State.zpend, hz]
    · simp [State.readers, hreg, hyz, State.setZpend, State.setCore, hz]

/-- A queue replaced twice holds what replaced it last. -/
theorem queueIs_trans {s t u : State} {q : Nat} {v w : Queue} (h : QueueIs s t q v) (k : QueueIs t u q w) :
    QueueIs s u q w := by
  intro p hp
  rw [k p hp]
  split
  · rfl
  · next hpq => exact (h p hp).trans (if_neg hpq)

/-- The queue with another stack under its head entry (R155, R176). -/
def Queue.withStack (v : Queue) (st : List Word) : Queue :=
  { v with stack := if v.inChain then v.stack else st, chain := if v.inChain then st else v.chain }

theorem setStack_eq {s : State} {v : Queue} (hv : s.queue s.actq = v) (st : List Word) :
    s.setStack st = s.setQueue s.actq (v.withStack st) := by
  rw [State.setStack, hv, Queue.withStack]
  split <;> rfl

/-- The word at the head leaves its queue; nothing else changes but readers and the entry that the engine's stack serves. -/
theorem takeWord_spec {s : State} {v : Queue} {w : EWord} (hv : s.queue s.actq = v) (hq : s.actq < 13)
    (hw : v.words.take 1 = [w]) :
    QueueIs s s.takeWord s.actq { v with words := v.words.drop 1, issued := v.issued + 1, waited := 0 } ∧
      (∀ z, z < 16 → s.takeWord.core.zpend[z]? = (s.core.zpend[z]?).map fun n => n - pushes z [w.w]) ∧
      s.takeWord = { s with
        core := { s.core with zpend := s.takeWord.core.zpend }
        cell := { s.cell with queues := s.takeWord.cell.queues, evals := s.takeWord.cell.evals } } := by
  have hzpend (z : Nat) (hz : z < 16) := s.readers_zpend w hz
  obtain ⟨y, hy⟩ := s.readers_eq false [w]
  rw [hy] at hzpend
  rw [State.takeWord, hv, hw, hy]
  by_cases hchain : v.inChain = true
  · have hv1 : (s.setCore { s.core with zpend := y }).queue s.actq = v := hv
    simp only [if_pos hchain, hv1]
    exact ⟨State.setQueue_is (s.setCore _) _ hq, hzpend, rfl⟩
  · let s1 := s.setCore { s.core with zpend := y }
    let s2 := s1.setCell { s1.cell with evals := s1.cell.evals.setIfInBounds (slotOf s.actq - 2) s.actq }
    have hv2 : s2.queue s.actq = v := hv
    simp only [if_neg hchain]
    exact ⟨by rw [hv2]; exact State.setQueue_is s2 _ hq, hzpend, rfl⟩

end Sys2Proof.Machine

namespace Sys2Proof.Claims

open Sys2Proof.Machine

section
variable {s : State} {v : Queue} {w last : EWord}

/-! ### The head word -/

theorem AtHead.queue_eq (h : AtHead s v w last) : s.queue s.actq = v := State.queue_eq h.queue

theorem AtHead.actq_lt (h : AtHead s v w last) : s.actq < 13 := by
  by_contra hge
  have hnone := Vector.getElem?_eq_none (xs := s.cell.queues) (Nat.not_lt.1 hge)
  rw [h.queue] at hnone
  cases hnone

theorem AtHead.take_one (h : AtHead s v w last) : v.words.take 1 = [w] := by
  have hw := h.word
  cases hwords : v.words with
  | nil => simp [hwords] at hw
  | cons x xs =>
    rw [hwords] at hw
    cases hw
    rfl

theorem AtHead.headTerminal_eq (h : AtHead s v w last) : s.headTerminal = some last := by
  rw [State.headTerminal, h.queue_eq]
  exact h.complete

/-- Nothing but an engine slot's charge differs. -/
theorem AtHead.chargeWord_eq (h : AtHead s v w last) (c : Cause) :
    s.chargeWord c = s.chargeEng (slotOf s.actq) last.enq c last.pc := by
  rw [State.chargeWord, h.headTerminal_eq]

/-- The head word leaves with a new stack (R154, R155). -/
theorem AtHead.issues (h : AtHead s v w last) (st : List Word) :
    WordIssues s (((s.chargeWord .issued).setStack st).takeWord) v w last st := by
  let s1 := s.chargeEng (slotOf s.actq) last.enq .issued last.pc
  have hstack : (s.chargeWord .issued).setStack st = s1.setQueue s.actq (v.withStack st) := by
    rw [h.chargeWord_eq]
    exact setStack_eq (s := s1) h.queue_eq st
  have hq1 : QueueIs s (s1.setQueue s.actq (v.withStack st)) s.actq (v.withStack st) := State.setQueue_is s1 _ h.actq_lt
  have hv1 : (s1.setQueue s.actq (v.withStack st)).queue s.actq = v.withStack st :=
    State.queue_eq ((hq1 _ h.actq_lt).trans (if_pos rfl))
  obtain ⟨hqueue, hzpend, honly⟩ :=
    takeWord_spec (s := s1.setQueue s.actq (v.withStack st)) hv1 h.actq_lt h.take_one
  rw [hstack]
  refine ⟨queueIs_trans hq1 hqueue, hzpend, ?_, ?_⟩
  · rw [Charged, honly]
    rfl
  · rw [OnlyQueues, honly]
    rfl

/-- The head entry faults at its word while the cell runs (R156-R158). -/
theorem AtHead.wordFault_faults (h : AtHead s v w last) (c : Nat) : WordFaults s (s.wordFault c 0) v last c := by
  obtain ⟨hrun, hrank, hstatus⟩ := h.runs
  have hseq : Queue.headSeq v = seqOf v := by
    rw [Queue.headSeq, seqOf, terminals, List.countP_map, List.countP_eq_length_filter]
    rfl
  have hended : s.isEnded = false := by simp [State.isEnded, hrun, hrank]
  have hdoubled : s.isDoubled = false := by simp [State.isDoubled, hrun, hstatus]
  have hfault (f : QFault) : s.faultQueue s.actq f =
      ((s.forgetReads s.actq f.seq).setQueue s.actq { v with fault := some f }).setCore
        { s.core with engPend := s.core.engPend ++ [s.actq] } := by
    have hv : (s.forgetReads s.actq f.seq).queue s.actq = v := h.queue_eq
    have hended' : (s.forgetReads s.actq f.seq).isEnded = false := hended
    have hdoubled' : (s.forgetReads s.actq f.seq).isDoubled = false := hdoubled
    simp only [State.faultQueue, hv, hended', hdoubled']
    rfl
  rw [State.wordFault, h.queue_eq, h.headTerminal_eq, hfault, hseq]
  exact ⟨State.setQueue_is (s.forgetReads s.actq (seqOf v)) _ h.actq_lt, rfl, rfl⟩

/-! ### What holds a word back -/

theorem AtHead.wordHeld_none (h : AtHead s v w last)
    (hfree : v.inChain = true ∨ (NoneChained s v ∧ ∀ e, e ∈ v.run → Instr.isControl e.op = false)) :
    s.wordHeld s.actq = none := by
  rw [State.wordHeld, State.chainPending, h.queue_eq]
  obtain hchain | ⟨⟨hentry, hchained⟩, hplain⟩ := hfree
  · rw [if_pos hchain]
  · have hany : v.run.any (fun e => Instr.isControl e.op) = false := by simpa using hplain
    have hcell : s.cell.chained.any (fun e => e.queue == s.actq) = false := by simpa using hchained
    simp [hany, hcell, hentry]

theorem AtHead.wordHeld_control (h : AtHead s v w last) (hchain : v.inChain = false)
    (hctl : ∃ e, e ∈ v.run ∧ Instr.isControl e.op = true) : s.wordHeld s.actq = some .orderWait := by
  have hany : v.run.any (fun e => Instr.isControl e.op) = true := List.any_eq_true.2 hctl
  rw [State.wordHeld, h.queue_eq, hchain, hany]
  rfl

theorem AtHead.wordHeld_chained (h : AtHead s v w last) (hchain : v.inChain = false)
    (hplain : ∀ e, e ∈ v.run → Instr.isControl e.op = false) (hnot : ¬ NoneChained s v) :
    s.wordHeld s.actq = some .memory := by
  have hany : v.run.any (fun e => Instr.isControl e.op) = false := by simpa using hplain
  have hpending : (v.chainEntry.isSome || s.cell.chained.any fun e => e.queue == s.actq) = true := by
    by_contra hc
    refine hnot ?_
    simpa [NoneChained] using hc
  rw [State.wordHeld, State.chainPending, h.queue_eq, hchain, hany, hpending]
  rfl

/-! ### What a stack word does -/

variable {need : Nat} {ok : Bool} {f : List Word → List Word}

theorem AtHead.estack_eq (h : AtHead s v w last) : s.estack = stackOf v := by
  rw [State.estack, h.queue_eq]
  rfl

theorem AtHead.stackWord_issues (h : AtHead s v w last) (hfree : s.wordHeld s.actq = none)
    (hneed : need ≤ (stackOf v).length) (hroom : (f (stackOf v)).length ≤ 8) :
    ∃ t, stackWord need true f s = .next t ∧ WordIssues s t v w last (f (stackOf v)) := by
  refine ⟨_, ?_, h.issues _⟩
  simp [stackWord, hfree, h.estack_eq, Nat.not_lt.2 hneed, Nat.not_lt.2 hroom]

theorem AtHead.stackWord_stack (h : AtHead s v w last) (hfree : s.wordHeld s.actq = none)
    (hbad : (stackOf v).length < need ∨ 8 < (f (stackOf v)).length) :
    ∃ t, stackWord need ok f s = .next t ∧ WordFaults s t v last 0x0E := by
  refine ⟨_, ?_, h.wordFault_faults _⟩
  simp [stackWord, hfree, h.estack_eq, hbad, Code.stack]

theorem AtHead.stackWord_illegal (h : AtHead s v w last) (hfree : s.wordHeld s.actq = none)
    (hneed : need ≤ (stackOf v).length) (hroom : (f (stackOf v)).length ≤ 8) :
    ∃ t, stackWord need false f s = .next t ∧ WordFaults s t v last 0x01 := by
  refine ⟨_, ?_, h.wordFault_faults _⟩
  simp [stackWord, hfree, h.estack_eq, Nat.not_lt.2 hneed, Nat.not_lt.2 hroom, Code.illegal]

theorem AtHead.stackWord_held (h : AtHead s v w last) {c : Cause} (hheld : s.wordHeld s.actq = some c) :
    ∃ t, stackWord need ok f s = .next t ∧ Charged s t last c ∧
      t = { s with acct := { s.acct with eng := t.acct.eng } } := by
  refine ⟨s.chargeWord c, by simp [stackWord, hheld], ?_⟩
  rw [h.chargeWord_eq]
  exact ⟨rfl, rfl⟩

end

end Sys2Proof.Claims

namespace Sys2Proof.Machine

open Sys2Proof.Claims

/-! ### The words (R162, R163) -/

theorem shiftLeft_or_setWidth (a : Word) (v : BitVec 13) :
    a <<< 13 ||| v.zeroExtend 64 = BitVec.ofNat 64 (a.toNat * 2 ^ 13 + v.toNat) := by
  have hdisjoint : a <<< 13 &&& v.zeroExtend 64 = 0#64 := by
    ext i hi
    by_cases h : i < 13
    · simp [h]
    · simp [h, BitVec.getLsbD_of_ge v i (Nat.not_lt.1 h)]
  rw [← BitVec.add_eq_or_of_and_eq_zero _ _ hdisjoint]
  apply BitVec.eq_of_toNat_eq
  simp [Nat.shiftLeft_eq]

/-- A stack word runs `stackWord` with the values that its row needs and what the row makes of the stack. -/
theorem exec_stackRow {i : Instr} {s : State} {st : List Word} {ok : Bool} {r : Option (List Word)}
    (h : stackRow s st i = some (ok, r)) :
    ∃ need f, exec i s = stackWord need ok f s ∧ r = if st.length < need then none else some (f st) := by
  cases i with
  | lit v => cases h; exact ⟨0, _, exec_lit s, rfl⟩
  | ext v =>
    cases h
    refine ⟨1, _, exec_ext s, ?_⟩
    cases st with
    | nil => rfl
    | cons a st => simp [shiftLeft_or_setWidth]
  | dup => cases h; exact ⟨1, _, exec_dup s, by cases st <;> rfl⟩
  | drop => cases h; exact ⟨1, _, exec_drop s, by cases st <;> rfl⟩
  | swap => cases h; exact ⟨2, _, exec_swap s, by rcases st with _ | ⟨a, _ | ⟨b, st⟩⟩ <;> rfl⟩
  | overI => cases h; exact ⟨2, _, exec_overI s, by rcases st with _ | ⟨a, _ | ⟨b, st⟩⟩ <;> rfl⟩
  | eadd =>
    cases h
    exact ⟨2, _, by rw [exec_eadd, execEadd, binaryWord], by rcases st with _ | ⟨a, _ | ⟨b, st⟩⟩ <;> rfl⟩
  | esub =>
    cases h
    exact ⟨2, _, by rw [exec_esub, execEsub, binaryWord], by rcases st with _ | ⟨a, _ | ⟨b, st⟩⟩ <;> rfl⟩
  | emul =>
    cases h
    refine ⟨2, _, by rw [exec_emul, execEmul, binaryWord], ?_⟩
    rcases st with _ | ⟨a, _ | ⟨b, st⟩⟩
    · rfl
    · rfl
    · simp [BitVec.ofNat_mul]
  | eshl n => cases h; exact ⟨1, _, exec_eshl s, by cases st <;> rfl⟩
  | eor =>
    cases h
    exact ⟨2, _, by rw [exec_eor, execEor, binaryWord], by rcases st with _ | ⟨a, _ | ⟨b, st⟩⟩ <;> rfl⟩
  | zpush z => cases h; exact ⟨0, _, exec_zpush s, rfl⟩
  | _ => cases h

end Sys2Proof.Machine

namespace Sys2Proof.Proofs

open Sys2Proof.Machine Sys2Proof.Claims

/-- Settles O36: every stack word is `stackWord` of its row. -/
theorem stackWords : Obligations.StackWords := by
  unfold Obligations.StackWords
  intro i s v w last ok r hhead hrow
  obtain ⟨need, f, hexec, rfl⟩ := exec_stackRow hrow
  rw [FaultsAt, FaultsAt, hexec]
  refine ⟨fun hfree => ?_, fun hchain hctl => hhead.stackWord_held (hhead.wordHeld_control hchain hctl),
    fun hchain hplain hnot => hhead.stackWord_held (hhead.wordHeld_chained hchain hplain hnot)⟩
  have hnone := hhead.wordHeld_none hfree
  by_cases hneed : (stackOf v).length < need
  · simp only [if_pos hneed]
    refine ⟨fun st hst => ?_, fun _ => hhead.stackWord_stack hnone (.inl hneed), fun st hst => ?_⟩ <;> cases hst
  · simp only [if_neg hneed, Option.some.injEq, forall_eq']
    refine ⟨?_, fun hbig => hhead.stackWord_stack hnone (.inr hbig), ?_⟩
    · rintro hroom rfl
      exact hhead.stackWord_issues hnone (Nat.not_lt.1 hneed) hroom
    · rintro hroom rfl
      exact hhead.stackWord_illegal hnone (Nat.not_lt.1 hneed) hroom

end Sys2Proof.Proofs
end

section
/-!
Scalar computation (R76-R85): the shared forms write the register of their row, and each function of the model is that of the
tables. O2.
-/

namespace Sys2Proof.Machine

open Sys2Proof.Claims

/-! ### The shared forms (R76) -/

/-- Two sources: `f` is what the unit computes, `g` what its row says. -/
theorem execAlu_writes {i : Instr} {s : State} {r : Row} {l : Nat} {f g : Word → Word → Word} {d a b : BitVec 5} {x y : Bool}
    (he : exec i s = execAlu i l f d a b x y s) (hw : i.wellFormed = true) (hr : two d a b l g = some r)
    (hu : Usable s (r.srcs ++ [r.dst])) (hfg : ∀ u v, f u v = g u v) :
    WritesRegister i s r.lat r.dst (r.val s) (s.core.pc + 4 * BitVec.ofNat 64 i.words) := by
  cases hr
  rw [execAlu, hfg] at he
  exact settle_result_writes d.isLt he hw (scalarChecks_pass hu)

/-- One source. -/
theorem execUnary_writes {i : Instr} {s : State} {r : Row} {f g : Word → Word} {d a : BitVec 5} {x : Bool}
    (he : exec i s = execUnary i f d a x s) (hw : i.wellFormed = true) (hr : one d a 1 g = some r)
    (hu : Usable s (r.srcs ++ [r.dst])) (hfg : ∀ u, f u = g u) :
    WritesRegister i s r.lat r.dst (r.val s) (s.core.pc + 4 * BitVec.ofNat 64 i.words) := by
  cases hr
  rw [execUnary, hfg] at he
  exact settle_result_writes d.isLt he hw (scalarChecks_pass hu)

/-- One source and an immediate. -/
theorem execImm_writes {i : Instr} {s : State} {r : Row} {l : Nat} {f : Word → Word → Word} {g : Word → Word}
    {d a : BitVec 5} {v : Word} (he : exec i s = execImm i l f d a v s) (hw : i.wellFormed = true)
    (hr : one d a l g = some r) (hu : Usable s (r.srcs ++ [r.dst])) (hfg : ∀ u, f u v = g u) :
    WritesRegister i s r.lat r.dst (r.val s) (s.core.pc + 4 * BitVec.ofNat 64 i.words) := by
  cases hr
  rw [execImm, hfg] at he
  exact settle_result_writes d.isLt he hw (scalarChecks_pass hu)

/-! ### Arithmetic and compares (R78, R79, R83) -/

theorem ofBool_eq_truth (b : Bool) : Word.ofBool b = truth b := rfl

/-- The one quotient of R79 that does not fit is the dividend again. -/
theorem sdivWord_eq (x y : Word) : sdivWord x y =
    if y = 0 then 0xFFFFFFFFFFFFFFFF
    else if x = 0x8000000000000000 ∧ y = 0xFFFFFFFFFFFFFFFF then x else BitVec.ofInt 64 (x.toInt.tdiv y.toInt) := by
  unfold sdivWord
  split
  · rfl
  · split
    · next h =>
      obtain ⟨rfl, rfl⟩ := h
      decide
    · rfl

theorem sremWord_eq (x y : Word) : sremWord x y =
    if y = 0 then x else if x = 0x8000000000000000 ∧ y = 0xFFFFFFFFFFFFFFFF then 0
    else BitVec.ofInt 64 (x.toInt - x.toInt.tdiv y.toInt * y.toInt) := by
  unfold sremWord
  split
  · rfl
  · split
    · next h =>
      obtain ⟨rfl, rfl⟩ := h
      decide
    · rw [Int.tmod_def, Int.mul_comm]

theorem uremWord_eq (x y : Word) : uremWord x y =
    if y = 0 then x else BitVec.ofNat 64 (x.toNat - x.toNat / y.toNat * y.toNat) := by
  rw [uremWord, Nat.mod_eq_sub, Nat.mul_comm]

theorem mul_eq_ofNat (x y : Word) : x * y = BitVec.ofNat 64 (x.toNat * y.toNat) := BitVec.mul_def

/-- The lesser word, signed (R78). -/
theorem min_signed (x y : Word) : (if x.slt y then x else y) = BitVec.ofInt 64 (min x.toInt y.toInt) := by
  rw [BitVec.slt_eq_decide]
  by_cases h : x.toInt < y.toInt
  · simp [h, Int.min_eq_left (Int.le_of_lt h)]
  · simp [h, Int.min_eq_right (Int.not_lt.1 h)]

theorem max_signed (x y : Word) : (if x.slt y then y else x) = BitVec.ofInt 64 (max x.toInt y.toInt) := by
  rw [BitVec.slt_eq_decide]
  by_cases h : x.toInt < y.toInt
  · simp [h, Int.max_eq_right (Int.le_of_lt h)]
  · simp [h, Int.max_eq_left (Int.not_lt.1 h)]

/-- The lesser word, unsigned (R78). -/
theorem min_unsigned (x y : Word) : (if x.ult y then x else y) = BitVec.ofNat 64 (min x.toNat y.toNat) := by
  rw [BitVec.ult_eq_decide]
  by_cases h : x.toNat < y.toNat
  · simp [h, Nat.min_eq_left (Nat.le_of_lt h)]
  · simp [h, Nat.min_eq_right (Nat.not_lt.1 h)]

theorem max_unsigned (x y : Word) : (if x.ult y then y else x) = BitVec.ofNat 64 (max x.toNat y.toNat) := by
  rw [BitVec.ult_eq_decide]
  by_cases h : x.toNat < y.toNat
  · simp [h, Nat.max_eq_right (Nat.le_of_lt h)]
  · simp [h, Nat.max_eq_left (Nat.not_lt.1 h)]

theorem arithmetic_computes : Computes arithmetic := by
  intro i s r hr hu
  unfold arithmetic at hr
  split at hr
  · exact execAlu_writes (exec_add s) rfl hr hu fun u v => rfl
  · exact execAlu_writes (exec_sub s) rfl hr hu fun u v => rfl
  · exact execAlu_writes (exec_and s) rfl hr hu fun u v => rfl
  · exact execAlu_writes (exec_or s) rfl hr hu fun u v => rfl
  · exact execAlu_writes (exec_xor s) rfl hr hu fun u v => rfl
  · exact execAlu_writes (exec_andn s) rfl hr hu fun u v => rfl
  · exact execAlu_writes (exec_shl s) rfl hr hu fun u v => rfl
  · exact execAlu_writes (exec_shr s) rfl hr hu fun u v => rfl
  · exact execAlu_writes (exec_sar s) rfl hr hu fun u v => rfl
  · exact execAlu_writes (exec_mul s) rfl hr hu mul_eq_ofNat
  · exact execAlu_writes (exec_mulh s) rfl hr hu fun u v => rfl
  · exact execAlu_writes (exec_mulhu s) rfl hr hu fun u v => rfl
  · exact execAlu_writes (exec_div s) rfl hr hu sdivWord_eq
  · exact execAlu_writes (exec_divu s) rfl hr hu fun u v => rfl
  · exact execAlu_writes (exec_rem s) rfl hr hu sremWord_eq
  · exact execAlu_writes (exec_remu s) rfl hr hu uremWord_eq
  · exact execAlu_writes (exec_min s) rfl hr hu min_signed
  · exact execAlu_writes (exec_max s) rfl hr hu max_signed
  · exact execAlu_writes (exec_minu s) rfl hr hu min_unsigned
  · exact execAlu_writes (exec_maxu s) rfl hr hu max_unsigned
  · cases hr

theorem comparison_computes : Computes comparison := by
  intro i s r hr hu
  unfold comparison at hr
  split at hr
  · exact execAlu_writes (exec_ceq s) rfl hr hu fun u v => rfl
  · exact execAlu_writes (exec_cne s) rfl hr hu fun u v => by
      rw [ofBool_eq_truth, bne, beq_eq_decide, ← decide_not]
  · exact execAlu_writes (exec_clt s) rfl hr hu fun u v => by rw [ofBool_eq_truth, BitVec.slt_eq_decide]
  · exact execAlu_writes (exec_cltu s) rfl hr hu fun u v => by rw [ofBool_eq_truth, BitVec.ult_eq_decide]
  · exact execAlu_writes (exec_cle s) rfl hr hu fun u v => by rw [ofBool_eq_truth, BitVec.sle_eq_decide]
  · exact execAlu_writes (exec_cleu s) rfl hr hu fun u v => by rw [ofBool_eq_truth, BitVec.ule_eq_decide]
  next d a b x y =>
    cases hr
    exact settle_result_writes d.isLt (exec_sel s) rfl (scalarChecks_pass fun r hmem => hu r (by simpa using hmem))
  · cases hr

end Sys2Proof.Machine

namespace Sys2Proof.Proofs

open Sys2Proof.Machine Sys2Proof.Claims

/-- Settles O2: every row's unit is one of the shared forms, and its function is the row's. -/
theorem arithmeticResults : Obligations.ArithmeticResults := ⟨arithmetic_computes, comparison_computes⟩

end Sys2Proof.Proofs
end

section
/-!
Bit counting, RANK and SELECT (R84, R85): counts and positions as the model takes them from runs of bits are those of the
table. O3.
-/

namespace Sys2Proof.Machine

open Sys2Proof.Claims

/-! ### Counts and positions (R84, R85) -/

theorem onesBelow_eq_bitsBelow (x : Word) (n : Nat) : onesBelow x n = bitsBelow x (min 64 n) := by
  rw [onesBelow, bitsBelow, List.countP_eq_length_filter, Nat.min_comm]

/-- The run of positions before the first one that passes is as long as that one is far away. -/
theorem length_takeWhile_not_range' (p : Nat → Bool) (k n : Nat) :
    k + ((List.range' k n).takeWhile fun i => !p i).length = ((List.range' k n).find? p).getD (k + n) := by
  induction n generalizing k with
  | zero => rfl
  | succ n ih =>
    rw [List.range'_succ]
    cases hp : p k with
    | true => simp [hp]
    | false =>
      have hk := ih (k + 1)
      rw [show k + 1 + n = k + (n + 1) by omega] at hk
      rw [List.find?_cons_of_neg (by simp [hp]), ← hk, List.takeWhile_cons_of_pos (by simp [hp]), List.length_cons]
      omega

theorem length_takeWhile_not_range (p : Nat → Bool) (n : Nat) :
    ((List.range n).takeWhile fun i => !p i).length = ((List.range n).find? p).getD n := by
  have h := length_takeWhile_not_range' p 0 n
  rwa [Nat.zero_add, Nat.zero_add, ← List.range_eq_range'] at h

theorem trailingZeros_eq (x : Word) : trailingZeros x = (lowest x).getD 64 := length_takeWhile_not_range _ _

/-- The positions of a word from the top. -/
theorem reverse_range_64 : (List.range 64).reverse = (List.range 64).map fun i => 63 - i := by decide

theorem leadingZeros_eq (x : Word) : leadingZeros x = ((highest x).map fun p => 63 - p).getD 64 := by
  rw [leadingZeros, length_takeWhile_not_range, highest, reverse_range_64, List.find?_map]
  have hmsb : ∀ i ∈ List.range 64, x.getMsbD i = (x.getLsbD ∘ fun i => 63 - i) i := by
    intro i hi
    rw [Function.comp_apply, BitVec.getMsbD_eq_getLsbD, decide_eq_true (List.mem_range.1 hi), Bool.true_and]
  have hfind : (List.range 64).find? x.getMsbD = (List.range 64).find? (x.getLsbD ∘ fun i => 63 - i) :=
    List.find?_congr hmsb
  rw [hfind]
  cases h : (List.range 64).find? (x.getLsbD ∘ fun i => 63 - i) with
  | none => rfl
  | some i =>
    have hi := List.mem_range.1 (List.mem_of_find?_eq_some h)
    simp only [Option.map_some, Option.getD_some]
    omega

/-- The b-th of the positions that pass is the one that has exactly b of them below it. -/
theorem getElem?_filter_range (p : Nat → Bool) (n b : Nat) :
    ((List.range n).filter p)[b]? = (List.range n).find? fun i => p i && (List.range i).countP p == b := by
  induction n with
  | zero => rfl
  | succ n ih =>
    rw [List.range_succ, List.filter_append, List.find?_append, ← ih]
    cases hp : p n with
    | false => simp [hp]
    | true =>
      have hcount := List.countP_eq_length_filter (p := p) (l := List.range n)
      rcases Nat.lt_trichotomy b ((List.range n).countP p) with hlt | heq | hgt
      · rw [List.getElem?_append_left (hcount ▸ hlt), List.getElem?_eq_getElem (hcount ▸ hlt), Option.some_or]
      · simp [hp, heq, hcount]
      · simp [hp, List.getElem?_append_right, ← hcount, Nat.le_of_lt hgt, Nat.ne_of_lt hgt,
          show b - (List.range n).countP p ≠ 0 by omega]

theorem selectBit_eq (x : Word) (b : Nat) :
    selectBit x b = ((List.range 64).find? fun p => x.getLsbD p && bitsBelow x p == b).getD 64 := by
  rw [selectBit, getElem?_filter_range]
  rfl

/-! ### Extension, extraction, reversal (R84) -/

theorem sextFrom_eq (x : Word) (n : Nat) : sextFrom x n = (x.setWidth (n + 1)).signExtend 64 := by
  rw [sextFrom, BitVec.signExtend, BitVec.toInt_eq_toNat_bmod, BitVec.toNat_setWidth]
  norm_cast

theorem bextField_eq (x y : Word) : bextField x y =
    (x >>> (y.toNat % 64)) &&& BitVec.ofNat 64 (2 ^ min (y.toNat / 2 ^ 8 % 2 ^ 7) 64 - 1) := by
  have hle : 2 ^ min (y.toNat / 2 ^ 8 % 2 ^ 7) 64 ≤ 2 ^ 64 := Nat.pow_le_pow_right (by decide) (Nat.min_le_right ..)
  have hmask : 2 ^ min (y.toNat / 2 ^ 8 % 2 ^ 7) 64 - 1 < 2 ^ 64 :=
    Nat.lt_of_lt_of_le (Nat.sub_lt (Nat.two_pow_pos _) (by decide)) hle
  apply BitVec.eq_of_toNat_eq
  rw [bextField, BitVec.toNat_and, BitVec.toNat_ushiftRight, BitVec.toNat_ofNat, BitVec.toNat_ofNat,
    Nat.mod_eq_of_lt hmask, Nat.and_two_pow_sub_one_eq_mod, Nat.shiftRight_eq_div_pow, Nat.mod_eq_of_lt]
  · rfl
  · exact Nat.lt_of_lt_of_le (Nat.mod_lt _ (Nat.two_pow_pos _)) hle

theorem reverse_eq (x : Word) :
    BitVec.reverse x = BitVec.ofBoolListLE ((List.range 64).map fun i => x.getLsbD (63 - i)) := by
  apply BitVec.eq_of_getLsbD_eq
  intro i hi
  refine (BitVec.getLsbD_reverse.trans ?_).trans BitVec.getLsbD_ofBoolListLE.symm
  simp [BitVec.getMsbD_eq_getLsbD, hi]

theorem bitwise_computes : Computes bitwise := by
  intro i s r hr hu
  unfold bitwise at hr
  split at hr
  · exact execUnary_writes (exec_popc s) rfl hr hu fun u => by rw [popCount, onesBelow_eq_bitsBelow, Nat.min_self]
  · exact execUnary_writes (exec_clz s) rfl hr hu fun u => by rw [leadingZeros_eq]
  · exact execUnary_writes (exec_ctz s) rfl hr hu fun u => by rw [trailingZeros_eq]
  · exact execAlu_writes (exec_rank s) rfl hr hu fun u v => by rw [onesBelow_eq_bitsBelow]
  · exact execAlu_writes (exec_select s) rfl hr hu fun u v => by rw [selectBit_eq]
  · exact execAlu_writes (exec_sext s) rfl hr hu fun u v => sextFrom_eq u _
  · exact execAlu_writes (exec_bext s) rfl hr hu bextField_eq
  · exact execUnary_writes (exec_brev s) rfl hr hu reverse_eq
  · cases hr

end Sys2Proof.Machine

namespace Sys2Proof.Proofs

open Sys2Proof.Machine Sys2Proof.Claims

/-- Settles O3: each bit function of the model is the table's. -/
theorem bitResults : Obligations.BitResults := bitwise_computes

end Sys2Proof.Proofs
end

section
/-!
Immediate forms (R80-R82), and O4.
-/

namespace Sys2Proof.Machine

open Sys2Proof.Claims

theorem canon_toNat (w : Word) : canon w.toNat = address56 w := by
  rw [canon, address56, BitVec.ofNat_toNat]

/-- A shift amount of format I is below 64 (R81). -/
theorem shamt_setWidth (n : BitVec 6) : shamt (n.zeroExtend 64) = n.toNat := by
  have h := n.isLt
  simp only [shamt, BitVec.toNat_setWidth]
  omega

theorem immediate_computes : Computes immediate := by
  intro i s r hr hu
  unfold immediate at hr
  split at hr
  · exact execImm_writes (exec_addi s) rfl hr hu fun u => rfl
  · exact execImm_writes (exec_andi s) rfl hr hu fun u => rfl
  · exact execImm_writes (exec_ori s) rfl hr hu fun u => rfl
  · exact execImm_writes (exec_xori s) rfl hr hu fun u => rfl
  · exact execImm_writes (exec_slti s) rfl hr hu fun u => by rw [ofBool_eq_truth, BitVec.slt_eq_decide]; rfl
  · exact execImm_writes (exec_sltiu s) rfl hr hu fun u => by rw [ofBool_eq_truth, BitVec.ult_eq_decide]; rfl
  · exact execImm_writes (exec_muli s) rfl hr hu fun u => rfl
  · exact execImm_writes (exec_shli s) rfl hr hu fun u => by rw [shamt_setWidth]
  · exact execImm_writes (exec_shri s) rfl hr hu fun u => by rw [shamt_setWidth]
  · exact execImm_writes (exec_sari s) rfl hr hu fun u => by rw [shamt_setWidth]
  next d p =>
    cases hr
    refine settle_result_writes d.isLt ?_ rfl (scalarChecks_dest hu)
    rw [exec_addpc, execAddpc, canon_toNat]
    rfl
  · cases hr

end Sys2Proof.Machine

namespace Sys2Proof.Proofs

open Sys2Proof.Machine Sys2Proof.Claims

/-- Settles O4: the immediate operand and the shift amount are those of the table. -/
theorem immediateResults : Obligations.ImmediateResults := immediate_computes

end Sys2Proof.Proofs
end

section
/-!
A unit that writes a register and one CSR (R86, R100): what it leaves alone.
-/

namespace Sys2Proof.Machine

open Sys2Proof.Claims

theorem State.result_onlyCsr (s : State) (l d : Nat) (v : Word) (n : Nat) : OnlyCsr s (s.result l d v) n := by
  obtain ⟨hregs, hcore⟩ := s.result_onlyRegisters l d v
  exact ⟨fun m _ => s.readCsr_congr (s.result_csr l d v) m, by rw [s.result_csr]; exact hcore, hregs⟩

theorem onlyCsr_setCsr {s e : State} {n : Nat} (h : OnlyCsr s e n) (v : Word) : OnlyCsr s (e.setCsr n v) n := by
  obtain ⟨hothers, hcore, hregs⟩ := h
  refine ⟨fun m hm => (Sparse.get_set_ne _ _ hm).trans (hothers m hm), ?_, hregs⟩
  simp only [State.setCsr]
  rw [hcore]

theorem onlyCsr_goto {s e : State} {n : Nat} (h : OnlyCsr s e n) (i : Instr) (pc : Word) : OnlyCsr s (e.goto i pc) n := by
  obtain ⟨hothers, hcore, hregs⟩ := h
  refine ⟨hothers, ?_, ?_⟩
  · simp only [State.goto, State.setCore]
    rw [hcore]
  · unfold OnlyRegisters at hregs ⊢
    simp only [State.goto, State.setCore]
    rw [hregs]

end Sys2Proof.Machine
end

section
/-!
Transfers of control (R86-R90): what a unit does that may go elsewhere than to the next one, and O5.
-/

namespace Sys2Proof.Machine

open Sys2Proof.Claims

/-- What the statement says of a transfer. -/
def Transfers (i : Instr) (s : State) (x : Jump) : Prop :=
  ∃ t, Retires i s t (if x.taken s then x.target s else following i s) ∧ Lands s t 1 x.dst (x.val s) ∧
    KeepsRegisters s t x.dst ∧ OnlyCsr s t 0x047 ∧
    t.readCsr 0x047 = if x.taken s then (s.core.pc.setWidth 56).setWidth 64 else s.readCsr 0x047

/-- A branch goes to its target (R61). -/
theorem branchTarget_eq (i : Instr) (s : State) (p : Imm 21) : branchTarget i s.core.pc p = displaced i p s := by
  have hpc : wordPc i s.core.pc = s.core.pc + 4 * BitVec.ofNat 64 (i.words - 1) := by
    rw [wordPc]
    congr 1
    apply BitVec.eq_of_toNat_eq
    simp [BitVec.toNat_mul, Nat.mul_mod]
  rw [branchTarget, canon_toNat, hpc]
  rfl

theorem Word.ofNat_bits_56 (w : Word) : BitVec.ofNat 64 (Word.bits w 0 56) = (w.setWidth 56).setWidth 64 := by
  apply BitVec.eq_of_toNat_eq
  simp [Word.bits, Sys2Proof.bits]

/-- A transfer that is taken goes to its target and records where it stood (R86). -/
theorem transfers_of_taken {i : Instr} {s : State} {x : Jump} {checks : List Verdict}
    (he : exec i s = settleTo i s checks (s.result 1 x.dst (x.val s)).lastBr (x.target s)) (hw : i.wellFormed = true)
    (hc : firstOf checks = .pass) (hd : x.dst < 32) (ht : x.taken s = true) : Transfers i s x := by
  obtain ⟨hlands, hkeeps⟩ := s.result_lands 1 (x.val s) hd
  have hpc : (s.result 1 x.dst (x.val s)).core.pc = s.core.pc := s.result_core_pc ..
  have honly := onlyCsr_goto (onlyCsr_setCsr (s.result_onlyCsr 1 x.dst (x.val s) 0x047)
    (BitVec.ofNat 64 (Word.bits (s.result 1 x.dst (x.val s)).core.pc 0 56))) i (x.target s)
  rw [settleTo_pass hw hc] at he
  refine ⟨_, ⟨he, (if_pos ht).symm, rfl, hpc⟩, hlands, hkeeps, honly, ?_⟩
  rw [if_pos ht, ← Word.ofNat_bits_56, ← hpc]
  exact Sparse.get_set_eq ..

/-- One that is not taken goes on to the next unit. -/
theorem transfers_of_not_taken {i : Instr} {s : State} {x : Jump} {checks : List Verdict}
    (he : exec i s = settle i s checks (s.result 1 x.dst (x.val s))) (hw : i.wellFormed = true)
    (hc : firstOf checks = .pass) (hd : x.dst < 32) (ht : x.taken s = false) : Transfers i s x := by
  obtain ⟨hlands, hkeeps⟩ := s.result_lands 1 (x.val s) hd
  have hnot : ¬ x.taken s = true := by simp [ht]
  rw [settle_pass hw hc, nextPc_eq] at he
  refine ⟨_, ⟨he, (if_neg hnot).symm, rfl, s.result_core_pc ..⟩, hlands, hkeeps,
    onlyCsr_goto (s.result_onlyCsr 1 x.dst (x.val s) 0x047) i _, ?_⟩
  rw [if_neg hnot]
  exact s.readCsr_congr (s.result_csr ..) _

/-- A branch of format B. -/
theorem execBranch_transfers {i : Instr} {s : State} {x : Jump} {p : Imm 21} {checks : List Verdict} {taken : Bool}
    (he : exec i s = execBranch i p checks taken (s.result 1 x.dst (x.val s)) s) (hw : i.wellFormed = true)
    (hc : firstOf checks = .pass) (hd : x.dst < 32) (ht : x.taken s = taken) (hx : x.target s = displaced i p s) :
    Transfers i s x := by
  rw [execBranch] at he
  cases taken with
  | true => exact transfers_of_taken (he.trans (by rw [if_pos rfl, branchTarget_eq, hx])) hw hc hd ht
  | false => exact transfers_of_not_taken he hw hc hd ht

/-- A branch with no register of its own. -/
theorem execBranch_branchIf {i : Instr} {s : State} {x : Jump} {p : Imm 21} {checks : List Verdict} {taken : Bool}
    {srcs : List Nat} {cond : State → Bool} (he : exec i s = execBranch i p checks taken s s) (hw : i.wellFormed = true)
    (hx : branchIf i p srcs cond = some x) (hc : firstOf checks = .pass) (ht : cond s = taken) : Transfers i s x := by
  cases hx
  exact execBranch_transfers he hw hc (Nat.zero_lt_succ 31) ht rfl

/-- A conditional branch on one register. -/
theorem execBranchOn_transfers {i : Instr} {s : State} {x : Jump} {p : Imm 21} {a : BitVec 5} {taken : Bool}
    {cond : State → Bool} (he : exec i s = execBranchOn i p a taken s) (hw : i.wellFormed = true)
    (hx : branchIf i p [a.toNat] cond = some x) (hu : Usable s (x.srcs ++ [x.dst])) (ht : cond s = taken) :
    Transfers i s x := by
  have hsrc : Usable s [a.toNat] := by
    cases hx
    exact fun r hr => hu r (List.mem_append_left _ hr)
  exact execBranch_branchIf he hw hx (scalarChecks_one false hsrc) ht

end Sys2Proof.Machine

namespace Sys2Proof.Proofs

open Sys2Proof.Machine Sys2Proof.Claims

/-- Settles O5, transfer by transfer. -/
theorem transferResults : Obligations.TransferResults := by
  intro i s x hx hw hu
  show Transfers i s x
  unfold transfer at hx
  split at hx
  next p => exact execBranch_branchIf (exec_j s) hw hx rfl rfl
  next p =>
    cases hx
    exact execBranch_transfers ((exec_call s).trans (by rw [execCall, nextPc_eq]; rfl)) hw (scalarChecks_dest hu)
      (by simp) rfl rfl
  next a p => exact execBranchOn_transfers (exec_bez s) hw hx hu (by rw [beq_eq_decide])
  next a p => exact execBranchOn_transfers (exec_bnz s) hw hx hu (by rw [bne, beq_eq_decide, ← decide_not])
  next a p => exact execBranchOn_transfers (exec_bltz s) hw hx hu (by rw [BitVec.msb_eq_toInt])
  next p => exact execBranch_branchIf (exec_bknone s) hw hx rfl (by rw [beq_eq_decide])
  next p => exact execBranch_branchIf (exec_bkany s) hw hx rfl (by rw [bne, beq_eq_decide, ← decide_not])
  next p => exact execBranch_branchIf (exec_bkall s) hw hx rfl (by rw [beq_eq_decide]; rfl)
  next a p =>
    cases hx
    refine execBranch_transfers (exec_loop s) hw (scalarChecks_pass hu) a.isLt ?_ rfl
    show decide (s.g a.toNat - 1 ≠ 0) = (s.g a.toNat - 1 != 0)
    rw [bne, beq_eq_decide, ← decide_not]
  next a y =>
    cases hx
    exact transfers_of_taken (exec_jr s) hw (scalarChecks_one y fun r hr => hu r (List.mem_append_left _ hr)) (by simp) rfl
  next a y =>
    cases hx
    exact transfers_of_taken ((exec_callr s).trans (by rw [execCallr, nextPc_eq]; rfl)) hw
      (scalarChecks_pass (srcs := [(a.toNat, y)]) (dsts := [31]) hu) (by simp) rfl
  next =>
    cases hx
    exact transfers_of_not_taken (exec_nop s) hw rfl (by simp) rfl
  next => cases hx

end Sys2Proof.Proofs
end

section
/-!
SYSCALL and BRK (R95, R101), IEN and IDIS (R98), WFI (R99), with O9 and O11.
-/

namespace Sys2Proof.Machine

open Sys2Proof.Claims

/-! ### ISTAT.IE (R96, R98) -/

theorem Word.getLsbD_one (i : Nat) : (1 : Word).getLsbD i = decide (i = 0) := by
  rw [show (1 : Word) = 1#64 from rfl, BitVec.getLsbD_one]
  simp

theorem Word.setBits_zero_one_one (w : Word) : Word.setBits w 0 1 1 = w ||| 1 := by
  apply BitVec.eq_of_getLsbD_eq
  intro i hi
  rw [Word.getLsbD_setBits _ _ _ (by decide), BitVec.getLsbD_or, Word.getLsbD_one]
  by_cases h : i = 0
  · simp [h]
  · simp [h]

theorem Word.setBits_zero_one_zero (w : Word) : Word.setBits w 0 1 0 = w &&& ~~~1 := by
  apply BitVec.eq_of_getLsbD_eq
  intro i hi
  rw [Word.getLsbD_setBits _ _ _ (by decide), BitVec.getLsbD_and, BitVec.getLsbD_not, Word.getLsbD_one]
  by_cases h : i = 0
  · simp [h]
  · simp [h, hi]

/-- A unit whose one check is the level and whose effect is a write of ISTAT. -/
theorem retires_setCsr {i : Instr} {s : State} {n : Nat} {v : Word} (he : exec i s = settle i s [privileged s] (s.setCsr n v))
    (hw : i.wellFormed = true) (hs : s.system = true) :
    ∃ t, Retires i s t (following i s) ∧ KeepsCore s t ∧ OnlyCsr s t n ∧ t.readCsr n = v :=
  ⟨_, retires_of_settle he hw (by rw [privileged, hs]; rfl) rfl, ⟨rfl, rfl, rfl, rfl⟩,
    onlyCsr_goto (onlyCsr_setCsr ⟨fun _ _ => rfl, rfl, rfl⟩ v) i _, Sparse.get_set_eq ..⟩

theorem interruptEnable : InterruptEnable := by
  intro s
  refine ⟨fun hs => ⟨?_, ?_⟩, fun hs henters => ?_⟩
  · rw [← Word.setBits_zero_one_one]
    exact retires_setCsr (exec_ien s) rfl hs
  · rw [← Word.setBits_zero_one_zero]
    exact retires_setCsr (exec_idis s) rfl hs
  · have hlevel : firstOf [privileged s] = trapWith 0x02 := by rw [privileged, hs]; rfl
    exact ⟨settle_traps henters (exec_ien s) rfl hlevel, settle_traps henters (exec_idis s) rfl hlevel⟩

/-! ### Interrupts that are pending and enabled (R96, R99) -/

theorem getLsbD_ofNat_bits (w : Word) {lo n i : Nat} (h : i < n) :
    (BitVec.ofNat n (Word.bits w lo n)).getLsbD i = w.getLsbD (lo + i) := by
  rw [BitVec.getLsbD_ofNat, Word.bits, bits, Nat.testBit_mod_two_pow, Nat.testBit_div_two_pow, BitVec.testBit_toNat]
  simp [h, Nat.add_comm]

theorem State.enabledPending_eq_zero (s : State) : s.enabledPending = 0 ↔
    ∀ i, i < 4 → (s.readCsr 0x100).getLsbD (16 + i) = false ∨ (s.readCsr 0x100).getLsbD (8 + i) = false := by
  have hbit : ∀ i, i < 4 → ((BitVec.ofNat 4 (Word.bits (s.readCsr 0x100) 16 4)) &&&
      (BitVec.ofNat 4 (Word.bits (s.readCsr 0x100) 8 4))).getLsbD i =
        ((s.readCsr 0x100).getLsbD (16 + i) && (s.readCsr 0x100).getLsbD (8 + i)) := by
    intro i hi
    rw [BitVec.getLsbD_and, getLsbD_ofNat_bits _ hi, getLsbD_ofNat_bits _ hi]
  constructor
  · intro h i hi
    have hzero := hbit i hi
    rw [BitVec.eq_of_toNat_eq (y := 0#4) h, BitVec.getLsbD_zero] at hzero
    exact Bool.and_eq_false_iff.1 hzero.symm
  · intro h
    refine congrArg BitVec.toNat (a₂ := 0#4) (BitVec.eq_of_getLsbD_eq fun i hi => ?_)
    rw [hbit i hi, BitVec.getLsbD_zero]
    exact Bool.and_eq_false_iff.2 (h i hi)

theorem waitForInterrupt : WaitForInterrupt := by
  intro s
  refine ⟨fun h => ?_, fun hnone hhalt hpreempt => ?_⟩
  · have hgo : s.enabledPending ≠ 0 ∨ s.inp.halt = true ∨ s.inp.preempt = true := by
      refine h.imp_left fun ⟨i, hi, hpending, henabled⟩ hzero => ?_
      rcases s.enabledPending_eq_zero.1 hzero i hi with h | h
      · exact absurd (hpending.symm.trans h) (by decide)
      · exact absurd (henabled.symm.trans h) (by decide)
    have he : exec .wfi s = settle .wfi s [] s := by
      rw [exec_wfi, execWfi, if_pos (by simpa [or_assoc] using hgo)]
    exact ⟨_, retires_of_settle he rfl rfl rfl, s.goto_keepsCore _ _, s.goto_onlyCore _ _⟩
  · refine ⟨(s.setCore { s.core with wfi := true }).hold .wfi .cueWait, ⟨?_, rfl, rfl, rfl, rfl, rfl, rfl, rfl⟩, rfl⟩
    rw [exec_wfi, execWfi, if_neg (by simp [s.enabledPending_eq_zero.2 hnone, hhalt, hpreempt])]

end Sys2Proof.Machine

namespace Sys2Proof.Proofs

open Sys2Proof.Machine Sys2Proof.Claims

/-- Settles O9: both enter at once, with the address of the next unit. -/
theorem systemCalls : Obligations.SystemCalls := fun s henters =>
  ⟨⟨_, by rw [exec_syscall, execSyscall, nextPc_eq]; rfl, State.syncTrap_enters henters _ _⟩,
    ⟨_, by rw [exec_brk, execBrk, nextPc_eq]; rfl, State.syncTrap_enters henters _ _⟩⟩

/-- Settles O11: the interrupt enable, and the wait for an interrupt. -/
theorem interruptControl : Obligations.InterruptControl := ⟨interruptEnable, waitForInterrupt⟩

end Sys2Proof.Proofs
end

section
/-!
CSRs with no behaviour of their own (R100), and O12.
-/

namespace Sys2Proof.Machine

open Sys2Proof.Claims

/-- The register map, the reads and the writes give the plain registers nothing of their own. -/
structure IsPlain (n : Nat) (w : Word) : Prop where
  row : (csrRow n).map (fun r => r.2.2) = some w
  some' : w ≠ 0
  captured : csrCaptured n = false
  read : ∀ s : State, s.csrRead n = s.readCsr n
  advance : ∀ s : State, s.advance n = s
  takes : ∀ v, csrRejects n v = false
  bind : n ≠ 0x013
  moves : ∀ (s : State) v, s.wpMoves n v = false
  fields : ∀ old v, fieldsOf n w old v = (old &&& ~~~w) ||| (v &&& w)
  writes : ∀ (s : State) v, s.csrWrite n w v = s.setCsr n (fieldsOf n w (s.readCsr n) v)

theorem isPlain_of_mem : ∀ p ∈ plainCsrs, IsPlain p.1 p.2 := by
  intro p hp
  fin_cases hp
  all_goals
    exact ⟨rfl, by decide, rfl, fun _ => rfl, fun _ => rfl, fun _ => rfl, by decide, fun _ _ => rfl, fun _ _ => rfl,
      fun _ _ => rfl⟩

/-- A plain register may be read and written at system level. -/
theorem IsPlain.access {s : State} {n : Nat} {w : Word} (hp : IsPlain n w) (hs : s.system = true) :
    firstOf (csrAccess s n) = .pass ∧ s.csrPermits n = true ∧ csrMask n = w := by
  have hrow := hp.row
  obtain ⟨r, hr, rfl⟩ := Option.map_eq_some_iff.1 hrow
  refine ⟨?_, by simp [State.csrPermits, hr, hs], by simp [csrMask, hr]⟩
  rw [csrAccess, hr, hs]
  rfl

theorem IsPlain.writeChecks {n : Nat} {w : Word} (hp : IsPlain n w) (s : State) (v : Word) :
    firstOf (csrWriteChecks s n v) = .pass := by
  simp [csrWriteChecks, State.wpTranslates, hp.moves, hp.takes, hp.bind, require]

/-- A form of R100 that writes a plain register. -/
theorem execCsrOp_plain {i : Instr} (g : Word → Word → Word) {d a : BitVec 5} {c : BitVec 12} {s : State} {w : Word}
    (hp : IsPlain c.toNat w) (hs : s.system = true) :
    execCsrOp i g d a c s = settle i s (csrAccess s c.toNat ++ scalarChecks s [(a.toNat, false)] [d.toNat] ++
        csrWriteChecks s c.toNat (g (s.readCsr c.toNat) (s.g a.toNat)))
      ((s.setCsr c.toNat (fieldsOf c.toNat w (s.readCsr c.toNat) (g (s.readCsr c.toNat) (s.g a.toNat)))).result 1 d.toNat
        (s.readCsr c.toNat)) := by
  obtain ⟨-, hpermits, hmask⟩ := hp.access hs
  simp only [execCsrOp, hpermits, hp.read, hp.moves, hmask, hp.writes, hp.advance, State.csrResult, hp.captured]
  rfl

/-- What the statement says of an access that gives the register the value `v`. -/
def Swaps (i : Instr) (s : State) (d n : Nat) (v : Word) : Prop :=
  ∃ t, Retires i s t (following i s) ∧ Lands s t 1 d (s.readCsr n) ∧ KeepsRegisters s t d ∧ OnlyCsr s t n ∧ t.readCsr n = v

theorem swaps_of_read {i : Instr} {s : State} {d n : Nat} {checks : List Verdict} (hd : d < 32)
    (he : exec i s = settle i s checks (s.result 1 d (s.readCsr n))) (hw : i.wellFormed = true) (hc : firstOf checks = .pass) :
    Swaps i s d n (s.readCsr n) := by
  obtain ⟨hlands, hkeeps⟩ := s.result_lands 1 (s.readCsr n) hd
  exact ⟨_, retires_of_settle he hw hc (s.result_core_pc ..), hlands, hkeeps, onlyCsr_goto (s.result_onlyCsr ..) i _,
    s.readCsr_congr (s.result_csr ..) n⟩

theorem swaps_of_write {i : Instr} {s : State} {d n : Nat} {checks : List Verdict} {v : Word} (hd : d < 32)
    (he : exec i s = settle i s checks ((s.setCsr n v).result 1 d (s.readCsr n))) (hw : i.wellFormed = true)
    (hc : firstOf checks = .pass) : Swaps i s d n v := by
  obtain ⟨hlands, hkeeps⟩ := (s.setCsr n v).result_lands 1 (s.readCsr n) hd
  have honly : OnlyCsr s ((s.setCsr n v).result 1 d (s.readCsr n)) n := by
    obtain ⟨hothers, hcore, hregs⟩ := (s.setCsr n v).result_onlyCsr 1 d (s.readCsr n) n
    exact ⟨fun m hm => (hothers m hm).trans (Sparse.get_set_ne _ _ hm), hcore, hregs⟩
  refine ⟨_, retires_of_settle he hw hc ((s.setCsr n v).result_core_pc ..), hlands, hkeeps, onlyCsr_goto honly i _, ?_⟩
  exact ((s.setCsr n v).readCsr_congr (State.result_csr ..) n).trans (Sparse.get_set_eq ..)

/-- A form that writes, on a plain register with its operands usable. -/
theorem execCsrOp_swaps {i : Instr} {g : Word → Word → Word} {d a : BitVec 5} {c : BitVec 12} {s : State} {w : Word}
    (he : exec i s = execCsrOp i g d a c s) (hw : i.wellFormed = true) (hp : IsPlain c.toNat w) (hs : s.system = true)
    (hu : Usable s [a.toNat, d.toNat]) :
    Swaps i s d.toNat c.toNat ((s.readCsr c.toNat &&& ~~~w) ||| (g (s.readCsr c.toNat) (s.g a.toNat) &&& w)) := by
  rw [execCsrOp_plain g hp hs, hp.fields] at he
  exact swaps_of_write d.isLt he hw
    (firstOf_append.2 ⟨firstOf_append.2 ⟨(hp.access hs).1, scalarChecks_pass hu⟩, hp.writeChecks s _⟩)

end Sys2Proof.Machine

namespace Sys2Proof.Proofs

open Sys2Proof.Machine Sys2Proof.Claims

/-- Settles O12, form by form. -/
theorem csrAccess : Obligations.CsrAccess := by
  intro i s d a n f w hi hw hn hs hu
  have hp : IsPlain n w := isPlain_of_mem _ hn
  unfold csrForm at hi
  split at hi <;> cases hi
  next d c =>
    have hd : Usable s [d.toNat] := fun r hr => hu r (List.mem_cons_of_mem _ hr)
    refine swaps_of_read d.isLt ?_ hw (firstOf_append.2 ⟨(hp.access hs).1, scalarChecks_dest hd⟩)
    simp only [exec_csrr, execCsrr, hp.captured, hp.advance, hp.read, State.csrResult]
    rfl
  next d a c => exact execCsrOp_swaps (g := fun _ x => x) (exec_csrw s) hw hp hs hu
  next d a c => exact execCsrOp_swaps (g := fun o x => o ||| x) (exec_csrs s) hw hp hs hu
  next d a c => exact execCsrOp_swaps (g := fun o x => o &&& ~~~x) (exec_csrc s) hw hp hs hu
  next d a c => exact execCsrOp_swaps (g := fun o x => o ^^^ x) (exec_csrx s) hw hp hs hu

end Sys2Proof.Proofs
end

section
/-!
END (R91, R127, R152, R221) and the account instructions (R101, R102), with O35.
-/

namespace Sys2Proof.Machine

open Sys2Proof.Claims

/-! ### The words that END leaves in a queue (R152, R176) -/

theorem isTerminal_eq_ends (w : BitVec 16) : isTerminal w = ends w := rfl

theorem entryLen_eq_none {ws : List EWord} (h : ∀ w ∈ ws, ends w.w = false) : entryLen ws = none := by
  induction ws with
  | nil => rfl
  | cons w ws ih =>
    obtain ⟨hw, hws⟩ := List.forall_mem_cons.1 h
    rw [entryLen, isTerminal_eq_ends, hw, ih hws]
    rfl

/-- A list with a terminal word begins with an entry of one word or more. -/
theorem entryLen_of_last {ws : List EWord} {w : EWord} (h : ws.getLast? = some w) (hw : ends w.w = true) :
    ∃ n, entryLen ws = some n ∧ 0 < n ∧ n ≤ ws.length := by
  induction ws with
  | nil => cases h
  | cons x xs ih =>
    rw [entryLen, isTerminal_eq_ends]
    cases hx : ends x.w with
    | true => exact ⟨1, rfl, by decide, by simp⟩
    | false =>
      cases xs with
      | nil =>
        cases h
        exact absurd (hx.symm.trans hw) (by decide)
      | cons y ys =>
        obtain ⟨n, hn, -, hle⟩ := ih (by simpa using h)
        exact ⟨n + 1, by simp [hn], by omega, by simpa using hle⟩

/-- Where no entry is open and none is chained, every word stays. -/
theorem completeWords_eq_length {q fuel : Nat} {ws : List EWord} (hlen : ws.length ≤ fuel)
    (hplain : ∀ w ∈ ws, isChaining q w.w = false) (hlast : ∀ w, ws.getLast? = some w → ends w.w = true) :
    completeWords q fuel ws = ws.length := by
  induction fuel generalizing ws with
  | zero => rw [List.eq_nil_of_length_eq_zero (Nat.le_zero.1 hlen)]; rfl
  | succ k ih =>
    cases hw : ws.getLast? with
    | none => rw [List.getLast?_eq_none_iff.1 hw]; rfl
    | some w =>
      obtain ⟨n, hn, hpos, hle⟩ := entryLen_of_last hw (hlast w hw)
      have hlt : n - 1 < ws.length := by omega
      have hrest : completeWords q k (ws.drop n) = (ws.drop n).length := by
        refine ih ?_ (fun x hx => hplain x (List.mem_of_mem_drop hx)) fun x hx => hlast x ?_
        · rw [List.length_drop]
          omega
        · rw [List.getLast?_drop] at hx
          split at hx
          · cases hx
          · exact hx
      simp only [completeWords, hn, List.getElem?_eq_getElem hlt, hplain _ (List.getElem_mem hlt), Bool.false_eq_true,
        if_false, hrest, List.length_drop]
      omega

/-- No word stands behind the last that ends an entry. -/
theorem ends_of_openWords_eq_zero {ws : List EWord} (h : openWords (ws.map EWord.w) = 0) :
    ∀ w, ws.getLast? = some w → ends w.w = true := by
  intro w hw
  rw [← List.head?_reverse] at hw
  rw [openWords, ← List.map_reverse] at h
  cases hws : ws.reverse with
  | nil => simp [hws] at hw
  | cons x xs =>
    rw [hws] at hw h
    obtain rfl : x = w := by simpa using hw
    cases he : ends x.w with
    | true => rfl
    | false => simp [he] at h

/-- Words of the queue that END keeps, and the queue without the others. -/
def Queue.kept (v : Queue) (q : Nat) : Nat :=
  if v.inChain then
    match entryLen v.words with
    | some n => n + completeWords q 256 (v.words.drop n)
    | none => 0
  else completeWords q 256 v.words

def Queue.closed (v : Queue) (q : Nat) : Queue :=
  { v with
    words := v.words.take (v.kept q)
    nextSeq := (v.nextSeq + 2 ^ 32 - terminals (v.words.drop (v.kept q))) % 2 ^ 32 }

theorem Queue.kept_eq_zero {v : Queue} {q : Nat} (hc : v.inChain = false) (h : ∀ w ∈ v.words, ends w.w = false) :
    v.kept q = 0 := by
  rw [Queue.kept, hc, if_neg Bool.false_ne_true, completeWords, entryLen_eq_none h]

theorem Queue.kept_eq_length {v : Queue} {q : Nat} (hc : v.inChain = false) (hlen : v.words.length ≤ 256)
    (hopen : openWords (v.words.map EWord.w) = 0)
    (hplain : q = 0 ∨ 8 < q ∨ ∀ w, w ∈ v.words → w.w.getLsbD 5 = false) : v.kept q = v.words.length := by
  rw [Queue.kept, hc, if_neg Bool.false_ne_true]
  refine completeWords_eq_length hlen (fun w hw => ?_) (ends_of_openWords_eq_zero hopen)
  unfold isChaining
  rcases hplain with rfl | h | h
  · simp
  · simp [Nat.not_le.2 h]
  · rw [h w hw, Bool.and_false]

/-! ### Every queue closed -/

theorem State.dropTail_eq (s : State) (q : Nat) :
    ∃ z, s.dropTail q = (s.setCore { s.core with zpend := z }).setQueue q ((s.queue q).closed q) := by
  obtain ⟨z, hz⟩ := s.readers_eq false ((s.queue q).words.drop ((s.queue q).kept q))
  refine ⟨z, ?_⟩
  rw [← hz]
  rfl

/-- Nothing but pending readers and queues differs. -/
def OnlyTails (s t : State) : Prop :=
  t = { s with core := { s.core with zpend := t.core.zpend }, cell := { s.cell with queues := t.cell.queues } }

theorem dropTails (qs : List Nat) (s : State) (hd : qs.Nodup) : OnlyTails s (qs.foldl State.dropTail s) ∧
    ∀ q v, s.cell.queues[q]? = some v →
      (qs.foldl State.dropTail s).cell.queues[q]? = some (if q ∈ qs then v.closed q else v) := by
  induction qs generalizing s with
  | nil => exact ⟨rfl, fun q v hv => by simpa using hv⟩
  | cons p qs ih =>
    obtain ⟨hp, hqs⟩ := List.nodup_cons.1 hd
    obtain ⟨z, hz⟩ := s.dropTail_eq p
    obtain ⟨honly, hqueues⟩ := ih (s.dropTail p) hqs
    rw [List.foldl_cons]
    refine ⟨?_, fun q v hv => ?_⟩
    · generalize qs.foldl State.dropTail (s.dropTail p) = t at honly
      rw [OnlyTails, hz] at honly
      exact honly
    · have hlt : q < 13 := (Vector.getElem?_eq_some_iff.1 hv).1
      by_cases hqp : q = p
      · subst hqp
        rw [hqueues q (v.closed q) (by simp [hz, State.setQueue, hlt, State.queue_eq hv]), if_neg hp,
          if_pos (List.mem_cons_self ..)]
      · rw [hqueues q v (by simp [hz, State.setQueue, Vector.getElem?_setIfInBounds_ne (Ne.symm hqp), hv])]
        simp [hqp]

/-! ### The frames of a handler (R91) -/

theorem Word.bits_two_eq_zero_iff (w : Word) : Word.bits w 0 2 = 0 ↔ w &&& 3 = 0 := by
  have h : (w &&& 3).toNat = Word.bits w 0 2 := by
    rw [BitVec.toNat_and, show (3 : Word).toNat = 2 ^ 2 - 1 from rfl, Nat.and_two_pow_sub_one_eq_mod]
    simp [Word.bits, Sys2Proof.bits]
  rw [← h]
  exact ⟨fun h0 => BitVec.eq_of_toNat_eq h0, fun h0 => by rw [h0]; rfl⟩

theorem Word.setBits_zero_two_zero (w : Word) : Word.setBits w 0 2 0 = w &&& ~~~3 := by
  apply BitVec.eq_of_getLsbD_eq
  intro i hi
  have hthree : (3 : Word).getLsbD i = decide (i < 2) := by
    rw [show (3 : Word) = BitVec.ofNat 64 (2 ^ 2 - 1) from rfl, BitVec.getLsbD_ofNat, Nat.testBit_two_pow_sub_one]
    simp [hi]
  rw [Word.getLsbD_setBits _ _ _ (by decide), BitVec.getLsbD_and, BitVec.getLsbD_not, hthree]
  by_cases h : i < 2
  · simp [h]
  · simp [h, hi]

theorem Word.and_not_three_of_and_three {w : Word} (h : w &&& 3 = 0) : w &&& ~~~3 = w := by
  calc w &&& ~~~3 = (w &&& ~~~3) ||| (w &&& 3) := by rw [h]; exact BitVec.or_zero.symm
    _ = w &&& BitVec.allOnes 64 := (BitVec.and_or_distrib_left ..).symm
    _ = w := BitVec.and_allOnes

/-- The frame registers are left alone but for FSTAT, and the latch records but inside a handler. -/
theorem State.discardFrames_onlyFrames (s : State) : s.discardFrames =
    { s with csr := s.discardFrames.csr, core := { s.core with frameBar := [] },
             cell := { s.cell with fx := s.discardFrames.cell.fx } } := by
  unfold State.discardFrames
  split <;> rfl

theorem State.discardFrames_readCsr (s : State) (n : Nat) :
    s.discardFrames.readCsr n = if n = 0x040 then s.readCsr 0x040 &&& ~~~3 else s.readCsr n := by
  unfold State.discardFrames
  split
  next h =>
    change s.readCsr n = _
    split
    next hn => rw [hn, Word.and_not_three_of_and_three ((Word.bits_two_eq_zero_iff _).1 h)]
    next => rfl
  next =>
    rw [← Word.setBits_zero_two_zero]
    exact Sparse.get_set ..

theorem State.discardFrames_fx (s : State) :
    s.discardFrames.cell.fx = if s.readCsr 0x040 &&& 3 = 0 then s.cell.fx else [] := by
  unfold State.discardFrames
  simp only [Word.bits_two_eq_zero_iff]
  split <;> rfl

/-! ### END -/

/-- Tails dropped and armed entries disarmed in every queue. -/
def State.closeQueues (s : State) : State :=
  let s1 := (List.range 13).foldl State.dropTail s
  s1.setCell { s1.cell with queues := s1.cell.queues.map fun v => { v with armed := disarmed v.armed } }

theorem State.closeQueues_onlyTails (s : State) : OnlyTails s s.closeQueues := by
  have h := (dropTails (List.range 13) s List.nodup_range).1
  unfold State.closeQueues
  generalize (List.range 13).foldl State.dropTail s = t at h
  rw [OnlyTails] at h ⊢
  rw [h]
  rfl

theorem State.closeQueues_queue {s : State} {q : Nat} {v : Queue} (h : s.cell.queues[q]? = some v) :
    s.closeQueues.cell.queues[q]? = some { v.closed q with armed := disarmed v.armed } := by
  have hq := (dropTails (List.range 13) s List.nodup_range).2 q v h
  rw [if_pos (List.mem_range.2 (Vector.getElem?_eq_some_iff.1 h).1)] at hq
  simp [State.closeQueues, State.setCell, hq, Queue.closed]

theorem State.endCell_eq (s : State) : s.endCell =
    ((s.closeQueues.endRank s.cell.rank).discardFrames).setCore
      { (s.closeQueues.endRank s.cell.rank).discardFrames.core with status := .ended } := by
  have hrank : s.closeQueues.cell.rank = s.cell.rank := by rw [s.closeQueues_onlyTails]
  rw [← hrank]
  rfl

theorem State.endRank_eq (s : State) (r : Nat) : ∃ b, s.endRank r =
    s.setCell { s.cell with endedRanks := s.cell.endedRanks ||| ((1 : Word) <<< r), bars := b } := ⟨_, rfl⟩

/-- Every armed entry that stays is disarmed. -/
theorem disarm_of_mem_disarmed {es : List Entry} {e : Entry} (h : e ∈ disarmed es) : e.disarm = true := by
  obtain ⟨x, -, rfl⟩ := List.mem_map.1 h
  rfl

/-- What END leaves in the state, field by field. -/
theorem State.endCell_effect (s : State) :
    ∃ z b qs fx c, s.endCell = { s with
      csr := c, core := { s.core with zpend := z, frameBar := [], status := .ended },
      cell := { s.cell with
        queues := qs, bars := b, fx := fx, endedRanks := s.cell.endedRanks ||| ((1 : Word) <<< s.cell.rank) } } ∧
    (∀ n, Sparse.get c n = if n = 0x040 then s.readCsr 0x040 &&& ~~~3 else s.readCsr n) ∧
    fx = (if s.readCsr 0x040 &&& 3 = 0 then s.cell.fx else []) ∧
    ∀ (q : Nat) (v : Queue), s.cell.queues[q]? = some v →
      qs[q]? = some { v.closed q with armed := disarmed v.armed } := by
  have hclose := s.closeQueues_onlyTails
  have hqueues := fun q v => s.closeQueues_queue (q := q) (v := v)
  rw [s.endCell_eq]
  obtain ⟨b, hb⟩ := s.closeQueues.endRank_eq s.cell.rank
  rw [hb]
  generalize s.closeQueues = t at hclose hqueues
  rw [OnlyTails] at hclose
  generalize t.core.zpend = z at hclose
  generalize t.cell.queues = qs at hclose hqueues
  subst hclose
  generalize hr : State.setCell _ _ = r
  refine ⟨z, b, qs, r.discardFrames.cell.fx, r.discardFrames.csr, ?_, fun n => ?_, ?_, hqueues⟩
  · rw [r.discardFrames_onlyFrames, ← hr]
    rfl
  · have h := r.discardFrames_readCsr n
    rw [← hr] at h ⊢
    exact h
  · have h := r.discardFrames_fx
    rw [← hr] at h ⊢
    exact h

theorem endOfCell : EndOfCell := by
  intro s
  refine ⟨fun hflight hreplies hreqs => ?_, fun hflight => ?_, fun hflight hout => ?_⟩
  · obtain ⟨z, b, qs, fx, c, he, hcsr, hfx, hqueues⟩ := s.endCell_effect
    have hchecks : firstOf [await s.core.inflight.isEmpty .scoreboard, await (s.coreReplies.all (fun r => !r.dest.inRegs) &&
        s.coreReqs.all (fun r => !r.dest.inRegs)) .memory] = .pass := by
      simp [hflight, hreplies, hreqs, await]
    refine ⟨s.endCell.goto .endI (s.core.pc + 4), retires_of_settle (exec_endI s) rfl hchecks (by rw [he]), ?_⟩
    rw [he]
    refine ⟨rfl, rfl, rfl, rfl, hcsr 0x040, fun n hn => (hcsr n).trans (if_neg hn), hfx, rfl, rfl, fun q v hv => ?_⟩
    refine ⟨{ v.closed q with armed := disarmed v.armed }, hqueues q v hv, rfl, rfl, rfl,
      fun e => disarm_of_mem_disarmed, List.take_prefix _ _, fun hc hopen => ?_, fun hc hlen hopen hplain => ?_⟩
    · exact (congrArg v.words.take (v.kept_eq_zero hc hopen)).trans List.take_zero
    · exact (congrArg v.words.take (v.kept_eq_length hc hlen hopen hplain)).trans List.take_length
  · exact settle_waits (exec_endI s) rfl (by simp [hflight, await, firstOf])
  · refine settle_waits (exec_endI s) rfl ?_
    rcases hout with h | h <;> simp [hflight, h, await, firstOf]

/-! ### Accounts (R101, R102) -/

theorem State.emit_off {s : State} (h : s.trace 0 = false) (type : Nat) (src : Who) (w2 w3 : Word) :
    s.emit type src w2 w3 = s := by
  rw [State.emit, State.record, h]
  rfl

theorem State.trace_of_control_zero {s : State} (h : s.readCsr 0x0C0 = 0) (b : Nat) : s.trace b = false := by
  rw [State.trace, h]
  exact BitVec.getLsbD_zero

theorem foldl_add_eq_sum (ws : List Word) (v : Word) :
    ws.foldl (· + ·) v = v + BitVec.ofNat 64 ((ws.map BitVec.toNat).sum) := by
  induction ws generalizing v with
  | nil => simp
  | cons w ws ih => rw [List.foldl_cons, ih, List.map_cons, List.sum_cons, BitVec.ofNat_add, BitVec.ofNat_toNat,
      BitVec.setWidth_eq, BitVec.add_assoc]

theorem State.energyTotal_eq (s : State) (n : Nat) : s.energyTotal n =
    if n < 32 then Sparse.get s.acct.energy n
    else if n = 32 then BitVec.ofNat 64 (((List.range 32).map fun j => (Sparse.get s.acct.energy j).toNat).sum) else 0 := by
  rw [State.energyTotal, foldl_add_eq_sum, List.map_map]
  simp only [BitVec.ofNat_eq_ofNat, BitVec.zero_add]
  rfl

/-- A counter read without tracing: nothing is captured and nothing replayed. -/
theorem settleCounter_writes {i : Instr} {s : State} {checks : List Verdict} {d : Nat} {v : Word} (hd : d < 32)
    (he : exec i s = settleCounter i s checks d v s) (hw : i.wellFormed = true) (hc : firstOf checks = .pass)
    (htrace : s.readCsr 0x0C0 = 0) : WritesRegister i s 1 d v (following i s) := by
  have hreplay : s.replaying = false := State.trace_of_control_zero htrace 4
  have hcsr : (s.result 1 d v).csr = s.csr := by rw [(s.result_onlyRegisters 1 d v).2]
  have hresult : (s.result 1 d v).trace 3 = false :=
    State.trace_of_control_zero ((State.readCsr_congr s hcsr 0x0C0).trans htrace) 3
  refine settle_result_writes hd ?_ hw hc
  rw [he, settleCounter, hreplay, capture_off hresult]
  rfl

theorem accountReads : AccountReads := by
  rintro s d a x n husable htrace rfl
  have hchecks : firstOf (scalarChecks s [(a.toNat, x)] [d.toNat]) = .pass := scalarChecks_pass husable
  refine ⟨settleCounter_writes d.isLt (exec_accrd s) rfl hchecks htrace, ?_, ?_⟩
  · rw [← s.energyTotal_eq]
    exact settleCounter_writes d.isLt (exec_enrgrd s) rfl hchecks htrace
  · have he : exec (.tmark a x) s = settle (.tmark a x) s (scalarChecks s [(a.toNat, x)] []) s := by
      rw [exec_tmark, execTmark, State.emit_off (State.trace_of_control_zero htrace 0)]
    have hone : firstOf (scalarChecks s [(a.toNat, x)] []) = .pass :=
      scalarChecks_one x fun r hr => husable r (by simp_all)
    exact ⟨_, ⟨retires_of_settle he rfl hone rfl, s.goto_keepsCore _ _⟩, s.goto_onlyCore _ _⟩

end Sys2Proof.Machine

namespace Sys2Proof.Proofs

open Sys2Proof.Machine Sys2Proof.Claims

/-- Settles O35: the end of a cell, and the account instructions. -/
theorem endAndAccounts : Obligations.EndAndAccounts := ⟨endOfCell, accountReads⟩

end Sys2Proof.Proofs
end

section
/-!
RESULT_LANDS and STORE_LOAD_DATA_ARRIVAL (R135, R192, R193): what the results that land in a clk leave.
-/

namespace Sys2Proof.Machine

open Sys2Proof.Claims

/-! ### What a target writes -/

/-- The value that a target gives g[r], and a word of register space. -/
def Target.reg? (r : Nat) : Target → Option Word
  | .reg q v => if q = r then some v else none
  | .vec _ _ _ => none

def Target.word? (w : Nat) : Target → Option Lane
  | .reg _ _ => none
  | .vec off lanes data =>
    if off / 4 ≤ w ∧ w < off / 4 + 64 ∧ lanes.getLsbD (w - off / 4) = true then some (data[w - off / 4]?.getD 0)
    else none

/-- What the last of the latches that give anything gives. -/
def lastOf {α : Type} (f : Target → Option α) (ls : List Latch) : Option α := ls.reverse.findSome? fun l => f l.target

theorem lastReg_eq (ls : List Latch) (r : Nat) : lastReg ls r = lastOf (Target.reg? r) ls := rfl

theorem lastWord_eq (ls : List Latch) (w : Nat) : lastWord ls w = lastOf (Target.word? w) ls := rfl

@[simp] theorem lastOf_nil {α : Type} (f : Target → Option α) : lastOf f [] = none := rfl

theorem lastOf_cons {α : Type} (f : Target → Option α) (l : Latch) (ls : List Latch) :
    lastOf f (l :: ls) = (lastOf f ls).or (f l.target) := by
  rw [lastOf, List.reverse_cons, List.findSome?_append, lastOf]
  cases h : f l.target <;> simp [h]

/-! ### Results that land one after another -/

/-- Only registers, register space and its marks differ, and no result has left the flight. -/
def Landed (s t : State) : Prop :=
  t = { s with
    core := { s.core with g := t.core.g, gEmpty := t.core.gEmpty }
    cell := { s.cell with
      rsp := t.cell.rsp, rspEmpty := t.cell.rspEmpty, rspErr := t.cell.rspErr, dirtyBanks := t.cell.dirtyBanks } }

theorem Landed.trans {s t u : State} (h : Landed s t) (h' : Landed t u) : Landed s u := by
  rw [Landed] at h h' ⊢
  rw [h] at h'
  exact h'

theorem State.land_landed (s : State) (t : Target) : Landed s (s.land t) := by
  cases t with
  | reg r v =>
    unfold Landed State.land Core.putG
    by_cases h : r = 0 <;> simp [h, State.setCore]
  | vec off lanes data =>
    simp only [State.land, State.putLanes, Cell.putLanes]
    split <;> rfl

theorem State.landAll_landed (s : State) (ls : List Latch) : Landed s (s.landAll ls) := by
  induction ls generalizing s with
  | nil => rfl
  | cons l ls ih => exact (s.land_landed l.target).trans (ih _)

/-- A result for another register, one beyond the register file too, leaves the emptiness of g[n]. -/
theorem State.emptyG_land_ne (s : State) {q n : Nat} (v : Word) (h : n ≠ q) :
    (s.land (.reg q v)).emptyG n = s.emptyG n := by
  by_cases hq : q < 32
  · exact (State.emptyG_congr (s := s.putG q v) (by rfl) n).trans (s.emptyG_putG_ne v h hq)
  · have hzero : 1#32 <<< q = 0 := BitVec.shiftLeft_eq_zero (Nat.le_of_not_lt hq)
    have hempty : (s.land (.reg q v)).core.gEmpty = s.core.gEmpty := by
      rw [State.land, State.setCore, Core.putG, if_neg (show q ≠ 0 by omega)]
      exact (congrArg (fun m => s.core.gEmpty &&& ~~~m) hzero).trans BitVec.and_allOnes
    exact State.emptyG_congr hempty n

theorem State.land_reg (s : State) (t : Target) {r : Nat} (hr : r < 32) (h0 : r ≠ 0) :
    (s.land t).g r = (t.reg? r).getD (s.g r) ∧ (s.land t).emptyG r = (s.emptyG r && (t.reg? r).isNone) := by
  cases t with
  | reg q v =>
    have hg : (s.land (.reg q v)).g r = (s.putG q v).g r := State.g_congr _ rfl r
    rw [hg, Target.reg?]
    by_cases hq : q = r
    · subst hq
      have he : (s.land (.reg q v)).emptyG q = (s.putG q v).emptyG q := State.emptyG_congr rfl q
      simp [he, s.g_putG_self v h0 hr, s.emptyG_putG_self v hr]
    · simp [hq, s.g_putG_ne v (Ne.symm hq), s.emptyG_land_ne v (Ne.symm hq)]
  | vec off lanes data =>
    have hcore : (s.land (.vec off lanes data)).core = s.core := rfl
    simp [Target.reg?, State.g_congr s (congrArg Core.g hcore), State.emptyG_congr (congrArg Core.gEmpty hcore)]

theorem State.land_word (s : State) (t : Target) (w : Nat) :
    (s.land t).word w = (t.word? w).getD (s.word w) ∧ (s.land t).emptyWord w = (s.emptyWord w && (t.word? w).isNone) := by
  cases t with
  | reg q v => simp [Target.word?, State.land, State.word, State.emptyWord, State.setCore]
  | vec off lanes data =>
    have h := putLanes_word (s := s) off lanes data w
    rw [Target.word?]
    split at h
    next hw =>
      rw [if_pos hw]
      simpa [State.land] using h
    next hw =>
      rw [if_neg hw]
      simpa [State.land] using h

theorem State.landAll_reg (s : State) (ls : List Latch) {r : Nat} (hr : r < 32) (h0 : r ≠ 0) :
    (s.landAll ls).g r = (lastOf (Target.reg? r) ls).getD (s.g r) ∧
      (s.landAll ls).emptyG r = (s.emptyG r && (lastOf (Target.reg? r) ls).isNone) := by
  induction ls generalizing s with
  | nil => simp [State.landAll]
  | cons l ls ih =>
    obtain ⟨hg, he⟩ := ih (s.land l.target)
    obtain ⟨hg', he'⟩ := s.land_reg l.target hr h0
    rw [State.landAll, hg, he, hg', he', lastOf_cons]
    cases lastOf (Target.reg? r) ls <;> simp

theorem State.landAll_word (s : State) (ls : List Latch) (w : Nat) :
    (s.landAll ls).word w = (lastOf (Target.word? w) ls).getD (s.word w) ∧
      (s.landAll ls).emptyWord w = (s.emptyWord w && (lastOf (Target.word? w) ls).isNone) := by
  induction ls generalizing s with
  | nil => simp [State.landAll]
  | cons l ls ih =>
    obtain ⟨hw, he⟩ := ih (s.land l.target)
    obtain ⟨hw', he'⟩ := s.land_word l.target w
    rw [State.landAll, hw, he, hw', he', lastOf_cons]
    cases lastOf (Target.word? w) ls <;> simp

/-! ### Landing what passes a test -/

theorem State.landWhere_inflight (s : State) (p : Latch → Bool) :
    (s.landWhere p).core.inflight = s.core.inflight.filter fun l => !p l := by
  have h := s.landAll_landed (s.core.inflight.filter p)
  rw [Landed] at h
  rw [State.landWhere, h]
  rfl

/-- A result that has landed is in flight no more; nothing else differs from `Landed`. -/
theorem State.landWhere_shape (s : State) (p : Latch → Bool) : OnlyRegisters s.core (s.landWhere p).core ∧
    s.landWhere p = { s with core := (s.landWhere p).core, cell := { s.cell with
      rsp := (s.landWhere p).cell.rsp, rspEmpty := (s.landWhere p).cell.rspEmpty, rspErr := (s.landWhere p).cell.rspErr
      dirtyBanks := (s.landWhere p).cell.dirtyBanks } } := by
  have h := s.landAll_landed (s.core.inflight.filter p)
  rw [Landed] at h
  unfold State.landWhere
  rw [h]
  exact ⟨rfl, rfl⟩

theorem State.landWhere_reg (s : State) (p : Latch → Bool) {r : Nat} (hr : r < 32) (h0 : r ≠ 0) :
    (s.landWhere p).g r = (lastOf (Target.reg? r) (s.core.inflight.filter p)).getD (s.g r) ∧
      (s.landWhere p).emptyG r = (s.emptyG r && (lastOf (Target.reg? r) (s.core.inflight.filter p)).isNone) :=
  s.landAll_reg _ hr h0

theorem State.landWhere_word (s : State) (p : Latch → Bool) (w : Nat) :
    (s.landWhere p).word w = (lastOf (Target.word? w) (s.core.inflight.filter p)).getD (s.word w) ∧
      (s.landWhere p).emptyWord w = (s.emptyWord w && (lastOf (Target.word? w) (s.core.inflight.filter p)).isNone) :=
  s.landAll_word _ w

theorem State.landWhere_landsAll (s : State) (p : Latch → Bool) : LandsAll s (s.landWhere p) p :=
  ⟨⟨s.landWhere_inflight p, fun _ hr h0 => s.landWhere_reg p hr h0, s.landWhere_word p⟩, s.landWhere_shape p⟩

theorem State.landsOnTime_eq (s : State) : s.landsOnTime = onTimeNow s := by
  funext l
  have hlate : (!l.late) = decide (l.arrive < l.visible) := by
    rw [Latch.late, ← decide_not, decide_eq_decide]
    exact Nat.not_le
  rw [State.landsOnTime, hlate]
  rfl

theorem State.landsLate_eq (s : State) : s.landsLate = lateNow s := rfl

theorem resultLands_landsAll (s : State) : ∃ t, exec .resultLands s = .next t ∧ LandsAll s t (onTimeNow s) := by
  refine ⟨_, exec_resultLands s, ?_⟩
  rw [s.landsOnTime_eq]
  exact s.landWhere_landsAll _

/-! ### Late data over results on time (R135) -/

/-- A late result takes from an earlier target exactly what it gives itself. -/
def Yields {α : Type} (f : Target → Option α) (ok : Target → Prop) : Prop :=
  ∀ t y, ok t → ok y → ok (t.minus y) ∧ f (t.minus y) = if (f y).isSome then none else f t

theorem reg_yields (r : Nat) : Yields (Target.reg? r) fun _ => True := by
  intro t y _ _
  refine ⟨trivial, ?_⟩
  cases t with
  | vec off ls d =>
    cases y with
    | reg b u => simp [Target.minus, Target.reg?]
    | vec off' ls' d' => by_cases h : off = off' <;> simp [Target.minus, Target.reg?, h]
  | reg a v =>
    cases y with
    | vec off ls d => simp [Target.minus, Target.reg?]
    | reg b u =>
      by_cases hab : a = b
      · subst hab
        by_cases har : a = r <;> simp [Target.minus, Target.reg?, har]
      · by_cases hbr : b = r
        · subst hbr
          simp [Target.minus, Target.reg?, hab]
        · simp [Target.minus, Target.reg?, hab, hbr]

/-- The target is a register or a vector that begins at a multiple of 256. -/
def Target.aligned : Target → Prop
  | .reg _ _ => True
  | .vec off _ _ => off % 256 = 0

theorem word_yields (w : Nat) : Yields (Target.word? w) Target.aligned := by
  intro t y ht hy
  cases t with
  | reg a v =>
    cases y with
    | vec off ls d => simp [Target.minus, Target.word?, Target.aligned]
    | reg b u => by_cases hab : a = b <;> simp [Target.minus, Target.word?, Target.aligned, hab]
  | vec off ls d =>
    cases y with
    | reg b u => exact ⟨ht, by simp [Target.minus, Target.word?]⟩
    | vec off' ls' d' =>
      simp only [Target.aligned] at ht hy
      by_cases hoff : off = off'
      · subst hoff
        rw [Target.minus, if_pos rfl]
        refine ⟨ht, ?_⟩
        by_cases hin : off / 4 ≤ w ∧ w < off / 4 + 64 ∧ ls'.getLsbD (w - off / 4) = true
        · have hyw : (Target.vec off ls' d').word? w = some (d'[w - off / 4]?.getD 0) := if_pos hin
          rw [hyw]
          exact if_neg (by simp [hin.2.2])
        · have hyw : (Target.vec off ls' d').word? w = none := if_neg hin
          rw [hyw, Option.isSome_none, if_neg Bool.false_ne_true]
          refine ite_congr (propext ?_) (fun _ => rfl) fun _ => rfl
          rw [BitVec.getLsbD_and, BitVec.getLsbD_not]
          refine and_congr_right fun hlo => and_congr_right fun hhi => ?_
          have hlt : w - off / 4 < 64 := by omega
          have hbit : ls'.getLsbD (w - off / 4) = false := by simpa [hlo, hhi] using hin
          rw [hbit, decide_eq_true hlt, Bool.not_false, Bool.and_true, Bool.and_true]
      · rw [Target.minus, if_neg hoff]
        refine ⟨ht, ?_⟩
        by_cases hin : off' / 4 ≤ w ∧ w < off' / 4 + 64 ∧ ls'.getLsbD (w - off' / 4) = true
        · have hyw : (Target.vec off' ls' d').word? w = some (d'[w - off' / 4]?.getD 0) := if_pos hin
          rw [hyw]
          exact if_neg (by omega)
        · have hyw : (Target.vec off' ls' d').word? w = none := if_neg hin
          rw [hyw]
          rfl

/-- What is left of a target after a run of later ones. -/
theorem Yields.foldl {α : Type} {f : Target → Option α} {ok : Target → Prop} (h : Yields f ok) {ys : List Latch}
    {t : Target} (ht : ok t) (hys : ∀ y ∈ ys, ok y.target) :
    f (ys.foldl (fun t y => t.minus y.target) t) = if (lastOf f ys).isSome then none else f t := by
  induction ys generalizing t with
  | nil => rfl
  | cons y ys ih =>
    obtain ⟨hy, hrest⟩ := List.forall_mem_cons.1 hys
    obtain ⟨hok, hval⟩ := h t y.target ht hy
    rw [List.foldl_cons, ih hok hrest, hval, lastOf_cons]
    cases lastOf f ys with
    | none => rfl
    | some v => rfl


theorem State.yieldToLate_cons (s : State) (l : Latch) (ls : List Latch) : s.yieldToLate (l :: ls) =
    (if onTimeNow s l then { l with target := (ls.filter (lateNow s)).foldl (fun t y => t.minus y.target) l.target }
     else l) ::
      s.yieldToLate ls := by
  rw [State.yieldToLate, s.landsOnTime_eq, s.landsLate_eq]

/-- A result is not both on time and late. -/
theorem not_late_of_onTime {s : State} {l : Latch} (h : onTimeNow s l = true) : lateNow s l = false := by
  simp only [onTimeNow, lateNow, Bool.and_eq_true, decide_eq_true_eq] at h ⊢
  simp [Nat.not_le.2 h.1.2]

/-- What passes neither test is as it was, and in its place. -/
theorem State.filter_yieldToLate {s : State} {p : Latch → Bool} (ht : ∀ l t, p { l with target := t } = p l)
    (hp : ∀ l, onTimeNow s l = true → p l = false) (ls : List Latch) : (s.yieldToLate ls).filter p = ls.filter p := by
  induction ls with
  | nil => rfl
  | cons l ls ih =>
    rw [s.yieldToLate_cons]
    cases h : onTimeNow s l with
    | false => rw [if_neg Bool.false_ne_true, List.filter_cons, List.filter_cons, ih]
    | true =>
      have hl := hp l h
      rw [if_pos rfl, List.filter_cons_of_neg (by simp [ht, hl]), List.filter_cons_of_neg (by simp [hl]), ih]

/-- What the results on time that stand and the late ones give together is what the last issued of them all gives. -/
theorem State.lastOf_yieldToLate {α : Type} {f : Target → Option α} {ok : Target → Prop} (hf : Yields f ok) (s : State)
    {ls : List Latch} (hok : ∀ l ∈ ls, ok l.target) :
    (lastOf f ((s.yieldToLate ls).filter (onTimeNow s))).or (lastOf f (ls.filter (lateNow s))) =
      lastOf f (ls.filter fun l => onTimeNow s l || lateNow s l) := by
  induction ls with
  | nil => rfl
  | cons l ls ih =>
    obtain ⟨hl, hrest⟩ := List.forall_mem_cons.1 hok
    have hrec := ih hrest
    rw [s.yieldToLate_cons]
    cases h : onTimeNow s l with
    | false =>
      rw [if_neg Bool.false_ne_true, List.filter_cons_of_neg (by simp [h])]
      cases hlate : lateNow s l with
      | false => rw [List.filter_cons_of_neg (by simp [hlate]), List.filter_cons_of_neg (by simp [h, hlate]), hrec]
      | true =>
        rw [List.filter_cons_of_pos hlate, List.filter_cons_of_pos (by simp [hlate]), lastOf_cons, lastOf_cons,
          ← Option.or_assoc, hrec]
    | true =>
      have hlate := not_late_of_onTime h
      have htrim := hf.foldl hl (ys := ls.filter (lateNow s)) fun y hy => hrest y (List.mem_of_mem_filter hy)
      rw [if_pos rfl, List.filter_cons_of_pos (by exact h), List.filter_cons_of_neg (by simp [hlate]),
        List.filter_cons_of_pos (by simp [h]), lastOf_cons, lastOf_cons, ← hrec]
      dsimp only
      rw [htrim]
      cases lastOf f ((s.yieldToLate ls).filter (onTimeNow s)) with
      | some v => rfl
      | none => cases lastOf f (ls.filter (lateNow s)) <;> simp

/-! ### The two events in a clk -/

theorem lateNow_congr {s t : State} (he : t.core.entering = s.core.entering) (hc : t.clk = s.clk) :
    lateNow t = lateNow s := by
  funext l
  simp only [lateNow, mayLand, he, hc]

theorem onTimeNow_congr {s t : State} (he : t.core.entering = s.core.entering) (hc : t.clk = s.clk) :
    onTimeNow t = onTimeNow s := by
  funext l
  simp only [onTimeNow, mayLand, he, hc]

/-- The state in which results on time have lost the words of younger late data. -/
def State.yielded (s : State) : State := s.setCore { s.core with inflight := s.yieldToLate s.core.inflight }

theorem exec_storeLoadDataArrival_eq (s : State) :
    exec .storeLoadDataArrival s = .next (s.yielded.landWhere (lateNow s)) := by
  have h : s.yielded.landsLate = lateNow s := lateNow_congr rfl rfl
  rw [← h]
  rfl

theorem storeLoadDataArrival_landsAll {s : State} (h : s.core.inflight.any (onTimeNow s) = false) :
    ∃ t, exec .storeLoadDataArrival s = .next t ∧ LandsAll s t (lateNow s) := by
  have hsame : ∀ ls : List Latch, ls.any (onTimeNow s) = false → s.yieldToLate ls = ls := by
    intro ls hls
    induction ls with
    | nil => rfl
    | cons l ls ih =>
      obtain ⟨hl, hrest⟩ := Bool.or_eq_false_iff.1 hls
      rw [s.yieldToLate_cons, hl, ih hrest]
      rfl
  have hyielded : s.yielded = s := by rw [State.yielded, hsame _ h]; rfl
  refine ⟨_, exec_storeLoadDataArrival_eq s, ?_⟩
  rw [hyielded]
  exact s.landWhere_landsAll _

/-- What lands first shows where nothing that lands after it gives anything. -/
theorem getD_isNone_or {α : Type} (o p : Option α) (v : α) (e : Bool) :
    o.getD (p.getD v) = (o.or p).getD v ∧ ((e && p.isNone) && o.isNone) = (e && (o.or p).isNone) := by
  cases o <;> simp

/-- After both events of a clk the last issued result stands, whether on time or late. -/
theorem landed_lastStands {s : State} (h : AlignedLatches s) : ∃ t u, exec .storeLoadDataArrival s = .next t ∧
    exec .resultLands t = .next u ∧ LastStands s u fun l => onTimeNow s l || lateNow s l := by
  have haligned : ∀ l ∈ s.core.inflight, l.target.aligned := by
    intro l hl
    cases hl' : l.target with
    | reg q v => trivial
    | vec off lanes data => exact h l hl off lanes data hl'
  obtain ⟨t, ht⟩ : ∃ t, t = s.yielded.landWhere (lateNow s) := ⟨_, rfl⟩
  have hshape := (s.yielded.landWhere_shape (lateNow s))
  have hflight := s.yielded.landWhere_inflight (lateNow s)
  have hreg := fun r (hr : r < 32) h0 => s.yielded.landWhere_reg (lateNow s) hr h0
  have hword := s.yielded.landWhere_word (lateNow s)
  rw [← ht] at hshape hflight hreg hword
  obtain ⟨hcore, hrest⟩ := hshape
  have htime : t.landsOnTime = onTimeNow s := by
    rw [t.landsOnTime_eq]
    exact onTimeNow_congr (by rw [hcore]; rfl) (by rw [hrest]; rfl)
  have hlate : (s.yielded.core.inflight).filter (lateNow s) = s.core.inflight.filter (lateNow s) :=
    State.filter_yieldToLate (fun _ _ => rfl) (fun _ => not_late_of_onTime) _
  have hontime : t.core.inflight.filter (onTimeNow s) = (s.yieldToLate s.core.inflight).filter (onTimeNow s) := by
    rw [hflight, List.filter_filter]
    refine List.filter_congr fun l _ => ?_
    cases hl : onTimeNow s l with
    | false => rfl
    | true => rw [not_late_of_onTime hl]; rfl
  refine ⟨t, t.landWhere (onTimeNow s), by rw [exec_storeLoadDataArrival_eq, ht],
    by rw [exec_resultLands, execResultLands, htime], ?_, fun r hr h0 => ?_, fun w => ?_⟩
  · rw [t.landWhere_inflight, hflight, List.filter_filter]
    have h := State.filter_yieldToLate (s := s) (p := fun l => !(onTimeNow s l || lateNow s l)) (fun _ _ => rfl)
      (fun l hl => by simp [hl]) s.core.inflight
    rw [← h]
    exact List.filter_congr fun l _ => (Bool.not_or ..).symm
  · obtain ⟨hg, he⟩ := hreg r hr h0
    obtain ⟨hg', he'⟩ := t.landWhere_reg (onTimeNow s) hr h0
    rw [hg', he', hg, he, hontime, hlate, lastReg_eq, ← s.lastOf_yieldToLate (reg_yields r) fun _ _ => trivial]
    exact getD_isNone_or ..
  · obtain ⟨hw, he⟩ := hword w
    obtain ⟨hw', he'⟩ := t.landWhere_word (onTimeNow s) w
    rw [hw', he', hw, he, hontime, hlate, lastWord_eq, ← s.lastOf_yieldToLate (word_yields w) haligned]
    exact getD_isNone_or ..

end Sys2Proof.Machine
end

section
/-!
TRAP_ENTRY and INTERRUPT_ENTRY (R96, R200-R202, R208): entry at a boundary, before the clk that follows it.
-/

namespace Sys2Proof.Machine

open Sys2Proof.Claims

/-! ### Entry before a clk -/

theorem State.enterNow_spent (s : State) (x : TrapInfo) (pc : Word) (b : Nat) :
    s.enterNow x pc b 1 =
      (s.enterNow x pc b 0).setCore { (s.enterNow x pc b 0).core with busy := (s.enterNow x pc b 0).core.busy - 1 } := by
  unfold State.enterNow State.setCore
  simp only [Nat.sub_zero]

theorem State.enterNow_entersAtBoundary (s : State) (x : TrapInfo) (pc : Word) :
    EntersAtBoundary s (s.enterNow x pc s.clk 1) x pc := by
  obtain ⟨hframes, hsystem, hie, hmsp, hk, hpc, hnlat, hflight, hreinject, -, -, hbusy, hcharge, -, -, hmem, -⟩ :=
    s.enterNow_enters x pc
  refine ⟨hframes, hsystem, hie, hmsp, hk, hpc, hnlat, hflight, hreinject, ?_, hcharge, hmem⟩
  rw [s.enterNow_spent]
  change _ - 1 = _
  rw [hbusy]
  omega

/-- Only what entry reads of the state matters. -/
theorem entersAtBoundary_congr {s u t : State} {x : TrapInfo} {pc : Word} (h : EntersAtBoundary u t x pc)
    (hsystem : u.system = s.system) (hie : (u.readCsr 0x100).getLsbD 0 = (s.readCsr 0x100).getLsbD 0)
    (hcore : u.core.inflight = s.core.inflight ∧ u.core.reinject = s.core.reinject) (hclk : u.clk = s.clk)
    (hmem : u.mem = s.mem) : EntersAtBoundary s t x pc := by
  have hsave : toSave u = toSave s := by rw [toSave, pendingAt, hcore.1, hcore.2, hclk]; rfl
  simpa only [EntersAtBoundary, Frames, hsystem, hie, hsave, hmem] using h

theorem any_outstanding_eq_false {s : State} {e : Nat} :
    (s.core.inflight.any fun l => l.outstanding e) = false ↔ Arrived s e := by
  rw [List.any_eq_false]
  refine forall_congr' fun l => imp_congr_right fun _ => ?_
  simp [Latch.outstanding]

theorem State.enterTrap_of_arrived {s : State} {e : Nat} (h : Arrived s e) (x : TrapInfo) (pc : Word) (b n : Nat) :
    s.enterTrap x pc b e n = s.enterNow x pc b n := by
  rw [State.enterTrap, any_outstanding_eq_false.2 h]
  rfl

theorem State.enterTrap_waits {s : State} {e : Nat} (h : ¬ Arrived s e) (x : TrapInfo) (pc : Word) (b n : Nat) :
    WaitsToEnter s (s.enterTrap x pc b e n) x pc b n := by
  have hany : (s.core.inflight.any fun l => l.outstanding e) = true := by
    rw [← Bool.not_eq_false, any_outstanding_eq_false]
    exact h
  rw [State.enterTrap, hany]
  exact ⟨rfl, rfl, rfl, rfl, rfl, rfl, rfl, rfl⟩

/-! ### A trap recognised while fetching -/

theorem State.countFetch_eq (s : State) (x : TrapInfo) : ∃ m, s.countFetch x = { s with mgr := m } := by
  unfold State.countFetch
  split
  · exact ⟨s.mgr, rfl⟩
  · split
    · exact s.countErrors_eq _ _ _
    · exact ⟨s.mgr, rfl⟩

theorem exec_trapEntry_of_free {s : State} {x : TrapInfo} (he : s.core.entering = none) (hx : s.core.trapPend = some x)
    (hfree : (s.system && s.held) = false) :
    ∃ m, exec .trapEntry s = .next (State.enterTrap { s with mgr := m } x s.core.pc s.clk (s.clk - 1) 1) := by
  obtain ⟨m, hm⟩ := s.countFetch_eq x
  refine ⟨m, ?_⟩
  rw [exec_trapEntry, execTrapEntry, he, hx]
  dsimp only
  rw [hfree, hm]
  rfl

theorem trapEntry_recognised {s : State} {x : TrapInfo} (he : s.core.entering = none) (hx : s.core.trapPend = some x) :
    ((s.system && s.held) = false → Arrived s (s.clk - 1) →
      ∃ t, exec .trapEntry s = .next t ∧ EntersAtBoundary s t x s.core.pc ∧ t.core.trapPend = none) ∧
    ((s.system && s.held) = false → ¬ Arrived s (s.clk - 1) →
      ∃ t, exec .trapEntry s = .next t ∧ WaitsToEnter s t x s.core.pc s.clk 1) ∧
    (s.system = true → s.held = true → ∃ t, exec .trapEntry s = .next t ∧ t.core.status = .doubled ∧
      t.core.trapPend = none ∧ t.csr = s.csr ∧ t.cell.endStatus = 2 ∧ t.cell.endCause = x.code) := by
  refine ⟨fun hfree harrived => ?_, fun hfree hwait => ?_, fun hsystem hheld => ?_⟩
  · obtain ⟨m, hm⟩ := exec_trapEntry_of_free he hx hfree
    rw [State.enterTrap_of_arrived (s := { s with mgr := m }) harrived] at hm
    exact ⟨_, hm, State.enterNow_entersAtBoundary { s with mgr := m } x s.core.pc, rfl⟩
  · obtain ⟨m, hm⟩ := exec_trapEntry_of_free he hx hfree
    exact ⟨_, hm, State.enterTrap_waits (s := { s with mgr := m }) hwait x s.core.pc s.clk 1⟩
  · obtain ⟨m, hm⟩ := s.countFetch_eq x
    rw [exec_trapEntry, execTrapEntry, he, hx]
    dsimp only
    rw [hsystem, hheld, hm]
    exact ⟨_, rfl, rfl, rfl, rfl, rfl, rfl⟩

/-! ### A trap whose entry has waited -/

theorem State.landAll_clk (s : State) (b : Nat) (ls : List Latch) :
    State.landAll { s with clk := b } ls = { s.landAll ls with clk := b } := by
  induction ls generalizing s with
  | nil => rfl
  | cons l ls ih =>
    have hland : State.land { s with clk := b } l.target = { s.land l.target with clk := b } := by
      cases l.target <;> rfl
    rw [State.landAll, State.landAll, hland, ih]

theorem State.enterNow_clk (s : State) (x : TrapInfo) (pc : Word) (b n : Nat) :
    s.enterNow x pc b n = { State.enterNow { s with clk := b } x pc b n with clk := s.clk } := by
  have hclk : ∀ ls, (s.landAll ls).clk = s.clk := fun ls => by rw [s.landAll_landed ls]
  simp only [State.enterNow, State.landAll_clk, State.writeFrame, hclk]
  rfl

theorem trapEntry_waited {s : State} {x : Entering} (he : s.core.entering = some x) :
    ∃ t, exec .trapEntry s = .next t ∧ Frames s t x.info x.pc ∧ t.core.entering = none ∧
      t.core.inflight = [] ∧ t.system = true ∧ t.core.busy = 3 + field (t.readCsr 0x040) 4 4 ∧
      t.core.pc = ((t.readCsr 0x101).setWidth 56 &&& 0xFFFFFFFFFFFFFC).signExtend 64 := by
  have hexec : exec .trapEntry s = .next (s.enterNow x.info x.pc x.b 1) := by rw [exec_trapEntry, execTrapEntry, he]
  rw [s.enterNow_clk] at hexec
  obtain ⟨hframes, hsystem, -, -, -, hpc, hnlat, hflight, -, hbusy, -⟩ :=
    State.enterNow_entersAtBoundary { s with clk := x.b } x.info x.pc
  refine ⟨_, hexec, hframes, rfl, hflight, hsystem, hbusy.trans (congrArg (3 + ·) ?_), hpc⟩
  exact hnlat.symm

/-! ### Events and interrupts at a boundary -/

theorem State.enterNow_pending (s : State) (x : TrapInfo) (pc : Word) (b n : Nat) :
    (s.enterNow x pc b n).core.machines = s.core.machines ∧ (s.enterNow x pc b n).core.refusals = s.core.refusals ∧
      (s.enterNow x pc b n).core.engPend = s.core.engPend := by
  simp only [State.enterNow, State.writeFrame]
  rw [s.landAll_landed]
  exact ⟨rfl, rfl, rfl⟩

theorem State.readCsr_enterNow_spent (s : State) (x : TrapInfo) (pc : Word) (b k : Nat) :
    (s.enterNow x pc b 1).readCsr k = (s.enterNow x pc b 0).readCsr k := by
  simp only [State.readCsr, State.enterNow]

/-- An event is taken from its place: what entry reads of the state stays. -/
structure Takes (s u : State) : Prop where
  system : u.system = s.system
  ie : (u.readCsr 0x100).getLsbD 0 = (s.readCsr 0x100).getLsbD 0
  inflight : u.core.inflight = s.core.inflight
  reinject : u.core.reinject = s.core.reinject
  vat : u.core.vat = s.core.vat
  clk : u.clk = s.clk
  mem : u.mem = s.mem

/-- What entry leaves of the events held, and of the registers. -/
structure LeavesEvents (u t : State) (x : TrapInfo) (pc : Word) : Prop where
  machines : t.core.machines = u.core.machines
  refusals : t.core.refusals = u.core.refusals
  engPend : t.core.engPend = u.core.engPend
  other : ∀ k, k ∉ entryCsrs → t.readCsr k = u.readCsr k
  written : ∀ k v, (k, v) ∈ u.frameWrites x pc (toSave u) → t.readCsr k = v

theorem State.enterNow_leavesEvents (s : State) (x : TrapInfo) (pc : Word) :
    LeavesEvents s (s.enterNow x pc s.clk 1) x pc := by
  obtain ⟨hmachines, hrefusals, hengines⟩ := s.enterNow_pending x pc s.clk 1
  refine ⟨hmachines, hrefusals, hengines, fun k hk => ?_, fun k v hv => ?_⟩
  · rw [s.readCsr_enterNow_spent]
    exact s.readCsr_enterNow_of_notMem x pc hk
  · rw [s.readCsr_enterNow_spent]
    exact State.readCsr_enterNow_of_mem hv

theorem State.squashLate_eq (s : State) : ∃ c, s.squashLate = { s with acct := c } := ⟨_, rfl⟩

theorem interruptEntry_of_ready {s : State} {a : Async} (hb : AtBoundary s) (ha : s.asyncReady = some a)
    (ht : Takes s (s.asyncTake a)) : ∃ t, exec .interruptEntry s = .next t ∧
      EntersAtBoundary s t (s.asyncInfo a) (s.asyncPc a) ∧
      LeavesEvents (s.asyncTake a) t (s.asyncInfo a) (s.asyncPc a) := by
  obtain ⟨c, hc⟩ := (s.asyncTake a).squashLate_eq
  have hopen : s.boundaryOpen = true := by simp [State.boundaryOpen, hb.vat, hb.win, hb.lat]
  have hpop : (s.asyncTake a).withdrawPop = s.asyncTake a := by rw [State.withdrawPop, ht.vat, hb.vat]
  have hexec : exec .interruptEntry s =
      .next ((s.asyncTake a).squashLate.enterTrap (s.asyncInfo a) (s.asyncPc a) s.clk (s.clk - 1) 1) := by
    rw [exec_interruptEntry, execInterruptEntry, ha]
    dsimp only
    rw [hopen, hpop]
    rfl
  rw [hc, ← ht.clk] at hexec
  generalize s.asyncTake a = u at ht hexec
  have harrived : Arrived { u with acct := c } (u.clk - 1) := by
    intro l hl
    rw [ht.clk]
    exact hb.arrived l (ht.inflight ▸ hl)
  rw [State.enterTrap_of_arrived harrived] at hexec
  have henters := State.enterNow_entersAtBoundary { u with acct := c } (s.asyncInfo a) (s.asyncPc a)
  have hleaves := State.enterNow_leavesEvents { u with acct := c } (s.asyncInfo a) (s.asyncPc a)
  refine ⟨_, hexec, entersAtBoundary_congr henters ht.system ht.ie ⟨ht.inflight, ht.reinject⟩ ht.clk ht.mem, ?_⟩
  obtain ⟨hmachines, hrefusals, hengines, hother, hwritten⟩ := hleaves
  exact ⟨hmachines, hrefusals, hengines, hother, hwritten⟩

theorem machine_taken {s : State} {m : MachInfo} {ms : List MachInfo} (hb : AtBoundary s) (h : s.core.machines = m :: ms) :
    ∃ t, exec .interruptEntry s = .next t ∧ EntersAtBoundary s t { code := 0x13, addr := m.addr } s.core.pc ∧
      t.readCsr 0x1C5 = m.info ∧ t.core.machines = ms := by
  have ha : s.asyncReady = some (.machine m) := by rw [State.asyncReady, hb.free, h]; rfl
  obtain ⟨t, hexec, henters, hleaves⟩ := interruptEntry_of_ready hb ha ⟨rfl, rfl, rfl, rfl, rfl, rfl, rfl⟩
  refine ⟨t, hexec, henters, hleaves.written _ _ (by simp [State.frameWrites, State.asyncInfo]), ?_⟩
  exact hleaves.machines.trans (congrArg (List.drop 1) h)

theorem refusal_taken {s : State} {r : RefusalInfo} {rs : List RefusalInfo} (hb : AtBoundary s)
    (hm : s.core.machines = []) (h : s.core.refusals = r :: rs) :
    ∃ t, exec .interruptEntry s = .next t ∧ EntersAtBoundary s t { code := 0x14 } s.core.pc ∧
      t.readCsr 0x191 = (r.va.setWidth 56).setWidth 64 ∧ t.readCsr 0x192 = BitVec.ofNat 64 (r.why + 16 * r.dev) ∧
      t.core.refusals = rs := by
  have ha : s.asyncReady = some (.fabric r) := by rw [State.asyncReady, hb.free, hm, h]; rfl
  have hcsr : ∀ n, n ≠ 0x191 → n ≠ 0x192 → (s.asyncTake (.fabric r)).readCsr n = s.readCsr n := fun n h1 h2 =>
    (Sparse.get_set_ne _ _ h2).trans (Sparse.get_set_ne _ _ h1)
  obtain ⟨t, hexec, henters, hleaves⟩ := interruptEntry_of_ready hb ha
    ⟨congrArg (BitVec.getLsbD · 8) (hcsr 0x001 (by decide) (by decide)),
      congrArg (BitVec.getLsbD · 0) (hcsr 0x100 (by decide) (by decide)), rfl, rfl, rfl, rfl, rfl⟩
  refine ⟨t, hexec, henters, ?_, ?_, hleaves.refusals.trans (congrArg (List.drop 1) h)⟩
  · refine (hleaves.other 0x191 (by decide)).trans ((Sparse.get_set_ne _ _ (by decide)).trans ?_)
    refine (Sparse.get_set_eq ..).trans (BitVec.eq_of_toNat_eq ?_)
    have hlt := r.va.isLt
    simp only [Word.bits, bits, BitVec.toNat_ofNat, BitVec.toNat_setWidth]
    omega
  · exact (hleaves.other 0x192 (by decide)).trans (Sparse.get_set_eq ..)

theorem fault_taken {s : State} {q : Nat} {qs : List Nat} {f : QFault} (hb : AtBoundary s) (hm : s.core.machines = [])
    (hr : s.core.refusals = []) (h : s.core.engPend = q :: qs) (hf : (s.queue q).fault = some f) :
    ∃ t, exec .interruptEntry s = .next t ∧ EntersAtBoundary s t
        { code := 0x0D, sub := f.cause, addr := f.addr
          info0 := BitVec.ofNat 64 (f.seq + 2 ^ 32 * q + 2 ^ 36 * s.gcell), info1 := f.pc
          info2 := if f.armed = true then BitVec.ofNat 64 (f.prog.toNat % 2 ^ 48 + 2 ^ 48 * (f.firing % 2 ^ 16))
            else f.prog } s.core.pc ∧
      t.core.engPend = qs := by
  have ha : s.asyncReady = some (.engine q) := by rw [State.asyncReady, hb.free, hm, hr, h]; rfl
  obtain ⟨t, hexec, henters, hleaves⟩ := interruptEntry_of_ready hb ha ⟨rfl, rfl, rfl, rfl, rfl, rfl, rfl⟩
  have hprog : Word.setBits f.prog 48 16 f.firing =
      BitVec.ofNat 64 (f.prog.toNat % 2 ^ 48 + 2 ^ 48 * (f.firing % 2 ^ 16)) := by
    have hlt := f.prog.isLt
    rw [Word.setBits, Word.bits, bits]
    congr 1
    omega
  refine ⟨t, hexec, ?_, hleaves.engPend.trans (congrArg (List.drop 1) h)⟩
  rw [State.asyncInfo, hf] at henters
  rw [← hprog]
  exact henters

/-! ### Interrupts (R96, R99, R200) -/

theorem State.testBit_enabledPending (s : State) {i : Nat} (hi : i < 4) : s.enabledPending.testBit i =
    ((s.readCsr 0x100).getLsbD (16 + i) && (s.readCsr 0x100).getLsbD (8 + i)) := by
  rw [State.enabledPending, BitVec.testBit_toNat, BitVec.getLsbD_and, getLsbD_ofNat_bits _ hi, getLsbD_ofNat_bits _ hi]

theorem State.getLsbD_unpend (s : State) (n j : Nat) : ((s.unpend n).readCsr 0x100).getLsbD j =
    ((s.readCsr 0x100).getLsbD j && decide (j ≠ 16 + n)) := by
  have hread : (s.unpend n).readCsr 0x100 = s.readCsr 0x100 &&& ~~~ ((1 : Word) <<< (16 + n)) := Sparse.get_set_eq ..
  rw [hread, BitVec.getLsbD_and, BitVec.getLsbD_not, BitVec.getLsbD_shiftLeft, Word.getLsbD_one]
  by_cases hj : j < 64
  · rw [decide_eq_true hj]
    by_cases hne : j = 16 + n
    · subst hne
      simp
    · by_cases hlt : j < 16 + n
      · simp [hlt, hne]
      · simp [hlt, hne, show j - (16 + n) ≠ 0 by omega]
  · rw [BitVec.getLsbD_of_ge _ _ (by omega)]
    rfl

theorem State.irqReady_eq {s : State} (hie : (s.readCsr 0x100).getLsbD 0 = true) : s.irqReady =
    [3, 2, 0, 1].find? fun j => (s.readCsr 0x100).getLsbD (16 + j) && (s.readCsr 0x100).getLsbD (8 + j) := by
  rw [State.irqReady, hie, if_pos rfl]
  simp only [List.find?, s.testBit_enabledPending (show 3 < 4 by decide), s.testBit_enabledPending (show 2 < 4 by decide),
    s.testBit_enabledPending (show 1 < 4 by decide), s.testBit_enabledPending (show 0 < 4 by decide)]

theorem interrupt_taken {s : State} {n : Nat} (hb : AtBoundary s) (hm : s.core.machines = []) (hr : s.core.refusals = [])
    (he : s.core.engPend = []) (hie : (s.readCsr 0x100).getLsbD 0 = true)
    (h : [3, 2, 0, 1].find? (fun j => (s.readCsr 0x100).getLsbD (16 + j) && (s.readCsr 0x100).getLsbD (8 + j)) = some n) :
    ∃ t, exec .interruptEntry s = .next t ∧
      EntersAtBoundary s t { code := 0x20 + n } (if s.core.wfi then s.core.pc + 4 else s.core.pc) ∧
      (t.readCsr 0x100).getLsbD (16 + n) = false ∧
      ∀ j, j ≠ 0 → j ≠ 16 + n → (t.readCsr 0x100).getLsbD j = (s.readCsr 0x100).getLsbD j := by
  have ha : s.asyncReady = some (.irq n) := by
    rw [State.asyncReady, hb.free, hm, hr, he, State.irqReady_eq hie, h]
    rfl
  have hcsr : ∀ k, k ≠ 0x100 → (s.asyncTake (.irq n)).readCsr k = s.readCsr k := fun k hk => Sparse.get_set_ne _ _ hk
  have hbit : ((s.unpend n).readCsr 0x100).getLsbD 0 = (s.readCsr 0x100).getLsbD 0 := by
    rw [s.getLsbD_unpend, decide_eq_true (by omega), Bool.and_true]
  obtain ⟨t, hexec, henters, hleaves⟩ := interruptEntry_of_ready hb ha
    ⟨congrArg (BitVec.getLsbD · 8) (hcsr 0x001 (by decide)), hbit, rfl, rfl, rfl, rfl, rfl⟩
  have hread : t.readCsr 0x100 = Word.setBits ((s.unpend n).readCsr 0x100) 0 1 0 :=
    hleaves.written _ _ (by simp [State.frameWrites, State.asyncTake])
  have hafter : ∀ j, j ≠ 0 → (t.readCsr 0x100).getLsbD j = ((s.readCsr 0x100).getLsbD j && decide (j ≠ 16 + n)) := by
    intro j hj
    rw [hread, Word.getLsbD_setBits _ _ _ (by decide), if_neg (by omega), s.getLsbD_unpend]
  refine ⟨t, hexec, henters, ?_, fun j hj hne => ?_⟩
  · simp [hafter (16 + n) (by omega)]
  · simp [hafter j hj, hne]

end Sys2Proof.Machine
end

section
/-!
TIMER_EXPIRY (R97) and PAGE_WALK (R323, R324), with O43.
-/

namespace Sys2Proof.Machine

open Sys2Proof.Claims

/-! ### The timer (R97) -/

theorem State.timerRuns_running {s : State} (hrun : s.core.status = .running) (hon : (s.readCsr 0x104).getLsbD 0 = true)
    (hset : s.core.tmrSet = false) : s.timerRuns = decide ((s.readCsr 0x105).toNat % 2 ^ 48 ≠ 0) := by
  simp [State.timerRuns, State.resident, hrun, hon, hset, Word.bits, bits]

theorem exec_timerExpiry_of_runs {s : State} (h : s.timerRuns = true) : exec .timerExpiry s = .next
    (if (s.readCsr 0x105).toNat % 2 ^ 48 - 1 ≠ 0 then
      s.setCsr 0x105 (BitVec.ofNat 64 ((s.readCsr 0x105).toNat % 2 ^ 48 - 1))
     else (s.setCsr 0x105 (if (s.readCsr 0x104).getLsbD 1 then BitVec.ofNat 64 ((s.readCsr 0x106).toNat % 2 ^ 48)
      else 0)).pend 0) := by
  have hbits : ∀ w : Word, Word.bits w 0 48 = w.toNat % 2 ^ 48 := fun w => by simp [Word.bits, bits]
  rw [exec_timerExpiry, execTimerExpiry, h]
  simp only [hbits, Bool.not_true, Bool.false_eq_true, if_false]
  split <;> rfl

theorem exec_timerExpiry_of_stands {s : State} (h : s.timerRuns = false) : exec .timerExpiry s = .next s := by
  rw [exec_timerExpiry, execTimerExpiry, h]
  rfl

theorem timer_counts {s : State} {c : Nat} (hc : c = (s.readCsr 0x105).toNat % 2 ^ 48) (hrun : s.core.status = .running)
    (hon : (s.readCsr 0x104).getLsbD 0 = true) (hset : s.core.tmrSet = false) :
    (1 < c → ∃ t, exec .timerExpiry s = .next t ∧ t.readCsr 0x105 = BitVec.ofNat 64 (c - 1) ∧ OnlyCsr s t 0x105 ∧
      t.core = s.core) ∧
    (c = 1 → ∃ t, exec .timerExpiry s = .next t ∧ t.readCsr 0x105 = (if (s.readCsr 0x104).getLsbD 1
        then BitVec.ofNat 64 ((s.readCsr 0x106).toNat % 2 ^ 48) else 0) ∧
      t.readCsr 0x100 = s.readCsr 0x100 ||| 0x10000 ∧
      (∀ n, n ≠ 0x105 → n ≠ 0x100 → t.readCsr n = s.readCsr n) ∧ t = { s with csr := t.csr }) ∧
    (c = 0 → exec .timerExpiry s = .next s) := by
  have hruns := State.timerRuns_running hrun hon hset
  rw [← hc] at hruns
  refine ⟨fun h => ?_, fun h => ?_, fun h => exec_timerExpiry_of_stands (by rw [hruns, h]; rfl)⟩
  · have hexec := exec_timerExpiry_of_runs (hruns.trans (decide_eq_true (by omega)))
    rw [← hc, if_pos (by omega)] at hexec
    exact ⟨_, hexec, Sparse.get_set_eq .., ⟨fun m hm => Sparse.get_set_ne _ _ hm, rfl, rfl⟩, rfl⟩
  · have hexec := exec_timerExpiry_of_runs (hruns.trans (decide_eq_true (by omega)))
    rw [← hc, if_neg (by omega)] at hexec
    refine ⟨_, hexec, ?_, ?_, fun n h105 h100 => ?_, rfl⟩
    · exact (Sparse.get_set_ne _ _ (by decide)).trans (Sparse.get_set_eq ..)
    · refine (Sparse.get_set_eq ..).trans (congrArg (· ||| 0x10000) ?_)
      exact Sparse.get_set_ne _ _ (by decide)
    · exact (Sparse.get_set_ne _ _ h100).trans (Sparse.get_set_ne _ _ h105)

theorem timer_stands {s : State}
    (h : s.core.status = .halted ∨ s.core.status = .away ∨ (s.core.status = .preempted ∧ s.mgr.heldHalted = true)) :
    exec .timerExpiry s = .next s := by
  refine exec_timerExpiry_of_stands ?_
  rcases h with h | h | ⟨h, hheld⟩
  · simp [State.timerRuns, h]
  · simp [State.timerRuns, State.resident, h]
  · simp [State.timerRuns, h, hheld]

/-! ### Clocks joined by what a walk reads (R255, R256) -/

theorem State.joinHomes_same (s : State) (pas : List Nat) : SameButClocks s (s.joinHomes pas) := by
  induction pas generalizing s with
  | nil => exact ⟨s.sys.vc, rfl⟩
  | cons a pas ih =>
    obtain ⟨vc, h⟩ := s.joinVc_same s.die (s.maxOf (homeOf a))
    obtain ⟨vc', h'⟩ := ih (s.joinVc s.die (s.maxOf (homeOf a)))
    refine ⟨vc', h'.trans ?_⟩
    rw [h]

theorem State.joinHomes_joins (s : State) (pas : List Nat) : JoinsHomes s (s.joinHomes pas) pas := by
  intro e he
  induction pas generalizing s with
  | nil => rfl
  | cons a pas ih =>
    have hrec := ih (s.joinVc s.die (s.maxOf (homeOf a)))
    have hjoin := s.joinVc_joins (s.maxOf (homeOf a)) e he
    obtain ⟨vc, hsame⟩ := s.joinVc_same s.die (s.maxOf (homeOf a))
    have hmax : (Sparse.get vc (32 * s.die + e)).toNat =
        max (Sparse.get s.sys.vc (32 * s.die + e)).toNat (Sparse.get s.sys.maxv (32 * homeOf a + e)).toNat := by
      rw [hsame, State.maxOf, clock_getD _ _ he] at hjoin
      rw [hjoin, BitVec.toNat_ofNat, Nat.mod_eq_of_lt (by omega)]
    change (Sparse.get (State.joinHomes (s.joinVc s.die (s.maxOf (homeOf a))) pas).sys.vc _).toNat = _
    rw [hsame] at hrec ⊢
    rw [List.map_cons, List.foldl_cons, ← hmax]
    exact hrec

theorem readOpen_iff (s : State) (c : List Nat) : s.readOpen c = true ↔ Answered s c := by
  simp only [State.readOpen, State.holds, Answered, List.all_eq_true, List.mem_range, List.isEmpty_iff]
  refine forall_congr' fun e => imp_congr_right fun _ => ?_
  simp only [State.frontier, State.vcOf, clockOf]
  exact decide_eq_true_iff

/-! ### A walk (R323, R324) -/

/-- A leaf is a page of the address space that holds the address. -/
theorem State.leaf_holds {s : State} {asid va table e : Nat} {p : Page} {ls : List (Nat × Nat × Nat)}
    (h : s.walkFrom asid va table ls = .leaf e p) : p.asid = asid ∧ p.base ≤ va ∧ va < p.base + p.size := by
  induction ls generalizing table with
  | nil => cases h
  | cons l ls ih =>
    obtain ⟨shift, width, size⟩ := l
    rw [State.walkFrom] at h
    dsimp only at h
    split at h
    · cases h
    · split at h
      · cases h
      · split at h
        · cases h
        · split at h
          · split at h
            next hok =>
              have hsize : size ≠ 0 := by
                simp only [State.leafOk, Bool.and_eq_true, decide_eq_true_eq] at hok
                exact hok.1.1.1.1.2
              cases h
              have hmod := Nat.div_add_mod va size
              have hlt := Nat.mod_lt va (Nat.pos_of_ne_zero hsize)
              rw [Nat.mul_comm] at hmod
              exact ⟨rfl, by dsimp only; omega, by dsimp only; omega⟩
            next => cases h
          · split at h
            · exact ih h
            · cases h

/-- A walk for an asked page reads memory as it is. -/
theorem State.walkFrom_withWalks (s : State) (ws : List (Word × Access × List Nat)) (asid va table : Nat)
    (ls : List (Nat × Nat × Nat)) : State.walkFrom { s with sys := { s.sys with walks := ws } } asid va table ls =
      s.walkFrom asid va table ls := by
  induction ls generalizing table with
  | nil => rfl
  | cons l ls ih =>
    obtain ⟨shift, width, size⟩ := l
    simp only [State.walkFrom, ih]
    rfl

theorem State.walkAddrs_withWalks (s : State) (ws : List (Word × Access × List Nat)) (va table : Nat)
    (ls : List (Nat × Nat × Nat)) : State.walkAddrs { s with sys := { s.sys with walks := ws } } va table ls =
      s.walkAddrs va table ls := by
  induction ls generalizing table with
  | nil => rfl
  | cons l ls ih =>
    obtain ⟨shift, width, size⟩ := l
    simp only [State.walkAddrs, ih]
    rfl

theorem State.writeEntry_eq (s : State) (d e : Nat) (w : Word) : ∃ mv wr, s.writeEntry d e w =
    { s with sys := { s.sys with maxv := mv, wrote := wr }, mem := Memory.writeLE s.mem e 8 w.toNat } := by
  unfold State.writeEntry State.marksWrite State.raiseMax
  dsimp only
  split
  · exact ⟨_, s.sys.wrote, rfl⟩
  · exact ⟨_, _, rfl⟩

/-- The page that a walk caches: A is set, for a write D too (R324). -/
def Page.touched (p : Page) (acc : Access) : Page := { p with w0 := p.w0 ||| 0x40 ||| (if acc.writes then 0x80 else 0) }

/-- Setting A and D writes nothing but the page's entry. -/
theorem State.touch_eq (s : State) (d e : Nat) (p : Page) (acc : Access) : ∃ mv wr m,
    (if (p.touched acc).w0 = p.w0 then s else s.writeEntry d e (p.touched acc).w0) =
      { s with sys := { s.sys with maxv := mv, wrote := wr }, mem := m } ∧
    ∀ a, a < e ∨ e + 8 ≤ a → Sparse.get m a = Sparse.get s.mem a := by
  split
  · exact ⟨_, _, _, rfl, fun _ _ => rfl⟩
  · obtain ⟨mv, wr, h⟩ := s.writeEntry_eq d e (p.touched acc).w0
    exact ⟨mv, wr, _, h, fun a ha => Memory.get_writeLE_ne _ _ _ _ ha⟩

/-- What a walk leaves that has read at the addresses and caches a page whose entry is at e. -/
structure Caches (s t : State) (read : List Nat) (e : Nat) (q : Page) : Prop where
  core : t.core = s.core
  cell : t.cell = s.cell
  csr : t.csr = s.csr
  walks : t.sys.walks = s.sys.walks
  vc : t.sys.vc = (s.joinHomes read).sys.vc
  ctlb : t.sys.ctlb = cachePage 64 s.sys.ctlb q
  mem : ∀ a, a < e ∨ e + 8 ≤ a → Sparse.get t.mem a = Sparse.get s.mem a

/-- A walk that reaches a page where the access is permitted caches it, and writes nothing but its entry. -/
theorem State.walk_of_leaf {s : State} {va : Word} {acc : Access} {system : Bool} {e : Nat} {p : Page}
    (h : s.walkFrom s.asid (va56 va) s.root levels = .leaf e p) (hp : permitted p.w0 acc system s.ux = true) :
    ∃ t, s.walk va acc system = (t, none) ∧ Caches s t (s.walkAddrs (va56 va) s.root levels) e (p.touched acc) := by
  obtain ⟨vc, hvc⟩ := s.joinHomes_same (s.walkAddrs (va56 va) s.root levels)
  rw [State.walk, h]
  dsimp only
  rw [hp, hvc, Bool.not_true, if_neg Bool.false_ne_true]
  obtain ⟨mv, wr, m, ht, hm⟩ := State.touch_eq (State.count { s with sys := { s.sys with vc := vc } } 22
    (s.walkAddrs (va56 va) s.root levels).length) s.die e p acc
  refine ⟨_, congrArg (fun u : State => ({ u with sys := { u.sys with
    ctlb := cachePage 64 u.sys.ctlb (p.touched acc), tlb := cachePage 8192 u.sys.tlb (p.touched acc) } }, none)) ht, ?_⟩
  exact ⟨rfl, rfl, rfl, rfl, by rw [hvc]; rfl, rfl, hm⟩

/-- What a walk leaves that has read at the addresses and fails: clocks and counts alone differ. -/
structure Fails (s t : State) (read : List Nat) : Prop where
  core : t.core = s.core
  mem : t.mem = s.mem
  walks : t.sys.walks = s.sys.walks
  vc : t.sys.vc = (s.joinHomes read).sys.vc
  ctlb : t.sys.ctlb = s.sys.ctlb
  tlb : t.sys.tlb = s.sys.tlb

theorem State.joinHomes_count_fails (s : State) (read : List Nat) (n : Nat) :
    Fails s ((s.joinHomes read).count 22 n) read := by
  obtain ⟨vc, hvc⟩ := s.joinHomes_same read
  refine ⟨?_, ?_, ?_, rfl, ?_, ?_⟩ <;> rw [hvc] <;> rfl

theorem State.walk_of_fault {s : State} {va : Word} {acc : Access} {system : Bool} {f : Nat × Option Page}
    (h : (∃ x, s.walkFrom s.asid (va56 va) s.root levels = .fault x ∧ f = (x, none)) ∨
      ∃ e q, s.walkFrom s.asid (va56 va) s.root levels = .leaf e q ∧ permitted q.w0 acc system s.ux = false ∧
        f = (5, some q)) :
    ∃ t, s.walk va acc system = (t, some f) ∧ Fails s t (s.walkAddrs (va56 va) s.root levels) := by
  refine ⟨_, ?_, s.joinHomes_count_fails _ (s.walkAddrs (va56 va) s.root levels).length⟩
  rcases h with ⟨x, hw, rfl⟩ | ⟨e, q, hw, hp, rfl⟩
  · rw [State.walk, hw]
  · rw [State.walk, hw]
    dsimp only
    rw [hp]
    rfl

theorem cached_cachePage {s : State} {va : Word} {p : Page} {ps : List Page} (h : s.sys.ctlb = cachePage 64 ps p)
    (hp : p.asid = s.asid ∧ p.base ≤ va56 va ∧ va56 va < p.base + p.size) : s.cached va = some p := by
  obtain ⟨hasid, hlo, hhi⟩ := hp
  rw [State.cached, h, cachePage, List.take_succ_cons, List.cons_append, List.find?_cons_of_pos]
  simp [hasid, hlo, hhi]

theorem exec_pageWalk_of_open {s : State} {va : Word} {acc : Access} {c : List Nat} {ws : List (Word × Access × List Nat)}
    (h : s.sys.walks = (va, acc, c) :: ws) (hhold : s.sys.hold = false) (hc : Answered s c) :
    exec .pageWalk s = match State.walk { s with sys := { s.sys with walks := ws } } va acc s.system with
      | (t, none) => .next t
      | (t, some f) =>
        let u := match (s.walkAddrs (va56 va) s.root levels).find? s.badLine with
          | some e => t.countErrors (homeOf e) 0 1
          | none => t
        .next (u.setCore { u.core with walkFault := u.core.walkFault ++ [(va, f.1, f.2)] }) := by
  rw [exec_pageWalk, execPageWalk, h]
  dsimp only
  rw [hhold, (readOpen_iff s c).2 hc]
  rfl

theorem pageWalk_waits {s : State} {va : Word} {acc : Access} {c : List Nat} {ws : List (Word × Access × List Nat)}
    (h : s.sys.walks = (va, acc, c) :: ws) (hwait : s.sys.hold = true ∨ ¬ Answered s c) : exec .pageWalk s = .next s := by
  have hclosed : (s.sys.hold || !s.readOpen c) = true := by
    rcases hwait with hhold | hc
    · rw [hhold, Bool.true_or]
    · rw [← readOpen_iff, Bool.not_eq_true] at hc
      rw [hc, Bool.not_false, Bool.or_true]
  rw [exec_pageWalk, execPageWalk, h]
  dsimp only
  rw [hclosed]
  rfl

/-- What has the clocks of a state that has joined the homes has joined them. -/
theorem joinsHomes_of_vc {s t u : State} {pas : List Nat} (h : JoinsHomes s t pas) (hu : u.sys.vc = t.sys.vc) :
    JoinsHomes s u pas := by
  intro e he
  rw [hu]
  exact h e he

theorem pageWalk_caches {s : State} {va : Word} {acc : Access} {c : List Nat} {ws : List (Word × Access × List Nat)}
    (h : s.sys.walks = (va, acc, c) :: ws) (hhold : s.sys.hold = false) (hc : Answered s c) {e : Nat} {p : Page}
    (hleaf : s.walkFrom s.asid (va56 va) s.root levels = .leaf e p) (hp : permitted p.w0 acc s.system s.ux = true) :
    ∃ t q, exec .pageWalk s = .next t ∧ t.sys.walks = ws ∧ t.cached va = some q ∧ q.base = p.base ∧
      q.size = p.size ∧ q.w1 = p.w1 ∧ q.w0 = p.w0 ||| 0x40 ||| (if acc.writes then 0x80 else 0) ∧ t.core = s.core ∧
      t.cell = s.cell ∧ t.csr = s.csr ∧ JoinsHomes s t (s.walkAddrs (va56 va) s.root levels) ∧
      ∀ a, a < e ∨ e + 8 ≤ a → Sparse.get t.mem a = Sparse.get s.mem a := by
  have hexec := exec_pageWalk_of_open h hhold hc
  obtain ⟨t, hwalk, hcore, hcell, hcsr, hwalks, hvc, hctlb, hmem⟩ :=
    State.walk_of_leaf (s := { s with sys := { s.sys with walks := ws } })
      ((s.walkFrom_withWalks ws _ _ _ levels).trans hleaf) hp
  have hjoins := State.joinHomes_joins { s with sys := { s.sys with walks := ws } }
    (s.walkAddrs (va56 va) s.root levels)
  rw [State.walkAddrs_withWalks] at hvc
  rw [hwalk] at hexec
  refine ⟨t, p.touched acc, hexec, hwalks, ?_, rfl, rfl, rfl, rfl, hcore, hcell, hcsr, joinsHomes_of_vc hjoins hvc, hmem⟩
  obtain ⟨hasid, hholds⟩ := State.leaf_holds hleaf
  refine cached_cachePage hctlb ⟨?_, hholds⟩
  rw [State.asid, State.readCsr_congr s hcsr]
  exact hasid

theorem pageWalk_fails {s : State} {va : Word} {acc : Access} {c : List Nat} {ws : List (Word × Access × List Nat)}
    (h : s.sys.walks = (va, acc, c) :: ws) (hhold : s.sys.hold = false) (hc : Answered s c) {f : WalkResult}
    {p : Word × Nat × Option Page} (hf : s.walkFrom s.asid (va56 va) s.root levels = f)
    (hp : (∃ x, f = .fault x ∧ p = (va, x, none)) ∨
      (∃ e q, f = .leaf e q ∧ permitted q.w0 acc s.system s.ux = false ∧ p = (va, 5, some q))) :
    ∃ t, exec .pageWalk s = .next t ∧ t.sys.walks = ws ∧
      t.core = { s.core with walkFault := s.core.walkFault ++ [p] } ∧ t.mem = s.mem ∧ t.sys.ctlb = s.sys.ctlb ∧
      t.sys.tlb = s.sys.tlb ∧ JoinsHomes s t (s.walkAddrs (va56 va) s.root levels) := by
  have hexec := exec_pageWalk_of_open h hhold hc
  obtain ⟨f', hf', rfl⟩ : ∃ f', ((∃ x, s.walkFrom s.asid (va56 va) s.root levels = .fault x ∧ f' = (x, none)) ∨
      ∃ e q, s.walkFrom s.asid (va56 va) s.root levels = .leaf e q ∧ permitted q.w0 acc s.system s.ux = false ∧
        f' = (5, some q)) ∧ p = (va, f') := by
    rcases hp with ⟨x, hx, rfl⟩ | ⟨e, q, hq, hperm, rfl⟩
    · exact ⟨(x, none), .inl ⟨x, hf.trans hx, rfl⟩, rfl⟩
    · exact ⟨(5, some q), .inr ⟨e, q, hf.trans hq, hperm, rfl⟩, rfl⟩
  rw [← s.walkFrom_withWalks ws] at hf'
  obtain ⟨t, hwalk, hcore, hmem, hwalks, hvc, hctlb, htlb⟩ :=
    State.walk_of_fault (s := { s with sys := { s.sys with walks := ws } }) (acc := acc) (system := s.system) hf'
  have hjoins := State.joinHomes_joins { s with sys := { s.sys with walks := ws } }
    (s.walkAddrs (va56 va) s.root levels)
  rw [State.walkAddrs_withWalks] at hvc
  rw [hwalk] at hexec
  dsimp only at hexec
  obtain ⟨m, hm⟩ : ∃ m, (match (s.walkAddrs (va56 va) s.root levels).find? s.badLine with
      | some e => t.countErrors (homeOf e) 0 1
      | none => t) = { t with mgr := m } := by
    split
    · exact t.countErrors_eq _ _ _
    · exact ⟨t.mgr, rfl⟩
  rw [hm] at hexec
  exact ⟨_, hexec, hwalks, by rw [← hcore]; rfl, hmem, hctlb, htlb, joinsHomes_of_vc hjoins hvc⟩

end Sys2Proof.Machine

namespace Sys2Proof.Proofs

open Sys2Proof.Machine Sys2Proof.Claims

/-- Settles O43: the events of the control core, one after another. -/
theorem coreEvents : Obligations.CoreEvents := fun s =>
  ⟨resultLands_landsAll s, storeLoadDataArrival_landsAll, landed_lastStands, fun _ => trapEntry_recognised,
    fun _ => trapEntry_waited,
    fun hb => ⟨fun _ _ => machine_taken hb, fun _ _ => refusal_taken hb, fun _ _ _ => fault_taken hb,
      fun _ => interrupt_taken hb⟩,
    fun _ => timer_counts, timer_stands,
    fun _ _ _ _ h => ⟨pageWalk_waits h, fun hhold hc =>
      ⟨fun _ _ => pageWalk_caches h hhold hc, fun _ _ => pageWalk_fails h hhold hc⟩⟩⟩

end Sys2Proof.Proofs
end

section
/-!
PREEMPT, DEBUGHALT, HARD_STOP and STOP (R334-R336, R372, R374): a cell that stops at a boundary, and what it leaves.
-/

namespace Sys2Proof.Machine

open Sys2Proof.Claims

/-! ### A cell stopped at a boundary (R334, R335) -/

theorem State.withdrawPop_eq (s : State) : ∃ y f v, s.withdrawPop =
    { s with sys := y, fab := f, core := { s.core with vat := v } } := by
  unfold State.withdrawPop
  split
  · exact ⟨_, _, _, rfl⟩
  · exact ⟨s.sys, s.fab, s.core.vat, rfl⟩

/-- A control entry that waits begins its wait anew (R335). -/
def Entry.anew (e : Entry) : Entry := if Instr.isControl e.op = true ∧ e.fin = none then { e with waited := 0 } else e

theorem Entry.unstart_eq (e : Entry) : e.unstart = e.anew := by
  simp only [Entry.unstart, Entry.anew, Entry.waits, Bool.and_eq_true, Option.isNone_iff_eq_none]

/-- What stopping a cell leaves. -/
structure Stopped (s t : State) (st : Status) : Prop where
  status : t.core.status = st
  pc : t.core.pc = if s.core.wfi = true then s.core.pc + 4 else s.core.pc
  g : t.core.g = s.core.g
  csr : t.csr = s.csr
  rsp : t.cell.rsp = s.cell.rsp
  mem : t.mem = s.mem
  inp : t.inp = s.inp
  mgr : t.mgr = s.mgr
  queues : t.cell.queues = s.cell.queues.map fun v => { v with run := v.run.map Entry.unstart }
  preLatch : t.core.preLatch = keptLatches (s.core.pending s.clk) s.clk

theorem State.stopCell_stopped (s : State) (st : Status) : Stopped s (s.stopCell st) st := by
  obtain ⟨y, f, v, h⟩ := s.withdrawPop_eq
  simp only [State.stopCell, h]
  exact ⟨rfl, rfl, rfl, rfl, rfl, rfl, rfl, rfl, rfl, rfl⟩

theorem Stopped.queue {s t : State} {st : Status} (h : Stopped s t st) (q : Nat) (v : Queue)
    (hv : s.cell.queues[q]? = some v) : t.cell.queues[q]? = some { v with run := v.run.map Entry.anew } := by
  rw [h.queues, Vector.getElem?_map, hv, ← funext Entry.unstart_eq]
  rfl

theorem Stopped.targets {s t : State} {st : Status} (h : Stopped s t st) (hr : s.core.reinject = []) :
    t.core.preLatch.map Latch.target =
      ((s.core.inflight.filter fun l => decide (s.clk < l.visible)).take 12).map Latch.target := by
  rw [h.preLatch, keptLatches, savedLatches, Core.pending, hr, List.map_map]
  rfl

/-- A request taken by a step leaves the rest of the stopped cell. -/
theorem cell_stops {i : Instr} {s : State} {st : Status}
    (hi : (i = .preempt ∧ st = .preempted ∧ s.inp.preempt = true) ∨
      (i = .debughalt ∧ st = .halted ∧ s.inp.halt = true))
    (hm : s.mayStop = true) :
    ∃ t, exec i s = .next t ∧ t.core.status = st ∧
      t.core.pc = (if s.core.wfi = true then s.core.pc + 4 else s.core.pc) ∧
      t.core.g = s.core.g ∧ t.csr = s.csr ∧ t.cell.rsp = s.cell.rsp ∧ t.mem = s.mem ∧
      (∀ (q : Nat) v, s.cell.queues[q]? = some v → t.cell.queues[q]? = some { v with run := v.run.map Entry.anew }) ∧
      (s.core.reinject = [] → t.core.preLatch.map Latch.target =
        ((s.core.inflight.filter fun l => decide (s.clk < l.visible)).take 12).map Latch.target) ∧
      (st = .preempted → t.inp = { s.inp with preempt := false } ∧ t.mgr = s.mgr) ∧
      (st = .halted → t.inp = { s.inp with halt := false } ∧ t.mgr = { s.mgr with stop := [] }) := by
  have hs := s.stopCell_stopped st
  generalize hu : s.stopCell st = u at hs
  have hinp := hs.inp
  have hmgr := hs.mgr
  rcases hi with ⟨rfl, rfl, hreq⟩ | ⟨rfl, rfl, hreq⟩
  · have hhalted : (s.core.status == .halted) = false := by
      cases hst : s.core.status <;> simp_all [State.mayStop]
    refine ⟨{ u with inp := { u.inp with preempt := false } }, ?_, hs.status, hs.pc, hs.g, hs.csr, hs.rsp, hs.mem,
      hs.queue, hs.targets, fun _ => ⟨by rw [hinp], hmgr⟩, nofun⟩
    rw [exec_preempt, execPreempt, hreq, hhalted, hm, hu]
    rfl
  · refine ⟨{ u with inp := { u.inp with halt := false }, mgr := { u.mgr with stop := [] } }, ?_, hs.status, hs.pc, hs.g,
      hs.csr, hs.rsp, hs.mem, hs.queue, hs.targets, nofun, fun _ => ⟨by rw [hinp], by rw [hmgr]⟩⟩
    rw [exec_debughalt, execDebughalt, hreq, hm, hu]
    rfl

/-- A halted cell is saved halted (R334). -/
theorem halted_preempted {s : State} (hp : s.inp.preempt = true) (hs : s.core.status = .halted) :
    exec .preempt s = .next { s with
    core := { s.core with status := .preempted }, mgr := { s.mgr with heldHalted := true }
    inp := { s.inp with preempt := false } } := by
  rw [exec_preempt, execPreempt, hp, hs]
  rfl

/-! ### The stop deadline (R160, R336) -/

/-- Nothing but answers and what was asked ahead differs. -/
def OnlyAnswers (s t : State) : Prop :=
  t = { s with sys := { s.sys with replies := t.sys.replies, readClks := t.sys.readClks, missed := t.sys.missed } }

/-- What entries, by queue and number, have read ahead is forgotten. -/
def State.forgetAll (s : State) (ps : List (Nat × Nat)) : State := ps.foldl (fun t p => t.forgetReads p.1 p.2) s

theorem State.forgetAll_effect (s : State) (ps : List (Nat × Nat)) : OnlyAnswers s (s.forgetAll ps) ∧
    ∀ r, r ∈ (s.forgetAll ps).sys.replies ↔ r ∈ s.sys.replies ∧ ∀ p ∈ ps, r.answersEntry p.1 p.2 = false := by
  induction ps generalizing s with
  | nil => exact ⟨rfl, fun r => by simp [State.forgetAll]⟩
  | cons p ps ih =>
    obtain ⟨honly, hmem⟩ := ih (s.forgetReads p.1 p.2)
    rw [State.forgetAll, List.foldl_cons]
    refine ⟨honly, fun r => (hmem r).trans ?_⟩
    simp [State.forgetReads, and_assoc]

/-- Queues stopped one after another. -/
def State.stopAll (s : State) (qs : List Nat) : State :=
  qs.foldl (fun t q => t.setQueue q { (t.queue q) with stopped := true }) s

theorem State.stopAll_effect (s : State) (qs : List Nat) :
    s.stopAll qs = { s with cell := { s.cell with queues := (s.stopAll qs).cell.queues } } ∧
    ∀ (q : Nat) (v : Queue), s.cell.queues[q]? = some v →
      (s.stopAll qs).cell.queues[q]? = some { v with stopped := v.stopped || decide (q ∈ qs) } := by
  induction qs generalizing s with
  | nil => exact ⟨rfl, fun q v hv => by simpa [State.stopAll] using hv⟩
  | cons p qs ih =>
    obtain ⟨honly, hqueues⟩ := ih (s.setQueue p { (s.queue p) with stopped := true })
    rw [State.stopAll, List.foldl_cons]
    refine ⟨honly, fun q v hv => ?_⟩
    have hlt : q < 13 := (Vector.getElem?_eq_some_iff.1 hv).1
    by_cases hqp : q = p
    · subst hqp
      rw [← State.stopAll, hqueues q { v with stopped := true } (by simp [State.setQueue, hlt, State.queue_eq hv])]
      simp
    · rw [← State.stopAll, hqueues q v (by simp [State.setQueue, Vector.getElem?_setIfInBounds_ne (Ne.symm hqp), hv])]
      simp [hqp]

/-- Entries of a queue, started or armed, by queue and number. -/
def State.entriesOf (s : State) (q : Nat) : List (Nat × Nat) :=
  ((s.queue q).run ++ (s.queue q).armed).map fun e => (q, e.seq)

theorem exec_hardStop_of_over {s : State} (h : s.deadlineOver = true) : exec .hardStop s = .next
    ((s.forgetAll (((List.range 13).filter s.queueMoves).flatMap s.entriesOf)).stopAll
      ((List.range 13).filter s.queueMoves)) := by
  rw [exec_hardStop, execHardStop, h, State.forgetAll, List.foldl_flatMap]
  simp only [State.entriesOf, List.foldl_map]
  rfl

theorem Reply.answersEntry_iff {r : Reply} {q n : Nat} :
    r.answersEntry q n = true ↔ r.queue = q ∧ r.seq = n ∧ ∃ k va, r.dest = .entry k va := by
  rw [Reply.answersEntry]
  cases r.dest <;> simp

/-- An answer is read ahead where it answers an entry of a queue that still moves. -/
theorem readAhead_iff (s : State) (r : Reply) : ReadAhead s r ↔
    ∃ p ∈ ((List.range 13).filter s.queueMoves).flatMap s.entriesOf, r.answersEntry p.1 p.2 = true := by
  constructor
  · rintro ⟨q, v, e, n, va, hq, hmoves, hv, he, rfl, hseq, hdest⟩
    refine ⟨(r.queue, e.seq), List.mem_flatMap.2 ⟨r.queue, by simp [hq, hmoves], ?_⟩, ?_⟩
    · exact List.mem_map.2 ⟨e, by rwa [State.queue_eq hv], rfl⟩
    · exact Reply.answersEntry_iff.2 ⟨rfl, hseq, n, va, hdest⟩
  · rintro ⟨p, hp, hanswers⟩
    obtain ⟨q, hq, hentry⟩ := List.mem_flatMap.1 hp
    obtain ⟨e, he, rfl⟩ := List.mem_map.1 hentry
    rw [List.mem_filter, List.mem_range] at hq
    obtain ⟨hlt, hmoves⟩ := hq
    have hv : s.cell.queues[q]? = some (s.queue q) := by simp [State.queue, hlt]
    obtain ⟨hqueue, hseq, n, va, hdest⟩ := Reply.answersEntry_iff.1 hanswers
    exact ⟨q, _, e, n, va, hlt, hmoves, hv, he, hqueue, hseq, hdest⟩

theorem deadline_stops {s : State} {c : Nat} (hc : s.mgr.preemptAt = some c) (hs : s.core.status = .preempted)
    (hclk : c + s.mgr.deadline ≤ s.clk) : ∃ t, exec .hardStop s = .next t ∧ t = { s with
      cell := { s.cell with queues := t.cell.queues }
      sys := { s.sys with replies := t.sys.replies, readClks := t.sys.readClks, missed := t.sys.missed } } ∧
    (∀ q v, q < 13 → s.cell.queues[q]? = some v →
      t.cell.queues[q]? = some { v with stopped := v.stopped || s.queueMoves q }) ∧
    ∀ r, r ∈ t.sys.replies ↔ r ∈ s.sys.replies ∧ ¬ ReadAhead s r := by
  have hover : s.deadlineOver = true := by simp [State.deadlineOver, hc, hs, hclk]
  obtain ⟨hanswers, hreplies⟩ := s.forgetAll_effect (((List.range 13).filter s.queueMoves).flatMap s.entriesOf)
  have hexec := exec_hardStop_of_over hover
  generalize hu : s.forgetAll _ = u at hanswers hreplies hexec
  obtain ⟨hcell, hqueues⟩ := u.stopAll_effect ((List.range 13).filter s.queueMoves)
  generalize u.stopAll _ = t at hcell hqueues hexec
  rw [OnlyAnswers] at hanswers
  refine ⟨t, hexec, ?_, fun q v hq hv => ?_, fun r => ?_⟩
  · rw [hanswers] at hcell
    rw [hcell]
  · rw [hqueues q v (by rw [hanswers]; exact hv)]
    simp [hq]
  · have hsame : t.sys.replies = u.sys.replies := by rw [hcell]
    rw [hsame, hreplies, readAhead_iff]
    simp

/-! ### The record of a stop (R374) -/

theorem length_packLanes (l : List Lane) : (packLanes l).length = (l.length + 1) / 2 := by
  induction l using packLanes.induct with
  | case1 a b r ih => simp [packLanes, ih]; omega
  | case2 a => simp [packLanes]
  | case3 => rfl

theorem getElem?_packLanes {l : List Lane} {n : Nat} (h : 2 * n + 1 < l.length) :
    (packLanes l)[n]? = some (BitVec.ofNat 64 ((l[2 * n]?.getD 0).toNat + 2 ^ 32 * (l[2 * n + 1]?.getD 0).toNat)) := by
  induction l using packLanes.induct generalizing n with
  | case1 a b r ih =>
    cases n with
    | zero => simp [packLanes]
    | succ n =>
      simp only [List.length_cons] at h
      rw [packLanes, List.getElem?_cons_succ, ih (by omega)]
      rfl
  | case2 a => simp at h
  | case3 => simp at h

theorem stop_recorded {s : State} (hs : s.core.status = .halted) (hstop : s.mgr.stop = []) (hsettled : s.allSettled = true) :
    ∃ t ws, exec .stop s = .next t ∧ t = { s with mgr := { s.mgr with stop := ws } } ∧ ws.length = 47 ∧
      ws[0]? = some (BitVec.ofNat 64 (s.core.pc.toNat % 2 ^ 56)) ∧ ws[46]? = some s.acct.elapsed ∧
      (∀ q, q < 13 → ws[1 + q]? = some (BitVec.ofNat 64 (s.oldestSeq q))) ∧
      ∀ n, n < 32 → ws[14 + n]? = some (BitVec.ofNat 64
        ((s.core.q[2 * n]?.getD 0).toNat + 2 ^ 32 * (s.core.q[2 * n + 1]?.getD 0).toNat)) := by
  have hpack : (packLanes s.core.q.toList).length = 32 := by simp [length_packLanes]
  have hseq : ((List.range 13).map fun q => BitVec.ofNat 64 (s.oldestSeq q)).length = 13 := by simp
  refine ⟨_, s.stopRecord, ?_, rfl, ?_, ?_, ?_, fun q hq => ?_, fun n hn => ?_⟩
  · rw [exec_stop, execStop, hs, hstop, hsettled]
    rfl
  · simp [State.stopRecord, hpack]
  · simp [State.stopRecord, Word.bits, bits]
  · rw [State.stopRecord, List.getElem?_cons_succ, List.getElem?_append_right (by simp [hpack])]
    simp [hpack]
  · rw [State.stopRecord, Nat.add_comm, List.getElem?_cons_succ, List.append_assoc,
      List.getElem?_append_left (by simpa using hq)]
    simp [hq]
  · rw [State.stopRecord, show 14 + n = (13 + n) + 1 by omega, List.getElem?_cons_succ,
      List.getElem?_append_left (by simp [hpack]; omega), List.getElem?_append_right (by omega), hseq,
      Nat.add_sub_cancel_left, getElem?_packLanes (by simp; omega)]
    simp

end Sys2Proof.Machine
end

section
/-!
CONTEXT_SAVE and CONTEXT_RESTORE (R331, R333, R337, R338, R342): departure, and the context on its new cells.
-/

namespace Sys2Proof.Machine

open Sys2Proof.Claims

/-! ### What a record of the trace leaves alone (R343, R365-R367) -/

/-- Core, cell and launch state stay. -/
structure KeepsCell (s t : State) : Prop where
  core : t.core = s.core
  cell : t.cell = s.cell
  lq : t.lq = s.lq

theorem KeepsCell.refl (s : State) : KeepsCell s s := ⟨rfl, rfl, rfl⟩

theorem KeepsCell.trans {s t u : State} (h : KeepsCell s t) (h' : KeepsCell t u) : KeepsCell s u :=
  ⟨h'.core.trans h.core, h'.cell.trans h.cell, h'.lq.trans h.lq⟩

theorem State.touch_keepsCell (s : State) (d e : Nat) (p : Page) (acc : Access) :
    KeepsCell s (if (p.touched acc).w0 = p.w0 then s else s.writeEntry d e (p.touched acc).w0) := by
  obtain ⟨mv, wr, m, h, -⟩ := s.touch_eq d e p acc
  rw [h]
  exact ⟨rfl, rfl, rfl⟩

theorem State.walk_keepsCell (s : State) (va : Word) (acc : Access) (system : Bool) :
    KeepsCell s (s.walk va acc system).1 := by
  obtain ⟨vc, hvc⟩ := s.joinHomes_same (s.walkAddrs (va56 va) s.root levels)
  rw [State.walk]
  dsimp only
  rw [hvc]
  split
  next => exact ⟨rfl, rfl, rfl⟩
  next e p _ =>
    cases permitted p.w0 acc system s.ux with
    | false => exact ⟨rfl, rfl, rfl⟩
    | true =>
      rw [Bool.not_true, if_neg Bool.false_ne_true]
      obtain ⟨hcore, hcell, hlq⟩ := State.touch_keepsCell (State.count { s with sys := { s.sys with vc := vc } } 22
        (s.walkAddrs (va56 va) s.root levels).length) s.die e p acc
      exact ⟨hcore, hcell, hlq⟩

theorem State.reach_keepsCell (s : State) (va : Word) (acc : Access) (system : Bool) :
    KeepsCell s (s.reach va acc system).1 := by
  have hwalk := s.walk_keepsCell va acc system
  unfold State.reach
  split
  · exact .refl s
  · split
    · exact .refl s
    · split
      next h =>
        rw [h] at hwalk
        exact hwalk
      next h =>
        rw [h] at hwalk
        split <;> exact hwalk

theorem State.send_keepsCell (s : State) (src : Who) (op : ReqOp) (va : Word) (p : Option Page) (pa : Nat) (dest : Dest)
    (acq : Bool) : KeepsCell s (s.send src op va p pa dest acq) := by
  unfold State.send State.sendAs
  dsimp only
  split <;> exact ⟨rfl, rfl, rfl⟩

theorem State.traceSlot_keepsCell (s : State) (va : Word) (ws : List Word) : KeepsCell s (s.traceSlot va ws).1 := by
  have hreach := s.reach_keepsCell va .write s.system
  unfold State.traceSlot
  split
  next h =>
    rw [h] at hreach
    exact hreach
  next h =>
    rw [h] at hreach
    exact hreach.trans (State.send_keepsCell ..)

theorem State.traceSlots_keepsCell (s : State) (a : Nat) (ws : List (List Word)) : KeepsCell s (s.traceSlots a ws).1 := by
  induction ws generalizing s a with
  | nil => exact .refl s
  | cons w ws ih =>
    have hslot := s.traceSlot_keepsCell (canon (Word.bits (s.readCsr 0x0C1) 6 50 * 64 + a)) w
    rw [State.traceSlots]
    split
    next h =>
      rw [h] at hslot
      exact hslot.trans (ih _ _)
    next h =>
      rw [h] at hslot
      exact hslot

theorem State.record_keepsCell (s : State) (ws : List Word) (capture : Bool) : KeepsCell s (s.record ws capture) := by
  unfold State.record
  split
  · exact .refl s
  · dsimp only
    split
    · split <;> exact ⟨rfl, rfl, rfl⟩
    · split
      next h =>
        have hslots : KeepsCell s _ := (congrArg Prod.fst h) ▸ s.traceSlots_keepsCell _ (pairs ws)
        exact hslots.trans ⟨rfl, rfl, rfl⟩
      next => exact ⟨rfl, rfl, rfl⟩

theorem State.closeRun_keepsCell (s : State) (slot : Nat) : KeepsCell s (s.closeRun slot) := by
  unfold State.closeRun
  split
  · exact .refl s
  · obtain ⟨hcore, hcell, hlq⟩ := State.record_keepsCell { s with acct := { s.acct with
      runs := s.acct.runs.filter fun r => r.1 != slot } } _ false
    exact ⟨hcore, hcell, hlq⟩

theorem State.closeRuns_keepsCell (s : State) : KeepsCell s s.closeRuns := by
  unfold State.closeRuns
  generalize List.range 5 = slots
  induction slots generalizing s with
  | nil => exact .refl s
  | cons slot slots ih => exact (s.closeRun_keepsCell slot).trans (ih _)

/-! ### Saving (R337) -/

theorem own_of_disown {s : State} {r : Req} (h : r ∈ s.disown.sys.reqs) : r.origin ≠ .own := by
  obtain ⟨q, -, rfl⟩ := List.mem_map.1 h
  split
  · exact nofun
  · split <;> assumption

theorem context_saved {s : State} (h : s.mayDepart = true) :
    ∃ t, exec .contextSave s = .next t ∧ t.core.status = .away ∧ t.mgr.images = s.image ∧
    t.mgr.departed = s.clk - 1 ∧ t.mgr.preemptAt = none ∧ t.core.g = s.core.g ∧ t.core.pc = s.core.pc ∧
    t.cell.rsp = s.cell.rsp ∧ t.cell.queues = s.cell.queues ∧
    (∀ r, r ∈ t.sys.reqs → r.origin ≠ .own) ∧
    ∀ x, x ∈ s.lq.troupes → s.gcell ∈ x.cells → x.away = false → { x with away := true } ∈ t.lq.troupes := by
  obtain ⟨hcore, hcell, hlq⟩ := s.closeRuns_keepsCell
  have hg : s.closeRuns.core.g = s.core.g := by rw [hcore]
  have hpc : s.closeRuns.core.pc = s.core.pc := by rw [hcore]
  have hrsp : s.closeRuns.cell.rsp = s.cell.rsp := by rw [hcell]
  have hqueues : s.closeRuns.cell.queues = s.cell.queues := by rw [hcell]
  have hon : s.isAway = false := by
    simp only [State.mayDepart, Bool.and_eq_true, beq_iff_eq] at h
    rw [State.isAway, h.1.1]
    rfl
  rw [exec_contextSave, execContextSave, h, Bool.not_true, if_neg Bool.false_ne_true]
  refine ⟨_, rfl, rfl, rfl, rfl, rfl, hg, hpc, hrsp, hqueues, fun r => own_of_disown, fun x hx hin haway => ?_⟩
  have howns : s.owns x = true := by simp [State.owns, hin, haway, hon]
  exact List.mem_map.2 ⟨x, by rw [← hlq] at hx; exact hx, by rw [howns]; rfl⟩

theorem context_stays {s : State} (h : s.mayDepart = false) : exec .contextSave s = .next s := by
  rw [exec_contextSave, execContextSave, h]
  rfl

/-! ### Accounts without a trace (R342, R343) -/

/-- Nothing but the accounts differs. -/
def OnlyAccounts (s t : State) : Prop := t = { s with acct := t.acct }

theorem OnlyAccounts.refl (s : State) : OnlyAccounts s s := rfl

theorem OnlyAccounts.trans {s t u : State} (h : OnlyAccounts s t) (h' : OnlyAccounts t u) : OnlyAccounts s u := by
  rw [OnlyAccounts] at h h' ⊢
  rw [h] at h'
  exact h'

theorem OnlyAccounts.trace {s t : State} (h : OnlyAccounts s t) (b : Nat) : t.trace b = s.trace b := by
  rw [OnlyAccounts] at h
  rw [h]
  rfl

theorem State.closeRun_onlyAccounts {s : State} (h : s.trace 0 = false) (slot : Nat) : OnlyAccounts s (s.closeRun slot) := by
  unfold State.closeRun
  split
  · rfl
  next c pc n _ =>
    have hoff : State.trace { s with acct := { s.acct with runs := s.acct.runs.filter fun r => r.1 != slot } } 0 = false := h
    dsimp only
    rw [State.accountRecord, State.record, hoff]
    rfl

/-- A run put in its place, and written where it is full. -/
theorem onlyAccounts_putRun {s u : State} (h : s.trace 0 = false) (hu : OnlyAccounts s u) (slot : Nat)
    (rs : List (Nat × Nat × Word × Nat)) (full : Prop) [Decidable full] :
    OnlyAccounts s (if full then State.closeRun { u with acct := { u.acct with runs := rs } } slot
      else { u with acct := { u.acct with runs := rs } }) := by
  have hput : OnlyAccounts s { u with acct := { u.acct with runs := rs } } := hu.trans rfl
  split
  · exact hput.trans (State.closeRun_onlyAccounts ((hput.trace 0).trans h) slot)
  · exact hput

theorem State.extendRun_onlyAccounts {s : State} (h : s.trace 0 = false) (slot cause : Nat) (pc : Word) (n : Nat) :
    OnlyAccounts s (s.extendRun slot cause pc n) := by
  unfold State.extendRun
  cases s.acct.runs.find? fun r => r.1 == slot with
  | none => exact onlyAccounts_putRun h (.refl s) ..
  | some r =>
    dsimp only
    by_cases hsame : r.2.1 = cause ∧ r.2.2.1 = pc ∧ r.2.2.2 + n < 2 ^ 48
    · rw [if_pos hsame]
      exact onlyAccounts_putRun h (.refl s) ..
    · rw [if_neg hsame]
      exact onlyAccounts_putRun h (State.closeRun_onlyAccounts h slot) ..

theorem State.chargeSlot_onlyAccounts {s : State} (h : s.trace 0 = false) (slot : Nat) (c : Cause) (pc : Word) (n : Nat) :
    OnlyAccounts s (s.chargeSlot slot c pc n) := by
  unfold State.chargeSlot
  dsimp only
  split
  · refine OnlyAccounts.trans (show OnlyAccounts s { s with acct := _ } from rfl) (State.extendRun_onlyAccounts ?_ _ _ _ _)
    exact h
  · rfl

theorem OnlyAccounts.charge {s t : State} (h : s.trace 0 = false) (ht : OnlyAccounts s t) (slot : Nat) (c : Cause)
    (pc : Word) (n : Nat) : OnlyAccounts s (t.chargeSlot slot c pc n) :=
  ht.trans (State.chargeSlot_onlyAccounts ((ht.trace 0).trans h) slot c pc n)

theorem State.chargeAway_onlyAccounts {s : State} (h : s.trace 0 = false) (n : Nat) : OnlyAccounts s (s.chargeAway n) := by
  have hunit : OnlyAccounts s (if s.isEnded then s else
      (s.chargeSlot 0 .notResident s.core.pc n).chargeSlot 1 .notResident s.core.pc n) := by
    split
    · rfl
    · exact ((OnlyAccounts.refl s).charge h ..).charge h ..
  exact (((hunit.charge h ..).charge h ..).charge h ..).trans rfl

/-! ### Restoring (R331, R333, R338) -/

theorem exec_contextRestore_asked {s : State} (hat : s.mgr.restoreAt = none) (hask : s.inp.restore = true)
    (haway : s.core.status = .away) (hfree : s.placeFree = true) : exec .contextRestore s =
      if !s.mgr.images.all sectionOk then
        .next (State.reportFault { s with inp := { s.inp with restore := false } } Code.format)
      else .next (if s.inp.restoreClk = 0 then s.beginRestore.endRestore else s.beginRestore) := by
  have haway' : (s.core.status != .away) = false := by rw [haway]; rfl
  rw [exec_contextRestore, execContextRestore, hat]
  dsimp only
  rw [hask, haway', hfree]
  rfl

theorem restore_refused {s : State} (hat : s.mgr.restoreAt = none) (hask : s.inp.restore = true)
    (haway : s.core.status = .away) (hfree : s.placeFree = true) (hbad : s.mgr.images.all sectionOk = false) :
    exec .contextRestore s = .next { s with
      mgr := { s.mgr with reports := s.mgr.reports ++ [(6, none)] }, inp := { s.inp with restore := false } } := by
  rw [exec_contextRestore_asked hat hask haway hfree, hbad]
  rfl

theorem State.get_joinVc (s : State) (d : Nat) (v : List Nat) {e : Nat} (he : e < 28) (hv : v ≠ []) :
    Sparse.get (s.joinVc d v).sys.vc (32 * d + e) =
      BitVec.ofNat 40 (max (Sparse.get s.sys.vc (32 * d + e)).toNat (v[e]?.getD 0)) := by
  rw [State.joinVc, if_neg (by simpa using hv)]
  exact get_setRun_maxClock s.sys.vc (32 * d) v he

/-- The state in which a restoration begins: accounts charged for the time away, and the clock that departure released
joined on the new die. -/
theorem State.beginRestore_eq {s : State} (h : s.trace 0 = false) : ∃ a vc, s.beginRestore =
    { s.cleanRest with
      acct := a, sys := { s.cleanRest.sys with vc := vc }, gcell := s.placeCell
      core := { s.core with status := .preempted }
      lq := { s.lq with troupes := s.lq.troupes.map fun t => if s.owns t then t.moveTo s.inp.place else t }
      mgr := { s.mgr with restoreAt := some (s.clk + s.inp.restoreClk) }, inp := { s.inp with restore := false } } ∧
    ∀ e, e < 28 → Sparse.get vc (32 * (s.placeCell / 64) + e) = BitVec.ofNat 40 (max
      (Sparse.get s.sys.vc (32 * (s.placeCell / 64) + e)).toNat (Sparse.get s.sys.vc (32 * (s.gcell / 64) + e)).toNat) := by
  have hcharged := State.chargeAway_onlyAccounts (s := s.cleanRest) h (s.clk - s.mgr.departed - 1)
  obtain ⟨vc, hvc⟩ := (s.cleanRest.chargeAway (s.clk - s.mgr.departed - 1)).joinVc_same (s.placeCell / 64) (s.vcOf s.die)
  have hget := fun e (he : e < 28) => State.get_joinVc (s.cleanRest.chargeAway (s.clk - s.mgr.departed - 1))
    (s.placeCell / 64) (s.vcOf s.die) he (by simp [State.vcOf])
  rw [State.beginRestore]
  dsimp only
  rw [hvc] at hget ⊢
  rw [OnlyAccounts] at hcharged
  generalize s.cleanRest.chargeAway (s.clk - s.mgr.departed - 1) = u at hcharged hget
  rw [hcharged] at hget ⊢
  refine ⟨u.acct, vc, rfl, fun e he => (hget e he).trans ?_⟩
  rw [State.vcOf, clock_getD _ _ he]
  rfl

theorem restore_begins {s : State} (hat : s.mgr.restoreAt = none) (hask : s.inp.restore = true)
    (haway : s.core.status = .away) (hfree : s.placeFree = true) (hok : s.mgr.images.all sectionOk = true)
    (hclk : 0 < s.inp.restoreClk) (htrace : s.trace 0 = false) : ∃ t, exec .contextRestore s = .next t ∧
      s.inp.place[s.cell.rank]?.getD s.gcell = t.gcell ∧ t.core = { s.core with status := .preempted } ∧
      t.mgr = { s.mgr with restoreAt := some (s.clk + s.inp.restoreClk) } ∧ t.inp = { s.inp with restore := false } ∧
      t.sys.tlb = [] ∧ t.sys.ctlb = [] ∧ t.cell.rspErr = [] ∧ t.cell.storeErr = [] ∧
      (∀ w, t.word w = if s.cell.dirtyBanks.getLsbD (w / 4096) = true then s.word w else 0) ∧
      (∀ a, Sparse.get t.cell.store0 a = if Sparse.get s.cell.dirtyGran (a / 4096) = 1 then Sparse.get s.cell.store0 a
        else 0) ∧
      (∀ x, x ∈ s.lq.troupes → s.gcell ∈ x.cells → x.away = true →
        ∃ y, y ∈ t.lq.troupes ∧ y.cells = s.inp.place ∧ y.away = false) ∧
      ∀ e, e < 28 → Sparse.get t.sys.vc (32 * (t.gcell / 64) + e) = BitVec.ofNat 40 (max
        (Sparse.get s.sys.vc (32 * (t.gcell / 64) + e)).toNat (Sparse.get s.sys.vc (32 * (s.gcell / 64) + e)).toNat) := by
  have hexec := exec_contextRestore_asked hat hask haway hfree
  rw [hok, if_neg (by omega : ¬ s.inp.restoreClk = 0)] at hexec
  obtain ⟨a, vc, hbegin, hvc⟩ := State.beginRestore_eq htrace
  have hisAway : s.isAway = true := by rw [State.isAway, haway]; rfl
  rw [hbegin] at hexec
  refine ⟨_, hexec, rfl, rfl, rfl, rfl, rfl, rfl, rfl, rfl, fun w => ?_, fun x => ?_,
    fun x hx hin hx' => ?_, hvc⟩
  · exact Sparse.get_filter s.cell.rsp (fun b => s.cell.dirtyBanks.getLsbD (bankOf b)) w
  · refine (Sparse.get_filter s.cell.store0
      (fun b => decide (Sparse.get s.cell.dirtyGran (1024 * 0 + b / 4096) = 1)) x).trans ?_
    simp only [Nat.mul_zero, Nat.zero_add, decide_eq_true_eq]
  · have howns : s.owns x = true := by simp [State.owns, hin, hx', hisAway]
    exact ⟨x.moveTo s.inp.place, List.mem_map.2 ⟨x, hx, by rw [howns]; rfl⟩, rfl, rfl⟩

/-- The state in which a restoration has ended. -/
def State.restored (s : State) : State :=
  { s with mgr := { s.mgr with restoreAt := none, heldHalted := false }, coll := { s.coll with parked := [] } }

/-- No contribution is parked: none is received again (R288). -/
theorem State.endRestore_of_none {s : State} (h : s.coll.parked = []) : s.endRestore =
    if s.mgr.heldHalted then s.restored.setCore { s.core with status := .halted } else s.restored.resumeCell false := by
  unfold State.endRestore State.unpark
  dsimp only
  split <;> exact congrArg (State.receiveAll _) h

theorem restore_ends {s : State} {c : Nat} (hat : s.mgr.restoreAt = some c) (hc : c ≤ s.clk)
    (hparked : s.coll.parked = []) : ∃ t, exec .contextRestore s = .next t ∧
      t.mgr = { s.mgr with restoreAt := none, heldHalted := false } ∧
      (s.mgr.heldHalted = true → t.core = { s.core with status := .halted }) ∧
      (s.mgr.heldHalted = false → t.core.status = s.goesOn ∧ t.core.reinject = s.core.preLatch ∧
        t.core.preLatch = [] ∧ t.core.pc = s.core.pc ∧ t.core.g = s.core.g ∧ t.mem = s.mem ∧
        ∀ (q : Nat) v, s.cell.queues[q]? = some v → t.cell.queues[q]? = some { v with
          stopped := false, waited := 0
          run := v.run.map fun e => { e with next := e.done }
          armed := v.armed.map fun e => { e with next := e.done } }) := by
  have hexec : exec .contextRestore s = .next s.endRestore := by
    rw [exec_contextRestore, execContextRestore, hat]
    exact if_pos hc
  rw [State.endRestore_of_none hparked] at hexec
  cases hheld : s.mgr.heldHalted with
  | true =>
    rw [hheld, if_pos rfl] at hexec
    exact ⟨_, hexec, rfl, fun _ => rfl, nofun⟩
  | false =>
    rw [hheld, if_neg Bool.false_ne_true] at hexec
    refine ⟨_, hexec, rfl, nofun, fun _ => ⟨rfl, rfl, rfl, rfl, rfl, rfl, fun q v hv => ?_⟩⟩
    rw [State.resumeCell]
    dsimp only [State.restored]
    rw [Vector.getElem?_map, hv]
    rfl

end Sys2Proof.Machine
end

section
/-!
WATCH_REPORT_ENTRY and SAMPLE (R366, R367, R371), with O51.
-/

namespace Sys2Proof.Machine

open Sys2Proof.Claims

/-! ### Watch reports (R371) -/

theorem State.readCsr_pend_ne (s : State) (i : Nat) {n : Nat} (h : n ≠ 0x100) : (s.pend i).readCsr n = s.readCsr n :=
  Sparse.get_set_ne _ _ h

theorem execWatchReportEntry_of_coming {s : State} {r : Report} {rs : List Report} (h : s.dbg.coming = r :: rs)
    (hres : s.resident = true) (hhalt : s.core.status ≠ .halted) : exec .watchReportEntry s =
      if 8 ≤ s.dbg.war.length then
        .next { s with dbg := { s.dbg with coming := rs, warLost := min 0xFFFF (s.dbg.warLost + 1) } }
      else
        .next ((State.pend { s with dbg := { s.dbg with
          coming := rs, war := s.dbg.war ++ [{ r with at' := min 255 (s.clk - r.at') }] } } 3).emit 4 s.self r.addr
            (Report.info { r with at' := min 255 (s.clk - r.at') } (min 255 (s.clk - r.at')))) := by
  have htakes : s.takesReports = true := by simp [State.takesReports, hres, hhalt]
  rw [exec_watchReportEntry, execWatchReportEntry, h]
  dsimp only
  rw [htakes]
  rfl

theorem report_enters {s : State} {r : Report} {rs : List Report} (h : s.dbg.coming = r :: rs) (hres : s.resident = true)
    (hhalt : s.core.status ≠ .halted) (htrace : s.readCsr 0x0C0 = 0) :
    (s.dbg.war.length < 8 → ∃ t, exec .watchReportEntry s = .next t ∧
      t.dbg = { s.dbg with coming := rs, war := s.dbg.war ++ [{ r with at' := min 255 (s.clk - r.at') }] } ∧
      t.readCsr 0x100 = s.readCsr 0x100 ||| 0x80000 ∧ (∀ n, n ≠ 0x100 → t.readCsr n = s.readCsr n) ∧
      t.core = s.core) ∧
    (8 ≤ s.dbg.war.length → exec .watchReportEntry s = .next { s with
      dbg := { s.dbg with coming := rs, warLost := min 0xFFFF (s.dbg.warLost + 1) } }) := by
  have hexec := execWatchReportEntry_of_coming h hres hhalt
  refine ⟨fun hroom => ?_, fun hfull => by rw [hexec, if_pos hfull]⟩
  have hoff : State.trace (State.pend { s with dbg := { s.dbg with
      coming := rs, war := s.dbg.war ++ [{ r with at' := min 255 (s.clk - r.at') }] } } 3) 0 = false :=
    State.trace_of_control_zero ((State.readCsr_pend_ne _ 3 (by decide)).trans htrace) 0
  rw [if_neg (by omega), State.emit_off hoff] at hexec
  exact ⟨_, hexec, rfl, Sparse.get_set_eq .., fun n hn => State.readCsr_pend_ne _ 3 hn, rfl⟩

/-! ### Records on their way (R365-R367) -/

theorem State.sample_off {s : State} (h : s.trace 0 = false) : exec .sample s = .next s := by
  have hunit : s.sampleUnit = s := by
    unfold State.sampleUnit
    split
    · rfl
    · dsimp only
      rw [State.emit_off h, State.emit_off h]
  rw [exec_sample, execSample, hunit, List.foldl_fixed']
  intro slot
  split
  · exact State.emit_off h ..
  · rfl

/-- n accesses more are on their way from the cell's die; nothing else that the statement speaks of differs but the CSRs. -/
structure SendsMore (s t : State) (n : Nat) : Prop where
  core : t.core = s.core
  cell : t.cell = s.cell
  mem : t.mem = s.mem
  ctlb : t.sys.ctlb = s.sys.ctlb
  tlb : t.sys.tlb = s.sys.tlb
  reqs : ∃ rs, t.sys.reqs = s.sys.reqs ++ rs ∧ rs.length = n

theorem SendsMore.trans {s t u : State} {m n : Nat} (h : SendsMore s t m) (h' : SendsMore t u n) :
    SendsMore s u (m + n) := by
  obtain ⟨rs, hrs, rfl⟩ := h.reqs
  obtain ⟨rs', hrs', rfl⟩ := h'.reqs
  exact ⟨h'.core.trans h.core, h'.cell.trans h.cell, h'.mem.trans h.mem, h'.ctlb.trans h.ctlb, h'.tlb.trans h.tlb,
    rs ++ rs', by rw [hrs', hrs, List.append_assoc], List.length_append⟩

/-- A page depends on the caches and on the registers of translation alone. -/
theorem outputPage_congr {s t : State} {va : Word} {acc : Access} {n : Nat} {p : Page} (h : OutputPage s va acc n p)
    (hctlb : t.sys.ctlb = s.sys.ctlb) (htlb : t.sys.tlb = s.sys.tlb)
    (hcsr : ∀ n, n ≠ 0x0C3 → t.readCsr n = s.readCsr n) : OutputPage t va acc n p where
  canon := h.canon
  outside := h.outside
  cached := by
    have hasid : t.asid = s.asid := by rw [State.asid, State.asid, hcsr 0x102 (by decide)]
    rw [← h.cached, State.cached, hctlb, htlb, hasid]
    rfl
  dirty := h.dirty
  allowed := by
    have hsystem : t.system = s.system := by rw [State.system, State.system, hcsr 0x001 (by decide)]
    have hux : t.ux = s.ux := by rw [State.ux, State.ux, hcsr 0x101 (by decide)]
    rw [hsystem, hux]
    exact h.allowed
  local' := by
    have hdevid : t.devid = s.devid := by rw [State.devid, State.devid, hcsr 0x1B0 (by decide)]
    rw [← h.local', isLocal, hdevid]
    rfl
  plain := h.plain
  within := h.within

theorem State.reach_of_outputPage {s : State} {va : Word} {n : Nat} {p : Page} (h : OutputPage s va .write n p) :
    s.reach va .write s.system = (s, .ok p) := by
  have hcanon : canonical va = true := by
    rw [canonical, canon_bits, h.canon]
    exact beq_self_eq_true va
  have hfor : s.cachedFor va .write = some p := by
    rw [State.cachedFor, h.cached]
    dsimp only
    rw [h.dirty rfl]
    rfl
  rw [State.reach, hcanon, hfor]
  dsimp only
  rw [h.allowed]
  rfl

theorem State.marksWrite_eq (s : State) (d : Nat) :
    ∃ w, s.marksWrite d = { s with sys := { s.sys with wrote := w } } := by
  unfold State.marksWrite
  split
  · exact ⟨s.sys.wrote, rfl⟩
  · exact ⟨_, rfl⟩

/-- A write of the cell to a page of this module goes to its home. -/
theorem State.send_sends {s : State} {p : Page} (h : s.remote (some p) = none) (src : Who) (bs : List (Nat × Byte))
    (va : Word) (pa : Nat) : SendsMore s (s.send src (.store bs) va (some p) pa .none false) 1 ∧
      (s.send src (.store bs) va (some p) pa .none false).csr = s.csr := by
  have hwrites : (ReqOp.store bs).writes = true := rfl
  obtain ⟨w, hw⟩ := s.marksWrite_eq s.die
  unfold State.send State.sendAs
  dsimp only
  rw [h, Option.isSome_none, if_neg Bool.false_ne_true, hwrites, if_pos rfl, hw]
  exact ⟨⟨rfl, rfl, rfl, rfl, rfl, [_], rfl, rfl⟩, rfl⟩

theorem State.traceSlot_sends {s : State} {va : Word} {n : Nat} {p : Page} (h : OutputPage s va .write n p)
    (ws : List Word) : ∃ t, s.traceSlot va ws = (t, true) ∧ SendsMore s t 1 ∧ t.csr = s.csr := by
  rw [State.traceSlot, State.reach_of_outputPage h]
  exact ⟨_, rfl, State.send_sends h.local' _ _ _ _⟩

/-- A record of four words takes two slots. -/
theorem State.traceSlots_sends {s : State} {a : Nat} {w0 w1 w2 w3 : Word} {n : Nat} {p q : Page}
    (hp : OutputPage s (canon (64 * field (s.readCsr 0x0C1) 6 50 + a)) .write n p)
    (hq : OutputPage s (canon (64 * field (s.readCsr 0x0C1) 6 50 + (a + 16))) .write n q) :
    ∃ t, s.traceSlots a (pairs [w0, w1, w2, w3]) = (t, true) ∧ SendsMore s t 2 ∧ t.csr = s.csr := by
  have hva : ∀ c, canon (Word.bits (s.readCsr 0x0C1) 6 50 * 64 + c) = canon (64 * field (s.readCsr 0x0C1) 6 50 + c) :=
    fun c => by rw [Nat.mul_comm]; rfl
  obtain ⟨t, ht, hsends, hcsr⟩ := State.traceSlot_sends hp [w0, w1]
  have hread := fun k => State.readCsr_congr s hcsr k
  obtain ⟨u, hu, hsends', hcsr'⟩ := State.traceSlot_sends
    (outputPage_congr hq hsends.ctlb hsends.tlb fun k _ => hread k) [w2, w3]
  refine ⟨u, ?_, hsends.trans hsends', hcsr'.trans hcsr⟩
  rw [pairs, pairs, pairs, State.traceSlots, hva, ht]
  dsimp only
  rw [State.traceSlots, hread, hva, hu]
  rfl

/-- The five records of a sample fit in the trace area, and their pages can be written (R366, R367). -/
structure RoomToTrace (s : State) (h : Nat) : Prop where
  on : s.trace 0 = true
  head : h = 16 * field (s.readCsr 0x0C3) 4 36
  fits : h + 160 ≤ 64 * field (s.readCsr 0x0C2) 6 34
  page : ∀ j, j < 10 → ∃ p, OutputPage s (canon (64 * field (s.readCsr 0x0C1) 6 50 + (h + 16 * j))) .write 16 p

/-- k records have been written from the head on. -/
structure Traced (s t : State) (h k : Nat) : Prop where
  sends : SendsMore s t (2 * k)
  other : ∀ n, n ≠ 0x0C3 → t.readCsr n = s.readCsr n
  head : 16 * field (t.readCsr 0x0C3) 4 36 = h + 32 * k
  raw : 0 < k → t.readCsr 0x0C3 = BitVec.ofNat 64 (h + 32 * k)

/-- A record of 32 bytes that fits moves the head on. -/
theorem State.emit_of_room {t u : State} {a type : Nat} {src : Who} {w2 w3 : Word} (hon : t.trace 0 = true)
    (hat : Word.bits (t.readCsr 0x0C3) 4 36 * 16 = a) (hfits : a + 32 ≤ Word.bits (t.readCsr 0x0C2) 6 34 * 64)
    (hu : t.traceSlots a (pairs (t.recordHead type src ++ [w2, w3])) = (u, true)) :
    t.emit type src w2 w3 = u.setCsr 0x0C3 (BitVec.ofNat 64 (a + 32)) := by
  have hsize : 8 * (t.recordHead type src ++ [w2, w3]).length = 32 := rfl
  have hroom : decide (Word.bits (t.readCsr 0x0C2) 6 34 * 64 < a + 32) = false := decide_eq_false (by omega)
  unfold State.emit State.record
  dsimp only
  rw [hon, hat, hsize, hroom]
  simp only [Bool.not_true, Bool.false_and, Bool.false_eq_true, if_false, hu]

theorem Traced.emit {s t : State} {h k : Nat} (hs : RoomToTrace s h) (ht : Traced s t h k) (hk : k < 5) (type : Nat)
    (src : Who) (w2 w3 : Word) : Traced s (t.emit type src w2 w3) h (k + 1) := by
  obtain ⟨hon, hh, hfits, hpage⟩ := hs
  obtain ⟨hsends, hother, hhead, -⟩ := ht
  obtain ⟨p, hp⟩ := hpage (2 * k) (by omega)
  obtain ⟨q, hq⟩ := hpage (2 * k + 1) (by omega)
  have hp' := outputPage_congr hp hsends.ctlb hsends.tlb hother
  have hq' := outputPage_congr hq hsends.ctlb hsends.tlb hother
  rw [← hother 0x0C1 (by decide)] at hp' hq'
  have htrace : t.trace 0 = true := by rw [State.trace, hother 0x0C0 (by decide)]; exact hon
  have hnext : h + 32 * (k + 1) = h + 32 * k + 32 := by omega
  have hat : Word.bits (t.readCsr 0x0C3) 4 36 * 16 = h + 32 * k := by rw [← hhead, Nat.mul_comm]; rfl
  have hlen : Word.bits (t.readCsr 0x0C2) 6 34 * 64 = 64 * field (s.readCsr 0x0C2) 6 34 := by
    rw [hother 0x0C2 (by decide), Nat.mul_comm]
    rfl
  rw [show h + 16 * (2 * k) = h + 32 * k by omega] at hp'
  rw [show h + 16 * (2 * k + 1) = h + 32 * k + 16 by omega] at hq'
  obtain ⟨u, hu, hmore, hcsr⟩ := State.traceSlots_sends (w0 := BitVec.ofNat 64 (Word.bits src.pc 0 56))
    (w1 := BitVec.ofNat 64 (src.seq % 2 ^ 32 + 2 ^ 32 * src.queue + 2 ^ 36 * t.gcell + 2 ^ 59 * type))
    (w2 := w2) (w3 := w3) hp' hq'
  have hemit := State.emit_of_room htrace hat (by omega) hu
  have hread : ∀ n, n ≠ 0x0C3 → (u.setCsr 0x0C3 (BitVec.ofNat 64 (h + 32 * k + 32))).readCsr n = t.readCsr n :=
    fun n hn => (Sparse.get_set_ne _ _ hn).trans (State.readCsr_congr t hcsr n)
  have hraw : (u.setCsr 0x0C3 (BitVec.ofNat 64 (h + 32 * k + 32))).readCsr 0x0C3 = BitVec.ofNat 64 (h + 32 * k + 32) :=
    Sparse.get_set_eq ..
  rw [hemit]
  obtain ⟨hcore, hcell, hmem, hctlb, htlb, hreqs⟩ := hsends.trans hmore
  refine ⟨⟨hcore, hcell, hmem, hctlb, htlb, hreqs⟩, fun n hn => (hread n hn).trans (hother n hn), ?_, fun _ => ?_⟩
  · have hmod : field (s.readCsr 0x0C3) 4 36 < 2 ^ 36 := Nat.mod_lt _ (by decide)
    have hmod' : field (s.readCsr 0x0C2) 6 34 < 2 ^ 34 := Nat.mod_lt _ (by decide)
    generalize field (s.readCsr 0x0C3) 4 36 = head at hh hmod
    generalize field (s.readCsr 0x0C2) 6 34 = len at hfits hmod'
    rw [hraw, field, BitVec.toNat_ofNat]
    omega
  · rw [hraw, hnext]

theorem sample_recorded {s : State} {b h : Nat} (hrun : s.core.status = .running)
    (hended : s.cell.endedRanks.getLsbD s.cell.rank = false) (hon : s.trace 0 = true)
    (hb : b = 64 * field (s.readCsr 0x0C1) 6 50) (hh : h = 16 * field (s.readCsr 0x0C3) 4 36)
    (hfits : h + 160 ≤ 64 * field (s.readCsr 0x0C2) 6 34)
    (hpage : ∀ j, j < 10 → ∃ p, OutputPage s (canon (b + (h + 16 * j))) .write 16 p) :
    ∃ t ws, exec .sample s = .next t ∧ t.readCsr 0x0C3 = BitVec.ofNat 64 (h + 160) ∧
      (∀ n, n ≠ 0x0C3 → t.readCsr n = s.readCsr n) ∧ t.sys.reqs = s.sys.reqs ++ ws ∧ ws.length = 10 ∧
      t.core = s.core ∧ t.cell = s.cell ∧ t.mem = s.mem := by
  subst hb
  have hroom : RoomToTrace s h := ⟨hon, hh, hfits, hpage⟩
  have hzero : Traced s s h 0 := ⟨⟨rfl, rfl, rfl, rfl, rfl, [], by simp, rfl⟩, fun _ _ => rfl, hh.symm, nofun⟩
  obtain ⟨⟨v, c, pc⟩, hunit⟩ : ∃ x, s.unitCharge = some x := by
    rw [State.unitCharge, hended, hrun]
    dsimp only
    rw [if_neg Bool.false_ne_true]
    split <;> exact ⟨_, rfl⟩
  have hengine : ∀ slot, ∃ x, s.engineCharge slot = some x := by
    intro slot
    rw [State.engineCharge, hrun]
    dsimp only
    generalize (!(if slot = 4 then s.ctlTicks else s.arrTicks)) = off
    cases off <;> exact ⟨_, rfl⟩
  obtain ⟨⟨c2, pc2⟩, h2⟩ := hengine 2
  obtain ⟨⟨c3, pc3⟩, h3⟩ := hengine 3
  obtain ⟨⟨c4, pc4⟩, h4⟩ := hengine 4
  have hexec := exec_sample s
  rw [execSample, State.sampleUnit, hunit] at hexec
  simp only [List.foldl_cons, List.foldl_nil, h2, h3, h4] at hexec
  obtain ⟨hsends, hother, -, hraw⟩ := ((((hzero.emit hroom (by decide) ..).emit hroom (by decide) ..).emit hroom
    (by decide) ..).emit hroom (by decide) ..).emit hroom (by decide) ..
  obtain ⟨rs, hrs, hlen⟩ := hsends.reqs
  exact ⟨_, rs, hexec, hraw (by decide), hother, hrs, hlen, hsends.core, hsends.cell, hsends.mem⟩

end Sys2Proof.Machine

namespace Sys2Proof.Proofs

open Sys2Proof.Machine Sys2Proof.Claims

/-- Settles O51: the events of contexts, stops and traces, one after another. -/
theorem contextEvents : Obligations.ContextEvents := fun _ =>
  ⟨fun _ _ => cell_stops, halted_preempted, fun _ => deadline_stops, context_saved, context_stays,
    fun hat hask haway hfree => ⟨restore_begins hat hask haway hfree, restore_refused hat hask haway hfree⟩,
    fun _ => restore_ends, stop_recorded, fun _ _ => report_enters, fun _ _ => sample_recorded, State.sample_off⟩

end Sys2Proof.Proofs
end

section
/-!
Units that have an effect on the cell, with and without a register result (R65, R76).
-/

namespace Sys2Proof.Machine

open Sys2Proof.Claims

/-- A result reaches its register whatever the cell holds. -/
theorem State.result_setCell (s : State) (c : Cell) (l d : Nat) (v : Word) :
    (s.setCell c).result l d v = (s.result l d v).setCell c := by
  unfold State.result
  split
  · rfl
  · split <;> rfl

/-- A unit whose checks pass and that changes nothing in the core retires without a register result. -/
theorem settle_retiresPlain {i : Instr} {s e : State} {checks : List Verdict} (he : exec i s = settle i s checks e)
    (hw : i.wellFormed = true) (hc : firstOf checks = .pass) (hcore : e.core = s.core) :
    RetiresPlain i s (e.goto i (following i s)) := by
  refine ⟨retires_of_settle he hw hc (by rw [hcore]), ?_⟩
  have hkeeps := s.goto_keepsCore i (following i s)
  simpa only [KeepsCore, State.goto, State.setCore, hcore] using hkeeps

/-- A unit whose checks pass and whose one change in the core is a result of latency 1. -/
theorem settle_retiresInto {i : Instr} {s e : State} {checks : List Verdict} {d : Nat} {v : Word} (hd : d < 32)
    (he : exec i s = settle i s checks e) (hw : i.wellFormed = true) (hc : firstOf checks = .pass)
    (hcore : e.core = (s.result 1 d v).core) : RetiresInto i s (e.goto i (following i s)) d v := by
  have hwrites : exec i s = .next (e.goto i (following i s)) := by rw [he, settle_pass hw hc, nextPc_eq]; rfl
  obtain ⟨hlands, hkeeps⟩ := s.result_lands 1 v hd
  obtain ⟨honly, -⟩ := s.result_onlyRegisters 1 d v
  have hcore' : (e.goto i (following i s)).core = ((s.result 1 d v).goto i (following i s)).core := by
    simp only [State.goto, State.setCore, hcore]
  refine ⟨⟨hwrites, rfl, rfl, ?_⟩, ?_, fun r hr => ?_, ?_⟩
  · rw [hcore']
    exact s.result_core_pc 1 d v
  · unfold Lands at hlands ⊢
    rw [State.g_congr (s := s.result 1 d v) (by rw [hcore']; rfl),
      State.emptyG_congr (s := s.result 1 d v) (by rw [hcore']; rfl), hcore']
    exact hlands
  · rw [State.g_congr (s := s.result 1 d v) (by rw [hcore']; rfl),
      State.emptyG_congr (s := s.result 1 d v) (by rw [hcore']; rfl)]
    exact hkeeps r hr
  · unfold OnlyRegisters at honly ⊢
    rw [hcore', State.goto, State.setCore]
    dsimp only
    rw [honly]

/-- What a unit with a result leaves outside the core, where it writes the cell. -/
theorem result_setCell_goto (s : State) (c : Cell) (i : Instr) (l d : Nat) (v pc : Word) :
    ((s.setCell c).result l d v).goto i pc =
      { s with core := (((s.setCell c).result l d v).goto i pc).core, cell := c } := by
  obtain ⟨-, hcore⟩ := s.result_onlyRegisters l d v
  rw [State.result_setCell]
  unfold OnlyCore at hcore
  rw [hcore]
  rfl

end Sys2Proof.Machine
end

section
/-!
Tiles (R121, R233), and O25 and O26.
-/

namespace Sys2Proof.Machine

open Sys2Proof.Claims

/-! ### Descriptors and handles -/

theorem Word.bits_eq_field (w : Word) (lo n : Nat) : Word.bits w lo n = field w lo n := rfl

/-- A handle operand has no bits above 7:0 exactly when it is one of the 256. -/
theorem handleOk_of_lt {v : Word} (h : v.toNat < 256) : handleOk v = .pass := by
  have hb : Word.bits v 8 56 = 0 := by
    rw [Word.bits, bits]
    omega
  rw [handleOk, hb]
  rfl

theorem handleOk_of_le {v : Word} (h : 256 ≤ v.toNat) : handleOk v = trapWith Code.tile := by
  have hb : (Word.bits v 8 56 == 0) = false := by
    have hlt := v.isLt
    simp only [Word.bits, bits, beq_eq_false_iff_ne]
    omega
  rw [handleOk, hb]
  rfl

theorem handle_of_lt {v : Word} (h : v.toNat < 256) : handle v = v.toNat := by
  rw [handle, Word.bits, bits]
  omega

/-- STATE replaced, as the statements write it. -/
theorem setBits_tileState (w : Word) {v : Nat} (hv : v < 4) : Word.setBits w 50 2 v = withTileState w v := by
  refine BitVec.eq_of_getLsbD_eq fun i hi => ?_
  have hmask : ∀ j < 64, ((3 : Word) <<< 50).getLsbD j = decide (50 ≤ j ∧ j < 52) := by decide
  rw [Word.getLsbD_setBits _ _ _ (by decide), withTileState, BitVec.getLsbD_or, BitVec.getLsbD_and, BitVec.getLsbD_not,
    hmask i hi, BitVec.getLsbD_shiftLeft, BitVec.getLsbD_ofNat]
  by_cases hin : 50 ≤ i ∧ i < 52
  · obtain ⟨hlo, hhi⟩ := hin
    simp [hlo, hhi, hi, show i - 50 < 64 by omega]
  · have hbig : 50 ≤ i → v.testBit (i - 50) = false := fun hlo =>
      Nat.testBit_lt_two_pow (Nat.lt_of_lt_of_le hv (Nat.pow_le_pow_right (n := 2) (by decide) (by omega : 2 ≤ i - 50)))
    by_cases hlo : 50 ≤ i
    · simp [hin, hi, hbig hlo]
    · simp [hi, hlo]

/-- The conditions of TNEW that its check looks at are those of `Bindable`. -/
theorem tnewCheck_iff (s : State) (d : Word) {h : Nat} (hh : h < 256) :
    (tileStore d < 3 && 0 < tileLen d && tileOff d % 64 = 0 && tileLen d % 64 = 0 &&
      tileOff d + tileLen d ≤ storeSize (tileStore d) && tileState (s.tile h) ≠ 1 && tileState (s.tile h) ≠ 3 &&
      Word.bits d 50 14 = 0) = true ↔ Bindable s h d := by
  simp only [Bool.and_eq_true, decide_eq_true_eq]
  constructor
  · rintro ⟨⟨⟨⟨⟨⟨⟨hstore, hlen⟩, hoff⟩, hwhole⟩, hin⟩, hfill⟩, hdrain⟩, hplain⟩
    exact ⟨hh, hstore, Nat.ne_of_gt hlen, ⟨hoff, hwhole⟩, hin, ⟨hfill, hdrain⟩, hplain⟩
  · rintro ⟨-, hstore, hlen, ⟨hoff, hwhole⟩, hin, ⟨hfill, hdrain⟩, hplain⟩
    exact ⟨⟨⟨⟨⟨⟨⟨hstore, Nat.pos_of_ne_zero hlen⟩, hoff⟩, hwhole⟩, hin⟩, hfill⟩, hdrain⟩, hplain⟩

/-- Registers that can be used, some of them. -/
theorem usable_of_subset {s : State} {rs qs : List Nat} (h : Usable s rs) (hq : qs ⊆ rs) : Usable s qs :=
  fun r hr => h r (hq hr)

/-- Two sources that are ready pass their checks, and so does a source with a destination. -/
theorem scalarChecks_two {s : State} {a b : Nat} (x y : Bool) (h : Usable s [a, b]) :
    firstOf (scalarChecks s [(a, x), (b, y)] []) = .pass := scalarChecks_pass h

theorem scalarChecks_oneDest {s : State} {a d : Nat} (x : Bool) (h : Usable s [a, d]) :
    firstOf (scalarChecks s [(a, x)] [d]) = .pass := scalarChecks_pass h

section
variable {s : State} {a b d : BitVec 5} {x y : Bool}

/-! ### Units with a handle operand (R121) -/

/-- A unit on the handle in g[a] has its effect where its own checks pass. -/
theorem handle_retires {i : Instr} {e : State} {pre own : List Verdict} (hpre : firstOf pre = .pass)
    (he : exec i s = settle i s (pre ++ handleOk (s.g a.toNat) :: own) e) (hw : i.wellFormed = true)
    (hh : (s.g a.toNat).toNat < 256) (ho : firstOf own = .pass) (hcore : e.core = s.core) :
    RetiresPlain i s (e.goto i (following i s)) :=
  settle_retiresPlain he hw (by rw [firstOf_append_of_pass hpre, handleOk_of_lt hh, firstOf_pass, ho]) hcore

/-- It traps with TILE where its handle is out of range, or its own checks say so. -/
theorem handle_faults {i : Instr} {e : State} {pre own : List Verdict} (henters : EntersAtOnce s)
    (hpre : firstOf pre = .pass) (he : exec i s = settle i s (pre ++ handleOk (s.g a.toNat) :: own) e)
    (hw : i.wellFormed = true) (h : (s.g a.toNat).toNat < 256 → firstOf own = trapWith Code.tile) : TrapsWith i s 0x0C := by
  refine settle_traps henters he hw ?_
  rw [firstOf_append_of_pass hpre]
  by_cases hh : (s.g a.toNat).toNat < 256
  · rw [handleOk_of_lt hh, firstOf_pass, h hh]
  · rw [handleOk_of_le (Nat.not_lt.1 hh)]
    rfl

theorem tileCheck_true {ok : Bool} (h : ok = true) : firstOf [tileCheck ok] = .pass := by
  rw [h]
  rfl

theorem tileCheck_false {ok : Bool} (vs : List Verdict) (h : ok = false) : firstOf (tileCheck ok :: vs) = trapWith Code.tile := by
  rw [h]
  rfl

/-! ### The tile instructions -/

theorem execTnew_binds (hu : Usable s [a.toNat, b.toNat]) (hb : Bindable s (s.g b.toNat).toNat (s.g a.toNat)) :
    ∃ t, RetiresPlain (.tnew a b x y) s t ∧ OnlyTiles s t ∧ TileIs s t (s.g b.toNat).toNat (s.g a.toNat) ∧
      DropsReady s t (s.g b.toNat).toNat ∧ t.cell.rings = s.cell.rings := by
  have he := exec_tnew (a := a) (b := b) (x := x) (y := y) s
  rw [execTnew, handle_of_lt hb.handle] at he
  exact ⟨_, handle_retires (scalarChecks_two x y hu) he rfl hb.handle (tileCheck_true ((tnewCheck_iff s _ hb.handle).2 hb)) rfl,
    rfl, fun g => Sparse.get_set .., rfl, rfl⟩

theorem execTnew_faults (hu : Usable s [a.toNat, b.toNat]) (henters : EntersAtOnce s)
    (hb : ¬ Bindable s (s.g b.toNat).toNat (s.g a.toNat)) : TrapsWith (.tnew a b x y) s 0x0C := by
  refine handle_faults henters (scalarChecks_two x y hu) (exec_tnew s) rfl fun hh => tileCheck_false _ ?_
  rw [handle_of_lt hh, Bool.eq_false_iff]
  exact fun h => hb ((tnewCheck_iff s _ hh).1 h)

theorem execTfree_empties (hu : Usable s [a.toNat]) (hh : (s.g a.toNat).toNat < 256) {w : Word}
    (hw : w = Sparse.get s.cell.tiles (s.g a.toNat).toNat) (hlen : field w 24 24 ≠ 0) (hfill : field w 50 2 ≠ 1)
    (hdrain : field w 50 2 ≠ 3) :
    ∃ t, RetiresPlain (.tfree a x) s t ∧ OnlyTiles s t ∧ TileIs s t (s.g a.toNat).toNat (withTileState w 0) ∧
      DropsReady s t (s.g a.toNat).toNat ∧ t.cell.rings = s.cell.rings := by
  have he := exec_tfree (a := a) (x := x) s
  rw [execTfree, handle_of_lt hh, State.tile, ← hw] at he
  have hok : (tileLen w ≠ 0 && tileState w ≠ 1 && tileState w ≠ 3) = true :=
    Bool.and_eq_true_iff.2 ⟨Bool.and_eq_true_iff.2 ⟨decide_eq_true hlen, decide_eq_true hfill⟩, decide_eq_true hdrain⟩
  refine ⟨_, handle_retires (scalarChecks_one x hu) he rfl hh (tileCheck_true hok) rfl, rfl, fun g => ?_, rfl, rfl⟩
  rw [hw, ← setBits_tileState _ (by decide)]
  exact Sparse.get_set ..

theorem execTstate_reads (hu : Usable s [a.toNat, d.toNat]) (hh : (s.g a.toNat).toNat < 256) :
    WritesRegister (.tstate d a x) s 1 d.toNat (Sparse.get s.cell.tiles (s.g a.toNat).toNat)
      (following (.tstate d a x) s) := by
  have he := exec_tstate (d := d) (a := a) (x := x) s
  rw [execTstate, handle_of_lt hh] at he
  refine settle_result_writes d.isLt he rfl ?_
  rw [firstOf_append_of_pass (scalarChecks_oneDest x hu), handleOk_of_lt hh]
  rfl

theorem execTsetrdy_pends (hu : Usable s [a.toNat]) (hh : (s.g a.toNat).toNat < 256) {w : Word}
    (hw : w = Sparse.get s.cell.tiles (s.g a.toNat).toNat) (hlen : field w 24 24 ≠ 0) (hdrain : field w 50 2 ≠ 3) :
    ∃ t, RetiresPlain (.tsetrdy a x) s t ∧ OnlyTiles s t ∧ t.cell.tiles = s.cell.tiles ∧
      PendsReady s t (s.g a.toNat).toNat false ∧ t.cell.rings = s.cell.rings := by
  have he := exec_tsetrdy (a := a) (x := x) s
  rw [execTsetrdy, handle_of_lt hh, State.tile, ← hw] at he
  have hok : (tileLen w ≠ 0 && tileState w ≠ 3) = true :=
    Bool.and_eq_true_iff.2 ⟨decide_eq_true hlen, decide_eq_true hdrain⟩
  exact ⟨_, handle_retires (scalarChecks_one x hu) he rfl hh (tileCheck_true hok) rfl, rfl, rfl, rfl, rfl⟩

/-- The state TWAIT asks for is the low two bits of g[b]. -/
theorem await_tileState (v w : Word) : await (tileState w == Word.bits v 0 2) .tile =
    if field w 50 2 = v.toNat % 4 then .pass else .wait .tile := by
  have hb : Word.bits v 0 2 = v.toNat % 4 := by simp [Word.bits, bits]
  simp only [await, hb, beq_iff_eq]
  rfl

theorem execTwait_waits (hu : Usable s [a.toNat, b.toNat]) (hh : (s.g a.toNat).toNat < 256) {w : Word}
    (hw : w = Sparse.get s.cell.tiles (s.g a.toNat).toNat) (hlen : field w 24 24 ≠ 0) :
    (field w 50 2 = (s.g b.toNat).toNat % 4 → ∃ t, RetiresPlain (.twait a b x y) s t ∧ OnlyCore s t) ∧
      (field w 50 2 ≠ (s.g b.toNat).toNat % 4 → ∃ t, Waits (.twait a b x y) s t .tile) := by
  have he := exec_twait (a := a) (b := b) (x := x) (y := y) s
  have hok : tileCheck (tileLen w ≠ 0) = .pass := require_eq_pass.2 (decide_eq_true hlen)
  rw [execTwait, handle_of_lt hh, State.tile, ← hw, hok, await_tileState] at he
  refine ⟨fun hst => ?_, fun hst => ?_⟩
  · rw [if_pos hst] at he
    exact ⟨_, handle_retires (scalarChecks_two x y hu) he rfl hh rfl rfl, s.goto_onlyCore _ _⟩
  · rw [if_neg hst] at he
    refine settle_waits he rfl ?_
    rw [firstOf_append_of_pass (scalarChecks_two x y hu), handleOk_of_lt hh]
    rfl

end

end Sys2Proof.Machine

namespace Sys2Proof.Proofs

open Sys2Proof.Machine Sys2Proof.Claims

/-- Settles O25, instruction by instruction. -/
theorem tileInstructions : Obligations.TileInstructions := by
  intro s d a b x y h w hu
  have ha : Usable s [a.toNat] := usable_of_subset hu (by simp)
  have hab : Usable s [a.toNat, b.toNat] := usable_of_subset hu (by simp)
  have had : Usable s [a.toNat, d.toNat] := usable_of_subset hu (by simp)
  refine ⟨?_, ?_⟩
  · rintro rfl hb
    exact execTnew_binds hab hb
  · rintro rfl hh hw
    refine ⟨execTfree_empties ha hh hw, ?_, execTsetrdy_pends ha hh hw, fun hlen => (execTwait_waits hab hh hw hlen).1,
      fun hlen => (execTwait_waits hab hh hw hlen).2⟩
    rw [hw]
    exact execTstate_reads had hh

/-- Settles O26: a handle out of range, and each instruction's own check. -/
theorem tileFaults : Obligations.TileFaults := by
  intro s d a b x y w hu henters
  have ha := scalarChecks_one x (usable_of_subset hu (qs := [a.toNat]) (by simp))
  have had := scalarChecks_oneDest x (usable_of_subset hu (qs := [a.toNat, d.toNat]) (by simp))
  have hab : Usable s [a.toNat, b.toNat] := usable_of_subset hu (by simp)
  refine ⟨execTnew_faults hab henters, fun hbig => ?_, fun hh hw => ?_⟩
  · have hno := fun {P : Prop} (hh : (s.g a.toNat).toNat < 256) => (absurd hh (Nat.not_lt.2 hbig) : P)
    exact ⟨handle_faults henters ha (exec_tfree s) rfl hno, handle_faults henters had (exec_tstate s) rfl hno,
      handle_faults henters ha (exec_tsetrdy s) rfl hno,
      handle_faults henters (scalarChecks_two x y hab) (exec_twait s) rfl hno⟩
  · have htile : s.tile (handle (s.g a.toNat)) = w := by rw [handle_of_lt hh, hw, State.tile]
    have hlen : field w 24 24 = tileLen w := rfl
    have hst : field w 50 2 = tileState w := rfl
    rw [hlen, hst]
    refine ⟨fun h => handle_faults henters ha (exec_tfree s) rfl fun _ => tileCheck_false _ ?_,
      fun h => handle_faults henters ha (exec_tsetrdy s) rfl fun _ => tileCheck_false _ ?_,
      fun h => handle_faults henters (scalarChecks_two x y hab) (exec_twait s) rfl fun _ => tileCheck_false _ ?_⟩
    · rw [htile]
      rcases h with h | h | h <;> simp [h]
    · rw [htile]
      rcases h with h | h <;> simp [h]
    · rw [htile]
      simp [h]

end Sys2Proof.Proofs
end

section
/-!
Rings (R122, R233), and O27.
-/

namespace Sys2Proof.Machine

open Sys2Proof.Claims

/-- A unit whose checks pass, with a result of latency 1 and the cell left as `c`. -/
theorem settle_retiresInto_setCell {i : Instr} {s : State} {c : Cell} {checks : List Verdict} {d : Nat} {v : Word}
    (hd : d < 32) (he : exec i s = settle i s checks ((s.setCell c).result 1 d v)) (hw : i.wellFormed = true)
    (hc : firstOf checks = .pass) : ∃ t, RetiresInto i s t d v ∧ t = { s with core := t.core, cell := c } :=
  ⟨_, settle_retiresInto hd he hw hc (by rw [State.result_setCell]; rfl), result_setCell_goto ..⟩

/-- An entry of a table of n replaced. -/
theorem Vector.getElem?_setIfInBounds_of_lt {α : Type} {k n : Nat} (xs : Vector α k) (x : α) (hn : n < k) (m : Nat) :
    (xs.setIfInBounds n x)[m]? = if m = n then some x else xs[m]? := by
  simp only [Vector.getElem?_setIfInBounds, if_pos hn, eq_comm (a := n)]

section
variable {s : State} {d n b : BitVec 5} {r : Ring}

theorem ring_eq (hr : s.cell.rings[n.toNat]? = some r) : s.ring n.toNat = r := by
  rw [State.ring, hr]
  rfl

/-! ### Waiting for a tile of a ring -/

/-- The checks of a unit that waits for a ring's tile. -/
theorem ringChecks_eq (hu : Usable s [d.toNat]) (ok : Bool) (h st : Nat) :
    firstOf (scalarChecks s [] [d.toNat] ++ [ringCheck ok, ringWait s h st]) =
      if ok = true then (if field (Sparse.get s.cell.tiles h) 50 2 = st then .pass else .wait .ringWait)
      else trapWith Code.ring := by
  have hwait : firstOf [ringWait s h st] = if field (Sparse.get s.cell.tiles h) 50 2 = st then .pass else .wait .ringWait := by
    simp only [ringWait, await, beq_iff_eq]
    change firstOf [if field (Sparse.get s.cell.tiles h) 50 2 = st then Verdict.pass else .wait .ringWait] = _
    split <;> rfl
  rw [firstOf_append_of_pass (scalarChecks_dest hu)]
  cases ok with
  | false => rfl
  | true =>
    rw [if_pos rfl, ← hwait]
    rfl

theorem ringChecks_pass (hu : Usable s [d.toNat]) {h st : Nat} (hr : r.set = true)
    (hst : field (Sparse.get s.cell.tiles h) 50 2 = st) :
    firstOf (scalarChecks s [] [d.toNat] ++ [ringCheck r.set, ringWait s h st]) = .pass := by
  rw [ringChecks_eq hu, if_pos hr, if_pos hst]

theorem ringChecks_wait (hu : Usable s [d.toNat]) {h st : Nat} (hr : r.set = true)
    (hst : field (Sparse.get s.cell.tiles h) 50 2 ≠ st) :
    firstOf (scalarChecks s [] [d.toNat] ++ [ringCheck r.set, ringWait s h st]) = .wait .ringWait := by
  rw [ringChecks_eq hu, if_pos hr, if_neg hst]

theorem ringChecks_trap (hu : Usable s [d.toNat]) {h st : Nat} (hr : r.set = false) :
    firstOf (scalarChecks s [] [d.toNat] ++ [ringCheck r.set, ringWait s h st]) = trapWith Code.ring := by
  rw [ringChecks_eq hu, hr, if_neg Bool.false_ne_true]

/-! ### The ring instructions on a ring, with the sides of RCLAIM and RRELEASE told apart -/

theorem exec_rwfill_of (hr : s.cell.rings[n.toNat]? = some r) : exec (.rwfill d n) s =
    settle (.rwfill d n) s (scalarChecks s [] [d.toNat] ++ [ringCheck r.set, ringWait s (r.base + r.head) 2])
      (s.result 1 d.toNat (BitVec.ofNat 64 (r.base + r.head))) := by
  rw [exec_rwfill, execRwfill, ring_eq hr]
  rfl

theorem exec_rwfree_of (hr : s.cell.rings[n.toNat]? = some r) : exec (.rwfree d n) s =
    settle (.rwfree d n) s (scalarChecks s [] [d.toNat] ++ [ringCheck r.set, ringWait s (r.base + r.tail) 0])
      (s.result 1 d.toNat (BitVec.ofNat 64 (r.base + r.tail))) := by
  rw [exec_rwfree, execRwfree, ring_eq hr]
  rfl

/-- The cell after a consumer's, and after a producer's, claim. -/
def Cell.consumed (c : Cell) (n : Nat) (r : Ring) : Cell :=
  { (c.dropReady (r.base + r.head)).setTileState (r.base + r.head) 3 with
    rings := c.rings.setIfInBounds n { r with head := (r.head + 1) % r.count, cclaim := r.cclaim + 1 } }

def Cell.produced (c : Cell) (n : Nat) (r : Ring) : Cell :=
  { c.setTileState (r.base + r.tail) 1 with
    rings := c.rings.setIfInBounds n { r with tail := (r.tail + 1) % r.count, pclaim := r.pclaim + 1 } }

theorem exec_rclaim_consumer (hr : s.cell.rings[n.toNat]? = some r) : exec (.rclaim d n 0) s =
    settle (.rclaim d n 0) s (scalarChecks s [] [d.toNat] ++ [ringCheck r.set, ringWait s (r.base + r.head) 2])
      ((s.setCell (s.cell.consumed n.toNat r)).result 1 d.toNat (BitVec.ofNat 64 (r.base + r.head))) := by
  rw [exec_rclaim, ← ring_eq hr]
  rfl

theorem exec_rclaim_producer (hr : s.cell.rings[n.toNat]? = some r) : exec (.rclaim d n 1) s =
    settle (.rclaim d n 1) s (scalarChecks s [] [d.toNat] ++ [ringCheck r.set, ringWait s (r.base + r.tail) 0])
      ((s.setCell (s.cell.produced n.toNat r)).result 1 d.toNat (BitVec.ofNat 64 (r.base + r.tail))) := by
  rw [exec_rclaim, ← ring_eq hr]
  rfl

theorem exec_rrelease_consumer (hr : s.cell.rings[n.toNat]? = some r) : exec (.rrelease n 0) s =
    settle (.rrelease n 0) s [ringCheck (r.cclaim ≠ 0)]
      ((s.setCell (s.cell.setTileState (r.base + (r.head + r.count * r.cclaim - r.cclaim) % r.count) 0)).setRing n.toNat
        { r with cclaim := r.cclaim - 1 }) := by
  rw [exec_rrelease, ← ring_eq hr]
  rfl

theorem exec_rrelease_producer (hr : s.cell.rings[n.toNat]? = some r) : exec (.rrelease n 1) s =
    settle (.rrelease n 1) s [ringCheck (r.pclaim ≠ 0)]
      ((s.pendReady (r.base + (r.tail + r.count * r.pclaim - r.pclaim) % r.count) true).setRing n.toNat
        { r with pclaim := r.pclaim - 1 }) := by
  rw [exec_rrelease, ← ring_eq hr]
  rfl

/-! ### Setting a ring, and claims -/

theorem execRgset_sets {y : Bool} (hn : n.toNat < 16) (hr : s.cell.rings[n.toNat]? = some r) (hu : Usable s [b.toNat])
    (hcount : field (s.g b.toNat) 8 8 ≠ 0) (hfit : field (s.g b.toNat) 0 8 + field (s.g b.toNat) 8 8 ≤ 256)
    (hplain : (s.g b.toNat).toNat < 2 ^ 16) (hp : r.pclaim = 0) (hc : r.cclaim = 0) :
    ∃ t, RetiresPlain (.rgset n b y) s t ∧ OnlyTiles s t ∧ t.cell.tiles = s.cell.tiles ∧ t.cell.ready = s.cell.ready ∧
      RingIs s t n.toNat { set := true, base := field (s.g b.toNat) 0 8, count := field (s.g b.toNat) 8 8, head := 0
                           tail := 0, pclaim := 0, cclaim := 0 } := by
  have hzero : Word.bits (s.g b.toNat) 16 48 = 0 := by rw [Word.bits, bits, Nat.div_eq_of_lt hplain, Nat.zero_mod]
  have he := exec_rgset (n := n) (b := b) (y := y) s
  rw [execRgset, ring_eq hr, hzero, hp, hc] at he
  refine ⟨_, settle_retiresPlain he (decide_eq_true hn) ?_ rfl, rfl, rfl, rfl,
    fun m _ => Vector.getElem?_setIfInBounds_of_lt _ _ hn m⟩
  rw [firstOf_append_of_pass (scalarChecks_one y hu)]
  refine firstOf_cons.2 ⟨require_eq_pass.2 ?_, rfl⟩
  simp [Word.bits_eq_field, hcount, hfit]

theorem execRclaim_consumes (hn : n.toNat < 16) (hr : s.cell.rings[n.toNat]? = some r) (hu : Usable s [d.toNat])
    (hset : r.set = true) {hd : Word} (hhd : hd = Sparse.get s.cell.tiles (r.base + r.head)) (hst : field hd 50 2 = 2) :
    ∃ t, RetiresInto (.rclaim d n 0) s t d.toNat (BitVec.ofNat 64 (r.base + r.head)) ∧ OnlyTiles s t ∧
      TileIs s t (r.base + r.head) (withTileState hd 3) ∧ DropsReady s t (r.base + r.head) ∧
      RingIs s t n.toNat { r with head := (r.head + 1) % r.count, cclaim := r.cclaim + 1 } := by
  have hw : (Instr.rclaim d n 0).wellFormed = true := by simp [Instr.wellFormed, hn]
  obtain ⟨t, hinto, ht⟩ := settle_retiresInto_setCell d.isLt (exec_rclaim_consumer hr) hw
    (ringChecks_pass hu hset (by rw [← hhd, hst]))
  refine ⟨t, hinto, ?_⟩
  generalize t.core = k at ht
  subst ht
  refine ⟨rfl, fun g => ?_, rfl, fun m _ => Vector.getElem?_setIfInBounds_of_lt _ _ hn m⟩
  rw [hhd, ← setBits_tileState _ (by decide)]
  exact Sparse.get_set ..

theorem execRclaim_produces (hn : n.toNat < 16) (hr : s.cell.rings[n.toNat]? = some r) (hu : Usable s [d.toNat])
    (hset : r.set = true) {tl : Word} (htl : tl = Sparse.get s.cell.tiles (r.base + r.tail)) (hst : field tl 50 2 = 0) :
    ∃ t, RetiresInto (.rclaim d n 1) s t d.toNat (BitVec.ofNat 64 (r.base + r.tail)) ∧ OnlyTiles s t ∧
      TileIs s t (r.base + r.tail) (withTileState tl 1) ∧ t.cell.ready = s.cell.ready ∧
      RingIs s t n.toNat { r with tail := (r.tail + 1) % r.count, pclaim := r.pclaim + 1 } := by
  have hw : (Instr.rclaim d n 1).wellFormed = true := by simp [Instr.wellFormed, hn]
  obtain ⟨t, hinto, ht⟩ := settle_retiresInto_setCell d.isLt (exec_rclaim_producer hr) hw
    (ringChecks_pass hu hset (by rw [← htl, hst]))
  refine ⟨t, hinto, ?_⟩
  generalize t.core = k at ht
  subst ht
  refine ⟨rfl, fun g => ?_, rfl, fun m _ => Vector.getElem?_setIfInBounds_of_lt _ _ hn m⟩
  rw [htl, ← setBits_tileState _ (by decide)]
  exact Sparse.get_set ..

/-! ### Releases -/

/-- The slot of the oldest of p claims before a pointer of a ring of c. -/
theorem oldestClaim_mod {t c p : Nat} (hp : 0 < p) (hc : p ≤ c) : (t + c * p - p) % c = (t + c - p) % c := by
  obtain ⟨q, rfl⟩ : ∃ q, p = q + 1 := ⟨p - 1, by omega⟩
  have hsplit : t + c * (q + 1) - (q + 1) = t + c - (q + 1) + c * q := by
    rw [Nat.mul_succ]
    omega
  rw [hsplit, Nat.add_mul_mod_self_left]

theorem execRrelease_readies (hn : n.toNat < 16) (hr : s.cell.rings[n.toNat]? = some r) (hp : 0 < r.pclaim)
    (hc : r.pclaim ≤ r.count) :
    ∃ t, RetiresPlain (.rrelease n 1) s t ∧ OnlyTiles s t ∧ t.cell.tiles = s.cell.tiles ∧
      PendsReady s t (r.base + (r.tail + r.count - r.pclaim) % r.count) true ∧
      RingIs s t n.toNat { r with pclaim := r.pclaim - 1 } := by
  have hw : (Instr.rrelease n 1).wellFormed = true := by simp [Instr.wellFormed, hn]
  have he := exec_rrelease_producer hr
  rw [oldestClaim_mod hp hc] at he
  have hok : firstOf [ringCheck (r.pclaim ≠ 0)] = .pass := by
    rw [decide_eq_true (Nat.ne_of_gt hp)]
    rfl
  exact ⟨_, settle_retiresPlain he hw hok rfl, rfl, rfl, rfl, fun m _ => Vector.getElem?_setIfInBounds_of_lt _ _ hn m⟩

theorem execRrelease_empties (hn : n.toNat < 16) (hr : s.cell.rings[n.toNat]? = some r) (hp : 0 < r.cclaim)
    (hc : r.cclaim ≤ r.count) {h : Nat} (hh : h = r.base + (r.head + r.count - r.cclaim) % r.count) :
    ∃ t, RetiresPlain (.rrelease n 0) s t ∧ OnlyTiles s t ∧
      TileIs s t h (withTileState (Sparse.get s.cell.tiles h) 0) ∧ t.cell.ready = s.cell.ready ∧
      RingIs s t n.toNat { r with cclaim := r.cclaim - 1 } := by
  have hw : (Instr.rrelease n 0).wellFormed = true := by simp [Instr.wellFormed, hn]
  have he := exec_rrelease_consumer hr
  rw [oldestClaim_mod hp hc, ← hh] at he
  have hok : firstOf [ringCheck (r.cclaim ≠ 0)] = .pass := by
    rw [decide_eq_true (Nat.ne_of_gt hp)]
    rfl
  refine ⟨_, settle_retiresPlain he hw hok rfl, rfl, fun g => ?_, rfl,
    fun m _ => Vector.getElem?_setIfInBounds_of_lt _ _ hn m⟩
  rw [← setBits_tileState _ (by decide)]
  exact Sparse.get_set ..

theorem ringInstructions : RingInstructions := by
  intro s d n b y r hn hr hu
  have hb : Usable s [b.toNat] := usable_of_subset hu (by simp)
  have hd : Usable s [d.toNat] := usable_of_subset hu (by simp)
  have hwn : decide (n.toNat < 16) = true := decide_eq_true hn
  have hw0 : (Instr.rclaim d n 0).wellFormed = true := by simp [Instr.wellFormed, hn]
  have hw1 : (Instr.rclaim d n 1).wellFormed = true := by simp [Instr.wellFormed, hn]
  refine ⟨execRgset_sets hn hr hb, fun hset h t hh ht => ⟨fun hst => ⟨?_, execRclaim_consumes hn hr hd hset hh hst⟩,
    fun hst => ?_, fun hst => ⟨?_, execRclaim_produces hn hr hd hset ht hst⟩, fun hst => ?_⟩⟩
  · exact settle_result_writes d.isLt (exec_rwfill_of hr) hwn (ringChecks_pass hd hset (by rw [← hh, hst]))
  · have hwait := ringChecks_wait hd hset (by rwa [← hh])
    exact ⟨settle_waits (exec_rwfill_of hr) hwn hwait, settle_waits (exec_rclaim_consumer hr) hw0 hwait⟩
  · exact settle_result_writes d.isLt (exec_rwfree_of hr) hwn (ringChecks_pass hd hset (by rw [← ht, hst]))
  · have hwait := ringChecks_wait hd hset (by rwa [← ht])
    exact ⟨settle_waits (exec_rwfree_of hr) hwn hwait, settle_waits (exec_rclaim_producer hr) hw1 hwait⟩

theorem ringRelease : RingRelease := by
  intro s d n r hn hr
  have hwn : decide (n.toNat < 16) = true := decide_eq_true hn
  have hw : ∀ p : BitVec 5, p.toNat < 2 →
      (Instr.rclaim d n p).wellFormed = true ∧ (Instr.rrelease n p).wellFormed = true := by
    intro p hp
    simp [Instr.wellFormed, hn, hp]
  obtain ⟨hclaim0, hrelease0⟩ := hw 0 (by decide)
  obtain ⟨hclaim1, hrelease1⟩ := hw 1 (by decide)
  refine ⟨fun hp hc _ => execRrelease_readies hn hr hp hc, fun hp hc _ h => execRrelease_empties hn hr hp hc,
    fun henters => ⟨fun hp => ?_, fun hp => ?_⟩, fun henters hd hset => ?_⟩
  · exact settle_traps henters (exec_rrelease_producer hr) hrelease1 (by rw [hp]; rfl)
  · exact settle_traps henters (exec_rrelease_consumer hr) hrelease0 (by rw [hp]; rfl)
  · exact ⟨settle_traps henters (exec_rwfill_of hr) hwn (ringChecks_trap hd hset),
      settle_traps henters (exec_rwfree_of hr) hwn (ringChecks_trap hd hset),
      settle_traps henters (exec_rclaim_consumer hr) hclaim0 (ringChecks_trap hd hset),
      settle_traps henters (exec_rclaim_producer hr) hclaim1 (ringChecks_trap hd hset)⟩

end

end Sys2Proof.Machine

namespace Sys2Proof.Proofs

open Sys2Proof.Machine Sys2Proof.Claims

/-- Settles O27: the instructions on a ring, and the release of its slots. -/
theorem rings : Obligations.Rings := ⟨ringInstructions, ringRelease⟩

end Sys2Proof.Proofs
end

section
/-!
Allocators (R123, R206, R236), and O28.
-/

namespace Sys2Proof.Machine

open Sys2Proof.Claims

section
variable {s : State} {d p b : BitVec 5} {y : Bool} {a : Alloc}

theorem alloc_eq (ha : s.cell.allocs[p.toNat]? = some a) : s.alloc p.toNat = a := by
  rw [State.alloc, ha]
  rfl

/-! ### Checks, and what they lead to -/

theorem allocCheck_true {ok : Bool} {st size : Nat} (h : ok = true) : firstOf [allocCheck ok st size a] = .pass := by
  rw [h]
  rfl

/-- The allocator st is replaced by the unit that retires. -/
theorem setAlloc_takes {i : Instr} {pre : List Verdict} {ok : Bool} {size : Nat} {a' : Alloc} (hp : p.toNat < 3)
    (hpre : firstOf pre = .pass)
    (he : exec i s = settle i s (pre ++ [allocCheck ok p.toNat size a]) (s.setAlloc p.toNat a')) (hw : i.wellFormed = true)
    (hok : ok = true) : ∃ t, RetiresPlain i s t ∧ OnlyAllocs s t ∧ AllocIs s t p.toNat a' :=
  ⟨_, settle_retiresPlain he hw (firstOf_append.2 ⟨hpre, allocCheck_true hok⟩) rfl, rfl,
    fun m _ => Vector.getElem?_setIfInBounds_of_lt _ _ hp m⟩

/-- The same with a register result. -/
theorem setAlloc_takesInto {i : Instr} {pre : List Verdict} {ok : Bool} {size : Nat} {a' : Alloc} {v : Word}
    (hp : p.toNat < 3) (hpre : firstOf pre = .pass)
    (he : exec i s = settle i s (pre ++ [allocCheck ok p.toNat size a]) ((s.setAlloc p.toNat a').result 1 d.toNat v))
    (hw : i.wellFormed = true) (hok : ok = true) :
    ∃ t, RetiresInto i s t d.toNat v ∧ OnlyAllocs s t ∧ AllocIs s t p.toNat a' := by
  obtain ⟨t, hinto, ht⟩ := settle_retiresInto_setCell d.isLt he hw (firstOf_append.2 ⟨hpre, allocCheck_true hok⟩)
  refine ⟨t, hinto, ?_⟩
  generalize t.core = k at ht
  subst ht
  exact ⟨rfl, fun m _ => Vector.getElem?_setIfInBounds_of_lt _ _ hp m⟩

/-- A request that fails its check traps with EXHAUST and its frame. -/
theorem allocCheck_exhausts {i : Instr} {e : State} {pre : List Verdict} {ok : Bool} {size : Nat} (henters : EntersAtOnce s)
    (hpre : firstOf pre = .pass) (he : exec i s = settle i s (pre ++ [allocCheck ok p.toNat size a]) e)
    (hw : i.wellFormed = true) (hok : ok = false) : Exhausts i s p.toNat size a := by
  refine ⟨_, ?_, State.syncTrap_enters henters _ _⟩
  rw [he, settle, settleTo, legal_eq_pass.2 hw, firstOf_pass, firstOf_append_of_pass hpre, hok]
  rfl

/-! ### ARING -/

/-- Where ARING places a request, and what it wastes. -/
theorem Alloc.place_eq (a : Alloc) (size n : Nat) :
    a.place size n = (if size < a.rhead + n then a.rbase else a.rhead, if size < a.rhead + n then size - a.rhead else 0) := by
  unfold Alloc.place
  split <;> rfl

theorem exec_aring_zero (ha : s.cell.allocs[p.toNat]? = some a) (hn : round64 (s.g b.toNat).toNat = 0) :
    exec (.aring d p b y) s = settle (.aring d p b y) s (scalarChecks s [(b.toNat, y)] [d.toNat])
      (s.result 1 d.toNat (BitVec.ofNat 64 a.rhead)) := by
  rw [exec_aring, execAring, alloc_eq ha, if_pos hn]

/-- ARING of a request that is not empty. -/
theorem exec_aring_some {n at' waste : Nat} (ha : s.cell.allocs[p.toNat]? = some a)
    (hn : n = round64 (s.g b.toNat).toNat) (hn0 : n ≠ 0)
    (hat : at' = if storeSize p.toNat < a.rhead + n then a.rbase else a.rhead)
    (hwaste : waste = if storeSize p.toNat < a.rhead + n then storeSize p.toNat - a.rhead else 0) :
    exec (.aring d p b y) s = settle (.aring d p b y) s (scalarChecks s [(b.toNat, y)] [d.toNat] ++
        [allocCheck (n ≤ storeSize p.toNat - a.rbase && a.rlive + waste + n ≤ storeSize p.toNat - a.rbase) p.toNat n a])
      ((s.setAlloc p.toNat { a with
        rlive := a.rlive + waste + n, rhead := if at' + n = storeSize p.toNat then a.rbase else at' + n }).result 1 d.toNat
          (BitVec.ofNat 64 at')) := by
  rw [exec_aring, execAring, alloc_eq ha, ← hn, if_neg hn0, Alloc.place_eq, ← hat, ← hwaste]

/-- ASTATE's words, by number. -/
theorem exec_astate_of {w : BitVec 5} {v : Nat} (ha : s.cell.allocs[p.toNat]? = some a)
    (hv : (w.toNat, v) ∈ [(0, a.bump), (1, a.rbase), (2, a.rhead), (3, a.rtail), (4, a.rlive)]) :
    w.toNat < 5 ∧ exec (.astate d p w) s =
      settle (.astate d p w) s (scalarChecks s [] [d.toNat]) (s.result 1 d.toNat (BitVec.ofNat 64 v)) := by
  have he := exec_astate (d := d) (s1 := p) (w := w) s
  rw [execAstate, alloc_eq ha] at he
  simp only [List.mem_cons, List.not_mem_nil, or_false, Prod.mk.injEq] at hv
  rcases hv with ⟨hw, rfl⟩ | ⟨hw, rfl⟩ | ⟨hw, rfl⟩ | ⟨hw, rfl⟩ | ⟨hw, rfl⟩ <;> rw [hw] at he <;> exact ⟨by omega, he⟩

theorem allocatorInstructions : AllocatorInstructions := by
  intro s d p b y a size n hp ha hu hsize hn
  have hw : decide (p.toNat < 3) = true := decide_eq_true hp
  have hb := scalarChecks_one y (usable_of_subset hu (qs := [b.toNat]) (by simp))
  have hd := scalarChecks_dest (usable_of_subset hu (qs := [d.toNat]) (by simp))
  have hbd := scalarChecks_oneDest y hu
  have hround : round64 (s.g b.toNat).toNat = n := hn.symm
  subst hsize
  refine ⟨fun hfit => ?_, ?_, fun hle hmod => ?_, fun hzero => ?_, fun hn0 at' waste hat hwaste hle hfit => ?_,
    fun x e hx he hlo hhi hmod hle => ?_, fun w v hv => ?_⟩
  · have he := exec_abump (d := d) (s1 := p) (b := b) (y := y) s
    rw [execAbump, alloc_eq ha, hround] at he
    exact setAlloc_takesInto hp hbd he hw (decide_eq_true hfit)
  · have he := exec_amark (d := d) (s1 := p) s
    rw [execAmark, alloc_eq ha] at he
    exact settle_result_writes d.isLt he hw hd
  · have he := exec_arelmark (s1 := p) (b := b) (y := y) s
    rw [execArelmark, alloc_eq ha] at he
    exact setAlloc_takes hp hb he hw (by simp [hle, hmod])
  · exact settle_result_writes d.isLt (exec_aring_zero ha (hround.trans hzero)) hw hbd
  · exact setAlloc_takesInto hp hbd (exec_aring_some ha hround.symm hn0 hat hwaste) hw (by simp [hle, hfit])
  · have hexec := exec_afree (s1 := p) (b := b) (y := y) s
    rw [execAfree, alloc_eq ha, ← hx, ← he] at hexec
    exact setAlloc_takes hp hb hexec hw (by simp [hlo, hhi, hmod, hle])
  · obtain ⟨hlt, he⟩ := exec_astate_of (d := d) ha hv
    exact settle_result_writes d.isLt he (by simp [Instr.wellFormed, hp, hlt]) hd

theorem allocatorExhausts : AllocatorExhausts := by
  intro s d p b y a size n hp ha hu henters hsize hn
  have hw : decide (p.toNat < 3) = true := decide_eq_true hp
  have hb := scalarChecks_one y (usable_of_subset hu (qs := [b.toNat]) (by simp))
  have hbd := scalarChecks_oneDest y hu
  have hround : round64 (s.g b.toNat).toNat = n := hn.symm
  subst hsize
  refine ⟨fun hfull => ?_, fun hbad => ?_, fun hn0 hfull => ?_, fun hbad => ?_⟩
  · have he := exec_abump (d := d) (s1 := p) (b := b) (y := y) s
    rw [execAbump, alloc_eq ha, hround] at he
    exact allocCheck_exhausts henters hbd he hw (decide_eq_false (Nat.not_le.2 hfull))
  · have he := exec_arelmark (s1 := p) (b := b) (y := y) s
    rw [execArelmark, alloc_eq ha] at he
    exact allocCheck_exhausts henters hb he hw (by rcases hbad with h | h <;> simp [h])
  · exact allocCheck_exhausts henters hbd (exec_aring_some ha hround.symm hn0 rfl rfl) hw
      (by rcases hfull with h | h <;> simp [Nat.not_le.2 h])
  · have he := exec_afree (s1 := p) (b := b) (y := y) s
    rw [execAfree, alloc_eq ha] at he
    exact allocCheck_exhausts henters hb he hw (by rcases hbad with h | h | h <;> simp [Nat.not_le.2, Nat.not_lt.2, h])

end

end Sys2Proof.Machine

namespace Sys2Proof.Proofs

open Sys2Proof.Machine Sys2Proof.Claims

/-- Settles O28: the allocator's change, or EXHAUST where its check fails. -/
theorem allocators : Obligations.Allocators := ⟨allocatorInstructions, allocatorExhausts⟩

end Sys2Proof.Proofs
end

section
/-!
Fences and barriers (R126, R127, R259), and O30 and O31.
-/

namespace Sys2Proof.Machine

open Sys2Proof.Claims

/-! ### The checks of an access whose operands are ready (R103) -/

theorem firstOf_insert_pass (vs ws : List Verdict) : firstOf (vs ++ .pass :: ws) = firstOf (vs ++ ws) := by
  induction vs with
  | nil => rfl
  | cons v vs ih =>
    cases v with
    | pass => exact ih
    | _ => rfl

/-- With its operands ready an access looks for an earlier acquire first, then at its address, then at its own checks. -/
theorem memChecks_of_ready {s : State} {srcs : List Source} {dst : List Nat} {steps own : List Verdict}
    (hs : ∀ p ∈ srcs, ∀ l ∈ p.1, s.emptyLoc l = false ∧ s.lateLoc l = false)
    (hd : ∀ l ∈ dst, s.emptyLoc l = false ∧ s.lateLoc l = false) :
    firstOf (memChecks s [] srcs dst steps own) = firstOf (acquireWait s :: (steps ++ own)) := by
  have hall : ∀ l ∈ (srcs.map Prod.fst).flatten, s.emptyLoc l = false ∧ s.lateLoc l = false := by
    intro l hl
    obtain ⟨ls, hls, hl⟩ := List.mem_flatten.1 hl
    obtain ⟨p, hp, rfl⟩ := List.mem_map.1 hls
    exact hs p hp l hl
  have hread : firstOf (srcs.map (emptyReadTrap s)) = .pass := by
    refine firstOf_eq_pass.2 fun v hv => ?_
    obtain ⟨p, hp, rfl⟩ := List.mem_map.1 hv
    exact emptyReadTrap_pass fun l hl => (hs p hp l hl).1
  have hfull : awaitFull s ((srcs.map Prod.fst).flatten ++ dst) = .pass :=
    awaitFull_eq_pass.2 fun l hl => (List.mem_append.1 hl).elim (fun hl => (hall l hl).1) fun hl => (hd l hl).1
  have hlate : lateRead s (srcs.map Prod.fst).flatten = .pass := lateRead_eq_pass.2 fun l hl => (hall l hl).2
  have hwrite : lateWrite s dst = .pass := lateWrite_eq_pass.2 fun l hl => (hd l hl).2
  simp only [memChecks, hfull, hlate, hwrite, ite_self, List.nil_append, List.append_assoc]
  rw [firstOf_append_of_pass hread]
  exact firstOf_insert_pass (acquireWait s :: steps) own

/-- The address registers of an operand of format M, and d. -/
theorem operands_ready {s : State} {m : MemArg} {d r : Nat} (hu : Usable s (operandRegs m d))
    (hr : r ∈ MemArg.sources m ∨ r ∈ MemArg.dests m ∨ r = d) :
    s.emptyLoc (gLoc r) = false ∧ s.lateLoc (gLoc r) = false := by
  rw [State.emptyLoc_gLoc, State.lateLoc_gLoc]
  refine hu r ?_
  have hindex : MemArg.index m = m.off.toNat % 32 := by simp [MemArg.index, bits]
  simp only [MemArg.sources, MemArg.dests, hindex] at hr
  simp only [operandRegs, List.mem_append, List.mem_cons, List.not_mem_nil, or_false]
  rcases hr with hr | hr | hr
  · split at hr
    · next hm => simpa [hm, or_assoc, or_comm, or_left_comm] using Or.inl hr
    · exact .inl (.inl (List.mem_singleton.1 hr))
  · split at hr
    · exact .inl (.inl (List.mem_singleton.1 hr))
    · cases hr
  · exact .inl (.inr hr)

/-- The checks of a scalar store to the weight store whose operands are ready and whose bytes lie in it. -/
theorem storeChecks_of_ready {s : State} {m : MemArg} {d n : Nat} {o : Option Ord} {va : Word}
    (hu : Usable s (operandRegs m d)) (hal : va.toNat % n = 0) (hin : va.toNat + n ≤ 0x200000) :
    firstOf (memChecks s [] [((MemArg.sources m).map gLoc, false), ([gLoc d], false)] ((MemArg.dests m).map gLoc)
      [aligned va n, storeCheck 0 va n] [writeWait s o]) = firstOf [acquireWait s, writeWait s o] := by
  have hbounds : storeBounds 0 va n = true := decide_eq_true hin
  rw [memChecks_of_ready ?_ ?_, aligned, if_pos hal, storeCheck, if_pos hbounds]
  · exact (firstOf_insert_pass [acquireWait s] [.pass, writeWait s o]).trans (firstOf_insert_pass [acquireWait s] [writeWait s o])
  · rintro p hp l hl
    simp only [List.mem_cons, List.not_mem_nil, or_false] at hp
    rcases hp with rfl | rfl
    · obtain ⟨r, hr, rfl⟩ := List.mem_map.1 hl
      exact operands_ready hu (.inl hr)
    · rw [List.mem_singleton.1 hl]
      exact operands_ready hu (.inr (.inr rfl))
  · intro l hl
    obtain ⟨r, hr, rfl⟩ := List.mem_map.1 hl
    exact operands_ready hu (.inr (.inl hr))

/-- A scalar store is refused the store before a fence's accesses have been performed, and it already is where an acquire is
outstanding. -/
theorem scalarStore_waits {i : Instr} {s : State} {n d : Nat} {m : MemArg} {o : Option Ord}
    (hi : scalarStore i = some (n, d, m, o)) (hw : i.wellFormed = true) (hsp : m.sp ≠ 3) (hu : Usable s (operandRegs m d))
    (hal : (s.address m (scaleOf n)).toNat % n = 0) (hin : (s.address m (scaleOf n)).toNat + n ≤ 0x200000)
    (hf : s.fencesOpen = false) : ∃ t, Waits i s t .orderWait := by
  have hwait : firstOf [acquireWait s, writeWait s o] = .wait .orderWait := by
    rw [writeWait, hf, acquireWait, await]
    split <;> rfl
  have hsp0 : m.okScalar = true → m.sp.toNat = 0 := by
    intro hok
    simp only [MemArg.okScalar, Bool.and_eq_true, Bool.or_eq_true, beq_iff_eq, hsp, or_false] at hok
    rw [hok.1.2]
    rfl
  unfold scalarStore at hi
  split at hi
  · next d m o =>
    cases hi
    have he := exec_st (d := d) (m := m) (od := o) s
    rw [execSt, execStore, if_pos hsp, hsp0 (Bool.and_eq_true_iff.1 hw).1] at he
    exact settle_waits he hw ((storeChecks_of_ready hu hal hin).trans hwait)
  · next d m o =>
    cases hi
    have he := exec_stw (d := d) (m := m) (od := o) s
    rw [execStw, execStore, if_pos hsp, hsp0 (Bool.and_eq_true_iff.1 hw).1] at he
    exact settle_waits he hw ((storeChecks_of_ready hu hal hin).trans hwait)
  · cases hi

/-! ### The acquire side of an order (R259) -/

section
variable {s : State} {od : Option Ord}

/-- The acquire side of an order marks accesses, and changes nothing else. -/
theorem State.acquireSide_same (s : State) (od : Option Ord) :
    s.acquireSide od = { s with sys := (s.acquireSide od).sys, fab := (s.acquireSide od).fab } := by
  unfold State.acquireSide
  split <;> rfl

/-- A state whose accesses are those of `s` as its acquire side marks them. -/
theorem acquireSide_of {t u : State} (hsys : u.sys = s.sys) (hfab : u.fab = s.fab) (ht : t.sys = (u.acquireSide od).sys)
    (ht' : t.fab = (u.acquireSide od).fab) : AcquireSide s t od := by
  unfold AcquireSide
  unfold State.acquireSide at ht ht'
  split
  · next ha =>
    rw [if_pos ha, State.acquireAll] at ht ht'
    rw [ht, ht', hsys, hfab]
    exact ⟨rfl, rfl, rfl, rfl, rfl⟩
  · next ha =>
    rw [if_neg ha] at ht ht'
    exact ⟨ht.trans hsys, ht'.trans hfab⟩

/-! ### What has been performed, after an acquire's marks -/

/-- An access, and an answer, as an acquire marks them. -/
def Req.asAcquired (r : Req) : Req := if r.queue = 15 && r.op.reads then { r with acq := true } else r
def Reply.asAcquired (r : Reply) : Reply := if r.queue = 15 then { r with acq := true } else r

theorem Req.asAcquired_same (r : Req) : ∃ b, r.asAcquired = { r with acq := b } := by
  unfold Req.asAcquired
  split
  · exact ⟨true, rfl⟩
  · exact ⟨r.acq, rfl⟩

theorem Reply.asAcquired_same (r : Reply) : ∃ b, r.asAcquired = { r with acq := b } := by
  unfold Reply.asAcquired
  split
  · exact ⟨true, rfl⟩
  · exact ⟨r.acq, rfl⟩

/-- What a test that does not look at the marks says of marked accesses. -/
theorem all_filter_map {α : Type} {f : α → α} {p q : α → Bool} (hp : ∀ x, p (f x) = p x) (hq : ∀ x, q (f x) = q x)
    (l : List α) : ((l.map f).filter p).all q = (l.filter p).all q := by
  have hp' : p ∘ f = p := funext hp
  have hq' : q ∘ f = q := funext hq
  rw [List.filter_map, List.all_map, hp', hq']

theorem acquireAll_ownReqs (s : State) {q : Req → Bool} (hq : ∀ (r : Req) b, q { r with acq := b } = q r) :
    s.acquireAll.ownReqs.all q = s.ownReqs.all q := by
  have hkeep : ∀ {g : Req → Bool}, (∀ (r : Req) b, g { r with acq := b } = g r) → ∀ r : Req, g r.asAcquired = g r := by
    intro g hg r
    obtain ⟨b, hb⟩ := r.asAcquired_same
    rw [hb, hg]
  have hreqs := all_filter_map (f := Req.asAcquired) (p := Req.mine) (q := q) (hkeep fun _ _ => rfl) (hkeep hq) s.sys.reqs
  have hout := all_filter_map (f := Req.asAcquired) (p := Req.mine) (q := q) (hkeep fun _ _ => rfl) (hkeep hq) s.fab.out
  simp only [State.ownReqs, List.filter_append, List.all_append]
  exact congrArg₂ _ (congrArg₂ _ hreqs hout) rfl

/-- What has been performed does not hang on the marks of an acquire. -/
theorem acquireAll_releasedAt (s : State) (scope clk n : Nat) :
    s.acquireAll.releasedAt scope clk n = s.releasedAt scope clk n := by
  have hreplies : s.acquireAll.coreReplies.all (fun r => decide (n ≤ r.id)) = s.coreReplies.all fun r => decide (n ≤ r.id) := by
    refine all_filter_map (f := Reply.asAcquired) (fun r => ?_) (fun r => ?_) s.sys.replies
    · obtain ⟨b, hb⟩ := r.asAcquired_same
      rw [hb]
    · obtain ⟨b, hb⟩ := r.asAcquired_same
      rw [hb]
  have hloads : s.acquireAll.loadsDone n = s.loadsDone n := by
    simp only [State.loadsDone, State.coreReqs, List.all_filter, hreplies]
    rw [acquireAll_ownReqs s fun r b => rfl]
  have hall : s.acquireAll.allDone clk n = s.allDone clk n := by
    rw [State.allDone, State.allDone, hloads, acquireAll_ownReqs s fun r b => rfl]
    rfl
  simp only [State.releasedAt, hloads, hall]
  rfl

theorem acquireSide_releasedAt (s : State) (od : Option Ord) (scope clk n : Nat) :
    (s.acquireSide od).releasedAt scope clk n = s.releasedAt scope clk n := by
  unfold State.acquireSide
  split
  · exact acquireAll_releasedAt ..
  · rfl

/-! ### Fences -/

theorem noteFence_eq (s : State) :
    s.noteFence = s.setCore { s.core with fenceId := some (s.core.fenceId.getD s.sys.nextId) } := by
  unfold State.noteFence
  cases h : s.core.fenceId with
  | none => rfl
  | some n =>
    rw [if_neg (by simp)]
    exact congrArg s.setCore (by rw [Option.getD_some, ← h])

/-- A FENCE without an order, in the state that knows which accesses it waits for. -/
theorem exec_fence_plain {n : Nat} (ho : ordOrder od = 0) (hn : n = s.core.fenceId.getD s.sys.nextId) :
    exec (.fence od) s = settle (.fence od) (s.setCore { s.core with fenceId := some n })
      [await (s.allDone s.clk n) .orderWait] (s.setCore { s.core with fenceId := some n }) := by
  rw [exec_fence, execFence, if_pos ho, noteFence_eq, ← hn]
  rfl

theorem fence_plain (hw : (Instr.fence od).wellFormed = true) {n : Nat} (ho : ordOrder od = 0)
    (hn : n = s.core.fenceId.getD s.sys.nextId) :
    (s.allDone s.clk n = true → ∃ t, RetiresPlain (.fence od) s t ∧ OnlyCore s t) ∧
      (s.allDone s.clk n = false → ∃ t, Waits (.fence od) s t .orderWait ∧ t.core.fenceId = some n) := by
  have he := exec_fence_plain ho hn
  refine ⟨fun hd => ?_, fun hd => ?_⟩
  · rw [hd, settle_pass hw rfl, nextPc_eq] at he
    exact ⟨_, ⟨⟨he, rfl, rfl, rfl⟩, rfl, rfl, rfl, rfl⟩, rfl⟩
  · rw [hd, settle, settleTo, legal_eq_pass.2 hw] at he
    exact ⟨_, ⟨he, rfl, rfl, rfl, rfl, rfl, rfl, rfl⟩, rfl⟩

theorem fence_ordered (hw : (Instr.fence od).wellFormed = true) (ho : ordOrder od ≠ 0) :
    ∃ t, Retires (.fence od) s t (following (.fence od) s) ∧ AcquireSide s t od ∧
      KeepsCore (s.setCore { s.core with relFences := t.core.relFences }) t ∧
      t = { s with core := t.core, sys := t.sys, fab := t.fab } ∧
      (isRelease od = false → t.core.relFences = s.core.relFences) ∧
      (isRelease od = true → { scope := ordScope od, clk := s.clk, id := s.sys.nextId } ∈ t.core.relFences ∧
        ∀ f, f ∈ s.core.relFences → s.releasedAt f.scope f.clk f.id = false → f ∈ t.core.relFences) := by
  have he := exec_fence (od := od) s
  rw [execFence, if_neg ho] at he
  dsimp only at he
  have hsame := s.acquireSide_same od
  have hfences := acquireSide_releasedAt s od
  have hnext : (s.acquireSide od).sys.nextId = s.sys.nextId := by
    unfold State.acquireSide
    split <;> rfl
  have hside : ∀ t : State, t.sys = (s.acquireSide od).sys → t.fab = (s.acquireSide od).fab → AcquireSide s t od :=
    fun t => acquireSide_of rfl rfl
  generalize s.acquireSide od = u at *
  have hcore : u.core = s.core := by rw [hsame]
  have hclk : u.clk = s.clk := by rw [hsame]
  cases hr : isRelease od with
  | false =>
    rw [hr, if_neg Bool.false_ne_true] at he
    refine ⟨_, retires_of_settle he hw rfl (by rw [hcore]), hside _ rfl rfl, ?_, ?_, fun _ => by simp [hcore], nofun⟩
    · rw [hsame]
      exact ⟨rfl, rfl, rfl, rfl⟩
    · rw [hsame]
      rfl
  | true =>
    rw [hr, if_pos rfl, State.addFence, hclk, hnext, hcore] at he
    simp only [hfences] at he
    refine ⟨_, retires_of_settle he hw rfl rfl, hside _ rfl rfl, ⟨rfl, rfl, rfl, rfl⟩, ?_, nofun,
      fun _ => ⟨?_, fun f hf hopen => ?_⟩⟩
    · rw [hsame]
      rfl
    · simp
    · simp [hf, hopen]

end

end Sys2Proof.Machine

namespace Sys2Proof.Proofs

open Sys2Proof.Machine Sys2Proof.Claims

/-- Settles O30: a plain fence, an ordered one, and the stores that wait behind it. -/
theorem fences : Obligations.Fences := by
  intro s od hw
  exact ⟨fun n => fence_plain hw, fence_ordered hw, fun i n d m o hi hwi hsp _ hu => scalarStore_waits hi hwi hsp hu⟩

end Sys2Proof.Proofs
end

section
/-!
Barriers (R127), and O31.
-/

namespace Sys2Proof.Machine

open Sys2Proof.Claims

section
variable {s : State} {d n b : BitVec 5} {y : Bool} {od : Option Ord}

/-! ### Arrival -/

/-- An arrival replaces the barrier it arrives at, and nothing else. -/
theorem State.arrive_eq (s : State) (k : Nat) :
    s.arrive k s.cell.rank = s.setCell { s.cell with bars := s.cell.bars.setIfInBounds k (arrivedAt s k) } := rfl

theorem bar_of_arrive {t : State} {k : Nat} (hk : k < 16) (ht : t.cell.bars = (s.arrive k s.cell.rank).cell.bars) (j : Nat) :
    t.bar j = if j = k then arrivedAt s k else s.bar j := by
  have hbars : t.cell.bars = s.cell.bars.setIfInBounds k (arrivedAt s k) := by rw [ht, State.arrive_eq]; rfl
  rw [State.bar, hbars, Vector.getElem?_setIfInBounds_of_lt _ _ hk]
  split <;> rfl

/-- What a barrier unit with an acquire side leaves, once it has changed its core and the barriers. -/
theorem acquireSide_goto {u : State} (hu : OnlyBarriers s u) (hsys : u.sys = s.sys) (hfab : u.fab = s.fab) (i : Instr)
    (pc : Word) : AcquireSide s ((u.acquireSide od).goto i pc) od ∧ OnlyBarriers s ((u.acquireSide od).goto i pc) ∧
      ((u.acquireSide od).goto i pc).cell.bars = u.cell.bars := by
  have hsame := u.acquireSide_same od
  refine ⟨acquireSide_of hsys hfab rfl rfl, ?_, ?_⟩
  · rw [hsame, hu]
    rfl
  · rw [hsame]
    rfl

theorem State.acquireSide_core (s : State) (od : Option Ord) : (s.acquireSide od).core = s.core := by
  rw [State.acquireSide_same]

theorem releaseWait_pass (h : Released s od) : releaseWait s od = .pass := by
  unfold releaseWait
  split
  · next hr => exact await_eq_pass.2 (h hr)
  · rfl

/-! ### BARARR -/

theorem bararr_arrives (hw : (Instr.bararr d n od).wellFormed = true) (hn : n.toNat < 16) (hu : Usable s [d.toNat])
    (hrel : Released s od) (hhere : (s.bar n.toNat).arrived.getLsbD s.cell.rank = false) :
    ∃ t, RetiresInto (.bararr d n od) s t d.toNat (BitVec.ofNat 64 (s.bar n.toNat).gen) ∧ AcquireSide s t od ∧
      OnlyBarriers s t ∧ ∀ k, k < 16 → t.bar k = if k = n.toNat then arrivedAt s n.toNat else s.bar k := by
  have he := exec_bararr (d := d) (n := n) (od := od) s
  unfold execBararr at he
  have hchecks : firstOf (scalarChecks s [] [d.toNat] ++
      [await (!s.arrivedHere n.toNat) .barrier, releaseWait s od]) = .pass := by
    rw [firstOf_append_of_pass (scalarChecks_dest hu), State.arrivedHere, hhere, releaseWait_pass hrel]
    rfl
  obtain ⟨-, honly⟩ := s.result_onlyRegisters 1 d.toNat (BitVec.ofNat 64 (s.bar n.toNat).gen)
  rw [State.arrive_eq, State.result_setCell] at he
  have hretires := settle_retiresInto d.isLt he hw hchecks (State.acquireSide_core ..)
  obtain ⟨hside, hbarriers, hbars⟩ := acquireSide_goto (s := s) (od := od)
    (u := (s.result 1 d.toNat (BitVec.ofNat 64 (s.bar n.toNat).gen)).setCell
      { s.cell with bars := s.cell.bars.setIfInBounds n.toNat (arrivedAt s n.toNat) })
    (by rw [honly]; rfl) (by rw [honly]; rfl) (by rw [honly]; rfl) (.bararr d n od) (following (.bararr d n od) s)
  exact ⟨_, hretires, hside, hbarriers, fun k _ => bar_of_arrive hn (by rw [hbars, State.arrive_eq]; rfl) k⟩

theorem bararr_waits (hw : (Instr.bararr d n od).wellFormed = true) (hu : Usable s [d.toNat])
    (hhere : (s.bar n.toNat).arrived.getLsbD s.cell.rank = true) : ∃ t, Waits (.bararr d n od) s t .barrier := by
  refine settle_waits (exec_bararr s) hw ?_
  rw [firstOf_append_of_pass (scalarChecks_dest hu), State.arrivedHere, hhere]
  rfl

/-! ### BARWAIT -/

theorem barwait_passes (hw : (Instr.barwait n b y od).wellFormed = true) (hu : Usable s [b.toNat])
    (hrel : Released s od) (hgen : (s.g b.toNat).toNat < (s.bar n.toNat).gen) :
    ∃ t, RetiresPlain (.barwait n b y od) s t ∧ AcquireSide s t od ∧ OnlyBarriers s t ∧ t.cell.bars = s.cell.bars := by
  have hchecks : firstOf (scalarChecks s [(b.toNat, y)] [] ++
      [releaseWait s od, await (decide ((s.g b.toNat).toNat < (s.bar n.toNat).gen)) .barrier]) = .pass := by
    rw [firstOf_append_of_pass (scalarChecks_one y hu), releaseWait_pass hrel, decide_eq_true hgen]
    rfl
  exact ⟨_, settle_retiresPlain (exec_barwait s) hw hchecks (State.acquireSide_core s od),
    acquireSide_goto (u := s) rfl rfl rfl ..⟩

theorem barwait_waits (hw : (Instr.barwait n b y od).wellFormed = true) (hu : Usable s [b.toNat])
    (hrel : Released s od) (hgen : (s.bar n.toNat).gen ≤ (s.g b.toNat).toNat) :
    ∃ t, Waits (.barwait n b y od) s t .barrier := by
  refine settle_waits (exec_barwait s) hw ?_
  rw [firstOf_append_of_pass (scalarChecks_one y hu), releaseWait_pass hrel, decide_eq_false (Nat.not_lt.2 hgen)]
  rfl

/-! ### BARSYNC -/

/-- A BARSYNC that has not arrived. -/
theorem exec_barsync_arrives (hw : (Instr.barsync n od).wellFormed = true) (hnone : s.core.barsync = none)
    (hrel : Released s od) (hhere : (s.bar n.toNat).arrived.getLsbD s.cell.rank = false) :
    exec (.barsync n od) s = (
      let t := s.arrive n.toNat s.cell.rank
      if (s.bar n.toNat).gen < (t.bar n.toNat).gen then settle (.barsync n od) s [] (t.acquireSide od)
      else .next ((t.setCore { t.core with barsync := some (s.core.pc, n.toNat, (s.bar n.toNat).gen) }).hold
        (.barsync n od) .barrier)) := by
  have hchecks : firstOf [legal (.barsync n od), await (!s.arrivedHere n.toNat) .barrier, releaseWait s od] = .pass := by
    rw [legal_eq_pass.2 hw, State.arrivedHere, hhere, releaseWait_pass hrel]
    rfl
  rw [exec_barsync, execBarsync, hnone]
  dsimp only
  rw [hchecks]

theorem barsync_completes (hw : (Instr.barsync n od).wellFormed = true) (hn : n.toNat < 16) (hnone : s.core.barsync = none)
    (hrel : Released s od) (hhere : (s.bar n.toNat).arrived.getLsbD s.cell.rank = false)
    (hgen : (arrivedAt s n.toNat).gen = (s.bar n.toNat).gen + 1) :
    ∃ t, RetiresPlain (.barsync n od) s t ∧ AcquireSide s t od ∧ OnlyBarriers s t ∧
      t.bar n.toNat = arrivedAt s n.toNat := by
  have he := exec_barsync_arrives hw hnone hrel hhere
  have hbar := (bar_of_arrive (s := s) hn rfl n.toNat).trans (if_pos rfl)
  dsimp only at he
  rw [hbar, if_pos (by omega)] at he
  obtain ⟨hside, hbarriers, hbars⟩ := acquireSide_goto (s := s) (od := od) (u := s.arrive n.toNat s.cell.rank)
    rfl rfl rfl
    (.barsync n od) (following (.barsync n od) s)
  exact ⟨_, settle_retiresPlain he hw rfl (State.acquireSide_core ..), hside, hbarriers,
    (bar_of_arrive hn hbars n.toNat).trans (if_pos rfl)⟩

theorem barsync_arrives (hw : (Instr.barsync n od).wellFormed = true) (hn : n.toNat < 16) (hnone : s.core.barsync = none)
    (hrel : Released s od) (hhere : (s.bar n.toNat).arrived.getLsbD s.cell.rank = false)
    (hgen : (arrivedAt s n.toNat).gen = (s.bar n.toNat).gen) :
    ∃ t, exec (.barsync n od) s = .next t ∧ t.core.pc = s.core.pc ∧ t.core.charge = .barrier ∧
      t.core.barsync = some (s.core.pc, n.toNat, (s.bar n.toNat).gen) ∧ t.bar n.toNat = arrivedAt s n.toNat ∧
      t.core.g = s.core.g := by
  have he := exec_barsync_arrives hw hnone hrel hhere
  have hbar := (bar_of_arrive (s := s) hn rfl n.toNat).trans (if_pos rfl)
  dsimp only at he
  rw [hbar, if_neg (by omega)] at he
  exact ⟨_, he, rfl, rfl, rfl, hbar, rfl⟩

/-- A BARSYNC that has arrived, and waits for generation g to complete. -/
theorem exec_barsync_arrived {g : Nat} (harrived : s.core.barsync = some (s.core.pc, n.toNat, g)) :
    exec (.barsync n od) s = settle (.barsync n od) s [await (decide (g < (s.bar n.toNat).gen)) .barrier]
      (s.acquireSide od) := by
  rw [exec_barsync, execBarsync, harrived]
  simp

theorem barsync_passes {g : Nat} (hw : (Instr.barsync n od).wellFormed = true)
    (harrived : s.core.barsync = some (s.core.pc, n.toNat, g)) (hgen : g < (s.bar n.toNat).gen) :
    ∃ t, RetiresPlain (.barsync n od) s t ∧ AcquireSide s t od ∧ OnlyBarriers s t ∧ t.cell.bars = s.cell.bars :=
  ⟨_, settle_retiresPlain (exec_barsync_arrived harrived) hw (by rw [decide_eq_true hgen]; rfl)
    (State.acquireSide_core s od), acquireSide_goto (u := s) rfl rfl rfl ..⟩

theorem barsync_waits {g : Nat} (hw : (Instr.barsync n od).wellFormed = true)
    (harrived : s.core.barsync = some (s.core.pc, n.toNat, g)) (hgen : (s.bar n.toNat).gen ≤ g) :
    ∃ t, Waits (.barsync n od) s t .barrier :=
  settle_waits (exec_barsync_arrived harrived) hw (by rw [decide_eq_false (Nat.not_lt.2 hgen)]; rfl)

end

end Sys2Proof.Machine

namespace Sys2Proof.Proofs

open Sys2Proof.Machine Sys2Proof.Claims

/-- Settles O31: an arrival replaces its barrier, and a wait looks at that barrier's generation. -/
theorem barriers : Obligations.Barriers := by
  rintro s d n b y od _ hw rfl hu hrel
  have hn : n.toNat < 16 := of_decide_eq_true (Bool.and_eq_true_iff.1 hw).1
  have hd : Usable s [d.toNat] := usable_of_subset hu (by simp)
  have hb : Usable s [b.toNat] := usable_of_subset hu (by simp)
  exact ⟨fun hhere => ⟨bararr_arrives hw hn hd hrel hhere, fun hnone =>
      ⟨barsync_completes hw hn hnone hrel hhere, barsync_arrives hw hn hnone hrel hhere⟩⟩,
    bararr_waits hw hd, fun g harrived => ⟨barsync_passes hw harrived, barsync_waits hw harrived⟩,
    barwait_passes hw hb hrel, barwait_waits hw hb hrel⟩

end Sys2Proof.Proofs
end

section
/-!
The accesses of R105-R120 in a state with a stray acquire (`State.withStrayRow`): each waits for it, charged to ORDERWAIT, in
states that meet every hypothesis of the statements; O15-O24.
-/

namespace Sys2Proof.Machine

open Sys2Proof.Claims

/-! ### A unit that is held has neither retired nor trapped -/

theorem not_retires_of_orderWait {i : Instr} {s t : State} {pc : Word} (he : exec i s = .next (s.hold i .orderWait)) :
    ¬ Retires i s t pc := by
  rintro ⟨hrun, -, hcharge, -⟩
  rw [he] at hrun
  cases hrun
  cases hcharge

theorem not_enters_of_orderWait {i : Instr} {s t : State} {x : TrapInfo} {pc : Word}
    (he : exec i s = .next (s.hold i .orderWait)) (hrun : exec i s = .next t) : ¬ Enters s t x pc := by
  rintro ⟨-, -, -, -, -, -, -, -, -, -, -, -, hcharge, -⟩
  rw [he] at hrun
  cases hrun
  cases hcharge

/-! ### The checks of an access, where only the stray acquire holds it -/

section
variable {i : Instr} {s : State} {pre : List Verdict} {srcs : List Source} {dst : List Nat} {steps own : List Verdict}

/-- The locations of a unit's operands may be read and written (R103). -/
def LocsReady (s : State) (srcs : List Source) (dst : List Nat) : Prop :=
  (∀ p ∈ srcs, ∀ l ∈ p.1, s.emptyLoc l = false ∧ s.lateLoc l = false) ∧
    ∀ l ∈ dst, s.emptyLoc l = false ∧ s.lateLoc l = false

theorem settle_strayRow {e : State} (hw : i.wellFormed = true) (hpre : firstOf pre = .pass)
    (hready : LocsReady s.withStrayRow srcs dst) :
    settle i s.withStrayRow (memChecks s.withStrayRow pre srcs dst steps own) e =
      .next (s.withStrayRow.hold i .orderWait) := by
  obtain ⟨hsrcs, hdst⟩ := hready
  rw [settle, settleTo, legal_eq_pass.2 hw, firstOf_pass,
    memChecks_acquireWait hpre hsrcs hdst (acquireWait_withStrayRow s)]
  rfl

theorem settleReplay_strayRow {plain : List Verdict} {dest : Dest} {n : Nat} {base e : State}
    (hplain : s.withStrayRow.replaying = false) (hw : i.wellFormed = true) (hpre : firstOf pre = .pass)
    (hready : LocsReady s.withStrayRow srcs dst) :
    settleReplay i s.withStrayRow plain (memChecks s.withStrayRow pre srcs dst steps own) dest n base e =
      .next (s.withStrayRow.hold i .orderWait) := by
  rw [settleReplay, hplain, if_neg Bool.false_ne_true]
  exact settle_strayRow hw hpre hready

end

/-! ### The instructions -/

section
variable {s : State} {d : BitVec 5} {m : MemArg} {od : Option Ord}

theorem execLd_strayRow (hw : (Instr.ld d m od).wellFormed = true) (hsp : m.sp ≠ 3)
    (hready : LocsReady s.withStrayRow [((MemArg.sources m).map gLoc, false)] (gLoc d.toNat :: (MemArg.dests m).map gLoc)) :
    exec (.ld d m od) s.withStrayRow = .next (s.withStrayRow.hold (.ld d m od) .orderWait) := by
  rw [exec_ld, execLd, execLoad, if_pos hsp]
  exact settle_strayRow hw rfl hready

theorem execSt_strayRow (hw : (Instr.st d m od).wellFormed = true) (hsp : m.sp ≠ 3)
    (hready : LocsReady s.withStrayRow [((MemArg.sources m).map gLoc, false), ([gLoc d.toNat], false)]
      ((MemArg.dests m).map gLoc)) :
    exec (.st d m od) s.withStrayRow = .next (s.withStrayRow.hold (.st d m od) .orderWait) := by
  rw [exec_st, execSt, execStore, if_pos hsp]
  exact settle_strayRow hw rfl hready

theorem execVld_strayRow (hw : (Instr.vld d m od).wellFormed = true) (hk : s.withStrayRow.k ≠ 0) (hsp : m.sp ≠ 3)
    (hready : LocsReady s.withStrayRow [((MemArg.sources m).map gLoc, false)]
      (s.withStrayRow.vLocs (vecNumber d m) s.withStrayRow.k ++ (MemArg.dests m).map gLoc)) :
    exec (.vld d m od) s.withStrayRow = .next (s.withStrayRow.hold (.vld d m od) .orderWait) := by
  rw [exec_vld, execVld, if_neg hk, if_pos hsp]
  exact settle_strayRow hw rfl hready

theorem execVst_strayRow (hw : (Instr.vst d m od).wellFormed = true) (hk : s.withStrayRow.k ≠ 0) (hsp : m.sp ≠ 3)
    (hready : LocsReady s.withStrayRow [((MemArg.sources m).map gLoc, false),
      (s.withStrayRow.vLocs (vecNumber d m) s.withStrayRow.k, false)] ((MemArg.dests m).map gLoc)) :
    exec (.vst d m od) s.withStrayRow = .next (s.withStrayRow.hold (.vst d m od) .orderWait) := by
  rw [exec_vst, execVst, if_neg hk, if_pos hsp]
  exact settle_strayRow hw rfl hready

theorem execOqld_strayRow (hw : (Instr.oqld d m od).wellFormed = true) (hsp : m.sp ≠ 3)
    (hready : LocsReady s.withStrayRow [((MemArg.sources m).map gLoc, false)] ((MemArg.dests m).map gLoc)) :
    exec (.oqld d m od) s.withStrayRow = .next (s.withStrayRow.hold (.oqld d m od) .orderWait) := by
  rw [exec_oqld, execOqld, if_pos hsp]
  exact settle_strayRow hw rfl hready

variable {a b : BitVec 5} {x y : Bool}

theorem execAadd_strayRow (hplain : s.withStrayRow.replaying = false) (hw : (Instr.aadd d a b x y od).wellFormed = true)
    (hready : LocsReady s.withStrayRow [([gLoc a.toNat], x), ([gLoc b.toNat], y)] [gLoc d.toNat]) :
    exec (.aadd d a b x y od) s.withStrayRow = .next (s.withStrayRow.hold (.aadd d a b x y od) .orderWait) :=
  (exec_aadd _).trans (settleReplay_strayRow hplain hw rfl hready)

theorem execRcsnap_strayRow (hplain : s.withStrayRow.replaying = false) (hroute : s.withStrayRow.hasRoute = true)
    (hw : (Instr.rcsnap d a x od).wellFormed = true) (hready : LocsReady s.withStrayRow [([gLoc a.toNat], x)] [gLoc d.toNat]) :
    exec (.rcsnap d a x od) s.withStrayRow = .next (s.withStrayRow.hold (.rcsnap d a x od) .orderWait) :=
  (exec_rcsnap _).trans (settleReplay_strayRow hplain hw (by rw [hroute]; rfl) hready)

theorem execVpop_strayRow (hplain : s.withStrayRow.replaying = false) (hvat : s.withStrayRow.core.vat = .none)
    (hw : (Instr.vpop d a x od).wellFormed = true) (hready : LocsReady s.withStrayRow [([gLoc a.toNat], x)] [gLoc d.toNat]) :
    exec (.vpop d a x od) s.withStrayRow = .next (s.withStrayRow.hold (.vpop d a x od) .orderWait) := by
  obtain ⟨hsrcs, hdst⟩ := hready
  rw [exec_vpop, execVpop, execVat, hvat]
  dsimp only
  rw [legal_eq_pass.2 hw, firstOf_pass, hplain, if_neg Bool.false_ne_true,
    memChecks_acquireWait (dst := [d.toNat].map gLoc) rfl hsrcs hdst (acquireWait_withStrayRow s)]
  rfl

end

/-! ### States to begin from -/

/-- The operand g0 + 0 of the weight store, and g1 + 0. -/
def weightZero : MemArg := { base := 0, mode := 0, mreg := 0, sp := 0, off := 0, hi := none }
def weightOne : MemArg := { weightZero with base := 1 }

/-- The state after reset, with a misaligned address in g1. -/
def State.oddAddress : State := State.reset.setCore (State.reset.core.putG 1 1)

theorem accessOpen_oddAddress : AccessOpen State.oddAddress :=
  ⟨⟨by decide, by decide, by decide⟩, by decide, by decide, by decide⟩

/-- A page of global memory at virtual address 0, of format 0, that may be read and written and is marked dirty. -/
def pageZero : Page := { asid := 0, base := 0, size := 0x10000, w0 := 0xAC, w1 := 0 }

/-- The state after reset, with that page in the cell's translation cache. -/
def State.withPageZero : State := { State.reset with sys := { State.reset.sys with ctlb := [pageZero] } }

theorem accessOpen_withPageZero : AccessOpen State.withPageZero :=
  ⟨⟨by decide, by decide, by decide⟩, by decide, by decide, by decide⟩

theorem onPage_pageZero : OnPage State.withPageZero.withStrayRow 0 .both 8 pageZero where
  canon := by decide
  outside := by decide
  known := rfl
  cached := by decide
  dirty := by decide
  allowed := by decide
  within := by decide

theorem room_pageZero (s : State) (n : Nat) : Room s pageZero true n := by
  intro d hfar
  have hnone : farOf s pageZero true = none := rfl
  rw [hnone] at hfar
  cases hfar

end Sys2Proof.Machine

namespace Sys2Proof.Proofs

open Sys2Proof.Machine Sys2Proof.Claims

/-- Refutes O15: after reset, but with an acquire in a row of queue 0, which the statement's hypotheses allow, LD from the
start of the weight store does not retire but waits, charged to ORDERWAIT. -/
theorem not_scalarLoads : ¬ Obligations.ScalarLoads := by
  unfold Obligations.ScalarLoads
  rintro ⟨hstore, -⟩
  let s := State.reset.withStrayRow
  have husable : Usable s (operandRegs weightZero 1) := by
    unfold Usable
    decide
  have hready : LocsReady s [([gLoc 0], false)] [gLoc 1] := by
    unfold LocsReady
    decide
  have he : exec (.ld 1 weightZero none) s = .next (s.hold (.ld 1 weightZero none) .orderWait) :=
    execLd_strayRow rfl (by decide) hready
  obtain ⟨t, hretires, -⟩ := hstore (.ld 1 weightZero none) s 8 1 weightZero none _ rfl rfl (by decide)
    (accessOpen_withStrayRow accessOpen_reset) husable rfl (by decide) ⟨by decide, rfl⟩
  exact not_retires_of_orderWait he hretires

/-- Refutes O16: after reset, but with an odd address in g1 and an acquire in a row of queue 0, which the statement's hypotheses
allow, LD of that address does not trap with ALIGN but waits, charged to ORDERWAIT. -/
theorem not_accessFaults : ¬ Obligations.AccessFaults := by
  unfold Obligations.AccessFaults
  intro h
  let s := State.oddAddress.withStrayRow
  have husable : Usable s (operandRegs weightOne 2) := by
    unfold Usable
    decide
  have hready : LocsReady s [([gLoc 1], false)] [gLoc 2] := by
    unfold LocsReady
    decide
  have henters : EntersAtOnce s := ⟨by decide, fun l hl => absurd hl (List.not_mem_nil (a := l))⟩
  have he : exec (.ld 2 weightOne none) s = .next (s.hold (.ld 2 weightOne none) .orderWait) :=
    execLd_strayRow rfl (by decide) hready
  obtain ⟨halign, -⟩ := h (.ld 2 weightOne none) s 8 2 weightOne none _ .read (.inl ⟨rfl, rfl⟩) rfl
    (accessOpen_withStrayRow accessOpen_oddAddress) husable rfl
  obtain ⟨t, hrun, htraps⟩ := halign henters (by decide)
  exact not_enters_of_orderWait he hrun htraps

/-- Refutes O17: after reset, but with an acquire in a row of queue 0, which the statement's hypotheses allow, ST to the start
of the weight store does not retire but waits, charged to ORDERWAIT. -/
theorem not_scalarStores : ¬ Obligations.ScalarStores := by
  unfold Obligations.ScalarStores
  rintro ⟨hstore, -⟩
  let s := State.reset.withStrayRow
  have husable : Usable s (operandRegs weightZero 1) := by
    unfold Usable
    decide
  have hready : LocsReady s [([gLoc 0], false), ([gLoc 1], false)] [] := by
    unfold LocsReady
    decide
  have he : exec (.st 1 weightZero none) s = .next (s.hold (.st 1 weightZero none) .orderWait) :=
    execSt_strayRow rfl (by decide) hready
  obtain ⟨t, hretires, -⟩ := hstore (.st 1 weightZero none) s 8 1 weightZero none _ rfl rfl (by decide)
    (accessOpen_withStrayRow accessOpen_reset) husable ⟨rfl, nofun⟩ rfl (by decide) (by decide)
  exact not_retires_of_orderWait he hretires

/-- Refutes O18: after reset, but with an acquire in a row of queue 0, which the statement's hypotheses allow, VLD of all lanes
from the start of the weight store does not retire but waits, charged to ORDERWAIT. -/
theorem not_vectorLoad : ¬ Obligations.VectorLoad := by
  unfold Obligations.VectorLoad
  intro h
  let s := State.reset.withStrayRow
  have husable : Usable s (operandRegs weightZero 0) := by
    unfold Usable
    decide
  have hlanes : LanesReady s 0 s.k := ⟨rfl, by decide⟩
  have hfree : LanesFree s 0 s.k := by
    unfold LanesFree
    decide
  have hready : LocsReady s [([gLoc 0], false)] (s.vLocs 0 s.k ++ []) := by
    unfold LocsReady
    decide
  have he : exec (.vld 0 weightZero none) s = .next (s.hold (.vld 0 weightZero none) .orderWait) :=
    execVld_strayRow rfl (by decide) (by decide) hready
  obtain ⟨-, hvld⟩ := h s 0 weightZero none _ _ rfl (accessOpen_withStrayRow accessOpen_reset) husable rfl rfl
  obtain ⟨hstore, -⟩ := hvld (by decide) hlanes hfree
  obtain ⟨t, hretires, -⟩ := hstore (by decide) (by decide) ⟨by decide, rfl⟩
  exact not_retires_of_orderWait he hretires

/-- Refutes O19: after reset, but with an acquire in a row of queue 0, which the statement's hypotheses allow, VST of all lanes to
the start of the weight store does not retire but waits, charged to ORDERWAIT. -/
theorem not_vectorStore : ¬ Obligations.VectorStore := by
  unfold Obligations.VectorStore
  intro h
  let s := State.reset.withStrayRow
  have husable : Usable s (operandRegs weightZero 0) := by
    unfold Usable
    decide
  have hunwatched : Unwatched s := by
    unfold Unwatched
    decide
  have hlanes : LanesReady s 0 s.k := ⟨rfl, by decide⟩
  have hready : LocsReady s [([gLoc 0], false), (s.vLocs 0 s.k, false)] [] := by
    unfold LocsReady
    decide
  have he : exec (.vst 0 weightZero none) s = .next (s.hold (.vst 0 weightZero none) .orderWait) :=
    execVst_strayRow rfl (by decide) (by decide) hready
  obtain ⟨-, hvst⟩ :=
    h s 0 weightZero none _ _ rfl (accessOpen_withStrayRow accessOpen_reset) husable ⟨rfl, nofun⟩ hunwatched rfl rfl
  obtain ⟨hstore, -⟩ := hvst (by decide) hlanes
  obtain ⟨t, hretires, -⟩ := hstore (by decide) (by decide) (by decide)
  exact not_retires_of_orderWait he hretires

/-- Refutes O20: after reset, but with an acquire in a row of queue 0, which the statement's hypotheses allow, OQLD from the
start of the weight store does not retire but waits, charged to ORDERWAIT. -/
theorem not_operandQueueLoad : ¬ Obligations.OperandQueueLoad := by
  unfold Obligations.OperandQueueLoad
  intro h
  let s := State.reset.withStrayRow
  have husable : Usable s (operandRegs weightZero 0) := by
    unfold Usable
    decide
  have hready : LocsReady s [([gLoc 0], false)] [] := by
    unfold LocsReady
    decide
  have he : exec (.oqld 0 weightZero none) s = .next (s.hold (.oqld 0 weightZero none) .orderWait) :=
    execOqld_strayRow rfl (by decide) hready
  obtain ⟨hstore, -⟩ :=
    h s 0 weightZero none _ [] rfl (accessOpen_withStrayRow accessOpen_reset) husable rfl rfl (by decide)
  obtain ⟨t, -, -, hretires, -⟩ := hstore (by decide) ⟨by decide, rfl⟩ (by decide)
  exact not_retires_of_orderWait he hretires

/-- Refutes O21: with a page at address 0 and an acquire in a row of queue 0, which the statement's hypotheses allow, AADD of
the page's first word does not retire but waits, charged to ORDERWAIT. -/
theorem not_atomics : ¬ Obligations.Atomics := by
  unfold Obligations.Atomics
  rintro ⟨hsend, -⟩
  let s := State.withPageZero.withStrayRow
  have husable : Usable s [0, 0, 1] := by
    unfold Usable
    decide
  have hready : LocsReady s [([gLoc 0], false), ([gLoc 0], false)] [gLoc 1] := by
    unfold LocsReady
    decide
  have he : exec (.aadd 1 0 0 false false none) s = .next (s.hold (.aadd 1 0 0 false false none) .orderWait) :=
    execAadd_strayRow (by decide) rfl hready
  obtain ⟨t, hretires, -⟩ := hsend (.aadd 1 0 0 false false none) s 0 8 1 0 0 none pageZero rfl rfl
    (accessOpen_withStrayRow accessOpen_withPageZero) husable ⟨rfl, nofun⟩ (by decide) onPage_pageZero (.inl rfl) rfl
    (room_pageZero s 1)
  exact not_retires_of_orderWait he hretires

/-- Refutes O22: after reset, but with an odd address in g1 and an acquire in a row of queue 0, which the statement's hypotheses
allow, AADD of that address does not trap with ALIGN but waits, charged to ORDERWAIT. -/
theorem not_atomicFaults : ¬ Obligations.AtomicFaults := by
  unfold Obligations.AtomicFaults
  intro h
  let s := State.oddAddress.withStrayRow
  have husable : Usable s [1, 0, 2] := by
    unfold Usable
    decide
  have hready : LocsReady s [([gLoc 1], false), ([gLoc 0], false)] [gLoc 2] := by
    unfold LocsReady
    decide
  have henters : EntersAtOnce s := ⟨by decide, fun l hl => absurd hl (List.not_mem_nil (a := l))⟩
  have he : exec (.aadd 2 1 0 false false none) s = .next (s.hold (.aadd 2 1 0 false false none) .orderWait) :=
    execAadd_strayRow (by decide) rfl hready
  obtain ⟨halign, -⟩ := h (.aadd 2 1 0 false false none) s 8 2 1 0 none (.inl ⟨0, rfl⟩) rfl
    (accessOpen_withStrayRow accessOpen_oddAddress) husable henters
  obtain ⟨t, hrun, htraps⟩ := halign (by decide)
  exact not_enters_of_orderWait he hrun htraps

/-- Refutes O23: with a page at address 0 and an acquire in a row of queue 0, which the statement's hypotheses allow, VPOP of
the vat there is not sent, but waits, charged to ORDERWAIT. -/
theorem not_vatInstructions : ¬ Obligations.VatInstructions := by
  unfold Obligations.VatInstructions
  intro h
  let s := State.withPageZero.withStrayRow
  have husable : Usable s [0, 1] := by
    unfold Usable
    decide
  have hready : LocsReady s [([gLoc 0], false)] [gLoc 1] := by
    unfold LocsReady
    decide
  have he : exec (.vpop 1 0 false none) s = .next (s.hold (.vpop 1 0 false none) .orderWait) :=
    execVpop_strayRow (by decide) rfl rfl hready
  obtain ⟨-, -, -, -, hnew⟩ :=
    h (.vpop 1 0 false none) s .pop 0 0 (some 1) none none rfl rfl (accessOpen_withStrayRow accessOpen_withPageZero)
  obtain ⟨hsend, -⟩ := hnew rfl husable ⟨rfl, nofun⟩
  have hpage : OnPage s (s.g 0 &&& ~~~63) .both 8 pageZero := by
    rw [show s.g 0 &&& ~~~63 = 0 by decide]
    exact onPage_pageZero
  obtain ⟨t, hrun, -, hcharge, -⟩ := hsend pageZero (by decide) hpage rfl rfl (room_pageZero s 1)
  rw [he] at hrun
  cases hrun
  cases hcharge

/-- Refutes O24: after reset, but with an acquire in a row of queue 0, which the statement's hypotheses allow, RCSNAP of hub 0,
which is none, does not trap with ABSENT but waits, charged to ORDERWAIT. -/
theorem not_routeCounters : ¬ Obligations.RouteCounters := by
  unfold Obligations.RouteCounters
  intro h
  let s := State.reset.withStrayRow
  have husable : Usable s [0, 0, 1] := by
    unfold Usable
    decide
  have hready : LocsReady s [([gLoc 0], false)] [gLoc 1] := by
    unfold LocsReady
    decide
  have henters : EntersAtOnce s := ⟨by decide, fun l hl => absurd hl (List.not_mem_nil (a := l))⟩
  have he : exec (.rcsnap 1 0 false none) s = .next (s.hold (.rcsnap 1 0 false none) .orderWait) :=
    execRcsnap_strayRow (by decide) (by decide) rfl hready
  obtain ⟨-, habsent⟩ :=
    h s 1 0 0 false false none (accessOpen_withStrayRow accessOpen_reset) husable rfl ⟨rfl, nofun⟩
  obtain ⟨⟨t, hrun, htraps⟩, -⟩ := habsent (.inl (by decide)) henters
  exact not_enters_of_orderWait he hrun htraps

end Sys2Proof.Proofs
end

section
/-!
Vat operations at their homes (R116, R117).
-/

namespace Sys2Proof.Machine

open Sys2Proof.Claims

section
variable {s u : State} {r : Req} {m : Memory} {v : Sparse 40}

/-! ### The header -/

theorem vatHead_ok {pa : Nat} : (s.vatHead pa).ok = true ↔ VatFine s pa := by
  have hpos : (if vatField s pa 0 1 = 2 then decide (vatField s pa 24 8 < vatField s pa 8 8)
      else decide (vatField s pa 24 8 = 0)) = true ↔
      if vatField s pa 0 1 = 2 then vatField s pa 24 8 < vatField s pa 8 8 else vatField s pa 24 8 = 0 := by
    split <;> exact decide_eq_true_iff
  have hok : (s.vatHead pa).ok = (decide (vatField s pa 0 1 ≤ 2) && decide (vatField s pa 1 7 = 0) &&
      decide (1 ≤ vatField s pa 8 8) && decide (vatField s pa 8 8 ≤ 2 ^ 32) &&
      decide (vatField s pa 16 8 ≤ vatField s pa 8 8) &&
      (if vatField s pa 0 1 = 2 then decide (vatField s pa 24 8 < vatField s pa 8 8)
        else decide (vatField s pa 24 8 = 0)) && decide (vatField s pa 32 32 = 0)) := rfl
  rw [hok]
  simp only [Bool.and_eq_true, decide_eq_true_iff, hpos]
  exact ⟨fun ⟨⟨⟨⟨⟨⟨hkind, hrest⟩, hone⟩, hcap⟩, hcount⟩, hp⟩, hzero⟩ => ⟨⟨hkind, hrest⟩, ⟨hone, hcap⟩, hcount, hp, hzero⟩,
    fun ⟨⟨hkind, hrest⟩, ⟨hone, hcap⟩, hcount, hp, hzero⟩ => ⟨⟨⟨⟨⟨⟨hkind, hrest⟩, hone⟩, hcap⟩, hcount⟩, hp⟩, hzero⟩⟩

/-- The header is memory's. -/
theorem vatHead_congr (h : u.mem = s.mem) (pa : Nat) : u.vatHead pa = s.vatHead pa := by
  rw [State.vatHead, State.vatHead, h]

/-! ### A home's work on a vat operation -/

/-- The vat operation r has left the requests, memory is m and the homes' maxima are v; of the rest, counts and reports alone
differ. -/
def VatWork (s u : State) (r : Req) (m : Memory) (v : Sparse 40) : Prop :=
  ∃ a l d, u = { s with
    acct := a, lq := l, dbg := d, mem := m, sys := { s.sys with reqs := s.sys.reqs.filter fun q => q.id != r.id, maxv := v } }

theorem VatWork.counted {t : State} (h : VatWork s u r m v) (ht : SameButCounts u t) : VatWork s t r m v := by
  obtain ⟨a, l, d, rfl⟩ := h
  obtain ⟨a', l', d', rfl⟩ := ht
  exact ⟨a', l', d', rfl⟩

theorem vatWork_counted (s : State) (r : Req) : VatWork s ((s.dropReq r.id).countHome r 8) r s.mem s.sys.maxv :=
  VatWork.counted ⟨s.acct, s.lq, s.dbg, rfl⟩ (State.countHome_same ..)

/-- The home's maximum takes the stamp. -/
theorem vatWork_raised (s : State) (r : Req) :
    VatWork s (((s.dropReq r.id).countHome r 8).raiseMax r.home r.stamp) r s.mem (s.raiseMax r.home r.stamp).sys.maxv := by
  obtain ⟨a, l, d, h⟩ := vatWork_counted s r
  rw [h]
  exact ⟨a, l, d, rfl⟩

theorem VatWork.written (h : VatWork s u r m v) (pa x : Nat) :
    VatWork s (u.writeWord pa x) r (Memory.writeLE m pa 8 x) v := by
  obtain ⟨a, l, d, rfl⟩ := h
  exact ⟨a, l, d, rfl⟩

theorem VatWork.mem (h : VatWork s u r m v) : u.mem = m := by
  obtain ⟨a, l, d, rfl⟩ := h
  rfl

theorem VatWork.parked (h : VatWork s u r m v) : u.sys.parked = s.sys.parked := by
  obtain ⟨a, l, d, rfl⟩ := h
  rfl

/-- The answer to a vat operation of the cell is one reply more. -/
theorem vatAnswer_of_own (h : r.origin = .own) (val : Word) (status how : Nat) (clock : List Nat) :
    ∃ (a : Reply) (p : List (Nat × Nat)) (f : Fabric), u.vatAnswer r val status how clock =
        { u with sys := { u.sys with passed := p, replies := u.sys.replies ++ [a] }, fab := f } ∧
      a.id = r.id ∧ a.dest = .vat ∧ a.val = val ∧ a.lanes = [BitVec.ofNat 32 status, BitVec.ofNat 32 how] := by
  rw [State.vatAnswer, if_neg (by simp [h])]
  exact ⟨_, _, _, rfl, rfl, rfl, rfl, rfl⟩

/-- What the answer leaves. -/
theorem VatWork.answered (h : VatWork s u r m v) (ho : r.origin = .own) (val : Word) (status how : Nat) (clock : List Nat) :
    VatAnswers s (u.vatAnswer r val status how clock) r val status how ∧
      (u.vatAnswer r val status how clock).mem = m ∧ (u.vatAnswer r val status how clock).core = s.core ∧
      (u.vatAnswer r val status how clock).cell = s.cell ∧
      (u.vatAnswer r val status how clock).sys.reqs = s.sys.reqs.filter (fun q => q.id != r.id) ∧
      (u.vatAnswer r val status how clock).sys.maxv = v ∧
      (u.vatAnswer r val status how clock).sys.parked = s.sys.parked := by
  obtain ⟨a, l, d, rfl⟩ := h
  obtain ⟨x, p, f, hx, hid, hdest, hval, hlanes⟩ := vatAnswer_of_own ho val status how clock
  rw [hx]
  exact ⟨⟨x, rfl, hid, hdest, hval, hlanes⟩, rfl, rfl, rfl, rfl, rfl, rfl⟩

/-! ### What each operation does -/

theorem exec_vatHomeOperation_of_first (h : VatFirst s r) {op : VatOp} {pair : Bool} {x : Word} (hop : r.op = .vat op pair x) :
    exec .vatHomeOperation s = .next ((s.dropReq r.id).vatHome r) := by
  have hdue : s.firstDue (fun r => r.op.isVat && (s.nextPoint r).isNone) = some r :=
    firstDue_of_oldest h.first h.held (by rw [hop, h.past]; rfl)
  simp only [exec_vatHomeOperation, execVatHomeOperation, hdue, h.present, if_true]

/-- A vat traps where its header is not well-formed, and where a pair is asked of one of KIND 2. -/
theorem vatFaulty_iff (hm : u.mem = s.mem) {pa : Nat} {pair : Bool} :
    (!(u.vatHead pa).ok || (pair && (u.vatHead pa).kind == 2)) = true ↔
      ¬ VatFine s pa ∨ pair = true ∧ vatField s pa 0 1 = 2 := by
  rw [vatHead_congr hm, Bool.or_eq_true, Bool.not_eq_true', Bool.and_eq_true, beq_iff_eq, ← vatHead_ok, Bool.not_eq_true]
  rfl

section
variable {op : VatOp} {pair : Bool} {x : Word}

theorem vat_refused (h : VatFirst s r) (hop : r.op = .vat op pair x)
    (hbad : ¬ VatFine s r.pa ∨ pair = true ∧ vatField s r.pa 0 1 = 2) :
    ∃ t, exec .vatHomeOperation s = .next t ∧ VatAnswers s t r 0 0 2 ∧ t.mem = s.mem ∧ t.core = s.core := by
  have hclean : (s.dropReq r.id).mgr.memErr = [] := h.clean
  have hfaulty := (vatFaulty_iff (s := s) (u := s.dropReq r.id) rfl).2 hbad
  obtain ⟨hans, hmem, hcore, -⟩ := (vatWork_counted s r).answered h.own 0 0 2 []
  refine ⟨_, exec_vatHomeOperation_of_first h hop, ?_⟩
  rw [State.vatHome, hop]
  dsimp only
  rw [readLines_clean hclean, if_neg Bool.false_ne_true, if_pos hfaulty]
  exact ⟨hans, hmem, hcore⟩

/-- A push to a vat that is as it should be. -/
theorem vatHome_push (h : VatFirst s r) (hop : r.op = .vat .push pair x) (hfine : VatFine s r.pa)
    (hpair : ¬ (pair = true ∧ vatField s r.pa 0 1 = 2)) {s1 s2 : State} (h1 : s1 = s.dropReq r.id)
    (h2 : s2 = (s1.countHome r 8).raiseMax r.home r.stamp) : s1.vatHome r =
      if vatField s r.pa 16 8 = vatField s r.pa 8 8 then s2.vatAnswer r 0 1 0 (maxClock (s1.maxOf r.home) r.stamp)
      else
        (((s2.vatPush r.pa x).1.touched s.mem r [(r.pa + 16, 8), ((s2.vatPush r.pa x).2, 8)]).vatAnswer r 0 0 0
          ((s2.vatPush r.pa x).1.maxOf r.home)).serveParked r.pa r.home := by
  have hclean : s1.mgr.memErr = [] := by rw [h1]; exact h.clean
  have hsound : ¬ (!(s1.vatHead r.pa).ok || (pair && (s1.vatHead r.pa).kind == 2)) = true := by
    rw [h1]
    exact mt (vatFaulty_iff (s := s) (u := s.dropReq r.id) rfl).1 (not_or.2 ⟨not_not.2 hfine, hpair⟩)
  rw [State.vatHome, hop]
  dsimp only
  rw [readLines_clean hclean, if_neg Bool.false_ne_true, if_neg hsound, h2, h1]
  rfl

/-- Another operation on such a vat. -/
theorem vatHome_take (h : VatFirst s r) (hop : r.op = .vat op pair x) (hpush : op ≠ .push) (hfine : VatFine s r.pa)
    (hpair : ¬ (pair = true ∧ vatField s r.pa 0 1 = 2)) {s1 s2 : State} (h1 : s1 = s.dropReq r.id)
    (h2 : s2 = (s1.countHome r 8).raiseMax r.home r.stamp) : s1.vatHome r =
      if vatField s r.pa 16 8 = 0 then
        if op = .pop then
          let t : State := { s1.countHome r 8 with
            sys := { (s1.countHome r 8).sys with parked := (s1.countHome r 8).sys.parked ++ [r] } }
          if r.origin = .own then t.setCore { t.core with vat := .parked r.id } else t
        else s2.vatAnswer r 0 1 0 (maxClock (s1.maxOf r.home) r.stamp)
      else ((s2.vatPop r.pa).1.touched s.mem r [(r.pa + 16, 16)]).vatAnswer r (s2.vatPop r.pa).2 0 0
        ((s2.vatPop r.pa).1.maxOf r.home) := by
  have hclean : s1.mgr.memErr = [] := by rw [h1]; exact h.clean
  have hsound : ¬ (!(s1.vatHead r.pa).ok || (pair && (s1.vatHead r.pa).kind == 2)) = true := by
    rw [h1]
    exact mt (vatFaulty_iff (s := s) (u := s.dropReq r.id) rfl).1 (not_or.2 ⟨not_not.2 hfine, hpair⟩)
  rw [State.vatHome, hop]
  dsimp only
  rw [readLines_clean hclean, if_neg Bool.false_ne_true, if_neg hsound, h2, h1]
  cases op with
  | push => exact absurd rfl hpush
  | _ => rfl

/-! ### Memory -/

theorem Memory.readLE_congr {m n : Memory} {a k : Nat} (h : ∀ b, a ≤ b → b < a + k → Sparse.get m b = Sparse.get n b) :
    Memory.readLE m a k = Memory.readLE n a k := by
  rw [← numOfBytes_bytes, ← numOfBytes_bytes, Sparse.getRun_eq, Sparse.getRun_eq]
  refine congrArg numOfBytes (List.map_congr_left fun j hj => h _ (Nat.le_add_right ..) ?_)
  have := List.mem_range.1 hj
  omega

/-- The place of the slot that a push fills (R116). -/
def pushPlace (s : State) (pa : Nat) : Nat :=
  pa + 64 + 8 * if vatField s pa 0 1 = 2 then (vatField s pa 24 8 + vatField s pa 16 8) % vatField s pa 8 8
    else vatField s pa 16 8

theorem vatPush_eq (hm : u.mem = s.mem) (pa : Nat) (x : Word) : u.vatPush pa x =
    ((u.writeWord (pushPlace s pa) x.toNat).writeWord (pa + 16) (vatField s pa 16 8 + 1), pushPlace s pa) := by
  rw [State.vatPush, vatHead_congr hm]
  rfl

/-- Memory after an element is taken: COUNT, and POS of a vat of KIND 2. -/
def poppedMemory (s : State) (pa : Nat) : Memory :=
  Memory.writeLE (if vatField s pa 0 1 = 2 then
    Memory.writeLE s.mem (pa + 24) 8 ((vatField s pa 24 8 + 1) % vatField s pa 8 8) else s.mem) (pa + 16) 8
    (vatField s pa 16 8 - 1)

theorem VatWork.popped (h : VatWork s u r s.mem v) (pa : Nat) :
    VatWork s (u.vatPop pa).1 r (poppedMemory s pa) v ∧ (u.vatPop pa).2 =
      BitVec.ofNat 64
        (vatField s pa (64 + 8 * if vatField s pa 0 1 = 2 then vatField s pa 24 8 else vatField s pa 16 8 - 1) 8) := by
  have hkind : (s.vatHead pa).kind = vatField s pa 0 1 := rfl
  rw [State.vatPop, vatHead_congr h.mem, h.mem, hkind, poppedMemory]
  dsimp only
  split
  · exact ⟨(h.written _ _).written _ _, by rw [vatField, ← Nat.add_assoc]; rfl⟩
  · exact ⟨h.written _ _, by rw [vatField, ← Nat.add_assoc]; rfl⟩

theorem poppedMemory_fields (hfine : VatFine s r.pa) {t : State} (ht : t.mem = poppedMemory s r.pa) :
    vatField t r.pa 16 8 = vatField s r.pa 16 8 - 1 ∧
      (vatField s r.pa 0 1 = 2 → vatField t r.pa 24 8 = (vatField s r.pa 24 8 + 1) % vatField s r.pa 8 8) ∧
      ∀ b, b < r.pa + 16 ∨ r.pa + 32 ≤ b → Sparse.get t.mem b = Sparse.get s.mem b := by
  obtain ⟨hone, hcap⟩ := hfine.cap
  have hcount := hfine.count
  refine ⟨?_, fun hk => ?_, fun b hb => ?_⟩
  · rw [vatField, ht, poppedMemory, Memory.readLE_writeLE]
    exact Nat.mod_eq_of_lt (by omega)
  · have hpos := Nat.mod_lt (vatField s r.pa 24 8 + 1) hone
    have hrest : Memory.readLE t.mem (r.pa + 24) 8 =
        Memory.readLE (Memory.writeLE s.mem (r.pa + 24) 8 ((vatField s r.pa 24 8 + 1) % vatField s r.pa 8 8)) (r.pa + 24) 8 :=
      Memory.readLE_congr fun b hlo _ => by
        rw [ht, poppedMemory, if_pos hk, Memory.get_writeLE_ne _ _ _ _ (by omega)]
    rw [vatField, hrest, Memory.readLE_writeLE]
    exact Nat.mod_eq_of_lt (by omega)
  · rw [ht, poppedMemory, Memory.get_writeLE_ne _ _ _ _ (by omega)]
    split
    · exact Memory.get_writeLE_ne _ _ _ _ (by omega)
    · rfl

/-! ### A push, and a taking -/

/-- Where no pop is parked at a vat, a push serves none. -/
theorem serveParked_alone {pa home : Nat} (h : u.sys.parked.all (fun q => q.pa != pa) = true) : u.serveParked pa home = u := by
  have hnone : u.sys.parked.find? (fun r => r.pa == pa) = none :=
    List.find?_eq_none.2 fun q hq => by simpa using List.all_eq_true.1 h q hq
  rw [State.serveParked, hnone]

variable {op : VatOp} {pair : Bool} {x : Word}

theorem performedAt_of {t : State} (hreqs : t.sys.reqs = s.sys.reqs.filter (fun q => q.id != r.id))
    (hmax : t.sys.maxv = (s.raiseMax r.home r.stamp).sys.maxv) : PerformedAt s t r := by
  refine ⟨hreqs, fun e he => ?_⟩
  rw [hmax]
  exact s.raiseMax_get r.home r.stamp he

theorem vat_pushed (h : VatFirst s r) (hop : r.op = .vat .push pair x) (hfine : VatFine s r.pa)
    (hpair : ¬ (pair = true ∧ vatField s r.pa 0 1 = 2)) (hroom : vatField s r.pa 16 8 < vatField s r.pa 8 8) {i : Nat}
    (hi : pushPlace s r.pa = r.pa + 64 + 8 * i) :
    ∃ t, exec .vatHomeOperation s = .next t ∧ VatAnswers s t r 0 0 0 ∧ PerformedAt s t r ∧ t.core = s.core ∧
      t.cell = s.cell ∧ ∀ b, Sparse.get t.mem b =
        if r.pa + 16 ≤ b ∧ b < r.pa + 24 then BitVec.ofNat 8 ((vatField s r.pa 16 8 + 1) / 256 ^ (b - (r.pa + 16)))
        else if r.pa + 64 + 8 * i ≤ b ∧ b < r.pa + 72 + 8 * i
        then BitVec.ofNat 8 (x.toNat / 256 ^ (b - (r.pa + 64 + 8 * i))) else Sparse.get s.mem b := by
  have hraised := vatWork_raised s r
  have hexec := exec_vatHomeOperation_of_first h hop
  rw [vatHome_push h hop hfine hpair rfl rfl, if_neg (Nat.ne_of_lt hroom), vatPush_eq hraised.mem] at hexec
  dsimp only at hexec
  have hwork := (((hraised.written (pushPlace s r.pa) x.toNat).written (r.pa + 16) (vatField s r.pa 16 8 + 1)).counted
    (State.touched_same _ s.mem r [(r.pa + 16, 8), (pushPlace s r.pa, 8)])).answered h.own 0 0 0
  obtain ⟨hans, hmem, hcore, hcell, hreqs, hmax, hparked⟩ := hwork _
  rw [serveParked_alone (by rw [hparked]; exact h.alone)] at hexec
  refine ⟨_, hexec, hans, performedAt_of hreqs hmax, hcore, hcell, fun b => ?_⟩
  rw [hmem, Memory.get_writeLE, Memory.get_writeLE, hi, show r.pa + 64 + 8 * i + 8 = r.pa + 72 + 8 * i by omega]

theorem vat_full (h : VatFirst s r) (hop : r.op = .vat .push pair x) (hfine : VatFine s r.pa)
    (hpair : ¬ (pair = true ∧ vatField s r.pa 0 1 = 2)) (hfull : vatField s r.pa 16 8 = vatField s r.pa 8 8) :
    ∃ t, exec .vatHomeOperation s = .next t ∧ VatAnswers s t r 0 1 0 ∧ t.mem = s.mem ∧ t.core = s.core := by
  have hexec := exec_vatHomeOperation_of_first h hop
  rw [vatHome_push h hop hfine hpair rfl rfl, if_pos hfull] at hexec
  obtain ⟨hans, hmem, hcore, -⟩ := (vatWork_raised s r).answered h.own 0 1 0 (maxClock ((s.dropReq r.id).maxOf r.home) r.stamp)
  exact ⟨_, hexec, hans, hmem, hcore⟩

theorem vat_taken (h : VatFirst s r) (hop : r.op = .vat op pair x) (hpush : op ≠ .push) (hfine : VatFine s r.pa)
    (hpair : ¬ (pair = true ∧ vatField s r.pa 0 1 = 2)) (hone : 0 < vatField s r.pa 16 8) :
    ∃ t, exec .vatHomeOperation s = .next t ∧ PerformedAt s t r ∧ t.core = s.core ∧
      VatAnswers s t r (BitVec.ofNat 64 (vatField s r.pa
        (64 + 8 * if vatField s r.pa 0 1 = 2 then vatField s r.pa 24 8 else vatField s r.pa 16 8 - 1) 8)) 0 0 ∧
      vatField t r.pa 16 8 = vatField s r.pa 16 8 - 1 ∧
      (vatField s r.pa 0 1 = 2 → vatField t r.pa 24 8 = (vatField s r.pa 24 8 + 1) % vatField s r.pa 8 8) ∧
      ∀ b, b < r.pa + 16 ∨ r.pa + 32 ≤ b → Sparse.get t.mem b = Sparse.get s.mem b := by
  have hexec := exec_vatHomeOperation_of_first h hop
  rw [vatHome_take h hop hpush hfine hpair rfl rfl, if_neg (Nat.ne_of_gt hone)] at hexec
  obtain ⟨hwork, hval⟩ := (vatWork_raised s r).popped r.pa
  rw [hval] at hexec
  obtain ⟨hans, hmem, hcore, -, hreqs, hmax, -⟩ :=
    (hwork.counted (State.touched_same _ s.mem r [(r.pa + 16, 16)])).answered h.own _ 0 0 _
  exact ⟨_, hexec, performedAt_of hreqs hmax, hcore, hans, poppedMemory_fields hfine hmem⟩

theorem vat_parks (h : VatFirst s r) (hop : r.op = .vat .pop pair x) (hfine : VatFine s r.pa)
    (hpair : ¬ (pair = true ∧ vatField s r.pa 0 1 = 2)) (hnone : vatField s r.pa 16 8 = 0) :
    ∃ t, exec .vatHomeOperation s = .next t ∧ t.sys.parked = s.sys.parked ++ [r] ∧ t.sys.replies = s.sys.replies ∧
      t.mem = s.mem ∧ t.core = { s.core with vat := .parked r.id } := by
  have hexec := exec_vatHomeOperation_of_first h hop
  rw [vatHome_take h hop (by decide) hfine hpair rfl rfl, if_pos hnone, if_pos rfl] at hexec
  dsimp only at hexec
  rw [if_pos h.own] at hexec
  obtain ⟨a, l, d, hwork⟩ := vatWork_counted s r
  rw [hwork] at hexec
  exact ⟨_, hexec, rfl, rfl, rfl, rfl⟩

theorem vat_empty (h : VatFirst s r) (hop : r.op = .vat .popNb pair x) (hfine : VatFine s r.pa)
    (hpair : ¬ (pair = true ∧ vatField s r.pa 0 1 = 2)) (hnone : vatField s r.pa 16 8 = 0) :
    ∃ t, exec .vatHomeOperation s = .next t ∧ VatAnswers s t r 0 1 0 ∧ t.mem = s.mem ∧ t.core = s.core := by
  have hexec := exec_vatHomeOperation_of_first h hop
  rw [vatHome_take h hop (by decide) hfine hpair rfl rfl, if_pos hnone, if_neg (by decide)] at hexec
  obtain ⟨hans, hmem, hcore, -⟩ := (vatWork_raised s r).answered h.own 0 1 0 (maxClock ((s.dropReq r.id).maxOf r.home) r.stamp)
  exact ⟨_, hexec, hans, hmem, hcore⟩

end

end

end Sys2Proof.Machine
end

section
/-!
Vat operations at pairing points (R263-R266) and answered (R118, R267), and O48.
-/

namespace Sys2Proof.Machine

open Sys2Proof.Claims

section
variable {s : State} {r : Req} {p : Nat}

/-! ### The operation before a pairing point -/

theorem nextPoint_takeVat (s : State) (id : Nat) (q : Req) : (s.takeVat id).nextPoint q = s.nextPoint q := rfl

theorem mem_vatReqs_takeVat {q : Req} {id : Nat} (hq : q ∈ (s.takeVat id).vatReqs) : q ∈ s.vatReqs ∧ q.id ≠ id := by
  obtain ⟨hmem, hkind⟩ := List.mem_filter.1 hq
  have hkept : q ∈ s.sys.reqs ++ s.fab.out ∧ q.id ≠ id := by
    rcases List.mem_append.1 hmem with h | h
    · obtain ⟨hm, hid⟩ := List.mem_filter.1 h
      exact ⟨List.mem_append_left _ hm, by simpa using hid⟩
    · obtain ⟨hm, hid⟩ := List.mem_filter.1 h
      exact ⟨List.mem_append_right _ hm, by simpa using hid⟩
  exact ⟨List.mem_filter.2 ⟨hkept.1, hkind⟩, hkept.2⟩

theorem window_takeVat (s : State) (id p : Nat) : (s.takeVat id).window p = s.window p := rfl

theorem exec_arrival_passes (hr : s.vatReqs.find? (fun x => (s.nextPoint x).isSome) = some r) (hp : s.nextPoint r = some p)
    (hw : s.window p = 0) : exec .vatArrivalAtPairingPoint s = .next ((s.takeVat r.id).passOn r p) := by
  rw [exec_vatArrivalAtPairingPoint, execVatArrivalAtPairingPoint]
  simp only [hr, hp]
  rw [window_takeVat, if_pos hw]

theorem exec_arrival_pairs {h : Held} (hr : s.vatReqs.find? (fun x => (s.nextPoint x).isSome) = some r)
    (hp : s.nextPoint r = some p) (hw : s.window p ≠ 0) (hh : (s.takeVat r.id).partner r p = some h) :
    exec .vatArrivalAtPairingPoint s = .next (State.pair { s.takeVat r.id with
      sys := { (s.takeVat r.id).sys with held := s.sys.held.filter fun x => x.req.id != h.req.id } } r h.req) := by
  rw [exec_vatArrivalAtPairingPoint, execVatArrivalAtPairingPoint]
  simp only [hr, hp]
  rw [window_takeVat, if_neg hw, hh]
  rfl

theorem exec_arrival_unmatched (hr : s.vatReqs.find? (fun x => (s.nextPoint x).isSome) = some r)
    (hp : s.nextPoint r = some p) (hw : s.window p ≠ 0) (hh : (s.takeVat r.id).partner r p = none) :
    exec .vatArrivalAtPairingPoint s = .next ((s.takeVat r.id).unmatched r p) := by
  rw [exec_vatArrivalAtPairingPoint, execVatArrivalAtPairingPoint]
  simp only [hr, hp]
  rw [window_takeVat, if_neg hw, hh]

/-- An operation of this module goes on from a pairing point. -/
theorem passOn_local (hd : r.dev = none) (s : State) (p : Nat) : s.passOn r p =
    { s with sys := { s.sys with passed := (r.id, p) :: s.sys.passed, reqs := s.sys.reqs ++ [r] } } := by
  rw [State.passOn, hd]
  rfl

theorem vat_passes (hr : s.vatReqs.find? (fun x => (s.nextPoint x).isSome) = some r) (hp : s.nextPoint r = some p)
    (hw : s.window p = 0) (hd : r.dev = none) :
    ∃ t, exec .vatArrivalAtPairingPoint s = .next t ∧ PassesOn s t r p ∧ t.sys.fullPass = s.sys.fullPass := by
  have hexec := exec_arrival_passes hr hp hw
  rw [passOn_local hd] at hexec
  exact ⟨_, hexec, ⟨rfl, rfl, rfl, rfl, rfl⟩, rfl⟩

/-- Where no operation held at the point matches, there is no partner. -/
theorem partner_none {u : State} (h : ∀ x, x ∈ u.sys.held → x.point = p → x.req.matches r = false) :
    u.partner r p = none := by
  have hnone : (u.sys.held.filter fun x => x.point == p && x.req.matches r) = [] := by
    refine List.filter_eq_nil_iff.2 fun x hx hm => ?_
    rw [Bool.and_eq_true, beq_iff_eq] at hm
    rw [h x hx hm.1] at hm
    exact Bool.false_ne_true hm.2
  rw [State.partner]
  dsimp only
  rw [hnone]
  rfl

theorem vat_held (hr : s.vatReqs.find? (fun x => (s.nextPoint x).isSome) = some r) (hp : s.nextPoint r = some p)
    (hheld : s.sys.held = []) (hw : s.window p ≠ 0) :
    ∃ t h, exec .vatArrivalAtPairingPoint s = .next t ∧ t.sys.held = [h] ∧ h.point = p ∧ h.req = r ∧
      h.until' = s.clk + 2 * s.window p ∧ (∀ q, q ∈ t.sys.reqs → q.id ≠ r.id) ∧ t.core = s.core ∧ t.mem = s.mem := by
  have hempty : (s.takeVat r.id).sys.held = [] := hheld
  have hexec := exec_arrival_unmatched hr hp hw (partner_none (by rw [hempty]; simp))
  have hroom : ((s.takeVat r.id).sys.held.filter fun h => h.point == p).length < 64 := by
    rw [hempty]
    exact Nat.zero_lt_succ _
  rw [State.unmatched, if_pos hroom, State.holdAt, hempty] at hexec
  exact ⟨_, _, hexec, rfl, rfl, rfl, rfl, fun q hq => by simpa using (List.mem_filter.1 hq).2, rfl, rfl⟩

/-- An operation that finds the buffer full, and no match on its way, goes on. -/
theorem vat_passes_full (hr : s.vatReqs.find? (fun x => (s.nextPoint x).isSome) = some r) (hp : s.nextPoint r = some p)
    (hw : s.window p ≠ 0) (hd : r.dev = none) (ho : r.origin = .own)
    (hfull : 64 ≤ (s.sys.held.filter fun h => h.point == p).length)
    (hheld : ∀ h, h ∈ s.sys.held → h.point = p → h.req.matches r = false)
    (hway : ∀ q, q ∈ s.vatReqs → q.id ≠ r.id → s.nextPoint q = some p → q.matches r = false) :
    ∃ t, exec .vatArrivalAtPairingPoint s = .next t ∧ PassesOn s t r p ∧ t.sys.fullPass = s.sys.fullPass ++ [r.id] := by
  have hexec := exec_arrival_unmatched hr hp hw (partner_none hheld)
  have hnone : ((s.takeVat r.id).vatReqs.find? fun q => (s.takeVat r.id).nextPoint q == some p && q.matches r) = none := by
    refine List.find?_eq_none.2 fun q hq => ?_
    obtain ⟨hmem, hid⟩ := mem_vatReqs_takeVat hq
    rw [nextPoint_takeVat, Bool.and_eq_true, beq_iff_eq]
    rintro ⟨hpoint, hmatch⟩
    rw [hway q hmem hid hpoint] at hmatch
    exact Bool.false_ne_true hmatch
  have hroom : ¬ ((s.takeVat r.id).sys.held.filter fun h => h.point == p).length < 64 := Nat.not_lt.2 hfull
  rw [State.unmatched, if_neg hroom, hnone] at hexec
  dsimp only at hexec
  rw [State.passFull, if_pos ho, passOn_local hd] at hexec
  exact ⟨_, hexec, ⟨rfl, rfl, rfl, rfl, rfl⟩, rfl⟩

/-! ### Pairs -/

/-- The only operation held, where it matches, is the partner. -/
theorem partner_only {u : State} {h : Held} (hu : u.sys.held = [h]) (hpoint : h.point = p) (hm : h.req.matches r = true) :
    u.partner r p = some h := by
  have hfilter : (u.sys.held.filter fun x => x.point == p && x.req.matches r) = [h] := by simp [hu, hpoint, hm]
  rw [State.partner]
  dsimp only
  rw [hfilter]
  rfl

/-- The answer to another cell's or a hub's operation leaves its die's clock. -/
theorem vatAnswer_of_cell {u : State} {q : Req} (ho : q.origin ≠ .own) (hmod : ∀ d c, q.origin ≠ .module d c) (val : Word)
    (status how : Nat) (clock : List Nat) : ∃ (vc : Sparse 40) (ps : List (Nat × Nat)) (f : Fabric),
      u.vatAnswer q val status how clock = { u with sys := { u.sys with vc := vc, passed := ps }, fab := f } := by
  rw [State.vatAnswer, if_pos ho, State.answerOther]
  generalize hv : ({ u with sys := _, fab := _ } : State) = v
  obtain ⟨vc, hjoin⟩ := State.joinVc_same v q.die clock
  cases horigin : q.origin with
  | own => exact absurd horigin ho
  | module d c => exact absurd horigin (hmod d c)
  | _ =>
    dsimp only
    rw [hjoin, ← hv]
    exact ⟨_, _, _, rfl⟩

/-- A pop of the cell that pairs with another cell's push takes its value. -/
theorem pair_of_pop {u : State} {q : Req} (ho : r.origin = .own) (hpop : r.isPush = false) (hother : q.origin ≠ .own)
    (hmod : ∀ d c, q.origin ≠ .module d c) :
    ∃ (vc : Sparse 40) (x : Reply) (ps : List (Nat × Nat)) (f : Fabric) (a : Acct), u.pair r q =
        { u with acct := a, fab := f, sys := { u.sys with vc := vc, passed := ps, replies := u.sys.replies ++ [x] } } ∧
      x.id = r.id ∧ x.dest = .vat ∧ x.val = q.pushed ∧ x.lanes = [BitVec.ofNat 32 0, BitVec.ofNat 32 1] := by
  obtain ⟨vc, ps, f, hpush⟩ := vatAnswer_of_cell (u := u) hother hmod 0 0 1 []
  have hpopped : ∀ clock n, ∃ (x : Reply) (ps : List (Nat × Nat)) (f : Fabric) (a : Acct),
      ((u.vatAnswer q 0 0 1 []).vatAnswer r q.pushed 0 1 clock).count 26 n =
        { u with acct := a, fab := f, sys := { u.sys with vc := vc, passed := ps, replies := u.sys.replies ++ [x] } } ∧
      x.id = r.id ∧ x.dest = .vat ∧ x.val = q.pushed ∧ x.lanes = [BitVec.ofNat 32 0, BitVec.ofNat 32 1] := by
    intro clock n
    rw [hpush]
    obtain ⟨x, ps', f', hanswer, hfields⟩ :=
      vatAnswer_of_own (u := { u with sys := { u.sys with vc := vc, passed := ps }, fab := f }) ho q.pushed 0 1 clock
    rw [hanswer]
    exact ⟨x, ps', f', _, rfl, hfields⟩
  rw [State.pair, hpop]
  exact ⟨vc, hpopped _ _⟩

theorem vat_pairs {h : Held} (hr : s.vatReqs.find? (fun x => (s.nextPoint x).isSome) = some r) (hp : s.nextPoint r = some p)
    (hheld : s.sys.held = [h]) (hpoint : h.point = p) (hw : s.window p ≠ 0) (hm : h.req.matches r = true)
    (ho : r.origin = .own) (hpop : r.isPush = false) (hother : h.req.origin ≠ .own)
    (hmod : ∀ d c, h.req.origin ≠ .module d c) :
    ∃ t, exec .vatArrivalAtPairingPoint s = .next t ∧ t.sys.held = [] ∧ VatAnswers s t r h.req.pushed 0 1 ∧
      (∀ q, q ∈ t.sys.reqs → q.id ≠ r.id) ∧ t.mem = s.mem ∧ t.core = s.core := by
  have hexec := exec_arrival_pairs hr hp hw (partner_only hheld hpoint hm)
  obtain ⟨vc, x, ps, f, a, hpair, hid, hdest, hval, hlanes⟩ := pair_of_pop (u := { s.takeVat r.id with
    sys := { (s.takeVat r.id).sys with held := s.sys.held.filter fun x => x.req.id != h.req.id } }) ho hpop hother hmod
  rw [hpair] at hexec
  refine ⟨_, hexec, ?_, ⟨x, rfl, hid, hdest, hval, hlanes⟩, fun q hq => ?_, rfl, rfl⟩
  · simp [hheld]
  · simpa using (List.mem_filter.1 hq).2

/-! ### The end of a window -/

theorem vat_window_expires {h : Held} {hs : List Held} (hheld : s.sys.held = h :: hs) (hover : h.until' ≤ s.clk)
    (hd : h.req.dev = none) :
    ∃ t, exec .pairingWindowExpiry s = .next t ∧ t.sys.held = hs.filter (fun x => x.req.id != h.req.id) ∧
      t.sys.reqs = s.sys.reqs ++ [h.req] ∧ t.sys.passed = (h.req.id, h.point) :: s.sys.passed ∧ t.core = s.core ∧
      t.mem = s.mem := by
  have hfirst : s.sys.held.find? (fun h => decide (h.until' ≤ s.clk)) = some h := by
    simp [hheld, hover]
  have hrest : s.sys.held.filter (fun x => x.req.id != h.req.id) = hs.filter fun x => x.req.id != h.req.id := by
    rw [hheld, List.filter_cons_of_neg (by simp)]
  have hexec := exec_pairingWindowExpiry s
  rw [execPairingWindowExpiry, hfirst] at hexec
  dsimp only at hexec
  rw [passOn_local hd] at hexec
  exact ⟨_, hexec, hrest, rfl, rfl, rfl, rfl⟩

/-! ### Answers -/

theorem readCsr_raise (u : State) (c k n : Nat) : (u.raise c k).readCsr n =
    u.readCsr n + if n = c then BitVec.ofNat 64 k else 0 := by
  rw [State.raise, State.readCsr, State.setCsr, Sparse.get_set]
  split
  · next h => rw [h]
  · exact (BitVec.add_zero _).symm

/-- The counters of an answer: of the full buffers passed, and of the two ways to be answered without a trap (R267). -/
def State.countAnswer (u : State) (how full : Nat) : State :=
  if 2 ≤ how then u.raise 0x162 full else (u.raise 0x162 full).raise (if how = 1 then 0x160 else 0x161) 1

theorem State.countAnswer_same (u : State) (how full : Nat) : ∃ c, u.countAnswer how full = { u with csr := c } := by
  unfold State.countAnswer
  split
  · exact ⟨_, rfl⟩
  · exact ⟨_, rfl⟩

theorem readCsr_countAnswer (u : State) (how full n : Nat) : (u.countAnswer how full).readCsr n = u.readCsr n +
    if n = 0x162 then BitVec.ofNat 64 full
    else if n = 0x160 then (if how = 1 then 1 else 0) else if n = 0x161 then (if how = 0 then 1 else 0) else 0 := by
  unfold State.countAnswer
  by_cases htrap : 2 ≤ how
  · rw [if_pos htrap, readCsr_raise, if_neg (show how ≠ 1 by omega), if_neg (show how ≠ 0 by omega)]
    simp only [ite_self]
  · rw [if_neg htrap, readCsr_raise, readCsr_raise, BitVec.add_assoc]
    obtain rfl | rfl : how = 0 ∨ how = 1 := by omega
    · by_cases h162 : n = 0x162
      · simp [h162]
      · by_cases h161 : n = 0x161 <;> simp [h161, h162]
    · by_cases h162 : n = 0x162
      · simp [h162]
      · by_cases h160 : n = 0x160 <;> simp [h160, h162]

/-- What the unit that waits at the head learns of its operation (R118). -/
def vatOutcome (a : Reply) : VatWait :=
  if (laneOf a.lanes 1).toNat = 2 then .bad Code.vat else if (laneOf a.lanes 1).toNat = 3 then .bad Code.machine
  else .done { val := a.val, status := (laneOf a.lanes 0).zeroExtend 64 }

theorem exec_vatReply_of_first {a : Reply} {rs : List Reply} (h : s.sys.replies = a :: rs) (hd : a.dest = .vat) :
    ∃ t c, exec .vatReply s = .next t ∧
      c = (s.taken a rs).countAnswer (laneOf a.lanes 1).toNat (s.sys.fullPass.filter (· == a.id)).length ∧
      t = { c with
        core := { c.core with vat := vatOutcome a }
        sys := { c.sys with fullPass := c.sys.fullPass.filter (· != a.id) } } := by
  have hvat : a.isVat = true := by rw [Reply.isVat, hd]
  have hfind : s.sys.replies.find? Reply.isVat = some a := by rw [h, List.find?_cons_of_pos hvat]
  have htake : takeReply Reply.isVat s.sys.replies = rs := by rw [h, takeReply, if_pos hvat]
  have hexec := exec_vatReply s
  rw [execVatReply, hfind] at hexec
  dsimp only at hexec
  rw [htake] at hexec
  exact ⟨_, _, hexec, rfl, rfl⟩

theorem vat_answered {a : Reply} {rs : List Reply} {h : Nat} (hr : s.sys.replies = a :: rs) (hd : a.dest = .vat)
    (hh : h = (a.lanes[1]?.getD 0).toNat) :
    ∃ t v, exec .vatReply s = .next t ∧ t.sys.replies = rs ∧ Joins s t a.clock ∧
      t.readCsr 0x160 = s.readCsr 0x160 + (if h = 1 then 1 else 0) ∧
      t.readCsr 0x161 = s.readCsr 0x161 + (if h = 0 then 1 else 0) ∧
      t.readCsr 0x162 = s.readCsr 0x162 + BitVec.ofNat 64 (s.sys.fullPass.count a.id) ∧
      (∀ n, n ≠ 0x160 → n ≠ 0x161 → n ≠ 0x162 → t.readCsr n = s.readCsr n) ∧ t.core = { s.core with vat := v } ∧
      (h = 2 → v = .bad 0x15) ∧ (h = 3 → v = .bad 0x13) ∧
      (h < 2 → v = .done { val := a.val, status := (a.lanes[0]?.getD 0).setWidth 64 }) ∧ t.mem = s.mem := by
  obtain ⟨t, c, hexec, hc, ht⟩ := exec_vatReply_of_first hr hd
  obtain ⟨vc, htaken⟩ := s.taken_same a rs
  have hjoins := s.taken_joins a rs
  have hcsr : ∀ n, t.readCsr n = ((s.taken a rs).countAnswer h (s.sys.fullPass.filter (· == a.id)).length).readCsr n := by
    intro n
    rw [ht, hc, hh]
    rfl
  obtain ⟨csr, hsame⟩ := (s.taken a rs).countAnswer_same (laneOf a.lanes 1).toNat (s.sys.fullPass.filter (· == a.id)).length
  rw [hsame] at hc
  have hold : ∀ n, (s.taken a rs).readCsr n = s.readCsr n := by
    intro n
    rw [htaken]
    rfl
  simp only [readCsr_countAnswer, hold] at hcsr
  refine ⟨t, vatOutcome a, hexec, ?_, joins_of_vc hjoins (by rw [ht, hc]), hcsr 0x160, hcsr 0x161, ?_, fun n h0 h1 h2 => ?_, ?_,
    fun h2 => ?_, fun h3 => ?_, fun hlt => ?_, ?_⟩
  · rw [ht, hc, htaken]
  · rw [hcsr, if_pos rfl, List.count_eq_length_filter]
  · rw [hcsr, if_neg h2, if_neg h0, if_neg h1]
    exact BitVec.add_zero _
  · rw [ht, hc, htaken]
  · exact if_pos (hh.symm.trans h2)
  · rw [vatOutcome, show (laneOf a.lanes 1).toNat = 3 from hh.symm.trans h3]
    rfl
  · have hway : (laneOf a.lanes 1).toNat < 2 := hh.symm.trans_lt hlt
    rw [vatOutcome, if_neg (by omega), if_neg (by omega)]
    rfl
  · rw [ht, hc, htaken]

end

end Sys2Proof.Machine

namespace Sys2Proof.Proofs

open Sys2Proof.Machine Sys2Proof.Claims

/-- Settles O48: the operation that is first at its home, before a pairing point, at the end of its window, or answered. -/
theorem vatEvents : Obligations.VatEvents := by
  intro s
  refine ⟨?_, fun r p hr hp => ⟨fun h hheld hpoint hw => vat_pairs hr hp hheld hpoint hw, vat_held hr hp, vat_passes hr hp,
    vat_passes_full hr hp⟩, fun h hs => vat_window_expires, fun a rs h => vat_answered⟩
  intro r op pair v c n k hfirst hop hc hn hk
  rw [hc, hn, hk]
  refine ⟨vat_refused hfirst hop, fun hfine hpair => ⟨?_, ?_, fun hpush => vat_taken hfirst hop hpush hfine hpair, ?_, ?_⟩⟩
  · intro hpush hroom i hi
    subst hpush
    exact vat_pushed hfirst hop hfine hpair hroom (by rw [hi]; rfl)
  · rintro rfl
    exact vat_full hfirst hop hfine hpair
  · rintro rfl
    exact vat_parks hfirst hop hfine hpair
  · rintro rfl
    exact vat_empty hfirst hop hfine hpair

end Sys2Proof.Proofs
end

section
/-!
The integer and bitwise lanes (R140, R141, R145): what each lane function of the model is in the words of the table, and O39.
-/

namespace Sys2Proof.Machine

open Sys2Proof.Claims

/-! ### Arithmetic lanes (R140) -/

theorem laneMul_eq (u v : Lane) : u * v = BitVec.ofNat 32 (u.toNat * v.toNat) := by
  rw [BitVec.ofNat_mul, BitVec.ofNat_toNat, BitVec.ofNat_toNat, BitVec.setWidth_eq, BitVec.setWidth_eq]

theorem laneMin_eq (u v : Lane) : (if u.slt v then u else v) = BitVec.ofInt 32 (min u.toInt v.toInt) := by
  rw [min_def_lt, apply_ite (BitVec.ofInt 32)]
  simp [BitVec.slt_eq_decide]

theorem laneMax_eq (u v : Lane) : (if u.slt v then v else u) = BitVec.ofInt 32 (max u.toInt v.toInt) := by
  rw [max_def_lt, apply_ite (BitVec.ofInt 32)]
  simp [BitVec.slt_eq_decide]

theorem laneMinu_eq (u v : Lane) : (if u.ult v then u else v) = BitVec.ofNat 32 (min u.toNat v.toNat) := by
  rw [min_def_lt, apply_ite (BitVec.ofNat 32)]
  simp [BitVec.ult_eq_decide]

theorem laneMaxu_eq (u v : Lane) : (if u.ult v then v else u) = BitVec.ofNat 32 (max u.toNat v.toNat) := by
  rw [max_def_lt, apply_ite (BitVec.ofNat 32)]
  simp [BitVec.ult_eq_decide]

/-- The absolute value of the lowest lane is itself (R140). -/
theorem laneAbs_eq (u : Lane) : (if u.msb then 0 - u else u) = BitVec.ofNat 32 u.toInt.natAbs := by
  have hlt := u.isLt
  rw [BitVec.toInt_eq_msb_cond]
  cases u.msb
  · simp
  · apply BitVec.eq_of_toNat_eq
    simp only [↓reduceIte, BitVec.toNat_sub, BitVec.toNat_ofNat, BitVec.ofNat_eq_ofNat]
    omega

theorem clampS32_eq_clamped (i : Int) : clampS32 i = clamped i := by
  unfold clampS32 clamped
  split
  · rw [max_eq_left (by omega)]
    rfl
  · split
    · rw [min_eq_left (by omega)]
      rfl
    · rw [min_eq_right (by omega), max_eq_right (by omega)]

/-! ### Bit counts of a lane (R141) -/

theorem popCount_lane (u : Lane) : popCount u = (List.range 32).countP u.getLsbD := by
  rw [popCount, onesBelow, Nat.min_self, List.countP_eq_length_filter]

/-- The positions of a lane from the top. -/
theorem reverse_range_32 : (List.range 32).reverse = (List.range 32).map fun i => 31 - i := by decide

theorem leadingZeros_lane (u : Lane) :
    leadingZeros u = (((List.range 32).reverse.find? u.getLsbD).map fun p => 31 - p).getD 32 := by
  have hmsb : (List.range 32).find? u.getMsbD = (List.range 32).find? (u.getLsbD ∘ fun i => 31 - i) :=
    List.find?_congr fun i hi => by
      rw [Function.comp_apply, BitVec.getMsbD_eq_getLsbD, decide_eq_true (List.mem_range.1 hi), Bool.true_and]
  rw [leadingZeros, length_takeWhile_not_range, reverse_range_32, List.find?_map, hmsb]
  cases h : (List.range 32).find? (u.getLsbD ∘ fun i => 31 - i) with
  | none => rfl
  | some i =>
    have hi := List.mem_range.1 (List.mem_of_find?_eq_some h)
    simp only [Option.map_some, Option.getD_some]
    omega

end Sys2Proof.Machine

namespace Sys2Proof.Proofs

open Sys2Proof.Machine Sys2Proof.Claims

/-- Settles O39: every row's unit is one of the shared lane forms, and its lane function is the row's. -/
theorem integerLanes : Obligations.IntegerLanes := by
  intro i s r hr hw h
  unfold Claims.integerLanes at hr
  split at hr
  · exact execLanes2_latches (exec_viadd s) hr hw h fun u v => rfl
  · exact execLanes2_latches (exec_visub s) hr hw h fun u v => rfl
  · exact execLanes2_latches (exec_vimul s) hr hw h laneMul_eq
  · exact execLanes2_latches (exec_vimulh s) hr hw h fun u v => rfl
  · exact execLanes2_latches (exec_vimin s) hr hw h laneMin_eq
  · exact execLanes2_latches (exec_vimax s) hr hw h laneMax_eq
  · exact execLanes2_latches (exec_viminu s) hr hw h laneMinu_eq
  · exact execLanes2_latches (exec_vimaxu s) hr hw h laneMaxu_eq
  · exact execLanes1_latches (exec_viabs s) hr hw h laneAbs_eq
  · exact execLanes2_latches (exec_viadds s) hr hw h fun u v => clampS32_eq_clamped _
  · exact execLanes2_latches (exec_visubs s) hr hw h fun u v => clampS32_eq_clamped _
  · exact execLanes2_latches (exec_vand s) hr hw h fun u v => rfl
  · exact execLanes2_latches (exec_vor s) hr hw h fun u v => rfl
  · exact execLanes2_latches (exec_vxor s) hr hw h fun u v => rfl
  · exact execLanes2_latches (exec_vandn s) hr hw h fun u v => rfl
  · exact execLanes2_latches (exec_vshl s) hr hw h fun u v => rfl
  · exact execLanes2_latches (exec_vshr s) hr hw h fun u v => rfl
  · exact execLanes2_latches (exec_vsar s) hr hw h fun u v => rfl
  · exact execLanes1_latches (exec_vnot s) hr hw h fun u => rfl
  · exact execLanes1_latches (exec_vpopc s) hr hw h fun u => by rw [popCount_lane]
  · exact execLanes1_latches (exec_vclz s) hr hw h fun u => by rw [leadingZeros_lane]
  · exact execLanes2_latches (exec_viceq s) hr hw h fun u v => maskLane_eq _
  · exact execLanes2_latches (exec_viclt s) hr hw h fun u v => by rw [maskLane_eq, BitVec.slt_eq_decide]
  · exact execLanes2_latches (exec_vicltu s) hr hw h fun u v => by rw [maskLane_eq, BitVec.ult_eq_decide]
  · exact execLanes1_latches (exec_vmov s) hr hw h fun u => rfl
  · exact execLanes3_latches (exec_vsel s) hr hw h fun u v w => rfl
  · cases hr

end Sys2Proof.Proofs
end

section
/-!
Reductions and lane moves (R131, R147-R150): the tree of R148, the lanes that moves read, and O41.
-/

namespace Sys2Proof.Machine

open Sys2Proof.Claims

/-! ### Units of a row whose operands are ready -/

/-- The checks of a row whose operands are ready, with any tests of its sources before them (R131, R132). -/
theorem rowChecks_pass {s : State} {r : VRow} {pre : List Verdict} {srcs : List Source} (h : VectorReady s r)
    (hs : ∀ p ∈ srcs, NamesSource s r p) (hpre : ∀ v ∈ pre, ∃ p ∈ srcs, v = emptyReadTrap s p ∨ v = awaitFull s p.1) :
    firstOf (pre ++ vectorChecks s srcs (s.vLocs r.dst r.written)) = .pass := by
  obtain ⟨-, hg, hv, ht, hb⟩ := h
  have hready := fun p hp => namesSource_ready (hs p hp) hg hv
  have hfull : ∀ a ∈ s.vLocs r.dst r.written, s.emptyLoc a = false := fun a ha => (State.vLocs_ready ht a ha).1
  refine firstOf_append.2 ⟨(firstOf_append.1 (vectorTests_pass hready hfull hpre)).1, vectorChecks_pass hready ?_ ht.1⟩
  exact fun a ha => ⟨hfull a ha, (State.vLocs_ready ht a ha).2, State.vLocs_free hb a ha⟩

/-- A row's unit, which may test its sources before the checks of R132, latches the lanes it computes (R130, R133). -/
theorem testedUnit_latches {i : Instr} {s : State} {r : VRow} {l : BitVec 2} {pre : List Verdict} {srcs : List Source}
    {f : Nat → Lane}
    (he : exec i s = settleV i l s (pre ++ vectorChecks s srcs (s.vLocs r.dst r.written))
      (s.vresult r.lat (s.vOff r.dst) r.written ((List.range 64).map f)))
    (hw : i.wellFormed = true) (h : VectorReady s r) (hl : l.toNat = r.delay) (hs : ∀ p ∈ srcs, NamesSource s r p)
    (hpre : ∀ v ∈ pre, ∃ p ∈ srcs, v = emptyReadTrap s p ∨ v = awaitFull s p.1) (hf : ∀ n, n < 64 → f n = r.val n) :
    Latches i s r := settleV_latches he hw (hl ▸ h.delayed) (rowChecks_pass h hs hpre) hf

/-- The same where nothing comes before the checks of R132. -/
theorem rowUnit_latches {i : Instr} {s : State} {r : VRow} {l : BitVec 2} {srcs : List Source} {f : Nat → Lane}
    (he : exec i s = settleV i l s (vectorChecks s srcs (s.vLocs r.dst r.written))
      (s.vresult r.lat (s.vOff r.dst) r.written ((List.range 64).map f)))
    (hw : i.wellFormed = true) (h : VectorReady s r) (hl : l.toNat = r.delay) (hs : ∀ p ∈ srcs, NamesSource s r p)
    (hf : ∀ n, n < 64 → f n = r.val n) : Latches i s r :=
  testedUnit_latches (pre := []) he hw h hl hs (by simp) hf

/-! ### The tree of R148 -/

/-- A level combines neighbours. -/
theorem pairUp_range_map (f : Lane → Lane → Lane) (x : Nat → Lane) (n : Nat) :
    pairUp f ((List.range (2 * n)).map x) = (List.range n).map fun i => f (x (2 * i)) (x (2 * i + 1)) := by
  induction n generalizing x with
  | zero => rfl
  | succ n ih =>
    have h := ih fun j => x (j + 2)
    rw [Nat.mul_succ, List.range_succ_eq_map, List.range_succ_eq_map, List.range_succ_eq_map]
    simpa [pairUp, Function.comp_def, Nat.mul_add] using h

/-- A level leads from the elements after n levels to those after n + 1. -/
theorem pairUp_treeAt (f : Lane → Lane → Lane) (x : Nat → Lane) (level n : Nat) :
    pairUp f ((List.range (2 * n)).map (treeAt f x level)) = (List.range n).map (treeAt f x (level + 1)) :=
  pairUp_range_map f (treeAt f x level) n

theorem treeReduce_eq_treeAt (f : Lane → Lane → Lane) (x : Nat → Lane) :
    treeReduce f ((List.range 64).map x) = treeAt f x 6 0 := by
  have h0 := pairUp_treeAt f x 0 32
  have h1 := pairUp_treeAt f x 1 16
  have h2 := pairUp_treeAt f x 2 8
  have h3 := pairUp_treeAt f x 3 4
  have h4 := pairUp_treeAt f x 4 2
  have h5 := pairUp_treeAt f x 5 1
  rw [show treeAt f x 0 = x from rfl] at h0
  rw [treeReduce, h0, h1, h2, h3, h4, h5]
  rfl

/-! ### The shared forms -/

section
variable {i : Instr} {s : State} {r : VRow} {d a b : BitVec 6} {x y : Bool} {l : BitVec 2}

/-- A reduction (R147, R148): `f` is what the unit combines lanes with, `g` what its row says. -/
theorem execReduce_latches {lat : Nat} {f g : Lane → Lane → Lane} {e : Lane}
    (he : exec i s = execReduce i lat f e d a x l s) (hr : reduction s lat d a l g e = some r) (hw : i.wellFormed = true)
    (h : VectorReady s r) (hfg : ∀ u v, f u v = g u v) : Latches i s r := by
  obtain rfl : f = g := funext fun u => funext fun v => hfg u v
  have hlanes : ((List.range 64).map fun n => if s.k.getLsbD n then laneOf (s.v a.toNat) n else e) =
      (List.range 64).map fun n => if s.k.getLsbD n then lane s a.toNat n else e :=
    List.map_congr_left fun n hn => by rw [s.laneOf_v _ (List.mem_range.1 hn)]
  cases hr
  refine rowUnit_latches he hw h rfl (by simpa using namesSource_vector x (by simp)) fun n _ => ?_
  rw [hlanes, treeReduce_eq_treeAt]

/-- A move by literal distances (R149): every lane read is one of the 64. -/
theorem execMove_latches {src : Nat → Option Nat} (he : exec i s = execMove i src d a x l s)
    (hr : moveRow s d a l s.k [] src = some r) (hw : i.wellFormed = true) (h : VectorReady s r)
    (hlt : ∀ n, n < 64 → ∀ j, src n = some j → j < 64) : Latches i s r := by
  cases hr
  refine rowUnit_latches he hw h rfl ?_ fun n hn => ?_
  · simpa [readLanes_eq_readFor fun _ _ => rfl] using namesSource_vector x (by simp)
  · cases hj : src n with
    | none => simp [hj]
    | some j => simp [hj, s.laneOf_v _ (hlt n hn j hj)]

/-- A move whose lanes another vector names (R131, R149): `f` is how the unit reads that vector, `src` what its row says. -/
theorem execMoveBy_latches {f : List Lane → Nat → Option Nat} {src : Nat → Option Nat} {written : Word}
    (he : exec i s = execMoveBy i f written d a b x y l s) (hr : moveRow s d a l written [(b.toNat, s.k)] src = some r)
    (hw : i.wellFormed = true) (h : VectorReady s r) (hsrc : ∀ n, n < 64 → f (s.v b.toNat) n = src n)
    (hlt : ∀ n, n < 64 → ∀ j, src n = some j → j < 64) : Latches i s r := by
  cases hr
  refine testedUnit_latches he hw h rfl ?_ (by simp) fun n hn => ?_
  · simpa [readLanes_eq_readFor hsrc] using ⟨namesSource_vector y (by simp), namesSource_vector x (by simp)⟩
  · rw [hsrc n hn]
    cases hj : src n with
    | none => simp [hj]
    | some j => simp [hj, s.laneOf_v _ (hlt n hn j hj)]

/-- A merge (R149): `p` and `q` are the lanes its row reads of va and of vb. -/
theorem execMerge_latches {f : Nat → Bool × Nat} {p q : Nat → Option Nat} {val : Nat → Lane}
    (he : exec i s = execMerge i f d a b x y l s)
    (hr : r = { delay := l.toNat, lat := 2, dst := d.toNat, written := s.k, gsrcs := []
                srcs := [(a.toNat, readFor s.k p), (b.toNat, readFor s.k q)], val := val })
    (hw : i.wellFormed = true) (h : VectorReady s r)
    (hp : ∀ n, n < 64 → (if (f n).1 = true then some (f n).2 else none) = p n)
    (hq : ∀ n, n < 64 → (if (f n).1 = false then some (f n).2 else none) = q n) (hlt : ∀ n, n < 64 → (f n).2 < 64)
    (hval : ∀ n, (if (f n).1 then lane s a.toNat (f n).2 else lane s b.toNat (f n).2) = val n) : Latches i s r := by
  subst hr
  refine rowUnit_latches he hw h rfl ?_ fun n hn => ?_
  · simpa [readLanes_eq_readFor hp, readLanes_eq_readFor hq] using
      ⟨namesSource_vector x (by simp), namesSource_vector y (by simp)⟩
  · change _ = val n
    rw [← hval n, ← s.laneOf_v _ (hlt n hn), ← s.laneOf_v _ (hlt n hn)]
    split <;> rfl

end

/-! ### Lanes counted and selected (R149, R150) -/

/-- The number of enabled lanes below n. -/
theorem onesBelow_eq_countP (k : Word) {n : Nat} (hn : n < 64) : onesBelow k n = (enabled k).countP (· < n) := by
  have hcut : (List.range 64).filter (fun j => decide (j < n)) = List.range n := by
    rw [← List.Ico.zero_bot, List.Ico.filter_lt, Nat.min_eq_right hn.le, List.Ico.zero_bot]
  rw [onesBelow, Nat.min_eq_left hn.le, enabled, List.countP_filter, List.countP_eq_length_filter, ← hcut,
    List.filter_filter]
  simp only [Bool.and_comm]

theorem lt_of_mem_sel {s : State} {b : BitVec 6} {j : Nat} (h : j ∈ sel s b) : j < 64 := by
  rw [sel, enabled, List.filter_filter, List.mem_filter] at h
  exact List.mem_range.1 h.1

/-- Fewer lanes than n lie below n among those selected. -/
theorem countP_sel_le (s : State) (b : BitVec 6) {n : Nat} (hn : n < 64) : (sel s b).countP (· < n) ≤ n := by
  rw [← length_filter_selected s b hn]
  simpa using List.length_filter_le (selected s.k (s.v b.toNat)) (List.range n)

/-! ### The tables -/

theorem reductions_compute : VectorComputes reductions := by
  intro i s r hr hw h
  unfold reductions at hr
  split at hr
  · exact execReduce_latches (exec_vfrsum s) hr hw h fun u v => rfl
  · exact execReduce_latches (exec_vfrmax s) hr hw h fun u v => rfl
  · exact execReduce_latches (exec_vfrmin s) hr hw h fun u v => rfl
  · exact execReduce_latches (exec_virsum s) hr hw h fun u v => rfl
  · exact execReduce_latches (exec_virmax s) hr hw h laneMax_eq
  · exact execReduce_latches (exec_virmin s) hr hw h laneMin_eq
  · exact execReduce_latches (exec_vrand s) hr hw h fun u v => rfl
  · exact execReduce_latches (exec_vror s) hr hw h fun u v => rfl
  · cases hr

theorem laneMoves_compute : VectorComputes laneMoves := by
  intro i s r hr hw h
  unfold laneMoves at hr
  split at hr
  · exact execMoveBy_latches (exec_vperm s) hr hw h (fun n hn => by rw [s.laneOf_v _ hn]) fun n _ j hj =>
      Option.some.inj hj ▸ Nat.mod_lt _ (by decide)
  · next m _ _ => exact execMove_latches (exec_vbcast s) hr hw h fun n _ j hj => Option.some.inj hj ▸ m.isLt
  · exact execMove_latches (exec_vrot s) hr hw h fun n _ j hj => Option.some.inj hj ▸ Nat.mod_lt _ (by decide)
  · refine execMove_latches (exec_vslup s) hr hw h fun n hn j hj => ?_
    rw [Option.ite_none_right_eq_some, Option.some.injEq] at hj
    omega
  · refine execMove_latches (exec_vsldn s) hr hw h fun n hn j hj => ?_
    rw [Option.ite_none_right_eq_some, Option.some.injEq] at hj
    omega
  · cases hr
    refine execMerge_latches (exec_vzip s) rfl hw h (fun n _ => by simp) (fun n _ => by simp) (fun n _ => ?_) fun n => ?_
    · exact show n / 2 < 64 by omega
    · simp
  · cases hr
    refine execMerge_latches (exec_vunzip s) rfl hw h (fun n _ => by split <;> simp) (fun n _ => by split <;> simp)
      (fun n _ => ?_) fun n => ?_
    · split
      · exact show 2 * n < 64 by omega
      · exact show 2 * (n - 32) < 64 by omega
    · split <;> rfl
  · refine execMoveBy_latches (exec_vcompress s) hr hw h (fun n _ => by rw [filter_selected_eq_sel]) fun n _ j hj => ?_
    exact lt_of_mem_sel (List.mem_of_getElem? hj)
  · next d a b x y l =>
    have he := exec_vexpand (d := d) (a := a) (b := b) (x := x) (y := y) (l := l) s
    rw [execVexpand, laneMask_selected_eq] at he
    exact execMoveBy_latches he hr hw h (fun n hn => by rw [length_filter_selected s b hn]) fun n hn j hj =>
      Option.some.inj hj ▸ (countP_sel_le s b hn).trans_lt hn
  · cases hr
    exact rowUnit_latches (exec_vsplat s) hw h rfl (by simpa using namesSource_scalar _ (by simp))
      fun _ _ => Word.half_zero _
  · cases hr
    next d g m x l =>
    have he := exec_vins (d := d) (g := g) (n := m) (x := x) (l := l) s
    have hsame : List.replicate 64 (Word.half (s.g g.toNat) 0) = (List.range 64).map fun _ => Word.half (s.g g.toNat) 0 := by
      simp
    rw [execVins, laneMask_eq_maskOf, hsame] at he
    exact rowUnit_latches he hw h rfl (by simpa using namesSource_scalar _ (by simp))
      fun _ _ => Word.half_zero _
  · cases hr
    exact rowUnit_latches (exec_viota s) hw h rfl (by simp)
      fun n hn => by rw [onesBelow_eq_countP s.k hn]
  · cases hr

end Sys2Proof.Machine

namespace Sys2Proof.Proofs

open Sys2Proof.Machine Sys2Proof.Claims

/-- Settles O41: each level of the model's tree is a level of R148, and a move reads the lanes its row names. -/
theorem laneMoves : Obligations.LaneMoves := ⟨reductions_compute, laneMoves_compute⟩

end Sys2Proof.Proofs
end
